-- ==== Sys2Proof/Word.lean ====
section
/-! DEFINITION. The byte, and the saturating and clamping arithmetic the manual uses for counters and settings
(spec/00_scope.md, Conventions: 'A counter described as saturating stops at its largest value'). -/

namespace Sys2Proof

/-- One byte of a frame, record or image. -/
abbrev Byte := BitVec 8

/-- A saturating count: `n` more, stopping at `top`. -/
def satAdd (top n k : Nat) : Nat := min top (n + k)

/-- An integer saturated to `lo .. hi`. -/
def clampInt (lo hi x : Int) : Int := max lo (min hi x)

/-- A natural number limited to the nearest end of `lo .. hi`. -/
def clampNat (lo hi x : Nat) : Nat := max lo (min hi x)

end Sys2Proof
end

