-- ==== Sys2Proof/Syntax.lean ====
section
/-! DEFINITION. The commands of the engine: one constructor of `Instr` for each row of spec/opcode_table.json, with the
operands the row's rule gives it. -/

namespace Sys2Proof

/-- The four Ethernet ports (spec/00_scope.md, Where the engine sits). -/
inductive Port where
  | u0 | u1 | d0 | d1
  deriving DecidableEq, Repr

/-- The two lanes: A pairs U0 with D0, B pairs U1 with D1. -/
inductive Lane where
  | a | b
  deriving DecidableEq, Repr

/-- Whether a port faces the fabric. -/
def Port.isUplink : Port → Bool
  | .u0 | .u1 => true
  | .d0 | .d1 => false

/-- The lane of a port. -/
def Port.lane : Port → Lane
  | .u0 | .d0 => .a
  | .u1 | .d1 => .b

/-- The other port of a port's lane, where its forwarded frames leave (R99). -/
def Port.partner : Port → Port
  | .u0 => .d0
  | .d0 => .u0
  | .u1 => .d1
  | .d1 => .u1

/-- The uplink of a lane. -/
def Lane.uplink : Lane → Port
  | .a => .u0
  | .b => .u1

/-- The downlink of a lane. -/
def Lane.downlink : Lane → Port
  | .a => .d0
  | .b => .d1

/-- The argument of WRITE_PORT (R204); fill bytes are ignored and not carried. -/
structure PortArg where
  port : Byte
  privilege : Byte
  link : Byte
  echoEnable : Byte
  exponent : Byte
  timeout : BitVec 16
  asym : BitVec 32
  gateway : BitVec 48
  deriving DecidableEq, Repr

/-- The argument of WRITE_LANE (R204). -/
structure LaneArg where
  lane : Byte
  mode : Byte
  exponent : Byte
  thinning : Byte
  deriving DecidableEq, Repr

/-- The argument of WRITE_OVERRIDE (R204). -/
structure OverrideArg where
  index : Byte
  port : Byte
  sender : BitVec 64
  asym : BitVec 32
  valid : Byte
  deriving DecidableEq, Repr

/-- The argument of WRITE_PEER (R204). -/
structure PeerArg where
  index : Byte
  enabled : Byte
  rack : BitVec 32
  ip : BitVec 32
  preferred : Byte
  deriving DecidableEq, Repr

/-- The argument of WRITE_SERVO (R204). -/
structure ServoArg where
  stepThreshold : BitVec 32
  lockWindow : BitVec 32
  lockCount : Byte
  unlockCount : Byte
  sp : Byte
  si : Byte
  catchRate : BitVec 16
  plausibility : BitVec 16
  holdoverLimit : BitVec 32
  secWidth : BitVec 16
  secLimit : Byte
  deriving DecidableEq, Repr

/-- The argument of WRITE_DRIFT (R204). -/
structure DriftArg where
  barTime : BitVec 32
  exponent : Byte
  roundTrip : BitVec 32
  offsetThreshold : BitVec 32
  driftThreshold : BitVec 32
  quorum : Byte
  barOn : Byte
  alertHoldoff : BitVec 16
  logThreshold : BitVec 16
  deriving DecidableEq, Repr

/-- The 32-byte match entry that WRITE_MATCH carries after its index (section 12.3). -/
structure MatchArg where
  valid : Byte
  action : Byte
  ethertype : BitVec 16
  vlanKind : Byte
  vlanId : BitVec 16
  ports : Byte
  patPresent : Byte
  patOffset : Byte
  patValue : BitVec 32
  patMask : BitVec 32
  stampOffset : BitVec 16
  keyOffset : BitVec 16
  domain : Byte
  logMode : Byte
  freeze : Byte
  deriving DecidableEq, Repr

/-- The commands of the engine, one constructor for each row of spec/opcode_table.json.
`more` is the run of bytes that has arrived on the port since the last command about the frame it is receiving. -/
inductive Instr where
  /-- One 4 ns oscillator period passes (R2). -/
  | oscillatorPeriod
  /-- The SECOND width expires (R12). -/
  | secondPulseEnd
  /-- Power comes on (R210). -/
  | powerOn
  /-- The RESET line is driven low (R210). -/
  | resetLineAssert
  /-- The RESET line is released (R210). -/
  | resetLineRelease
  /-- The read attempts of a full reset end; the bytes the flash gave in each (R206). -/
  | settingsLoadEnd (first second : List Byte)
  /-- A port's link goes DOWN; `more` had arrived of the frame under reception (R101). -/
  | linkDown (port : Port) (more : List Byte)
  /-- A port's link comes UP (R102). -/
  | linkUp (port : Port)
  /-- A start-of-frame passes the ingress timestamp point (R14). -/
  | frameStart (port : Port)
  /-- A frame reaches its lookup point, or its end before it (R104, R106). -/
  | lookupPoint (port : Port) (more : List Byte) (ended : Bool)
  /-- Four bytes beyond the last byte to be replaced have arrived (R117). -/
  | editHoldEnd (port : Port) (more : List Byte)
  /-- A frame passes 9,216 bytes (R103). -/
  | frameOversize (port : Port) (more : List Byte)
  /-- A frame's reception ends (R109). -/
  | frameEnd (port : Port) (more : List Byte)
  /-- The free Management Agent takes the control frame that waits on a port (R198). -/
  | controlFrameTake (port : Port)
  /-- IDENTIFY (R202). -/
  | identify
  /-- READ_CLOCK (R19, R82). -/
  | readClock
  /-- READ_TABLE with its table code, first index and count (R203). -/
  | readTable (code : Byte) (first count : BitVec 16)
  /-- LOG_STATUS (R148). -/
  | logStatus
  /-- LOG_TAKE with the number of records asked for (R149). -/
  | logTake (n : Byte)
  /-- WRITE_MATCH with its index and entry (R112). -/
  | writeMatch (index : Byte) (entry : MatchArg)
  /-- COPY_BANK (R113). -/
  | copyBank
  /-- SWAP_BANKS with NOW or NEXT_SECOND (R114). -/
  | swapBanks (arg : Byte)
  /-- WRITE_PORT (R125). -/
  | writePort (arg : PortArg)
  /-- WRITE_LANE (R85). -/
  | writeLane (arg : LaneArg)
  /-- WRITE_OVERRIDE (R36). -/
  | writeOverride (arg : OverrideArg)
  /-- WRITE_PEER (R162). -/
  | writePeer (arg : PeerArg)
  /-- CLEAR_PEER (R163). -/
  | clearPeer (index : Byte)
  /-- WRITE_SERVO (R80). -/
  | writeServo (arg : ServoArg)
  /-- WRITE_DRIFT (R181). -/
  | writeDrift (arg : DriftArg)
  /-- WRITE_FAULT with fault kind and response (R186). -/
  | writeFault (kind response : Byte)
  /-- SET_DATE (R78). -/
  | setDate (s : BitVec 48) (n : BitVec 32)
  /-- SET_TRIM (R79). -/
  | setTrim (f : BitVec 32)
  /-- CLEAR_FLAGS with its mask (R189). -/
  | clearFlags (mask : BitVec 32)
  /-- BAR_SOURCE with index and seconds (R51). -/
  | barSource (index : Byte) (seconds : BitVec 16)
  /-- FREEZE (R155). -/
  | freeze
  /-- RELEASE (R158). -/
  | release
  /-- TEST_LOG_MEMORY (R151). -/
  | testLogMemory
  /-- SAVE_SETTINGS (R207). -/
  | saveSettings
  /-- RESET with SOFT, SOFT_RELOAD or FULL (R209). -/
  | reset (arg : Byte)
  /-- The read attempts of a SOFT_RELOAD end; the bytes the flash gave in each (R211). -/
  | softReloadEnd (first second : List Byte)
  /-- The write of a save is complete; the bytes the flash gives when read back (R208). -/
  | settingsSaveEnd (readBack : List Byte)
  /-- An uplink's echo interval expires (R23). -/
  | echoIntervalExpiry (port : Port)
  /-- The timeout of an uplink's ask in flight expires (R28). -/
  | echoTimeout (port : Port)
  /-- A Source Table entry's silence reaches 3 intervals (R44). -/
  | sourceStale (index : Nat)
  /-- A STALE entry's silence reaches 8 intervals (R44). -/
  | sourceRemoval (index : Nat)
  /-- A bar has counted down to 0 (R53). -/
  | barExpiry (index : Nat)
  /-- The holdover timer reaches the limit (R76). -/
  | holdoverExpiry
  /-- The report slot of an index begins (R164). -/
  | reportSlot (index : Nat)
  /-- A peer's silence timer reaches 4 report intervals (R172). -/
  | peerSilence (index : Nat)
  /-- The holdoff of an alert form expires; 0 to 8 for the fault kinds, 9 for LOG_LEVEL (R192). -/
  | alertHoldoffExpiry (form : Nat)
  /-- The memory test ends after 20 ms with its result (R153). -/
  | logMemoryTestEnd (pass : Bool)
  /-- The last byte of the frame leaving a port has been sent (R123). -/
  | frameSent (port : Port)
  deriving DecidableEq, Repr

end Sys2Proof
end

