-- ==== Sys2Proof/Decode.lean ====
section
/-! DEFINITION. The command that a word spells by the bits of spec/opcode_table.json. The table gives no row any bits
('fields' is empty in every row and no row has 'fixed'), so no word spells a command. The commands that arrive as bytes
of a control frame are read by Machine/Operands.lean, by the codes of section 12.1.1. -/

namespace Sys2Proof

/-- No row of the table gives bits: every word is answered with none. -/
def decodeTableWord (_nbits _w : Nat) : Option Instr := none

end Sys2Proof
end

