-- ==== Sys2Proof/Config.lean ====
section
/-! DEFINITION. The fixed numbers of the engine, each with its rule, and the values the manual does not state, as
constants with no body. -/

namespace Sys2Proof.Config

/-- Nanoseconds of a second (spec/00_scope.md, The rack date). -/
def nsPerSec : Nat := 1000000000
/-- One nanosecond in units of the fraction f, 2^32 (R2). -/
def fracPerNs : Nat := 4294967296
/-- The largest seconds value S, 2^48 - 1 (R2). -/
def maxS : Nat := 281474976710655
/-- The nominal increment I (R3). -/
def nominalInc : Nat := 17179869184
/-- Oscillator periods of one uptime second (R4). -/
def periodsPerSec : Nat := 250000000
/-- Oscillator periods of one uptime millisecond (R4). -/
def periodsPerMs : Nat := 250000
/-- Largest value of a 32-bit count (R4, R126). -/
def max32 : Nat := 4294967295
/-- Units of 2^-16 ns in one ns (R26, R59). -/
def unitsPerNs : Int := 65536
/-- 500 ppm in units of 1/1024 ppb (R67). -/
def maxRate : Int := 512000000
/-- One ppm in units of 1/1024 ppb (spec/04_servo.md, section 4.1). -/
def unitsPerPpm : Nat := 1024000
/-- Largest frame in bytes (R103). -/
def maxFrame : Nat := 9216
/-- Smallest frame in bytes, FCS included (R103). -/
def minFrame : Nat := 64
/-- Elastic buffer capacity in bytes (R116). -/
def bufferBytes : Nat := 32768
/-- Timing queue capacity in frames (R121). -/
def timingCap : Nat := 8
/-- General queue capacity in frames (R121). -/
def generalCap : Nat := 16
/-- Slots of the Event Log's ring (R142). -/
def logSlots : Nat := 4096
/-- Payload bytes that must have arrived at the lookup point (R104). -/
def lookupBytes : Nat := 131
/-- Length of the settings image of version 1 (spec/12_frame_and_record_layouts.md, section 12.5). -/
def imageLen : Nat := 3122
/-- Largest UDP payload of an answer (R200). -/
def answerRoom : Nat := 1472
/-- Half bytes that arrive at and leave a port in one oscillator period of 4 ns at 25 Gb/s, 0.32 ns a byte (section 6.4's
example). -/
def halfBytesPerPeriod : Nat := 25

/-- Enumerated values that READ_TABLE returns in one byte (section 12.1) and that the table of codes of section
12.1.1 gives no code. -/
inductive OpenCode where
  | echoIdle | echoAwaiting
  | srcCandidate | srcSelected | srcStale | srcBarred
  | peerUnheard | peerLearning | peerActive | peerSilent
  | outcomeSent | outcomeClass | outcomeLink | outcomeQueue
  | linkDown | linkUp
  | swapArmed
  deriving DecidableEq, Repr

/-- A byte of a UDP frame that its length fields promise and that the frame does not hold (R213): by the frame, the uptime
at which it began, and the byte's place. Not stated by the manual, so a constant without a body (log 24). -/
opaque beyondPayload : List (BitVec 8) → Nat → Nat → BitVec 8

/-- The byte READ_TABLE returns for such a value: not stated by the manual, so a constant without a body (log 7). -/
opaque openCode : OpenCode → BitVec 8

/-- The revision number of the die, returned by IDENTIFY (R202): each implementation fixes it (log 8). -/
opaque siliconRevision : BitVec 8

end Sys2Proof.Config
end

