-- ==== Sys2Proof/Machine/Bytes.lean ====
section
/-! DEFINITION. Reading and writing bytes in the manual's byte order (most significant first, spec/12, opening), the
CRC-32 of section 12.5, and one's-complement sums. -/

namespace Sys2Proof.Machine

/-- `w` bytes of a number, most significant first. -/
def be : Nat → Nat → List Byte
  | 0, _ => []
  | w + 1, v => be w (v / 256) ++ [BitVec.ofNat 8 v]

/-- An unsigned value written in `w` bytes, saturated to what they hold (R214). -/
def beSat (w v : Nat) : List Byte := be w (min v (256 ^ w - 1))

/-- A signed value written in `w` bytes in two's complement, saturated to what they hold (R214). -/
def beInt (w : Nat) (v : Int) : List Byte :=
  be w (clampInt (-(2 ^ (8 * w - 1) : Nat)) ((2 ^ (8 * w - 1) : Nat) - 1) v % (256 ^ w : Nat)).toNat

/-- A bit vector written in `w` bytes. -/
def beBits {n : Nat} (w : Nat) (v : BitVec n) : List Byte := be w v.toNat

/-- A flag in one byte. -/
def flag (b : Bool) : List Byte := [if b then 1 else 0]

/-- The number that bytes spell, most significant first. -/
def ofBe (bs : List Byte) : Nat := bs.foldl (fun acc b => acc * 256 + b.toNat) 0

/-- The byte at an offset; 0 beyond the end. -/
def byteAt (bs : List Byte) (off : Nat) : Nat := (bs.getD off 0).toNat

/-- `w` bytes from an offset on; bytes beyond the end read as 0. -/
def slice (bs : List Byte) (off w : Nat) : List Byte :=
  let part := (bs.drop off).take w
  part ++ List.replicate (w - part.length) 0

/-- The number in `w` bytes at an offset. -/
def natAt (bs : List Byte) (off w : Nat) : Nat := ofBe (slice bs off w)

/-- The bit vector in `w` bytes at an offset. -/
def bitsAt (w : Nat) (bs : List Byte) (off : Nat) : BitVec (8 * w) := BitVec.ofNat (8 * w) (natAt bs off w)

/-- The signed value in `w` bytes at an offset. -/
def intAt (bs : List Byte) (off w : Nat) : Int := (bitsAt w bs off).toInt

/-- `bs` with `new` in place of the bytes from an offset on. -/
def patch (bs : List Byte) (off : Nat) (new : List Byte) : List Byte :=
  bs.take off ++ new ++ bs.drop (off + new.length)

/-- Zero bytes up to a length. -/
def padTo (n : Nat) (bs : List Byte) : List Byte := bs ++ List.replicate (n - bs.length) 0

/-! ### CRC-32 -/

/-- One bit of the CRC register, least significant bit first; 0xEDB88320 is the polynomial 0x04C11DB7 in that bit order. -/
def crcBit (c : Nat) : Nat := if c % 2 = 1 then (c / 2) ^^^ 0xEDB88320 else c / 2

/-- One byte into the CRC register. -/
def crcByte (c : Nat) (b : Byte) : Nat :=
  crcBit (crcBit (crcBit (crcBit (crcBit (crcBit (crcBit (crcBit (c ^^^ b.toNat))))))))

/-- The CRC-32 of section 12.5: register starting at all ones, final register inverted. -/
def crc32 (bs : List Byte) : Nat := (bs.foldl crcByte 0xFFFFFFFF) ^^^ 0xFFFFFFFF

/-- A 32-bit value stored least significant byte first. -/
def le4 (v : Nat) : List Byte := (be 4 v).reverse

/-- The FCS of a frame's bytes as it is sent after them. PRESUMED: the Ethernet FCS is the CRC of section 12.5, sent
least significant byte first (log 6). -/
def fcsOf (bs : List Byte) : List Byte := le4 (crc32 bs)

/-- Whether a frame as received, FCS last, has a good FCS. -/
def fcsGood (frame : List Byte) : Bool :=
  4 ≤ frame.length && frame.drop (frame.length - 4) == fcsOf (frame.take (frame.length - 4))

/-- Every bit inverted (R118). -/
def invert (bs : List Byte) : List Byte := bs.map (fun b => ~~~ b)

/-! ### One's-complement sums -/

/-- Folds a sum into 16 bits with end-around carry. -/
def fold16 (x : Nat) : Nat := if x = 0 then 0 else (x - 1) % 65535 + 1

/-- The one's-complement sum of bytes taken as 16-bit words, an odd last byte as a high half. -/
def sum16 : List Byte → Nat
  | [] => 0
  | [b] => b.toNat * 256
  | a :: b :: rest => a.toNat * 256 + b.toNat + sum16 rest

end Sys2Proof.Machine
end

