-- ==== Sys2Proof/Machine/State.lean ====
section
/-! DEFINITION. What the engine holds, as plain data, block by block; its value after a full reset; the queue of waiting
commands; and one setter for each part. -/

namespace Sys2Proof.Machine

/-! ### Things held four times or twice -/

/-- One value for each port, in port order. -/
structure Quad (α : Type) where
  u0 : α
  u1 : α
  d0 : α
  d1 : α
  deriving DecidableEq, Repr

def Quad.get {α : Type} (q : Quad α) : Port → α
  | .u0 => q.u0
  | .u1 => q.u1
  | .d0 => q.d0
  | .d1 => q.d1

def Quad.set {α : Type} (q : Quad α) (p : Port) (v : α) : Quad α :=
  match p with
  | .u0 => { q with u0 := v }
  | .u1 => { q with u1 := v }
  | .d0 => { q with d0 := v }
  | .d1 => { q with d1 := v }

def Quad.all {α : Type} (v : α) : Quad α := ⟨v, v, v, v⟩

def Quad.map {α β : Type} (q : Quad α) (f : α → β) : Quad β := ⟨f q.u0, f q.u1, f q.d0, f q.d1⟩

/-- One value for each lane. -/
structure Pair (α : Type) where
  a : α
  b : α
  deriving DecidableEq, Repr

def Pair.get {α : Type} (q : Pair α) : Lane → α
  | .a => q.a
  | .b => q.b

def Pair.set {α : Type} (q : Pair α) (l : Lane) (v : α) : Pair α :=
  match l with
  | .a => { q with a := v }
  | .b => { q with b := v }

def Pair.map {α β : Type} (q : Pair α) (f : α → β) : Pair β := ⟨f q.a, f q.b⟩

/-! ### Dates -/

/-- A date without its fraction, (S, N). -/
structure SN where
  s : Nat
  n : Nat
  deriving DecidableEq, Repr

/-- The rack date (S, N, f) (spec/00_scope.md, The rack date). -/
structure Date where
  s : Nat
  n : Nat
  f : Nat
  deriving DecidableEq, Repr

/-! ### Names of states, modes and codes -/

/-- The run state: LOADING and RUNNING (R124), and the engine held in full reset by the RESET line (R210). -/
inductive RunState where
  | held | loading | running
  deriving DecidableEq, Repr

inductive Mode where
  | boundary | transit
  deriving DecidableEq, Repr

inductive Privilege where
  | none | read | full
  deriving DecidableEq, Repr

inductive Action where
  | pass | storageMark | utxL2 | utxUdp
  deriving DecidableEq, Repr

inductive VlanKind where
  | any | none | id
  deriving DecidableEq, Repr

inductive LogMode where
  | stampAndLog | stampOnly | logOnly
  deriving DecidableEq, Repr

/-- Response levels, each doing what the one below it does and more (R185). -/
inductive Response where
  | note | alert | demote | hold
  deriving DecidableEq, Repr

inductive ServoState where
  | unset | freerun | acquiring | locked | holdover
  deriving DecidableEq, Repr

inductive ExcSign where
  | none | behind | ahead
  deriving DecidableEq, Repr

inductive SourceState where
  | candidate | selected | stale | barred
  deriving DecidableEq, Repr

inductive PeerState where
  | unheard | learning | active | silent
  deriving DecidableEq, Repr

inductive Vote where
  | offset | drift
  deriving DecidableEq, Repr

/-- The nine fault kinds in index order (R185). -/
inductive FaultKind where
  | sourceLost | holdoverExpired | freqImplausible | selfDrift | peerDrift | logFull | linkDown | settingsFault | memoryFault
  deriving DecidableEq, Repr

/-- The ten alert forms (spec/10_fault_responses_and_alerts.md, section 10.4). -/
inductive AlertForm where
  | fault (k : FaultKind)
  | logLevel
  deriving DecidableEq, Repr

/-- What a fault is about. -/
inductive Subject where
  | self
  | port (p : Port)
  | peer (rack : BitVec 32)
  deriving DecidableEq, Repr

/-- The statuses of a command (R200). -/
inductive Status where
  | done | clamped | truncated | unknown | length | denied | range | state | backward | busy | notEmpty | skipped
  deriving DecidableEq, Repr

inductive ResetKind where
  | soft | softReload | full
  deriving DecidableEq, Repr

/-- The reason of a SOURCE record (R49). -/
inductive Reason where
  | better | lost | barred | hold
  deriving DecidableEq, Repr

/-- What took a freeze (R155). -/
inductive Trigger where
  | command
  | matched (index : Nat)
  deriving DecidableEq, Repr

/-! ### Settings in force -/

/-- A port record without its link state (R125, section 2.1). -/
structure PortRec where
  privilege : Privilege
  echoOn : Bool
  k : Int
  timeoutMs : Nat
  asym : Int
  gateway : BitVec 48
  deriving DecidableEq, Repr

/-- A lane record (section 5.1). -/
structure LaneRec where
  mode : Mode
  k : Int
  m : Nat
  deriving DecidableEq, Repr

/-- An asymmetry override entry (R36). -/
structure Override where
  port : Port
  sender : BitVec 64
  asym : Int
  valid : Bool
  deriving DecidableEq, Repr

/-- The configuration part of a Peer Table entry (R161). -/
structure PeerCfg where
  enabled : Bool
  rack : BitVec 32
  ip : BitVec 32
  preferred : Port
  deriving DecidableEq, Repr

/-- The servo parameter block (section 4.1). -/
structure ServoParams where
  stepThreshold : Nat
  lockWindow : Nat
  lockCount : Nat
  unlockCount : Nat
  sp : Nat
  si : Nat
  catchRate : Nat
  plausibility : Nat
  holdoverLimit : Nat
  deriving DecidableEq, Repr

/-- The drift parameter block (section 9.1). -/
structure DriftParams where
  barTime : Nat
  k : Int
  roundTrip : Nat
  offsetThreshold : Nat
  driftThreshold : Nat
  quorum : Nat
  barOn : Bool
  deriving DecidableEq, Repr

/-- A match entry (R105). -/
structure MatchEntry where
  valid : Bool
  action : Action
  ethertype : BitVec 16
  vlanKind : VlanKind
  vlanId : Nat
  ports : Quad Bool
  patPresent : Bool
  patOffset : Nat
  patValue : BitVec 32
  patMask : BitVec 32
  stampOffset : Nat
  keyOffset : Nat
  domain : Nat
  logMode : LogMode
  freeze : Bool
  deriving DecidableEq, Repr

/-- Every setting in force but the Match Table (section 11.3). -/
structure Settings where
  engineId : BitVec 64
  rackId : BitVec 32
  mac : BitVec 48
  ip : BitVec 32
  mgrAddr : BitVec 32
  mgrLen : Nat
  utxEther : BitVec 16
  utxPort : BitVec 16
  mgmtPort : BitVec 16
  collIp : BitVec 32
  collPort : BitVec 16
  group : BitVec 48
  ports : Quad PortRec
  lanes : Pair LaneRec
  overrides : Vector Override 4
  peers : Vector PeerCfg 32
  servo : ServoParams
  secWidth : Nat
  secLimit : Nat
  drift : DriftParams
  alertHoldoff : Nat
  logThreshold : Nat
  responses : Vector Response 9
  trim : Int
  deriving DecidableEq, Repr

/-! ### Rack Clock -/

/-- The Rack Clock (spec/01_rack_clock.md). `secondEnd` is the uptime at which the running SECOND pulse's width ends;
the line is high exactly while it is present (R12). -/
structure Clock where
  date : Date
  inc : Nat
  up : Nat
  epoch : Nat
  lastStamp : Option SN
  secondEnd : Option Nat
  deriving DecidableEq, Repr

/-! ### Path Delay Unit -/

/-- The ask in flight: its id, its t1, the uptime at which its timeout started and the timeout's length in periods (R21). -/
structure Outstanding where
  id : Nat
  t1 : SN
  start : Nat
  len : Nat
  deriving DecidableEq, Repr

/-- IDLE; AWAITING with the ask not yet past egress; AWAITING with the ask in flight (R21). -/
inductive EchoState where
  | idle
  | queued
  | inFlight (o : Outstanding)
  deriving DecidableEq, Repr

/-- The echo record of an uplink (R21). Samples and P are in units of 2^-16 ns. -/
structure Echo where
  st : EchoState
  nextId : Nat
  window : List Nat
  p : Nat
  run : Nat
  stale : Bool
  sched : Option Nat
  deriving DecidableEq, Repr

/-! ### Source Table -/

/-- A Source Table entry (R39). The silence timer is the uptime elapsed since `heardAt`. -/
structure SourceEntry where
  sender : BitVec 64
  port : Port
  origin : BitVec 64
  cls : Nat
  hops : Nat
  k : Int
  epoch : Nat
  epochChanged : Bool
  lastHeard : Nat
  heardAt : Nat
  beacons : Nat
  st : SourceState
  bar : Nat
  deriving DecidableEq, Repr

/-! ### Servo -/

/-- The Servo (spec/04_servo.md). `lastTheta` is the saturated θ of the latest sample with its far flag. -/
structure Servo where
  st : ServoState
  f : Int
  r : Int
  excSign : ExcSign
  excCount : Nat
  lockCtr : Nat
  unlockCtr : Nat
  catchDown : Bool
  holdTimer : Nat
  expired : Bool
  lastTheta : Option (Int × Bool)
  sat : Bool
  deriving DecidableEq, Repr

/-! ### Beacon Unit -/

/-- What became of an aligned instant (R88, R90). -/
inductive Emission where
  | sent | cls | link | queue
  deriving DecidableEq, Repr

/-- The thinning counter and emission record of a lane (R92, section 5.3). -/
structure LaneUnit where
  thin : Nat
  lastInstant : Option SN
  outcome : Option Emission
  built : Nat
  deriving DecidableEq, Repr

/-! ### Dating Unit -/

/-- The stamp built at a claim (R131). `n` is the issued even number; the doubt mark is `doubt`. -/
structure Stamp where
  s : Nat
  n : Nat
  cls : Nat
  domain : Nat
  doubt : Bool
  catchDown : Bool
  floor : Bool
  pushed : Bool
  noLog : Bool
  deriving DecidableEq, Repr

inductive StampOutcome where
  | pending | written | unstamped
  deriving DecidableEq, Repr

/-- An open dating context (R129). Its key and length are read from the bytes of the frame under reception. -/
structure DatingCtx where
  index : Nat
  stampOffset : Nat
  keyOffset : Nat
  domain : Nat
  logMode : LogMode
  freeze : Bool
  ingress : Date
  stamp : Stamp
  outcome : StampOutcome
  deriving DecidableEq, Repr

/-! ### Lane Path -/

/-- The eleven statistics of a port (R126). -/
structure Stats where
  passed : Nat
  transitDrops : Nat
  malformed : Nat
  beaconsIgnored : Nat
  echoTimeouts : Nat
  echoLate : Nat
  echoNegative : Nat
  timingDrops : Nat
  generalDrops : Nat
  stamps : Nat
  reportsUnknown : Nat
  deriving DecidableEq, Repr

/-- Where a frame under reception stands: before its lookup; forwarded as it arrives (still in the lane's hands, or
refused or lost already); received whole for a block, with what its lookup found; or no longer followed. -/
inductive RxStage where
  | parsing
  | forwarding (inLane : Bool)
  | storingL2
  | storingUdp (mgmt utx : Bool) (privilege : Privilege)
  | discarding
  deriving DecidableEq, Repr

/-- The frame a port is receiving: its ingress capture, the uptime of the capture, whether it started in LOADING, the
bytes received, and its stage (R103, R104, R109, R124). -/
structure Rx where
  ingress : Date
  up : Nat
  loading : Bool
  bytes : List Byte
  stage : RxStage
  deriving DecidableEq, Repr

/-- The bytes to be replaced in a forwarded frame at its egress: none; 12 stamp bytes at an offset of the frame; or the
transit sum at an offset, to grow by the residence and `add` (R117). -/
inductive Edit where
  | none
  | stamp (off : Nat) (bytes : List Byte)
  | transit (off : Nat) (add : Int)
  deriving DecidableEq, Repr

/-- A frame held in an elastic buffer: the bytes that the commands have brought of it, and the half bytes that have arrived
since the last of them (R116). `complete` when its reception has ended, `ready` as R117 gives, `cut` when it was cut short
and must end with an invalid FCS (R103). -/
structure FwdFrame where
  bytes : List Byte
  sinceHalf : Nat
  ingress : Date
  complete : Bool
  ready : Bool
  cut : Bool
  edit : Edit
  deriving DecidableEq, Repr

/-- Which originated frame a queued frame is, with what its egress has to know. A `voidReport` is a report whose entry was
cleared or rewritten while it waited (R163). -/
inductive OrigTag where
  | beacon
  | ask (id : Nat)
  | echoAnswer
  | report (index : Nat) (rack ip : BitVec 32)
  | voidReport
  | answer (carriesReset : Bool)
  | alert
  deriving DecidableEq, Repr

/-- An originated frame waiting in a queue: its bytes without FCS, the offset of its UTX header in them, and the uptime
at which it joined (R121). -/
structure QFrame where
  tag : OrigTag
  header : Nat
  bytes : List Byte
  joined : Nat
  deriving DecidableEq, Repr

/-- The store a leaving frame was granted from. -/
inductive TxFrom where
  | timing | general | buffer
  deriving DecidableEq, Repr

/-- The frame that is leaving. -/
inductive TxBody where
  | forwarded (frame : FwdFrame)
  | originated (tag : OrigTag) (bytes : List Byte)
  deriving DecidableEq, Repr

/-- The frame leaving a port, its egress capture, and the half bytes of it that have gone (R122, R123, R116). -/
structure Tx where
  origin : TxFrom
  body : TxBody
  egress : Date
  sentHalf : Nat
  deriving DecidableEq, Repr

/-- The last frame a port sent to its end: its bytes, and whether it was a cut frame (whose invalid FCS the bytes do not
show). The model's own field (log 27). -/
structure SentFrame where
  bytes : List Byte
  cut : Bool
  deriving DecidableEq, Repr

/-- An accepted control frame (R197): where it came from, its privilege, its request number, its count of commands, and
the bytes of its commands. -/
structure CtlFrame where
  port : Port
  srcMac : BitVec 48
  tag : Option (BitVec 16)
  srcIp : BitVec 32
  srcPort : BitVec 16
  privilege : Privilege
  request : BitVec 32
  count : Nat
  body : List Byte
  deriving DecidableEq, Repr

/-- What a port holds besides its record. The leaving frame is not in its queue's or buffer's list but still counts as held. -/
structure PortUnit where
  up : Bool
  seenUp : Bool
  stats : Stats
  rx : Option Rx
  ctx : Option DatingCtx
  buffer : List FwdFrame
  timing : List QFrame
  general : List QFrame
  tx : Option Tx
  held : Option CtlFrame
  lastSent : Option SentFrame
  deriving DecidableEq, Repr

/-- The Match Table: two banks, which is active (true for bank 1), and whether a swap is armed (R111). -/
structure MatchTable where
  bank0 : Vector MatchEntry 64
  bank1 : Vector MatchEntry 64
  active : Bool
  armed : Bool
  deriving DecidableEq, Repr

/-! ### Event Log -/

/-- The kind-specific part of a record, with the flags of STAMP and SOURCE records (R142, section 12.3). -/
inductive RecBody where
  | stamp (key : List Byte) (len : Nat) (lane : Lane) (up : Bool) (index : Nat)
      (unstamped shortKey badFcs doubt unset : Bool)
  | step (amount : Int) (epoch : Nat)
  | state (old new : ServoState) (cls : Nat)
  | source (old new : Option (BitVec 64)) (reason : Reason)
  | drift (subject : Option (BitVec 32)) (clear : Bool) (vote : Vote) (offset : Int) (drift : Option Int)
  | fault (kind : FaultKind) (clear : Bool) (response : Response)
  | freeze (released : Bool) (trigger : Trigger)
  | gap (missed : Nat)
  deriving DecidableEq, Repr

/-- A record held in the ring (R143). -/
structure LogRecord where
  seq : Nat
  port : Option Port
  domain : Nat
  cls : Nat
  date : SN
  body : RecBody
  deriving DecidableEq, Repr

/-- The memory state of the log; TESTING with the uptime at which the test started (R151). -/
inductive MemState where
  | inService
  | testing (start : Nat)
  | failed
  deriving DecidableEq, Repr

/-- The Event Log (spec/08_event_log.md); records oldest first. -/
structure EventLog where
  records : List LogRecord
  nextSeq : Nat
  gap : Bool
  missed : Nat
  mem : MemState
  noticeSent : Bool
  deriving DecidableEq, Repr

/-! ### Drift Monitor -/

/-- A peer sample (t4, φ, δ) (R169). -/
structure Sample where
  t4 : SN
  phi : Int
  delta : Int
  deriving DecidableEq, Repr

/-- Class, servo state and origin id as a peer's report carried them (R167). -/
structure Reported where
  cls : Byte
  servo : Byte
  origin : BitVec 64
  deriving DecidableEq, Repr

/-- The dynamic part of a Peer Table entry (R161). `pair` is the received pair (the peer's send date, its receipt date);
`warned` carries the vote named at the warning (R179). -/
structure PeerDyn where
  st : PeerState
  warned : Option Vote
  newer : Option SN
  older : Option SN
  pair : Option (SN × SN)
  reported : Option Reported
  window : List Sample
  best : Option Int
  drift : Option Int
  lastHeard : Option Nat
  heardAt : Option Nat
  lastPort : Option Port
  sent : Nat
  notSent : Nat
  received : Nat
  accepted : Nat
  rejected : Nat
  unmatched : Nat
  deriving DecidableEq, Repr

/-- The current episode of SELF_DRIFT: the vote named when it was set, and whether a bar was called (R175, R177). -/
structure Episode where
  vote : Vote
  barCalled : Bool
  deriving DecidableEq, Repr

/-- The latest re-evaluation: n, the four vote counts and their limits, and the rack figures (R174, R182). -/
structure Verdict where
  n : Nat
  behindOffset : Nat
  aheadOffset : Nat
  behindDrift : Nat
  aheadDrift : Nat
  offsetLimit : Nat
  driftLimit : Nat
  offsetFigure : Option Int
  driftFigure : Option Int
  deriving DecidableEq, Repr

/-- The report schedule: the uptime at which the interval began, and the index of the next slot (R164). -/
structure Sched where
  start : Nat
  next : Nat
  deriving DecidableEq, Repr

structure DriftMonitor where
  peers : Vector PeerDyn 32
  episode : Option Episode
  verdict : Verdict
  sched : Option Sched
  deriving DecidableEq, Repr

/-! ### Fault Unit -/

/-- A fault record (R185); its response is with the settings and its holdoff with its alert form. -/
structure FaultRec where
  active : Bool
  count : Nat
  lastRaised : Option Nat
  lastSubject : Option Subject
  deriving DecidableEq, Repr

/-- An alert form: the uptime at which its running holdoff ends, and its suppressed count (R192). -/
structure FormState where
  holdoff : Option Nat
  suppressed : Nat
  deriving DecidableEq, Repr

structure FaultUnit where
  recs : Vector FaultRec 9
  forms : Vector FormState 10
  deriving DecidableEq, Repr

/-! ### Management Agent -/

inductive LoadSource where
  | image | retry | defaults
  deriving DecidableEq, Repr

inductive SaveOutcome where
  | none | ok | failed | abandoned
  deriving DecidableEq, Repr

/-- One result of an answer: code, status, data (R200). -/
structure Result where
  code : Byte
  status : Status
  data : List Byte
  deriving DecidableEq, Repr

/-- The control frame under execution: the bytes of its commands not yet taken, how many commands are left, the results
so far, and whether processing has ended (R198, R199). -/
structure Exec where
  frame : CtlFrame
  rest : List Byte
  left : Nat
  results : List Result
  ended : Bool
  deriving DecidableEq, Repr

structure Agent where
  exec : Option Exec
  resetPending : Option ResetKind
  reload : Bool
  saving : Option (List Byte)
  lastSave : SaveOutcome
  loadSource : LoadSource
  imageVersion : Nat
  lastResult : Option Result
  deriving DecidableEq, Repr

/-! ### Freeze -/

/-- The frozen view (R155), with the uptime of the capture for the timers in it. -/
structure Frozen where
  trigger : Trigger
  up : Nat
  upSeconds : Nat
  clockStatus : List Byte
  sources : Vector (Option SourceEntry) 8
  peerCfgs : Vector PeerCfg 32
  peers : Vector PeerDyn 32
  stats : Quad Stats
  faults : FaultUnit
  responses : Vector Response 9
  deriving DecidableEq, Repr

/-! ### The whole -/

structure State where
  pending : List Instr
  run : RunState
  cfg : Settings
  clock : Clock
  echo : Pair Echo
  sources : Vector (Option SourceEntry) 8
  servo : Servo
  lanes : Pair LaneUnit
  ports : Quad PortUnit
  matchTab : MatchTable
  log : EventLog
  frozen : Option Frozen
  drift : DriftMonitor
  faults : FaultUnit
  agent : Agent
  deriving DecidableEq, Repr

/-- The engine stops with no fault of its own: its fault kinds are state (R185). The one constructor is raised by no
command; it is there because an outcome type has a place for faults. Safe: nothing answers with it. -/
inductive Fault where
  /-- Raised by nothing. Safe. -/
  | neverRaised
  deriving DecidableEq, Repr

/-- Why a command has no outcome. -/
inductive Refusal where
  /-- The row has no meaning in the model. Raised by no arm of exec: every row has its meaning. Safe. -/
  | notModelled (mnemonic : String)
  deriving DecidableEq, Repr

/-! ### Setters -/

namespace State
def setRun (s : State) (v : RunState) : State := { s with run := v }
def setCfg (s : State) (v : Settings) : State := { s with cfg := v }
def setClock (s : State) (v : Clock) : State := { s with clock := v }
def setEchos (s : State) (v : Pair Echo) : State := { s with echo := v }
def setSources (s : State) (v : Vector (Option SourceEntry) 8) : State := { s with sources := v }
def setServo (s : State) (v : Servo) : State := { s with servo := v }
def setLanes (s : State) (v : Pair LaneUnit) : State := { s with lanes := v }
def setPorts (s : State) (v : Quad PortUnit) : State := { s with ports := v }
def setMatchTab (s : State) (v : MatchTable) : State := { s with matchTab := v }
def setLog (s : State) (v : EventLog) : State := { s with log := v }
def setFrozen (s : State) (v : Option Frozen) : State := { s with frozen := v }
def setDrift (s : State) (v : DriftMonitor) : State := { s with drift := v }
def setFaults (s : State) (v : FaultUnit) : State := { s with faults := v }
def setAgent (s : State) (v : Agent) : State := { s with agent := v }
end State

/-! ### Reset values -/

/-- An invalid match entry. DESIGN CHOICE: a field that R107 gives no default is zero or its first value, in the 62
invalid entries and in the two valid ones (log 52). -/
def MatchEntry.blank : MatchEntry :=
  { valid := false, action := .pass, ethertype := 0, vlanKind := .any, vlanId := 0, ports := Quad.all false,
    patPresent := false, patOffset := 0, patValue := 0, patMask := 0, stampOffset := 0, keyOffset := 0, domain := 0,
    logMode := .stampAndLog, freeze := false }

/-- The default bank: entry 62 takes the UTX ethertype, entry 63 takes UDP over IPv4 (R107). -/
def defaultBank : Vector MatchEntry 64 :=
  ((Vector.replicate 64 MatchEntry.blank).set 62
    { MatchEntry.blank with valid := true, action := .utxL2, ethertype := 0x88B6, ports := Quad.all true }).set 63
    { MatchEntry.blank with
        valid := true, action := .utxUdp, ethertype := 0x0800, ports := Quad.all true, patPresent := true,
        patOffset := 9, patValue := 0x11000000, patMask := 0xFF000000 }

/-- The built-in port record (section 2.1, R128). -/
def PortRec.default : PortRec :=
  { privilege := .none, echoOn := true, k := -2, timeoutMs := 10, asym := 0, gateway := 0 }

/-- The default response of each fault kind (R185). -/
def FaultKind.defaultResponse : FaultKind → Response
  | .freqImplausible => .hold
  | .selfDrift => .demote
  | .linkDown => .note
  | .sourceLost | .holdoverExpired | .peerDrift | .logFull | .settingsFault | .memoryFault => .alert

/-- The built-in defaults of every setting but the Match Table (R205 and the owning chapters). DESIGN CHOICE: the four
override entries, of which R38 says that they are invalid, name U0, sender 0 and asymmetry 0 (log 49). -/
def Settings.default : Settings :=
  { engineId := 0, rackId := 0, mac := 0x020000004420, ip := 0, mgrAddr := 0, mgrLen := 32, utxEther := 0x88B6,
    utxPort := 7420, mgmtPort := 7421, collIp := 0, collPort := 7420, group := 0x036A10000001,
    ports := Quad.all PortRec.default
    lanes := ⟨⟨.boundary, -3, 0⟩, ⟨.boundary, -3, 0⟩⟩
    overrides := Vector.replicate 4 ⟨.u0, 0, 0, false⟩
    peers := Vector.replicate 32 ⟨false, 0, 0, .u0⟩
    servo := { stepThreshold := 100000, lockWindow := 1000, lockCount := 8, unlockCount := 4, sp := 1, si := 4,
               catchRate := 200, plausibility := 100, holdoverLimit := 600 }
    secWidth := 100
    secLimit := 4
    drift := { barTime := 600, k := 0, roundTrip := 200000, offsetThreshold := 5000, driftThreshold := 200, quorum := 3,
               barOn := true }
    alertHoldoff := 10
    logThreshold := 3072
    responses := #v[.alert, .alert, .hold, .demote, .alert, .alert, .note, .alert, .alert]
    trim := 0 }

def Clock.reset : Clock :=
  { date := ⟨0, 0, 0⟩, inc := Config.nominalInc, up := 0, epoch := 0, lastStamp := none, secondEnd := none }

def Echo.reset : Echo := { st := .idle, nextId := 0, window := [], p := 0, run := 0, stale := false, sched := none }

def Servo.reset : Servo :=
  { st := .unset, f := 0, r := 0, excSign := .none, excCount := 0, lockCtr := 0, unlockCtr := 0, catchDown := false,
    holdTimer := 0, expired := false, lastTheta := none, sat := false }

def LaneUnit.reset : LaneUnit := { thin := 0, lastInstant := none, outcome := none, built := 0 }

def Stats.zero : Stats := ⟨0, 0, 0, 0, 0, 0, 0, 0, 0, 0, 0⟩

def PortUnit.reset : PortUnit :=
  { up := false, seenUp := false, stats := Stats.zero, rx := none, ctx := none, buffer := [], timing := [], general := [],
    tx := none, held := none, lastSent := none }

def EventLog.reset : EventLog :=
  { records := [], nextSeq := 0, gap := false, missed := 0, mem := .inService, noticeSent := false }

/-- The clean dynamic part with counts 0 (R161). -/
def PeerDyn.reset : PeerDyn :=
  { st := .unheard, warned := none, newer := none, older := none, pair := none, reported := none, window := [],
    best := none, drift := none, lastHeard := none, heardAt := none, lastPort := none, sent := 0, notSent := 0,
    received := 0, accepted := 0, rejected := 0, unmatched := 0 }

def Verdict.empty : Verdict := ⟨0, 0, 0, 0, 0, 0, 0, none, none⟩

def DriftMonitor.reset : DriftMonitor :=
  { peers := Vector.replicate 32 PeerDyn.reset, episode := none, verdict := Verdict.empty, sched := none }

def FaultUnit.reset : FaultUnit :=
  { recs := Vector.replicate 9 ⟨false, 0, none, none⟩, forms := Vector.replicate 10 ⟨none, 0⟩ }

def Agent.reset : Agent :=
  { exec := none, resetPending := none, reload := false, saving := none, lastSave := .none, loadSource := .defaults,
    imageVersion := 0, lastResult := none }

/-- The engine right after a full reset, LOADING (R20, R38, R57, R83, R98, R128, R141, R159, R183, R196, R212). The
settings of this short time, before any load, are the built-in defaults: DESIGN CHOICE (log 9). -/
def State.reset : State :=
  { pending := [], run := .loading, cfg := Settings.default, clock := Clock.reset, echo := ⟨Echo.reset, Echo.reset⟩,
    sources := Vector.replicate 8 none, servo := Servo.reset, lanes := ⟨LaneUnit.reset, LaneUnit.reset⟩,
    ports := Quad.all PortUnit.reset,
    matchTab := { bank0 := defaultBank, bank1 := defaultBank, active := false, armed := false },
    log := EventLog.reset, frozen := none, drift := DriftMonitor.reset, faults := FaultUnit.reset, agent := Agent.reset }

end Sys2Proof.Machine
end

