-- ==== Sys2Proof/Machine/Access.lean ====
section
/-! DEFINITION. Reading and changing one port, echo record, lane, source entry, peer, fault record or alert form of the
state, dates as numbers of nanoseconds, and uptime. -/

namespace Sys2Proof.Machine

/-! ### Dates and uptime -/

/-- A date as whole nanoseconds, S × 1,000,000,000 + N (R213 takes an N beyond the second the same way). -/
def SN.ns (d : SN) : Nat := d.s * Config.nsPerSec + d.n

def Date.sn (d : Date) : SN := ⟨d.s, d.n⟩

def Date.ns (d : Date) : Nat := d.s * Config.nsPerSec + d.n

/-- A date in units of 2^-32 ns (R34). -/
def Date.units (d : Date) : Nat := d.ns * Config.fracPerNs + d.f

/-- The (S, N) of a number of nanoseconds. -/
def snOfNs (t : Nat) : SN := ⟨t / Config.nsPerSec, t % Config.nsPerSec⟩

/-- Whole seconds of a count of oscillator periods, 32 bits saturating (R4). -/
def secondsOf (up : Nat) : Nat := min (up / Config.periodsPerSec) Config.max32

/-- The whole uptime seconds count (R4). -/
def State.upSeconds (s : State) : Nat := secondsOf s.clock.up

/-- 2^k seconds of uptime in oscillator periods, for k from -4 on (R4). -/
def intervalPeriods (k : Int) : Nat := Config.periodsPerSec * 2 ^ (k + 4).toNat / 16

/-! ### Ports -/

def State.port (s : State) (p : Port) : PortUnit := s.ports.get p

def State.setPort (s : State) (p : Port) (u : PortUnit) : State := s.setPorts (s.ports.set p u)

/-- A port's statistics changed by `f`. -/
def State.count (s : State) (p : Port) (f : Stats → Stats) : State :=
  s.setPort p { s.port p with stats := f (s.port p).stats }

/-- The settings of a port. -/
def State.portRec (s : State) (p : Port) : PortRec := s.cfg.ports.get p

def Stats.incPassed (t : Stats) : Stats := { t with passed := satAdd Config.max32 t.passed 1 }
def Stats.addTransitDrops (n : Nat) (t : Stats) : Stats := { t with transitDrops := satAdd Config.max32 t.transitDrops n }
def Stats.incMalformed (t : Stats) : Stats := { t with malformed := satAdd Config.max32 t.malformed 1 }
def Stats.incBeaconsIgnored (t : Stats) : Stats := { t with beaconsIgnored := satAdd Config.max32 t.beaconsIgnored 1 }
def Stats.incEchoTimeouts (t : Stats) : Stats := { t with echoTimeouts := satAdd Config.max32 t.echoTimeouts 1 }
def Stats.incEchoLate (t : Stats) : Stats := { t with echoLate := satAdd Config.max32 t.echoLate 1 }
def Stats.incEchoNegative (t : Stats) : Stats := { t with echoNegative := satAdd Config.max32 t.echoNegative 1 }
def Stats.incTimingDrops (t : Stats) : Stats := { t with timingDrops := satAdd Config.max32 t.timingDrops 1 }
def Stats.incGeneralDrops (t : Stats) : Stats := { t with generalDrops := satAdd Config.max32 t.generalDrops 1 }
def Stats.incStamps (t : Stats) : Stats := { t with stamps := satAdd Config.max32 t.stamps 1 }
def Stats.incReportsUnknown (t : Stats) : Stats := { t with reportsUnknown := satAdd Config.max32 t.reportsUnknown 1 }

/-! ### Echo records and lanes -/

/-- The echo record of the uplink of a port's lane. -/
def State.echoOf (s : State) (p : Port) : Echo := s.echo.get p.lane

def State.setEcho (s : State) (p : Port) (e : Echo) : State := s.setEchos (s.echo.set p.lane e)

def State.lane (s : State) (l : Lane) : LaneUnit := s.lanes.get l

def State.setLane (s : State) (l : Lane) (u : LaneUnit) : State := s.setLanes (s.lanes.set l u)

def State.laneRec (s : State) (l : Lane) : LaneRec := s.cfg.lanes.get l

/-! ### Tables by index -/

/-- The Source Table entry at an index, none where the index holds nothing or is beyond the table. -/
def State.source (s : State) (i : Nat) : Option SourceEntry := (s.sources[i]?).join

/-- The Source Table with index i holding `e`; an index beyond the table changes nothing. -/
def State.setSource (s : State) (i : Nat) (e : Option SourceEntry) : State := s.setSources (s.sources.setIfInBounds i e)

/-- The dynamic part of a peer. -/
def State.peer (s : State) (i : Nat) : PeerDyn := s.drift.peers.getD i PeerDyn.reset

def State.peerCfg (s : State) (i : Nat) : PeerCfg := s.cfg.peers.getD i ⟨false, 0, 0, .u0⟩

def State.setPeer (s : State) (i : Nat) (e : PeerDyn) : State :=
  s.setDrift { s.drift with peers := s.drift.peers.setIfInBounds i e }

/-! ### Faults and alert forms -/

/-- The index of a fault kind (R185). -/
def FaultKind.ix : FaultKind → Fin 9
  | .sourceLost => 0
  | .holdoverExpired => 1
  | .freqImplausible => 2
  | .selfDrift => 3
  | .peerDrift => 4
  | .logFull => 5
  | .linkDown => 6
  | .settingsFault => 7
  | .memoryFault => 8

/-- The fault kinds in index order. -/
def faultKinds : List FaultKind :=
  [.sourceLost, .holdoverExpired, .freqImplausible, .selfDrift, .peerDrift, .logFull, .linkDown, .settingsFault, .memoryFault]

/-- The kind of an index (R185). -/
def FaultKind.ofIndex (i : Nat) : Option FaultKind := faultKinds[i]?

/-- An edge fault stays active until CLEAR_FLAGS; the others are level faults (R185). -/
def FaultKind.isEdge : FaultKind → Bool
  | .freqImplausible | .peerDrift | .settingsFault | .memoryFault => true
  | .sourceLost | .holdoverExpired | .selfDrift | .logFull | .linkDown => false

/-- The highest response a kind allows (R185). -/
def FaultKind.maxResponse : FaultKind → Response
  | .freqImplausible | .selfDrift => .hold
  | .holdoverExpired | .settingsFault => .demote
  | .sourceLost | .peerDrift | .logFull | .linkDown | .memoryFault => .alert

def State.fault (s : State) (k : FaultKind) : FaultRec := s.faults.recs[k.ix]

def State.setFault (s : State) (k : FaultKind) (r : FaultRec) : State :=
  s.setFaults { s.faults with recs := s.faults.recs.set k.ix r }

/-- The response in force for a kind. -/
def State.response (s : State) (k : FaultKind) : Response := s.cfg.responses[k.ix]

/-- The index of an alert form: the fault index, or 9 for LOG_LEVEL (section 12.1). -/
def AlertForm.ix : AlertForm → Fin 10
  | .fault k => k.ix.castSucc
  | .logLevel => 9

def State.form (s : State) (a : AlertForm) : FormState := s.faults.forms[a.ix]

def State.setForm (s : State) (a : AlertForm) (v : FormState) : State :=
  s.setFaults { s.faults with forms := s.faults.forms.set a.ix v }

end Sys2Proof.Machine
end

