-- ==== Sys2Proof/Machine/Flags.lean ====
section
/-! DEFINITION. What is computed from the state and never stored: the level of a response, the demotion floor and HOLD
indication, the selected source, the servo class and the engine's class, the doubt mark, and the SECOND line's watch
over the class. -/

namespace Sys2Proof.Machine

/-- The rank of a response: each level does everything the one below it does (R185). -/
def Response.rank : Response → Nat
  | .note => 0
  | .alert => 1
  | .demote => 2
  | .hold => 3

/-- A fault kind is active with at least a response. -/
def State.activeAt (s : State) (least : Response) (k : FaultKind) : Bool :=
  (s.fault k).active && decide (least.rank ≤ (s.response k).rank)

/-- The demotion floor: 4 while any active fault has response DEMOTE or HOLD, and 0 otherwise (R190). -/
def State.floor (s : State) : Nat := if faultKinds.any (s.activeAt .demote) then 4 else 0

/-- The HOLD indication: in force while any active fault has response HOLD (R190). -/
def State.hold (s : State) : Bool := faultKinds.any (s.activeAt .hold)

/-- Whether an index holds the SELECTED entry. -/
def State.isSelected (s : State) (i : Nat) : Bool :=
  match s.source i with
  | some e => e.st == .selected
  | none => false

/-- The indices of the Source Table. -/
def sourceIndices : List Nat := [0, 1, 2, 3, 4, 5, 6, 7]

/-- The index of the SELECTED entry. -/
def State.selectedIndex (s : State) : Option Nat := sourceIndices.find? s.isSelected

/-- The SELECTED entry. -/
def State.selected (s : State) : Option SourceEntry := s.selectedIndex.bind s.source

/-- The class of LOCKED by the class of the SELECTED entry (R81). -/
def lockedClass : Nat → Nat
  | 0 => 1
  | 1 => 2
  | c => c

/-- The servo class (R81). LOCKED without a SELECTED entry occurs in no run; it is given 6 there (log 26). -/
def State.servoClass (s : State) : Nat :=
  match s.servo.st with
  | .unset => 6
  | .freerun => 5
  | .acquiring => 3
  | .holdover => if s.servo.expired then 4 else 3
  | .locked =>
    match s.selected with
    | some e => lockedClass e.cls
    | none => 6

/-- The engine's class: the larger of the servo class and the demotion floor (R81). -/
def State.engineClass (s : State) : Nat := max s.servoClass s.floor

/-- The doubt mark of a stamp: class 3 or worse, or catch-down in force (R18, R131). -/
def State.doubt (s : State) : Bool := decide (3 ≤ s.engineClass) || s.servo.catchDown

/-- A class worse than the SECOND class limit ends a running pulse at once (R13). -/
def watchSecond (s : State) : State :=
  if s.cfg.secLimit < s.engineClass then s.setClock { s.clock with secondEnd := none } else s

/-- A SECOND pulse at the end of an event that puts several values in force at once: the pulse that ran when the event
came, judged one time, by the class and the class limit that the event leaves (R13, R80, R211, log 48). -/
def judgePulse (pulse : Option Nat) (s : State) : State :=
  watchSecond (s.setClock { s.clock with secondEnd := pulse })

/-- The origin id announced downstream: that of the SELECTED entry, or the engine's own (R89, R166). -/
def State.announcedOrigin (s : State) : BitVec 64 :=
  match s.selected with
  | some e => e.origin
  | none => s.cfg.engineId

/-- The hops announced downstream: those of the SELECTED entry plus one, saturating at 255; 0 with none (R89). -/
def State.announcedHops (s : State) : Nat :=
  match s.selected with
  | some e => satAdd 255 e.hops 1
  | none => 0

end Sys2Proof.Machine
end

