-- ==== Sys2Proof/Machine/Layout.lean ====
section
/-! DEFINITION. The byte layouts of spec/12_frame_and_record_layouts.md: codes, UTX frames as they are built, records,
stamps, match entries and the clock status record. -/

namespace Sys2Proof.Machine

/-! ### Codes (section 12.1.1) -/

def portCode : Port → Nat
  | .u0 => 0
  | .u1 => 1
  | .d0 => 2
  | .d1 => 3

def modeCode : Mode → Nat
  | .boundary => 0
  | .transit => 1

def privilegeCode : Privilege → Nat
  | .none => 0
  | .read => 1
  | .full => 2

def actionCode : Action → Nat
  | .pass => 0
  | .storageMark => 1
  | .utxL2 => 2
  | .utxUdp => 3

def vlanCode : VlanKind → Nat
  | .any => 0
  | .none => 1
  | .id => 2

def logModeCode : LogMode → Nat
  | .stampAndLog => 0
  | .stampOnly => 1
  | .logOnly => 2

def servoCode : ServoState → Nat
  | .unset => 0
  | .freerun => 1
  | .acquiring => 2
  | .locked => 3
  | .holdover => 4

def statusCode : Status → Nat
  | .done => 0
  | .clamped => 1
  | .truncated => 2
  | .unknown => 3
  | .length => 4
  | .denied => 5
  | .range => 6
  | .state => 7
  | .backward => 8
  | .busy => 9
  | .notEmpty => 10
  | .skipped => 11

def reasonCode : Reason → Nat
  | .better => 0
  | .lost => 1
  | .barred => 2
  | .hold => 3

def voteCode : Vote → Nat
  | .offset => 0
  | .drift => 1

def excCode : ExcSign → Nat
  | .none => 0
  | .behind => 1
  | .ahead => 2

def loadSourceCode : LoadSource → Nat
  | .image => 0
  | .retry => 1
  | .defaults => 2

def saveOutcomeCode : SaveOutcome → Nat
  | .none => 0
  | .ok => 1
  | .failed => 2
  | .abandoned => 3

/-- Subject kind and value of an alert or fault record (section 12.1). -/
def subjectBytes : Subject → List Byte
  | .self => be 1 0 ++ be 4 0
  | .port p => be 1 1 ++ be 4 (portCode p)
  | .peer rack => be 1 2 ++ beBits 4 rack

/-! ### Dates -/

/-- A date in any layout: S in 6 bytes, N in 4 (spec/12, opening). -/
def snBytes (d : SN) : List Byte := beSat 6 d.s ++ beSat 4 d.n

/-- A date or none, none as zero (R214). -/
def snBytes? (d : Option SN) : List Byte := snBytes (d.getD ⟨0, 0⟩)

/-! ### Frames -/

/-- The common UTX header: version 1, kind, body length, sender (section 12.1). -/
def utxHeader (kind body : Nat) (sender : BitVec 64) : List Byte := be 1 1 ++ be 1 kind ++ be 2 body ++ beBits 8 sender

/-- The Ethernet header, with a VLAN tag where there is one. -/
def ethHeader (dst src : BitVec 48) (tag : Option (BitVec 16)) (ethertype : BitVec 16) : List Byte :=
  beBits 6 dst ++ beBits 6 src ++ (match tag with | some t => be 2 0x8100 ++ beBits 2 t | none => []) ++ beBits 2 ethertype

/-- Bytes of an Ethernet header. -/
def headerLen (tag : Option (BitVec 16)) : Nat := if tag.isSome then 18 else 14

/-- A frame without its FCS, padded so that with its FCS it has at least 64 bytes (R120). -/
def padFrame (bs : List Byte) : List Byte := padTo (Config.minFrame - 4) bs

/-- A frame of the Ethernet carriage: under the UTX ethertype, from the engine's MAC (R120). -/
def l2Frame (s : State) (dst : BitVec 48) (tag : Option (BitVec 16)) (utx : List Byte) : List Byte :=
  padFrame (ethHeader dst s.cfg.mac tag s.cfg.utxEther ++ utx)

/-- The IPv4 header of R120 for a UDP payload of `len` bytes. -/
def ipv4Header (src dst : BitVec 32) (len : Nat) : List Byte :=
  let before := be 1 0x45 ++ be 1 0 ++ be 2 (28 + len) ++ be 2 0 ++ be 2 0x4000 ++ be 1 64 ++ be 1 17
  let addresses := beBits 4 src ++ beBits 4 dst
  before ++ be 2 (0xFFFF - fold16 (sum16 (before ++ addresses))) ++ addresses

/-- A frame of the UDP carriage (R120): UDP checksum zero. -/
def udpFrame (s : State) (dstMac : BitVec 48) (tag : Option (BitVec 16)) (dstIp : BitVec 32) (srcPort dstPort : BitVec 16)
    (utx : List Byte) : List Byte :=
  padFrame (ethHeader dstMac s.cfg.mac tag 0x0800 ++ ipv4Header s.cfg.ip dstIp utx.length ++
    beBits 2 srcPort ++ beBits 2 dstPort ++ be 2 (8 + utx.length) ++ be 2 0 ++ utx)

/-- Where the UTX header of a frame of the UDP carriage starts. -/
def udpUtxOffset (tag : Option (BitVec 16)) : Nat := headerLen tag + 28

/-- A BEACON as it is built: the fields written at egress are zero (R88, R214). -/
def beaconFrame (s : State) (k : Int) : List Byte :=
  l2Frame s s.cfg.group none
    (utxHeader 1 32 s.cfg.engineId ++ be 8 0 ++ be 10 0 ++ be 8 0 ++ be 1 0 ++ be 1 0 ++ beInt 1 k ++ be 2 0 ++ be 1 0)

/-- A BEACON as it leaves, its header at `off` (R89). -/
def beaconAtEgress (s : State) (off : Nat) (bs : List Byte) : List Byte :=
  patch (patch (patch (patch bs (off + 12) (beBits 8 s.announcedOrigin)) (off + 20) (snBytes s.clock.date.sn))
    (off + 38) (beSat 1 s.engineClass ++ beSat 1 s.announcedHops)) (off + 41) (beSat 2 s.clock.epoch)

/-- An ECHO_ASK as it is built (R23). -/
def askFrame (s : State) (id : Nat) : List Byte :=
  l2Frame s s.cfg.group none (utxHeader 2 20 s.cfg.engineId ++ be 2 id ++ be 10 0 ++ be 8 0)

/-- An ECHO_ANSWER as it is built, to an ask's source MAC with the ask's tag (R32). `ask` is the ask's UTX frame. -/
def echoAnswerFrame (s : State) (dst : BitVec 48) (tag : Option (BitVec 16)) (ask : List Byte) (t2 : SN) : List Byte :=
  l2Frame s dst tag (utxHeader 3 40 s.cfg.engineId ++ slice ask 12 2 ++ slice ask 14 10 ++ snBytes t2 ++ be 10 0 ++
    slice ask 24 8)

/-- A PEER_REPORT as it is built (R165). -/
def reportFrame (s : State) (gateway : BitVec 48) (ip : BitVec 32) (pair : Option (SN × SN)) : List Byte :=
  let echo := match pair with
    | some (sent, received) => be 1 1 ++ be 1 0 ++ snBytes sent ++ snBytes received
    | none => be 1 0 ++ be 1 0
  udpFrame s gateway none ip s.cfg.utxPort s.cfg.utxPort
    (utxHeader 4 (24 + echo.length) s.cfg.engineId ++ beBits 4 s.cfg.rackId ++ be 10 0 ++ be 1 0 ++ be 1 0 ++ be 8 0 ++ echo)

/-- A PEER_REPORT as it leaves (R166). -/
def reportAtEgress (s : State) (off : Nat) (bs : List Byte) : List Byte :=
  patch bs (off + 16) (snBytes s.clock.date.sn ++ beSat 1 s.engineClass ++ be 1 (servoCode s.servo.st) ++
    beBits 8 s.announcedOrigin)

/-- What an alert reports beside its form: offset and drift, each absent or present, the drift perhaps unknown (R193). -/
structure AlertData where
  offset : Option Int
  drift : Option (Option Int)
  deriving DecidableEq, Repr

def AlertData.nothing : AlertData := ⟨none, none⟩

/-- The kind, response and raise count of an alert's form; absent for LOG_LEVEL (R193). -/
def alertKind (s : State) : AlertForm → Option (Response × Nat)
  | .fault k => some (s.response k, (s.fault k).count)
  | .logLevel => none

/-- An ALERT (R193, section 12.1). DESIGN CHOICE: of a drift that is unknown presence bit 2 stands alone, bit 1 being
clear (log 60). -/
def alertFrame (s : State) (gateway : BitVec 48) (a : AlertForm) (clear : Bool) (subject : Subject) (d : AlertData) : List Byte :=
  let kind := alertKind s a
  let presence := (if d.offset.isSome then 1 else 0)
    + (match d.drift with | some (some _) => 2 | some none => 4 | none => 0)
    + (if kind.isSome then 8 + 16 else 0)
  udpFrame s gateway none s.cfg.collIp s.cfg.utxPort s.cfg.collPort
    (utxHeader 7 36 s.cfg.engineId ++ be 1 a.ix.val ++ flag clear ++ subjectBytes subject ++ be 1 presence ++
      beInt 8 (d.offset.getD 0) ++ beInt 4 ((d.drift.getD none).getD 0) ++
      be 1 ((kind.map (fun x => x.1.rank)).getD 0) ++ beSat 1 ((kind.map (fun x => x.2)).getD 0) ++
      snBytes s.clock.date.sn ++ beSat 1 s.engineClass ++ beSat 2 (s.form a).suppressed ++ be 1 0)

/-- One result of an answer: code, status, data length, data (section 12.1). -/
def resultBytes (r : Result) : List Byte := [r.code] ++ be 1 (statusCode r.status) ++ be 2 r.data.length ++ r.data

/-- The ANSWER to a control frame (R200, R120). -/
def answerFrame (s : State) (c : CtlFrame) (results : List Result) : List Byte :=
  let body := beBits 4 c.request ++ be 1 results.length ++ results.flatMap resultBytes
  udpFrame s c.srcMac c.tag c.srcIp s.cfg.mgmtPort c.srcPort (utxHeader 6 body.length s.cfg.engineId ++ body)

/-! ### Stamps and records (section 12.3) -/

/-- The 12-byte stamp. -/
def stampBytes (t : Stamp) : List Byte :=
  beSat 6 t.s ++ beSat 4 (t.n + if t.doubt then 1 else 0) ++ beSat 1 t.cls ++
    be 1 (t.domain * 16 + (if t.catchDown then 8 else 0) + (if t.floor then 4 else 0) + (if t.pushed then 2 else 0) +
      (if t.noLog then 1 else 0))

def recKindCode : RecBody → Nat
  | .stamp .. => 0
  | .step .. => 1
  | .state .. => 2
  | .source .. => 3
  | .drift .. => 4
  | .fault .. => 5
  | .freeze .. => 6
  | .gap .. => 7

/-- Bits 4 to 0 of a record's first byte. -/
def recFlags : RecBody → Nat
  | .stamp _ _ _ _ _ unstamped shortKey badFcs doubt unset =>
    (if unstamped then 16 else 0) + (if shortKey then 8 else 0) + (if badFcs then 4 else 0) + (if doubt then 2 else 0) +
      (if unset then 1 else 0)
  | .source old new reason => reasonCode reason + (if old.isNone then 4 else 0) + (if new.isNone then 8 else 0)
  | .step .. | .state .. | .drift .. | .fault .. | .freeze .. | .gap .. => 0

/-- The trigger and match index of a freeze, 255 for none. -/
def triggerBytes : Trigger → List Byte
  | .command => be 1 0 ++ be 1 255
  | .matched i => be 1 1 ++ beSat 1 i

/-- An offset of a DRIFT record in 4 bytes; one that does not fit is saturated to ±2,147,483,647 (section 12.3). -/
def offsetBytes (v : Int) : List Byte :=
  beInt 4 (if -2147483648 ≤ v ∧ v ≤ 2147483647 then v else clampInt (-2147483647) 2147483647 v)

/-- Bytes 16 to 31 of a record. -/
def recBodyBytes : RecBody → List Byte
  | .stamp key len lane up index _ _ _ _ _ =>
    slice key 0 8 ++ beSat 2 len ++ be 1 ((if lane = .b then 128 else 0) + (if up then 1 else 0)) ++ beSat 1 index ++ be 4 0
  | .step amount epoch => beInt 8 amount ++ beSat 2 epoch ++ be 6 0
  | .state old new cls => be 1 (servoCode old) ++ be 1 (servoCode new) ++ beSat 1 cls ++ be 13 0
  | .source old new _ => beBits 8 (old.getD 0) ++ beBits 8 (new.getD 0)
  | .drift subject clear vote offset drift =>
    be 1 (if subject.isSome then 2 else 0) ++ beBits 4 (subject.getD 0) ++ flag clear ++ be 1 (voteCode vote) ++
      flag drift.isNone ++ offsetBytes offset ++ beInt 4 (drift.getD 0)
  | .fault kind clear response => be 1 kind.ix.val ++ flag clear ++ be 1 response.rank ++ be 13 0
  | .freeze released trigger => flag released ++ triggerBytes trigger ++ be 13 0
  | .gap missed => beSat 2 missed ++ be 14 0

/-- A record's 32 bytes. -/
def recordBytes (r : LogRecord) : List Byte :=
  be 1 (recKindCode r.body * 32 + recFlags r.body) ++
  be 1 (r.cls * 32 + (if r.port.isNone then 16 else 0) + r.domain) ++ be 4 r.seq ++ beSat 6 r.date.s ++
  be 4 ((match r.port with | some p => portCode p | none => 0) * 2 ^ 30 + r.date.n) ++ recBodyBytes r.body

/-! ### Match entries (section 12.3) -/

def portSetCode (q : Quad Bool) : Nat :=
  (if q.u0 then 1 else 0) + (if q.u1 then 2 else 0) + (if q.d0 then 4 else 0) + (if q.d1 then 8 else 0)

def matchBytes (e : MatchEntry) : List Byte :=
  flag e.valid ++ be 1 (actionCode e.action) ++ beBits 2 e.ethertype ++ be 1 (vlanCode e.vlanKind) ++ beSat 2 e.vlanId ++
  be 1 (portSetCode e.ports) ++ flag e.patPresent ++ beSat 1 e.patOffset ++ beBits 4 e.patValue ++ beBits 4 e.patMask ++
  beSat 2 e.stampOffset ++ beSat 2 e.keyOffset ++ beSat 1 e.domain ++ be 1 (logModeCode e.logMode) ++ flag e.freeze ++ be 7 0

/-! ### Fixed answer blocks (section 12.4) -/

/-- The Rack Clock's fields of the clock status record (R19). -/
def clockPart (s : State) : List Byte :=
  beSat 6 s.clock.date.s ++ beSat 4 s.clock.date.n ++ beSat 4 s.clock.date.f ++ beSat 8 s.clock.inc ++ beSat 4 s.upSeconds ++
  beSat 2 s.clock.epoch ++ snBytes? s.clock.lastStamp ++ flag s.clock.lastStamp.isNone ++ flag s.clock.secondEnd.isSome ++
  beSat 2 s.cfg.secWidth ++ beSat 1 s.cfg.secLimit

/-- The Servo's fields of the clock status record (R82). -/
def servoPart (s : State) : List Byte :=
  be 1 (servoCode s.servo.st) ++ beSat 1 s.servoClass ++ be 1 s.floor ++ beSat 1 s.engineClass ++
  flag s.servo.catchDown ++ beInt 4 s.servo.f ++ beInt 4 s.servo.r ++ beInt 4 ((s.servo.lastTheta.map (fun x => x.1)).getD 0) ++ flag ((s.servo.lastTheta.map (fun x => x.2)).getD false) ++
  flag s.servo.lastTheta.isSome ++ be 1 (excCode s.servo.excSign) ++ beSat 1 s.servo.excCount ++ beSat 1 s.servo.lockCtr ++
  beSat 1 s.servo.unlockCtr ++ beSat 4 s.servo.holdTimer ++ flag s.servo.expired ++ flag s.servo.sat

/-- The clock status record (R19, R82). -/
def clockStatus (s : State) : List Byte := clockPart s ++ servoPart s

/-- The IDENTIFY block (R202). -/
def identifyBlock (s : State) : List Byte :=
  be 2 4420 ++ [Config.siliconRevision] ++ beBits 8 s.cfg.engineId ++ beBits 4 s.cfg.rackId ++ beBits 6 s.cfg.mac ++
  beBits 4 s.cfg.ip ++ be 1 (loadSourceCode s.agent.loadSource) ++ beSat 2 s.agent.imageVersion ++ beSat 4 s.upSeconds ++
  be 1 1 ++ flag s.agent.saving.isSome ++ be 1 (saveOutcomeCode s.agent.lastSave)

/-- The oldest sequence: that of the oldest record, or the next sequence of an empty log (R142). -/
def EventLog.oldestSeq (l : EventLog) : Nat :=
  match l.records with
  | r :: _ => r.seq
  | [] => l.nextSeq

/-- The LOG_STATUS block (R148). In LIVE the freeze fields are absent: zero, and 255 for the match index (R214). -/
def logStatusBlock (s : State) : List Byte :=
  beSat 2 s.log.records.length ++ be 4 s.log.oldestSeq ++ be 4 s.log.nextSeq ++ flag s.log.gap ++ beSat 2 s.log.missed ++
  be 1 (match s.log.mem with | .inService => 0 | .testing _ => 1 | .failed => 2) ++ flag s.frozen.isSome ++
  (match s.frozen with | some v => triggerBytes v.trigger ++ beSat 4 v.upSeconds | none => be 1 0 ++ be 1 255 ++ be 4 0) ++
  beSat 2 s.cfg.logThreshold ++ flag s.log.noticeSent

end Sys2Proof.Machine
end

