-- ==== Sys2Proof/Machine/Edit.lean ====
section
/-! DEFINITION. The bytes of a frame as it leaves: transit sums grown by residence (R34, R93), stamps written in place
(R132), the UDP checksum compensated (R119), and the FCS regenerated (R118). -/

namespace Sys2Proof.Machine

/-- Egress capture less ingress capture in units of 2^-32 ns, shifted right by 16 places toward minus infinity: the
residence in units of 2^-16 ns (R34, R93). -/
def residence (ingress egress : Date) : Int := ((egress.units : Int) - (ingress.units : Int)) / 65536

/-- A transit sum saturated to a signed 64-bit value (R34, R93). -/
def satSum (x : Int) : Int := clampInt (-(2 ^ 63)) (2 ^ 63 - 1) x

/-- The FCS sent after edited bytes: regenerated, and inverted where the FCS received was bad (R118). -/
def regenerateFcs (received edited : List Byte) : List Byte :=
  if fcsGood received then fcsOf edited else invert (fcsOf edited)

/-- Where the UDP datagram of a frame starts and ends, and whether it is IPv4, for the frames R119 takes to carry UDP. -/
def udpSpan (bs : List Byte) : Option (Nat × Nat × Bool) :=
  let hdr := if natAt bs 12 2 = 0x8100 then 18 else 14
  let ethertype := natAt bs (hdr - 2) 2
  if ethertype = 0x0800 then
    if byteAt bs hdr / 16 = 4 && natAt bs (hdr + 6) 2 % 8192 = 0 && byteAt bs (hdr + 9) = 17 then
      let start := hdr + 4 * (byteAt bs hdr % 16)
      some (start, min (start + natAt bs (start + 4) 2) (hdr + natAt bs (hdr + 2) 2), true)
    else none
  else if ethertype = 0x86DD then
    if byteAt bs (hdr + 6) = 17 then some (hdr + 40, hdr + 40 + natAt bs (hdr + 44) 2, false) else none
  else none

/-- What a byte at a position of a frame counts in the UDP checksum of its datagram, `ip` where the IP header starts: at its
even or odd position within the datagram, and by the pseudo-header, which holds the two addresses, the protocol and the UDP
length once more. DESIGN CHOICE: a replaced byte outside the datagram, for which R119's step gives no position, counts as R119's
purpose asks, that a correct checksum stays correct (log 16). -/
def checksumWeight (ip start stop : Nat) (v4 : Bool) (pos : Nat) : Nat :=
  let place := if (pos + start) % 2 = 0 then 256 else 1
  let within := fun (lo hi : Nat) => if lo ≤ pos ∧ pos < hi then place else 0
  within start stop + within (start + 4) (start + 6) +
    (if v4 then within (ip + 12) (ip + 20) else within (ip + 8) (ip + 40)) +
    (if pos = (if v4 then ip + 9 else ip + 6) then 1 else 0)

/-- The sum of the bytes at positions `off` on, each by what it counts (R119). -/
def positionedSum (weight : Nat → Nat) : Nat → List Byte → Nat
  | _, [] => 0
  | off, b :: rest => b.toNat * weight off + positionedSum weight (off + 1) rest

/-- A checksum compensated for bytes whose sum was `old` and is now `new` (R119). A result of zero is 0xFFFF. DESIGN
CHOICE: the checksum, the complement of a sum, gains `old` and loses `new`, so that a correct one stays correct as R119
says it shall; the words of its step, taken of the checksum field, have the signs the other way (log 16). -/
def compensate (checksum old new : Nat) : Nat :=
  let c := 0xFFFF - fold16 ((0xFFFF - checksum) + new + (0xFFFF - old % 0xFFFF))
  if c = 0 then 0xFFFF else c

/-- A frame, without FCS, with a stamp in place of the bytes at `off`, and its UDP checksum as R119 gives. -/
def writeStamp (bs : List Byte) (off : Nat) (stamp : List Byte) : List Byte :=
  let edited := patch bs off stamp
  match udpSpan bs with
  | none => edited
  | some (start, stop, v4) =>
    let field := start + 6
    let checksum := natAt bs field 2
    if bs.length < start + 8 || (off < field + 2 && field < off + stamp.length) || (v4 && checksum = 0) then edited
    else
      let weight := checksumWeight (if natAt bs 12 2 = 0x8100 then 18 else 14) start stop v4
      patch edited field (be 2 (compensate checksum (positionedSum weight off (slice bs off stamp.length))
        (positionedSum weight off stamp)))

/-- A frame's bytes, without FCS, with their edit made (R34, R93, R132). -/
def editedBytes (f : FwdFrame) (egress : Date) (body : List Byte) : List Byte :=
  match f.edit with
  | .none => body
  | .stamp off stamp => writeStamp body off stamp
  | .transit off add => patch body off (beInt 8 (satSum (intAt body off 8 + residence f.ingress egress + add)))

/-- The bytes of a forwarded frame as it is sent to its end: unedited with its FCS as received, or edited with its FCS
regenerated (R108, R118). A cut frame's bytes are those up to 9,216 (R103); that its FCS is invalid stands in its `cut`
mark (log 17). -/
def forwardedBytes (f : FwdFrame) (egress : Date) : List Byte :=
  if f.cut then editedBytes f egress (f.bytes.take Config.maxFrame)
  else if f.edit = .none then f.bytes
  else
    let edited := editedBytes f egress (f.bytes.take (f.bytes.length - 4))
    edited ++ regenerateFcs f.bytes edited

end Sys2Proof.Machine
end

