-- ==== Sys2Proof/Machine/Ops.lean ====
section
/-! DEFINITION. The named operations over a port's egress side: what its buffer and queues hold, admission to the elastic
buffer (R116), offers to the queues (R121), the egress timestamp point (R14, R24, R89, R166), the arbiter (R122), and the
end of a transmission (R123). -/

namespace Sys2Proof.Machine

/-! ### What a port holds -/

/-- 1 when the leaving frame came from the given store, which it leaves only with its last byte (R123). -/
def leavingFrom (u : PortUnit) (o : TxFrom) : Nat :=
  match u.tx with
  | some t => if t.origin = o then 1 else 0
  | none => 0

/-- Frames held by the timing queue. -/
def timingHeld (u : PortUnit) : Nat := u.timing.length + leavingFrom u .timing

/-- Frames held by the general queue. -/
def generalHeld (u : PortUnit) : Nat := u.general.length + leavingFrom u .general

/-- Frames held by the elastic buffer. -/
def bufferHeld (u : PortUnit) : Nat := u.buffer.length + leavingFrom u .buffer

/-- A change made to the frame that a port's egress side is still receiving, wherever it stands: leaving, or last in the
elastic buffer. At most one frame arrives into a buffer at a time (R116). -/
def onArriving (f : FwdFrame → FwdFrame) (u : PortUnit) : PortUnit :=
  { u with
    buffer := u.buffer.map (fun x => if x.complete then x else f x)
    tx := u.tx.map (fun t =>
      match t.body with
      | .forwarded x => if x.complete then t else { t with body := .forwarded (f x) }
      | .originated _ _ => t) }

/-- An arriving frame of which a command has brought all bytes up to now. -/
def FwdFrame.upTo (bytes : List Byte) (f : FwdFrame) : FwdFrame := { f with bytes := bytes, sinceHalf := 0 }

/-- Bytes that have arrived of a forwarded frame: those that the commands have brought, and of a frame still arriving
those that one period after another has brought since, up to the longest frame (R116, log 4). -/
def FwdFrame.arrived (f : FwdFrame) : Nat :=
  if f.complete then f.bytes.length else min Config.maxFrame (f.bytes.length + f.sinceHalf / 2)

/-- Bytes of a leaving frame still in its store. -/
def leavingBytes (u : PortUnit) (o : TxFrom) : Nat :=
  match u.tx with
  | some t =>
    if t.origin = o then
      (match t.body with | .forwarded f => f.arrived | .originated _ bs => bs.length) - t.sentHalf / 2
    else 0
  | none => 0

/-- Bytes held by the elastic buffer: its occupancy rises as bytes arrive and falls as they leave (R116). -/
def bufferOccupancy (u : PortUnit) : Nat := (u.buffer.map FwdFrame.arrived).sum + leavingBytes u .buffer

/-- Bytes held by a queue; a queued frame counts its FCS, which it has when it leaves. -/
def queueOccupancy (q : List QFrame) : Nat := (q.map (fun f => f.bytes.length + 4)).sum

/-- Half bytes counted on by one oscillator period, up to the longest frame. -/
def countHalf (n : Nat) : Nat := min (2 * Config.maxFrame) (n + Config.halfBytesPerPeriod)

/-- One oscillator period at a port's egress side: the bytes that arrive of a frame under way into it (log 4), and those
that leave (log 5). Both counts go on up to the longest frame, so that bytes which leave as they arrive are not held. -/
def flowPort (u : PortUnit) : PortUnit :=
  let u := onArriving (fun x => { x with sinceHalf := countHalf x.sinceHalf }) u
  { u with tx := u.tx.map (fun t => { t with sentHalf := countHalf t.sentHalf }) }

/-! ### Admission and offers -/

/-- Admission of a frame to the elastic buffer of egress port `p`: taken if the link is UP and `need` bytes are free,
else discarded and counted as a transit drop of the port (R116, R101). -/
def admitFrame (p : Port) (need : Nat) (f : FwdFrame) (s : State) : State × Bool :=
  let u := s.port p
  if u.up && need + bufferOccupancy u ≤ Config.bufferBytes then (s.setPort p { u with buffer := u.buffer ++ [f] }, true)
  else (s.count p (Stats.addTransitDrops 1), false)

/-- An offer to a timing queue (R121). -/
def offerTiming (p : Port) (tag : OrigTag) (header : Nat) (bytes : List Byte) (s : State) : State × Bool :=
  let u := s.port p
  if u.up && timingHeld u < Config.timingCap then
    (s.setPort p { u with timing := u.timing ++ [⟨tag, header, bytes, s.clock.up⟩] }, true)
  else (s.count p Stats.incTimingDrops, false)

/-- An offer to a general queue (R121). -/
def offerGeneral (p : Port) (tag : OrigTag) (header : Nat) (bytes : List Byte) (s : State) : State × Bool :=
  let u := s.port p
  if u.up && generalHeld u < Config.generalCap then
    (s.setPort p { u with general := u.general ++ [⟨tag, header, bytes, s.clock.up⟩] }, true)
  else (s.count p Stats.incGeneralDrops, false)

/-! ### The egress timestamp point -/

/-- An ask passes egress: if it is the one whose offer put the unit in its present AWAITING (the latest id given out),
t1 and the id are recorded, in flight is set and the timeout starts; any other ask records nothing (R24). -/
def askPassesEgress (p : Port) (id : Nat) (s : State) : State :=
  let e := s.echoOf p
  if e.st = .queued ∧ (id + 1) % 65536 = e.nextId then
    s.setEcho p { e with st := .inFlight { id := id, t1 := s.clock.date.sn, start := s.clock.up,
                                           len := (s.portRec p).timeoutMs * Config.periodsPerMs } }
  else s

/-- A report passes egress: its t3 becomes the newer send date of the entry it was built for, if that entry is still
enabled with the rack id and address it had (R166). -/
def reportPassesEgress (i : Nat) (rack ip : BitVec 32) (s : State) : State :=
  let c := s.peerCfg i
  if c.enabled ∧ c.rack = rack ∧ c.ip = ip then
    let d := s.peer i
    s.setPeer i { d with newer := some s.clock.date.sn, older := d.newer }
  else s

/-- What a block records as an originated frame passes egress. -/
def recordEgress (p : Port) (tag : OrigTag) (s : State) : State :=
  match tag with
  | .ask id => askPassesEgress p id s
  | .report i rack ip => reportPassesEgress i rack ip s
  | .beacon | .echoAnswer | .voidReport | .answer _ | .alert => s

/-- The bytes of an originated frame with the fields that are written at egress (R214). -/
def egressBytes (s : State) (q : QFrame) : List Byte :=
  match q.tag with
  | .beacon => beaconAtEgress s q.header q.bytes
  | .ask _ => patch q.bytes (q.header + 14) (snBytes s.clock.date.sn)
  | .echoAnswer => patch q.bytes (q.header + 34) (snBytes s.clock.date.sn)
  | .report _ _ _ | .voidReport => reportAtEgress s q.header q.bytes
  | .answer _ | .alert => q.bytes

/-- A queued frame, already taken off its queue, begins to leave. -/
def grantQueued (p : Port) (o : TxFrom) (q : QFrame) (s : State) : State :=
  let bytes := egressBytes s q
  recordEgress p q.tag
    (s.setPort p { s.port p with tx := some ⟨o, .originated q.tag (bytes ++ fcsOf bytes), s.clock.date, 0⟩ })

/-- A buffered frame, already taken off the buffer, begins to leave. -/
def grantForwarded (p : Port) (f : FwdFrame) (s : State) : State :=
  s.setPort p { s.port p with tx := some ⟨.buffer, .forwarded f, s.clock.date, 0⟩ }

/-! ### The arbiter -/

/-- Whether the oldest general frame joined at least 1 ms of uptime earlier (R122). -/
def generalAged (now : Nat) (q : QFrame) : Bool := q.joined + Config.periodsPerMs ≤ now

/-- What a decision grants: the timing queue's oldest, the general queue's oldest once aged, the buffer's head if ready,
the general queue's oldest (R122). -/
inductive Grant where
  | timing (q : QFrame) (rest : List QFrame)
  | general (q : QFrame) (rest : List QFrame)
  | buffer (f : FwdFrame) (rest : List FwdFrame)
  | nothing
  deriving DecidableEq, Repr

def chooseGrant (now : Nat) (u : PortUnit) : Grant :=
  match u.timing with
  | q :: rest => .timing q rest
  | [] =>
    match u.general with
    | g :: gs =>
      if generalAged now g then .general g gs
      else
        match u.buffer with
        | f :: fs => if f.ready then .buffer f fs else .general g gs
        | [] => .general g gs
    | [] =>
      match u.buffer with
      | f :: fs => if f.ready then .buffer f fs else .nothing
      | [] => .nothing

/-- A decision of a port's arbiter, taken when its transmitter is free and its link UP (R122). -/
def arbitrate (p : Port) (s : State) : State :=
  let u := s.port p
  if u.tx.isSome || !u.up then s
  else
    match chooseGrant s.clock.up u with
    | .timing q rest => grantQueued p .timing q (s.setPort p { u with timing := rest })
    | .general q rest => grantQueued p .general q (s.setPort p { u with general := rest })
    | .buffer f rest => grantForwarded p f (s.setPort p { u with buffer := rest })
    | .nothing => s

/-- The bytes a leaving frame has put on the wire when it is sent to its end. -/
def txBytes (t : Tx) : SentFrame :=
  match t.body with
  | .forwarded f => ⟨forwardedBytes f t.egress, f.cut⟩
  | .originated _ bs => ⟨bs, false⟩

/-- Whether the whole of the leaving frame is in hand, so that its last byte can be sent. -/
def txComplete (t : Tx) : Bool :=
  match t.body with
  | .forwarded f => f.complete
  | .originated _ _ => true

/-- Whether a leaving frame is counted as passed: every frame but one that was cut (R103, R123). -/
def txPasses (t : Tx) : Bool :=
  match t.body with
  | .forwarded f => !f.cut
  | .originated _ _ => true

/-- The last byte of the leaving frame has been sent (R123). -/
def finishTx (p : Port) (t : Tx) (s : State) : State :=
  let u := s.port p
  s.setPort p { u with
    tx := none
    lastSent := some (txBytes t)
    stats := if txPasses t then u.stats.incPassed else u.stats }

/-! ### The frame that is still arriving -/

/-- Whether the frame still arriving has begun to leave. -/
def arrivingLeaves (u : PortUnit) : Bool :=
  match u.tx with
  | some t => !txComplete t
  | none => false

/-- The arriving frame removed from the buffer; one that has begun to leave is cut instead at the bytes that have arrived,
as its rest never comes. -/
def loseArriving (bytes : List Byte) (u : PortUnit) : PortUnit :=
  onArriving (fun x => { x.upTo bytes with complete := true, cut := true }) { u with buffer := u.buffer.filter (fun x => x.complete) }

end Sys2Proof.Machine
end

