-- ==== Sys2Proof/Machine/FaultLog.lean ====
section
/-! DEFINITION. Alerts (R191 to R194), the Event Log's write rule (R142 to R147), and the raising and clearing of faults
(R187, R188). They call each other: a record that is missed raises LOG_FULL, whose own FAULT record is offered in turn,
and an alert may be called for by either. The functions are layered so that each calls only those before it. -/

namespace Sys2Proof.Machine

/-! ### Alerts -/

/-- One more alert of a form not sent, saturating at 65,535 (R192). -/
def suppressAlert (a : AlertForm) (s : State) : State :=
  s.setForm a { s.form a with suppressed := satAdd 65535 (s.form a).suppressed 1 }

/-- The uplink an alert leaves by: U0 if UP, otherwise U1 if UP (R191). -/
def alertUplink (s : State) : Option Port :=
  if (s.port .u0).up then some .u0 else if (s.port .u1).up then some .u1 else none

/-- An alert event of a form: held back, not built for want of a collector or an uplink, or built and offered to the
uplink's general queue (R191, R192). -/
def alertEvent (a : AlertForm) (clear : Bool) (subject : Subject) (d : AlertData) (s : State) : State :=
  if (s.form a).holdoff.isSome then suppressAlert a s
  else if s.cfg.collIp = 0 then suppressAlert a s
  else
    match alertUplink s with
    | none => suppressAlert a s
    | some p =>
      let frame := alertFrame s (s.portRec p).gateway a clear subject d
      let out := offerGeneral p .alert (udpUtxOffset none) frame s
      if out.2 then
        arbitrate p (out.1.setForm a ⟨some (s.clock.up + s.cfg.alertHoldoff * Config.periodsPerSec), 0⟩)
      else suppressAlert a out.1

/-! ### The write rule -/

/-- A record as its writer offers it: the kind-specific part, the port, and for a STAMP record its own domain, class and
date (R143). -/
structure Offer where
  body : RecBody
  port : Option Port
  own : Option (Nat × Nat × SN)
  deriving DecidableEq, Repr

/-- A record of the moment's class and date (R143). -/
def Offer.plain (port : Option Port) (body : RecBody) : Offer := ⟨body, port, none⟩

/-- Free slots of the ring (R142). -/
def EventLog.free (l : EventLog) : Nat := Config.logSlots - l.records.length

/-- The log with one record more, taking the next sequence (R142). -/
def EventLog.append (l : EventLog) (port : Option Port) (domain cls : Nat) (date : SN) (body : RecBody) : EventLog :=
  { l with
    records := l.records ++ [⟨l.nextSeq, port, domain, cls, date, body⟩]
    nextSeq := (l.nextSeq + 1) % 4294967296 }

/-- The log with an offered record written. -/
def EventLog.put (l : EventLog) (s : State) (o : Offer) : EventLog :=
  match o.own with
  | some (domain, cls, date) => l.append o.port domain cls date o.body
  | none => l.append o.port 0 s.engineClass s.clock.date.sn o.body

/-- The log with a record missed (R145). -/
def EventLog.miss (l : EventLog) : EventLog := { l with gap := true, missed := satAdd 65535 l.missed 1 }

/-- What became of an offer. -/
inductive Taken where
  /-- Written alone. -/
  | written
  /-- Written behind a GAP record: the gap has ended. -/
  | writtenAfterGap
  /-- Missed while a gap was pending. -/
  | missed
  /-- Missed, beginning a gap. -/
  | missedFirst
  deriving DecidableEq, Repr

/-- A write that leaves the level at or above the threshold in ARMED hands a LOG_LEVEL notice to the Fault Unit, which
sends it as an alert, and the notice state becomes SENT (R147, R194). -/
def levelNotice (s : State) : State :=
  if !s.log.noticeSent && s.cfg.logThreshold ≤ s.log.records.length then
    alertEvent .logLevel false .self ⟨some s.log.records.length, none⟩ (s.setLog { s.log with noticeSent := true })
  else s

/-- Whether an offer made now is written: the memory IN_SERVICE and at least 2 slots free (R144, R152, R154). -/
def logAccepts (l : EventLog) : Bool := l.mem == .inService && decide (2 ≤ l.free)

/-- The write rule for one offered record (R144, R145). -/
def offerBare (o : Offer) (s : State) : State × Taken :=
  if logAccepts s.log then
    if s.log.gap then
      let withGap := s.log.append none 0 s.engineClass s.clock.date.sn (.gap s.log.missed)
      (levelNotice (s.setLog ({ withGap with gap := false, missed := 0 }.put s o)), .writtenAfterGap)
    else (levelNotice (s.setLog (s.log.put s o)), .written)
  else (s.setLog s.log.miss, if s.log.gap then .missed else .missedFirst)

/-! ### Raising and clearing -/

/-- The record of a raise that makes its fault active (R187, step 1). -/
def activate (k : FaultKind) (subject : Subject) (s : State) : State :=
  s.setFault k { active := true, count := satAdd 255 (s.fault k).count 1, lastRaised := some s.upSeconds,
                 lastSubject := some subject }

/-- A raise of an active fault only counts (R187). -/
def countRaise (k : FaultKind) (s : State) : State :=
  s.setFault k { s.fault k with count := satAdd 255 (s.fault k).count 1 }

def deactivate (k : FaultKind) (s : State) : State := s.setFault k { s.fault k with active := false }

/-- The port of a subject, for a record's common part (R187). -/
def Subject.port? : Subject → Option Port
  | .port p => some p
  | .self | .peer _ => none

/-- The FAULT record of a raise or clear, with the response in force (R187, R188). DESIGN CHOICE: the record of a clear
has the port of the clear's subject, as R187 gives it for a raise (log 58). -/
def faultOffer (s : State) (k : FaultKind) (clear : Bool) (subject : Subject) : Offer :=
  .plain subject.port? (.fault k clear (s.response k))

/-- At ALERT and above, an alert of the kind (R187 step 4, R188 step 4). -/
def faultAlert (k : FaultKind) (clear : Bool) (subject : Subject) (d : AlertData) (s : State) : State :=
  if Response.alert.rank ≤ (s.response k).rank then alertEvent (.fault k) clear subject d s else s

/-- The raise of LOG_FULL at the first miss of a gap (R145). Its FAULT record meets a log that has just missed a record
and has a gap pending, so that its miss raises nothing further. -/
def raiseLogFull (s : State) : State :=
  if (s.fault .logFull).active then countRaise .logFull s
  else
    let s := watchSecond (activate .logFull .self s)
    faultAlert .logFull false .self .nothing (offerBare (faultOffer s .logFull false .self) s).1

/-- LOG_FULL's condition has ended with the GAP record (R145, R188). Its FAULT record is offered to a log with no gap
pending, and may itself be missed and begin a new gap. -/
def clearLogFull (s : State) : State :=
  if (s.fault .logFull).active then
    let s := deactivate .logFull s
    let out := offerBare (faultOffer s .logFull true .self) s
    faultAlert .logFull true .self .nothing (if out.2 = .missedFirst then raiseLogFull out.1 else out.1)
  else s

/-- A record offered to the Event Log (R144, R145). -/
def offerRecord (o : Offer) (s : State) : State :=
  let out := offerBare o s
  match out.2 with
  | .missedFirst => raiseLogFull out.1
  | .writtenAfterGap => clearLogFull out.1
  | .written => out.1
  | .missed => out.1

/-- LOG_FULL raised again as a soft reset completes with a gap pending (R160). Its FAULT record may be the one that is
written behind the GAP record; the condition then ends after the raise. -/
def raiseLogFullAgain (s : State) : State :=
  if (s.fault .logFull).active then countRaise .logFull s
  else
    let s := watchSecond (activate .logFull .self s)
    let out := offerBare (faultOffer s .logFull false .self) s
    let s := faultAlert .logFull false .self .nothing out.1
    if out.2 = .writtenAfterGap then clearLogFull s else s

/-- A raise reaching the Fault Unit, steps 1 to 4 of R187; `record` is false where a DRIFT record stands in the FAULT
record's place. The suspension of selection that a HOLD begins (step 5) is with the Source Table. -/
def raiseFault (k : FaultKind) (subject : Subject) (record : Bool) (d : AlertData) (s : State) : State :=
  if (s.fault k).active then countRaise k s
  else
    let s := watchSecond (activate k subject s)
    let s := if record then offerRecord (faultOffer s k false subject) s else s
    faultAlert k false subject d s

/-- A clear of an active fault, steps 1 to 4 of R188; an end reported for an inactive fault changes nothing. -/
def clearFault (k : FaultKind) (subject : Subject) (record : Bool) (d : AlertData) (s : State) : State :=
  if (s.fault k).active then
    let s := deactivate k s
    let s := if record then offerRecord (faultOffer s k true subject) s else s
    faultAlert k true subject d s
  else s

end Sys2Proof.Machine
end

