-- ==== Sys2Proof/Machine/Select.lean ====
section
/-! DEFINITION. The rate handed to the Rack Clock (R3, R68), the Servo's own transitions on a change of selection (R72,
R73, R75), and the Source Table's selection: rank, re-evaluation, records and SOURCE_LOST (R45 to R50, R54). -/

namespace Sys2Proof.Machine

/-! ### Rates -/

/-- `x / d` rounded to the nearest integer, halves away from zero. -/
def roundHalfAway (x : Int) (d : Int) : Int :=
  if 0 ≤ x then (2 * x + d) / (2 * d) else -((2 * -x + d) / (2 * d))

/-- Δ of a rate r: r × 16,777,216 / 1,000,000,000 to the nearest integer (R68). -/
def rateDelta (r : Int) : Int := roundHalfAway (r * 16777216) 1000000000

/-- The increment of a rate (R3). -/
def incrementOf (r : Int) : Nat := ((Config.nominalInc : Int) + rateDelta r).toNat

/-- The Servo sets r and hands it to the Rack Clock, which recomputes I (R3, R68). -/
def handRate (r : Int) (s : State) : State :=
  (s.setServo { s.servo with r := r }).setClock { s.clock with inc := incrementOf r }

/-! ### Servo states -/

/-- The servo state changed, the SECOND line seeing the new class at once (R69, R13). -/
def setServoState (st : ServoState) (s : State) : State := watchSecond (s.setServo { s.servo with st := st })

/-- A STATE record for a change from `old` to the present state (R69). -/
def offerState (old : ServoState) (s : State) : State :=
  offerRecord (.plain none (.state old s.servo.st s.engineClass)) s

/-- Excursion record, lock counter and unlock counter at their start (R72, R73, R75). -/
def Servo.clearCounts (v : Servo) : Servo := { v with excSign := .none, excCount := 0, lockCtr := 0, unlockCtr := 0 }

/-- The Servo's transition when an entry becomes SELECTED where none was, before any record of it (R71, R72). -/
def servoFollows (s : State) : State :=
  setServoState .acquiring (s.setServo { s.servo.clearCounts with catchDown := false, expired := false })

/-- The Servo's transition when one SELECTED entry replaces another, before any record of it (R73). -/
def servoSwitches (s : State) : State := setServoState .acquiring (s.setServo s.servo.clearCounts)

/-- The Servo's entry to HOLDOVER, before its record (R75). -/
def servoHolds (s : State) : State :=
  setServoState .holdover
    (handRate s.servo.f (s.setServo { s.servo.clearCounts with catchDown := false, holdTimer := 0, expired := false }))

/-! ### Rank -/

/-- Whether an entry may be followed (R45). -/
def selectable (s : State) (e : SourceEntry) : Bool :=
  (e.st == .candidate || e.st == .selected) && decide (e.cls ≤ 4) && (s.port e.port).up && !s.hold

/-- Whether `x` ranks above `y`: class, hops, sender id, then U0 before U1 (R46). -/
def ranksAbove (x y : SourceEntry) : Bool :=
  decide (x.cls < y.cls) || (x.cls == y.cls &&
    (decide (x.hops < y.hops) || (x.hops == y.hops &&
      (decide (x.sender.toNat < y.sender.toNat) || (x.sender == y.sender &&
        decide (portCode x.port < portCode y.port))))))

/-- The better of the best so far and the entry at an index. -/
def betterOf (s : State) (best : Option (Nat × SourceEntry)) (i : Nat) : Option (Nat × SourceEntry) :=
  match s.source i with
  | some e =>
    if selectable s e then
      match best with
      | some (j, b) => if ranksAbove e b then some (i, e) else some (j, b)
      | none => some (i, e)
    else best
  | none => best

/-- The best selectable entry with its index (R46). -/
def bestSource (s : State) : Option (Nat × SourceEntry) := sourceIndices.foldl (betterOf s) none

/-! ### Re-evaluation -/

/-- The state of the entry at an index changed. -/
def setSourceState (i : Nat) (st : SourceState) (s : State) : State :=
  match s.source i with
  | some e => s.setSource i (some { e with st := st })
  | none => s

/-- The SELECTED entry that is leaving the selection only because it is no longer selectable, or is being replaced, becomes
CANDIDATE; one that has become STALE or BARRED keeps that state (R47). -/
def unselect (i : Nat) (s : State) : State := if s.isSelected i then setSourceState i .candidate s else s

/-- What SOURCE_LOST and HOLDOVER_EXPIRED take from a selection: a clear of each that was active (R50, R72). -/
def clearHoldoverExpired (s : State) : State := clearFault .holdoverExpired .self true .nothing s

/-- The SOURCE record of a change (R49). -/
def sourceOffer (old new : Option SourceEntry) (reason : Reason) : Offer :=
  .plain ((new.or old).map (fun e => e.port)) (.source (old.map (fun e => e.sender)) (new.map (fun e => e.sender)) reason)

/-- A STATE record if the servo state is no longer `before`. -/
def offerStateIfChanged (before : ServoState) (s : State) : State :=
  if s.servo.st = before then s else offerState before s

/-- An entry is made SELECTED, in place of `old` if there was one. `sampled` says that the beacon being taken is that
entry's own and follows as a sample: in UNSET the Servo then waits for it (R71). Records and faults in the order of log 13. -/
def select (old : Option (Nat × SourceEntry)) (new : Nat × SourceEntry) (reason : Reason) (sampled : Bool) (s : State) : State :=
  let before := s.servo.st
  let s := match old with | some (i, _) => unselect i s | none => s
  let s := setSourceState new.1 .selected s
  let s :=
    if old.isSome then servoSwitches s
    else if before = .unset && sampled then s
    else servoFollows s
  let s := offerRecord (sourceOffer (old.map (fun x => x.2)) (some new.2) reason) s
  let s := if before = .holdover then clearHoldoverExpired s else s
  let s := offerStateIfChanged before s
  clearFault .sourceLost (.port new.2.port) true .nothing s

/-- The selection ends and leaves none: the Servo enters HOLDOVER from ACQUIRING or LOCKED, and SOURCE_LOST is raised
(R50, R75). -/
def endSelection (old : Nat × SourceEntry) (reason : Reason) (s : State) : State :=
  let before := s.servo.st
  let s := unselect old.1 s
  let s := if before = .acquiring ∨ before = .locked then servoHolds s else s
  let s := offerRecord (sourceOffer (some old.2) none reason) s
  let s := offerStateIfChanged before s
  raiseFault .sourceLost (.port old.2.port) true .nothing s

/-- The re-evaluation of the selection (R47). `old` is the entry that was SELECTED when the event came, with its index;
`why` is the reason R49 gives if that entry has become unselectable; `own` is the index of the entry whose own beacon is
being taken, where it follows as a sample if that entry is SELECTED. -/
def reevaluate (old : Option (Nat × SourceEntry)) (why : Reason) (own : Option Nat) (s : State) : State :=
  match old with
  | some (i, e) =>
    match s.source i with
    | some now =>
      if now.st = .selected ∧ selectable s now = true then
        match bestSource s with
        | some (j, b) => if b.cls < now.cls then select (some (i, e)) (j, b) .better (own = some j) s else s
        | none => s
      else
        match bestSource s with
        | some (j, b) => select (some (i, e)) (j, b) why (own = some j) s
        | none => endSelection (i, e) why s
    | none =>
      match bestSource s with
      | some (j, b) => select (some (i, e)) (j, b) why (own = some j) s
      | none => endSelection (i, e) why s
  | none =>
    match bestSource s with
    | some (j, b) => select none (j, b) .better (own = some j) s
    | none => s

/-- The SELECTED entry with its index, as `reevaluate` takes it. -/
def State.selectedPair (s : State) : Option (Nat × SourceEntry) :=
  s.selectedIndex.bind (fun i => (s.source i).map (fun e => (i, e)))

/-- The re-evaluation that a HOLD's beginning or end calls for, where `before` was the HOLD indication (R54, R187 step 5,
R188 step 5). -/
def reevaluateOnHold (before : Bool) (s : State) : State :=
  if s.hold = before then s else reevaluate s.selectedPair .hold none s

/-- A raise with all its steps (R187). -/
def raiseWithHold (k : FaultKind) (subject : Subject) (record : Bool) (d : AlertData) (s : State) : State :=
  reevaluateOnHold s.hold (raiseFault k subject record d s)

/-- A clear with all its steps (R188). -/
def clearWithHold (k : FaultKind) (subject : Subject) (record : Bool) (d : AlertData) (s : State) : State :=
  reevaluateOnHold s.hold (clearFault k subject record d s)

end Sys2Proof.Machine
end

