-- ==== Sys2Proof/Machine/ClockOps.lean ====
section
/-! DEFINITION. What the Rack Clock does with a period, a step and a load (R1, R2, R7, R9), the second-boundary event and
its takers (R5, R12, R115), aligned instants (R6), and the stamp allocator (R16). -/

namespace Sys2Proof.Machine

/-! ### The date -/

/-- The date at which the clock is held (R2). -/
def maxDate : Date := ⟨Config.maxS, 999999999, 4294967295⟩

/-- One period's advance, and whether it carried into S (R2). -/
def advance (d : Date) (inc : Nat) : Date × Bool :=
  let f := d.f + inc
  let n := d.n + f / Config.fracPerNs
  if n < Config.nsPerSec then (⟨d.s, n, f % Config.fracPerNs⟩, false)
  else if d.s < Config.maxS then (⟨d.s + 1, n - Config.nsPerSec, f % Config.fracPerNs⟩, true)
  else (maxDate, false)

/-- The date a forward step of `amount` ns leads to, and whether it passed a second boundary (R7). -/
def stepDate (d : Date) (amount : Nat) : Date × Bool :=
  let t := d.ns + amount
  if t / Config.nsPerSec ≤ Config.maxS then
    (⟨t / Config.nsPerSec, t % Config.nsPerSec, d.f⟩, decide (d.s < t / Config.nsPerSec))
  else (maxDate, decide (d.s < Config.maxS))

/-- The date `theta` ns before `d`, with the fraction of `d`, within (0, 0) and the maximum date (R71). -/
def dateBack (d : Date) (theta : Int) : Date :=
  let t := (d.ns : Int) - theta
  if t < 0 then ⟨0, 0, d.f⟩
  else
    let sn := snOfNs t.toNat
    if sn.s ≤ Config.maxS then ⟨sn.s, sn.n, d.f⟩ else maxDate

/-! ### The second boundary -/

/-- The SECOND line at a second boundary (R12). -/
def secondPulse (s : State) : State :=
  s.setClock { s.clock with
    secondEnd := if s.engineClass ≤ s.cfg.secLimit then some (s.clock.up + s.cfg.secWidth * Config.periodsPerMs) else none }

/-- A swap of the banks (R111). -/
def performSwap (s : State) : State := s.setMatchTab { s.matchTab with active := !s.matchTab.active, armed := false }

/-- The Lane Path at a second boundary (R115). -/
def armedSwap (s : State) : State := if s.matchTab.armed then performSwap s else s

/-- The second-boundary event, NORMAL or STEPPED, at its two takers that act on both marks (R5). -/
def secondBoundary (s : State) : State := armedSwap (secondPulse s)

/-! ### Steps and loads -/

/-- The clock after a forward step that leads to `moved`, a date with the mark of a boundary passed (R7, R8). -/
def stepTo (moved : Date × Bool) (s : State) : State :=
  let s := s.setClock { s.clock with date := moved.1, epoch := (s.clock.epoch + 1) % 65536 }
  if moved.2 then secondBoundary s else s

/-- A forward step handed to the clock (R7). -/
def forwardStep (amount : Nat) (s : State) : State := stepTo (stepDate s.clock.date amount) s

/-- A load handed to the clock: taken only in UNSET (R1, R9). -/
def load (d : Date) (s : State) : State :=
  if s.servo.st = .unset then s.setClock { s.clock with date := d } else s

/-! ### Aligned instants -/

/-- Nanoseconds of 2^k s for k from -4 on; whole for k from -9 on. -/
def alignedStep (k : Int) : Nat := Config.nsPerSec * 2 ^ (k + 4).toNat / 16

/-- The aligned instant of exponent k that an advance from `old` to `new` moved the date to or past (R6). -/
def alignedInstant (k : Int) (old new : Date) : Option SN :=
  let step := alignedStep k
  if old.ns / step < new.ns / step then some (snOfNs (new.ns / step * step)) else none

/-! ### Uptime -/

/-- A BARRED entry's bar one second later (R53). -/
def countBar (e : SourceEntry) : SourceEntry := if e.st = .barred then { e with bar := e.bar - 1 } else e

/-- Whether the whole uptime seconds count increases with the period that follows `up` (R4). -/
def secondTurns (up : Nat) : Bool := decide (secondsOf up < secondsOf (up + 1))

/-- What an increase of the whole uptime seconds count moves: bars and the holdover timer (R4, R53, R76). -/
def uptimeSecond (s : State) : State :=
  let s := s.setSources (s.sources.map (fun e => e.map countBar))
  if s.servo.st = .holdover then s.setServo { s.servo with holdTimer := satAdd 86400 s.servo.holdTimer 1 } else s

/-! ### The stamp allocator -/

/-- The largest date the allocator issues (R16). -/
def maxEven : SN := ⟨Config.maxS, 999999998⟩

/-- The candidate of a claim: the ingress date with N rounded down to even and f discarded (R16). -/
def candidateOf (ingress : Date) : SN := ⟨ingress.s, ingress.n - ingress.n % 2⟩

/-- The date issued to a claim after the last issued one (R16). -/
def issueDate (last : Option SN) (ingress : Date) : SN :=
  let candidate := candidateOf ingress
  match last with
  | none => candidate
  | some l =>
    let next := if l = maxEven then l else snOfNs (l.ns + 2)
    if candidate.ns < next.ns then next else candidate

/-- The allocator remembers the date it issued (R16). -/
def rememberStamp (d : SN) (s : State) : State := s.setClock { s.clock with lastStamp := some d }

end Sys2Proof.Machine
end

