-- ==== Sys2Proof/Machine/Operands.lean ====
section
/-! DEFINITION. The commands of a control frame as bytes: their codes, lengths, classes and argument fields (R199, R204,
section 12.1.1), and the records that the arguments of the write commands give once their values are limited (R201). -/

namespace Sys2Proof.Machine

/-! ### Enumerated values (section 12.1.1): any other value names nothing -/

def portOf : Nat → Option Port
  | 0 => some .u0
  | 1 => some .u1
  | 2 => some .d0
  | 3 => some .d1
  | _ => none

def laneOf : Nat → Option Lane
  | 0 => some .a
  | 1 => some .b
  | _ => none

def modeOf : Nat → Option Mode
  | 0 => some .boundary
  | 1 => some .transit
  | _ => none

def privilegeOf : Nat → Option Privilege
  | 0 => some .none
  | 1 => some .read
  | 2 => some .full
  | _ => none

def actionOf : Nat → Option Action
  | 0 => some .pass
  | 1 => some .storageMark
  | 2 => some .utxL2
  | 3 => some .utxUdp
  | _ => none

def vlanKindOf : Nat → Option VlanKind
  | 0 => some .any
  | 1 => some .none
  | 2 => some .id
  | _ => none

def logModeOf : Nat → Option LogMode
  | 0 => some .stampAndLog
  | 1 => some .stampOnly
  | 2 => some .logOnly
  | _ => none

def responseOf : Nat → Option Response
  | 0 => some .note
  | 1 => some .alert
  | 2 => some .demote
  | 3 => some .hold
  | _ => none

def resetKindOf : Nat → Option ResetKind
  | 0 => some .soft
  | 1 => some .softReload
  | 2 => some .full
  | _ => none

/-- A port that is an uplink (R162). -/
def uplinkOf (n : Nat) : Option Port := (portOf n).filter (fun p => p.isUplink)

/-! ### Argument fields (R204) -/

def portArgOf (a : List Byte) : PortArg :=
  { port := a.getD 0 0, privilege := a.getD 1 0, link := a.getD 2 0, echoEnable := a.getD 3 0, exponent := a.getD 4 0,
    timeout := bitsAt 2 a 5, asym := bitsAt 4 a 7, gateway := bitsAt 6 a 11 }

def laneArgOf (a : List Byte) : LaneArg :=
  { lane := a.getD 0 0, mode := a.getD 1 0, exponent := a.getD 2 0, thinning := a.getD 3 0 }

def overrideArgOf (a : List Byte) : OverrideArg :=
  { index := a.getD 0 0, port := a.getD 1 0, sender := bitsAt 8 a 2, asym := bitsAt 4 a 10, valid := a.getD 14 0 }

def peerArgOf (a : List Byte) : PeerArg :=
  { index := a.getD 0 0, enabled := a.getD 1 0, rack := bitsAt 4 a 2, ip := bitsAt 4 a 6, preferred := a.getD 10 0 }

def servoArgOf (a : List Byte) : ServoArg :=
  { stepThreshold := bitsAt 4 a 0, lockWindow := bitsAt 4 a 4, lockCount := a.getD 8 0, unlockCount := a.getD 9 0,
    sp := a.getD 10 0, si := a.getD 11 0, catchRate := bitsAt 2 a 12, plausibility := bitsAt 2 a 14,
    holdoverLimit := bitsAt 4 a 16, secWidth := bitsAt 2 a 20, secLimit := a.getD 22 0 }

def driftArgOf (a : List Byte) : DriftArg :=
  { barTime := bitsAt 4 a 0, exponent := a.getD 4 0, roundTrip := bitsAt 4 a 5, offsetThreshold := bitsAt 4 a 9,
    driftThreshold := bitsAt 4 a 13, quorum := a.getD 17 0, barOn := a.getD 18 0, alertHoldoff := bitsAt 2 a 19,
    logThreshold := bitsAt 2 a 21 }

/-- The 32 bytes of a match entry (section 12.3). -/
def matchArgOf (a : List Byte) : MatchArg :=
  { valid := a.getD 0 0, action := a.getD 1 0, ethertype := bitsAt 2 a 2, vlanKind := a.getD 4 0, vlanId := bitsAt 2 a 5,
    ports := a.getD 7 0, patPresent := a.getD 8 0, patOffset := a.getD 9 0, patValue := bitsAt 4 a 10,
    patMask := bitsAt 4 a 14, stampOffset := bitsAt 2 a 18, keyOffset := bitsAt 2 a 20, domain := a.getD 22 0,
    logMode := a.getD 23 0, freeze := a.getD 24 0 }

/-! ### Commands of a control frame -/

/-- The fixed argument length of a command code; none for a code that names no command (R199, R204). -/
def commandLength : Nat → Option Nat
  | 1 => some 0
  | 2 => some 0
  | 3 => some 5
  | 4 => some 0
  | 5 => some 1
  | 6 => some 33
  | 7 => some 0
  | 8 => some 1
  | 9 => some 25
  | 10 => some 9
  | 11 => some 17
  | 12 => some 25
  | 13 => some 1
  | 14 => some 32
  | 15 => some 24
  | 16 => some 2
  | 17 => some 10
  | 18 => some 4
  | 19 => some 4
  | 20 => some 3
  | 21 => some 0
  | 22 => some 0
  | 23 => some 0
  | 24 => some 0
  | 25 => some 1
  | _ => none

/-- Write-class commands are every one but IDENTIFY, READ_CLOCK, READ_TABLE and LOG_STATUS (section 11.2). -/
def isWriteClass (code : Nat) : Bool := decide (5 ≤ code)

/-- The command that a code and arguments of its fixed length spell. -/
def commandOf (code : Nat) (a : List Byte) : Option Instr :=
  match code with
  | 1 => some .identify
  | 2 => some .readClock
  | 3 => some (.readTable (a.getD 0 0) (bitsAt 2 a 1) (bitsAt 2 a 3))
  | 4 => some .logStatus
  | 5 => some (.logTake (a.getD 0 0))
  | 6 => some (.writeMatch (a.getD 0 0) (matchArgOf (a.drop 1)))
  | 7 => some .copyBank
  | 8 => some (.swapBanks (a.getD 0 0))
  | 9 => some (.writePort (portArgOf a))
  | 10 => some (.writeLane (laneArgOf a))
  | 11 => some (.writeOverride (overrideArgOf a))
  | 12 => some (.writePeer (peerArgOf a))
  | 13 => some (.clearPeer (a.getD 0 0))
  | 14 => some (.writeServo (servoArgOf a))
  | 15 => some (.writeDrift (driftArgOf a))
  | 16 => some (.writeFault (a.getD 0 0) (a.getD 1 0))
  | 17 => some (.setDate (bitsAt 6 a 0) (bitsAt 4 a 6))
  | 18 => some (.setTrim (bitsAt 4 a 0))
  | 19 => some (.clearFlags (bitsAt 4 a 0))
  | 20 => some (.barSource (a.getD 0 0) (bitsAt 2 a 1))
  | 21 => some .freeze
  | 22 => some .release
  | 23 => some .testLogMemory
  | 24 => some .saveSettings
  | 25 => some (.reset (a.getD 0 0))
  | _ => none

/-! ### Records with their values limited (R201) -/

/-- A flag byte is on when it is nonzero (R204). -/
def isOn (b : Byte) : Bool := b != 0

/-- The record of a WRITE_PORT argument (R31, R125). -/
def portRecOf (a : PortArg) (privilege : Privilege) : PortRec :=
  { privilege := privilege, echoOn := isOn a.echoEnable, k := clampInt (-4) 3 a.exponent.toInt,
    timeoutMs := clampNat 1 100 a.timeout.toNat, asym := clampInt (-1000000) 1000000 a.asym.toInt, gateway := a.gateway }

/-- Whether a value of the argument was limited. -/
def portLimited (a : PortArg) : Bool :=
  let r := portRecOf a .none
  r.k != a.exponent.toInt || r.timeoutMs != a.timeout.toNat || r.asym != a.asym.toInt

/-- The record of a WRITE_LANE argument (R85). -/
def laneRecOf (a : LaneArg) (mode : Mode) : LaneRec :=
  { mode := mode, k := clampInt (-4) 1 a.exponent.toInt, m := clampNat 0 3 a.thinning.toNat }

def laneLimited (a : LaneArg) : Bool :=
  let r := laneRecOf a .boundary
  r.k != a.exponent.toInt || r.m != a.thinning.toNat

/-- The entry of a WRITE_OVERRIDE argument (R36). -/
def overrideOf (a : OverrideArg) (port : Port) : Override :=
  { port := port, sender := a.sender, asym := clampInt (-1000000) 1000000 a.asym.toInt, valid := isOn a.valid }

def overrideLimited (a : OverrideArg) : Bool := (overrideOf a .u0).asym != a.asym.toInt

/-- The configuration part of a WRITE_PEER argument (R162). -/
def peerCfgOf (a : PeerArg) (preferred : Port) : PeerCfg :=
  { enabled := isOn a.enabled, rack := a.rack, ip := a.ip, preferred := preferred }

/-- The servo parameters of a WRITE_SERVO argument (R80, section 4.1). -/
def servoParamsOf (a : ServoArg) : ServoParams :=
  let step := clampNat 1000 999999999 a.stepThreshold.toNat
  { stepThreshold := step
    lockWindow := min (clampNat 50 100000 a.lockWindow.toNat) (step - 1)
    lockCount := clampNat 2 32 a.lockCount.toNat
    unlockCount := clampNat 1 16 a.unlockCount.toNat
    sp := clampNat 0 8 a.sp.toNat
    si := clampNat 0 12 a.si.toNat
    catchRate := clampNat 10 500 a.catchRate.toNat
    plausibility := clampNat 10 500 a.plausibility.toNat
    holdoverLimit := clampNat 10 86400 a.holdoverLimit.toNat }

/-- The SECOND width of a WRITE_SERVO argument (section 1.6). -/
def secWidthOf (a : ServoArg) : Nat := clampNat 1 999 a.secWidth.toNat

/-- The SECOND class limit of a WRITE_SERVO argument (section 1.6). -/
def secLimitOf (a : ServoArg) : Nat := clampNat 0 6 a.secLimit.toNat

def servoLimited (a : ServoArg) : Bool :=
  let r := servoParamsOf a
  r.stepThreshold != a.stepThreshold.toNat || r.lockWindow != a.lockWindow.toNat || r.lockCount != a.lockCount.toNat ||
  r.unlockCount != a.unlockCount.toNat || r.sp != a.sp.toNat || r.si != a.si.toNat || r.catchRate != a.catchRate.toNat ||
  r.plausibility != a.plausibility.toNat || r.holdoverLimit != a.holdoverLimit.toNat || secWidthOf a != a.secWidth.toNat ||
  secLimitOf a != a.secLimit.toNat

/-- The drift parameters of a WRITE_DRIFT argument (R181, section 9.1). -/
def driftParamsOf (a : DriftArg) : DriftParams :=
  { barTime := clampNat 10 86400 a.barTime.toNat
    k := clampInt (-2) 3 a.exponent.toInt
    roundTrip := clampNat 1000 10000000 a.roundTrip.toNat
    offsetThreshold := clampNat 100 100000000 a.offsetThreshold.toNat
    driftThreshold := clampNat 10 100000 a.driftThreshold.toNat
    quorum := clampNat 3 32 a.quorum.toNat
    barOn := isOn a.barOn }

/-- The alert holdoff of a WRITE_DRIFT argument (R204). -/
def holdoffOf (a : DriftArg) : Nat := clampNat 1 3600 a.alertHoldoff.toNat

/-- The log level threshold of a WRITE_DRIFT argument (R204). -/
def thresholdOf (a : DriftArg) : Nat := clampNat 1 4095 a.logThreshold.toNat

def driftLimited (a : DriftArg) : Bool :=
  let r := driftParamsOf a
  r.barTime != a.barTime.toNat || r.k != a.exponent.toInt || r.roundTrip != a.roundTrip.toNat ||
  r.offsetThreshold != a.offsetThreshold.toNat || r.driftThreshold != a.driftThreshold.toNat ||
  r.quorum != a.quorum.toNat || holdoffOf a != a.alertHoldoff.toNat || thresholdOf a != a.logThreshold.toNat

/-- The ports of a port set byte; bits 4 to 7 are ignored (section 12.3). -/
def portSetOf (b : Byte) : Quad Bool := ⟨b.getLsbD 0, b.getLsbD 1, b.getLsbD 2, b.getLsbD 3⟩

/-- The entry of a match argument, its enumerated fields as named (R112). -/
def matchEntryOf (a : MatchArg) (action : Action) (vlanKind : VlanKind) (logMode : LogMode) : MatchEntry :=
  { valid := isOn a.valid, action := action, ethertype := a.ethertype, vlanKind := vlanKind
    vlanId := clampNat 0 4094 a.vlanId.toNat
    ports := portSetOf a.ports
    patPresent := isOn a.patPresent
    patOffset := clampNat 0 127 a.patOffset.toNat
    patValue := a.patValue
    patMask := a.patMask
    stampOffset := clampNat 0 9188 a.stampOffset.toNat
    keyOffset := clampNat 0 9192 a.keyOffset.toNat
    domain := clampNat 0 15 a.domain.toNat
    logMode := logMode
    freeze := isOn a.freeze }

def matchLimited (a : MatchArg) : Bool :=
  let r := matchEntryOf a .pass .any .stampAndLog
  r.vlanId != a.vlanId.toNat || r.patOffset != a.patOffset.toNat || r.stampOffset != a.stampOffset.toNat ||
  r.keyOffset != a.keyOffset.toNat || r.domain != a.domain.toNat

/-- The response a kind takes when a level is asked for: at most the kind's maximum (R186). -/
def FaultKind.limitResponse (k : FaultKind) (r : Response) : Response :=
  match k.maxResponse, r with
  | .alert, .demote => .alert
  | .alert, .hold => .alert
  | .demote, .hold => .demote
  | _, r => r

/-- DONE, or CLAMPED if a value was limited (R201). -/
def doneOr (limited : Bool) : Status := if limited then .clamped else .done

end Sys2Proof.Machine
end

