-- ==== Sys2Proof/Machine/Servo.lean ====
section
/-! DEFINITION. The Servo: a sample of the selected source from its offset to its lock count (R58 to R74), the expiry of a
holdover (R76), and the Servo's side of SET_DATE, SET_TRIM and WRITE_SERVO (R78 to R80). -/

namespace Sys2Proof.Machine

/-- A sample as the Source Table hands it over: ingress and origin date, transit sum, path delay, asymmetry, the recorded
exponent and the epoch changed flag (R58). -/
structure ServoSample where
  ingress : Date
  origin : SN
  sum : Int
  p : Nat
  asym : Int
  k : Int
  epochChanged : Bool
  deriving DecidableEq, Repr

/-! ### The offset -/

/-- θ_exact in units of 2^-16 ns (R59). -/
def thetaExact (x : ServoSample) : Int :=
  (x.ingress.ns : Int) * Config.unitsPerNs + (x.ingress.f / 65536 : Nat) -
    ((x.origin.ns : Int) * Config.unitsPerNs + x.sum + x.p + x.asym * Config.unitsPerNs)

/-- θ_exact rounded to whole ns, halves away from zero, not saturated (R59). -/
def thetaRounded (x : ServoSample) : Int := roundHalfAway (thetaExact x) Config.unitsPerNs

/-- θ, saturated to ±999,999,999 ns (R59). -/
def thetaOf (x : ServoSample) : Int := clampInt (-999999999) 999999999 (thetaRounded x)

/-- The far flag: θ had to be saturated (R59). -/
def thetaFar (x : ServoSample) : Bool := thetaOf x != thetaRounded x

/-- The Servo's interval exponent: as recorded, limited to -4 to 1 (R58). -/
def servoExponent (k : Int) : Int := clampInt (-4) 1 k

/-! ### Excursions -/

/-- The excursion record after a sample (R60). -/
def excursion (threshold : Nat) (theta : Int) (sign : ExcSign) (count : Nat) : ExcSign × Nat :=
  if theta < -(threshold : Int) then
    (if sign = .behind ∧ 1 ≤ count then (.behind, 2) else (.behind, 1))
  else if (threshold : Int) < theta then
    (if sign = .ahead ∧ 1 ≤ count then (.ahead, 2) else (.ahead, 1))
  else (.none, 0)

/-- The move out of LOCKED to ACQUIRING (R70). -/
def leaveLocked (s : State) : State :=
  if s.servo.st = .locked then
    offerState .locked (setServoState .acquiring (s.setServo { s.servo with lockCtr := 0 }))
  else s

/-- What follows a step of the date by `amount` ns that the clock has made: the STEP record, and what it leaves in the
Servo (R61). -/
def afterStep (amount : Nat) (s : State) : State :=
  let s := offerRecord (.plain none (.step amount s.clock.epoch)) s
  leaveLocked (s.setServo { s.servo with excSign := .none, excCount := 0, lockCtr := 0 })

/-- A step of the date by `amount` ns with its record, and what it leaves in the Servo (R61). -/
def servoStep (amount : Nat) (s : State) : State := afterStep amount (forwardStep amount s)

/-- The forced rate of catch-down (R63). -/
def catchRate (s : State) : Int := -((s.cfg.servo.catchRate * Config.unitsPerPpm : Nat) : Int)

/-- Catch-down starts (R63). -/
def startCatchDown (s : State) : State :=
  leaveLocked (handRate (catchRate s) (s.setServo { s.servo with catchDown := true, lockCtr := 0 }))

/-! ### The filter -/

/-- The error rate e of a sample (R65). -/
def errorRate (theta k : Int) : Int :=
  let x := theta * 1024
  clampInt (-Config.maxRate) Config.maxRate
    (if 0 ≤ k then x / (2 ^ k.toNat : Nat) else x * (2 ^ (-k).toNat : Nat))

/-- The plausibility limit in units (R66). -/
def plausibleUnits (s : State) : Int := ((s.cfg.servo.plausibility * Config.unitsPerPpm : Nat) : Int)

/-- F_new (R66). -/
def integralNew (s : State) (e : Int) : Int := s.servo.f - e / (2 ^ s.cfg.servo.si : Nat)

/-- Whether an integral is plausible (R66). -/
def plausible (s : State) (f : Int) : Bool := decide (-plausibleUnits s ≤ f ∧ f ≤ plausibleUnits s)

/-- The filter update: F, then r with the SAT flag, then the raise of FREQ_IMPLAUSIBLE where F was held (R65 to R67). That
the raise follows r is log 15. -/
def filterUpdate (theta k : Int) (s : State) : State :=
  let e := errorRate theta k
  let f := integralNew s e
  let held := !plausible s f
  let s := if held then s else s.setServo { s.servo with f := f }
  let r := s.servo.f - e / (2 ^ s.cfg.servo.sp : Nat)
  let limited := clampInt (-Config.maxRate) Config.maxRate r
  let s := handRate limited (s.setServo { s.servo with sat := s.servo.sat || limited != r })
  if held then raiseWithHold .freqImplausible .self true .nothing s else s

/-! ### Lock counting -/

/-- Lock counting of a sample (R74). -/
def lockCounting (theta : Int) (s : State) : State :=
  let within := decide (theta.natAbs ≤ s.cfg.servo.lockWindow)
  match s.servo.st with
  | .acquiring =>
    let n := if within then satAdd 32 s.servo.lockCtr 1 else 0
    let s := s.setServo { s.servo with lockCtr := n }
    if within ∧ s.cfg.servo.lockCount ≤ n then
      offerState .acquiring (setServoState .locked (s.setServo { s.servo with unlockCtr := 0 }))
    else s
  | .locked =>
    let n := if within then 0 else satAdd 32 s.servo.unlockCtr 1
    let s := s.setServo { s.servo with unlockCtr := n }
    if within = false ∧ s.cfg.servo.unlockCount ≤ n then leaveLocked s else s
  | .unset | .freerun | .holdover => s

/-! ### A sample -/

/-- A sample in UNSET: the load, and the way to ACQUIRING (R71). -/
def sampleInUnset (x : ServoSample) (s : State) : State :=
  let s := load (dateBack s.clock.date (thetaRounded x)) s
  offerState .unset (setServoState .acquiring (s.setServo { s.servo.clearCounts with catchDown := false }))

/-- Filter and lock counting of a sample that neither steps nor starts nor is taken by catch-down (R58, steps 3 and 4). -/
def filterAndLock (x : ServoSample) (s : State) : State :=
  lockCounting (thetaOf x) (filterUpdate (thetaOf x) (servoExponent x.k) s)

/-- A sample while catch-down is in force, its excursion record already updated (R64). -/
def sampleInCatchDown (x : ServoSample) (s : State) : State :=
  let threshold := (s.cfg.servo.stepThreshold : Int)
  let theta := thetaOf x
  if threshold < theta then s.setServo { s.servo with lockCtr := 0 }
  else
    let released := s.setServo { s.servo with catchDown := false }
    if theta < -threshold ∧ x.epochChanged = true then
      servoStep (-thetaRounded x).toNat (handRate s.servo.f released)
    else filterAndLock x released

/-- A sample outside catch-down, its excursion record already updated (R60 to R63). -/
def sampleOutside (x : ServoSample) (s : State) : State :=
  if s.servo.excSign = .behind ∧ (s.servo.excCount = 2 ∨ x.epochChanged = true) then
    servoStep (-thetaRounded x).toNat s
  else if s.servo.excSign = .ahead ∧ s.servo.excCount = 2 then startCatchDown s
  else filterAndLock x s

/-- A sample in ACQUIRING or LOCKED (R58). -/
def sampleInFollow (x : ServoSample) (s : State) : State :=
  let exc := excursion s.cfg.servo.stepThreshold (thetaOf x) s.servo.excSign s.servo.excCount
  let s := s.setServo { s.servo with
    lastTheta := some (thetaOf x, thetaFar x), excSign := exc.1, excCount := exc.2 }
  if s.servo.catchDown then sampleInCatchDown x s else sampleOutside x s

/-- The Servo takes a sample (R58). -/
def takeSample (x : ServoSample) (s : State) : State :=
  match s.servo.st with
  | .unset => sampleInUnset x s
  | .acquiring | .locked => sampleInFollow x s
  | .freerun | .holdover => s

/-! ### Holdover expiry -/

/-- The holdover limit has been reached (R76). DESIGN CHOICE: the FAULT record is offered before the STATE record
(log 51). -/
def expireHoldover (s : State) : State :=
  let s := watchSecond (s.setServo { s.servo with expired := true })
  offerState .holdover (raiseWithHold .holdoverExpired .self true .nothing s)

/-- An expired holdover is within its limit again (R76). DESIGN CHOICE: the FAULT record is offered before the STATE
record (log 51). -/
def unexpireHoldover (s : State) : State :=
  let s := s.setServo { s.servo with expired := false }
  offerState .holdover (clearWithHold .holdoverExpired .self true .nothing s)

/-- The holdover limit in force against the timer (R76). -/
def judgeHoldover (s : State) : State :=
  if s.servo.st = .holdover then
    if s.servo.expired then (if s.servo.holdTimer < s.cfg.servo.holdoverLimit then unexpireHoldover s else s)
    else if s.cfg.servo.holdoverLimit ≤ s.servo.holdTimer then expireHoldover s
    else s
  else s

/-! ### Parameters and commands -/

/-- F limited to the plausibility limit in force, with r following where it follows F (R80). -/
def clampF (s : State) : State :=
  let f := clampInt (-plausibleUnits s) (plausibleUnits s) s.servo.f
  if f = s.servo.f then s
  else
    let s := s.setServo { s.servo with f := f }
    match s.servo.st with
    | .unset | .freerun | .holdover => handRate f s
    | .acquiring | .locked => s

/-- New servo parameters, SECOND width and class limit in force, and what follows at once (R80, R64, R76, R13). DESIGN
CHOICE: a pulse that runs is judged by the class that the new holdover limit leaves (log 48). -/
def applyServo (p : ServoParams) (width limit : Nat) (s : State) : State :=
  let oldRate := s.cfg.servo.catchRate
  let pulse := s.clock.secondEnd
  let s := clampF (s.setCfg { s.cfg with servo := p, secWidth := width, secLimit := limit })
  let s := if s.servo.catchDown = true ∧ p.catchRate ≠ oldRate then handRate (catchRate s) s else s
  judgePulse pulse (judgeHoldover s)

/-- SET_DATE (R10, R78). -/
def setDateTo (d : SN) (s : State) : State × Status :=
  let limited := decide (999999999 < d.n)
  let d : SN := ⟨d.s, min d.n 999999999⟩
  match s.servo.st with
  | .unset => (offerState .unset (setServoState .freerun (load ⟨d.s, d.n, 0⟩ s)), doneOr limited)
  | .freerun =>
    let now := s.clock.date.ns
    if d.ns < now then (s, .backward)
    else if d.ns = now then (s, doneOr limited)
    else
      let s := forwardStep (d.ns - now) s
      (offerRecord (.plain none (.step ((d.ns - now : Nat) : Int) s.clock.epoch)) s, doneOr limited)
  | .acquiring | .locked | .holdover => (s, .state)

/-- SET_TRIM (R11, R79). -/
def setTrimTo (f : Int) (s : State) : State × Status :=
  match s.servo.st with
  | .unset | .freerun =>
    let v := clampInt (-plausibleUnits s) (plausibleUnits s) f
    let s := s.setCfg { s.cfg with trim := v }
    (handRate v (s.setServo { s.servo with f := v }), doneOr (v != f))
  | .acquiring | .locked | .holdover => (s, .state)

/-- The trim of the settings just loaded (R83). -/
def loadTrim (s : State) : State :=
  let v := clampInt (-plausibleUnits s) (plausibleUnits s) s.cfg.trim
  handRate v ((s.setCfg { s.cfg with trim := v }).setServo { s.servo with f := v })

/-- The Servo's soft reset (R84). DESIGN CHOICE: where the class limit is below 3, a SECOND pulse that runs ends as the
Servo leaves ACQUIRING or LOCKED and the class becomes 3 (R13), though R20 lets a pulse run on at a soft reset (log 48). -/
def servoSoftReset (s : State) : State :=
  let before := s.servo.st
  if before = .acquiring ∨ before = .locked then offerState before (servoHolds s)
  else handRate s.servo.f (s.setServo { s.servo.clearCounts with catchDown := false })

end Sys2Proof.Machine
end

