-- ==== Sys2Proof/Machine/Echo.lean ====
section
/-! DEFINITION. A frame received whole and handed on (R109, R116), and the Path Delay Unit: the interval schedule and the
ask (R22, R23), answers and their samples (R25 to R28), link changes (R30), WRITE_PORT (R31), and echoes answered or
forwarded (R32 to R34). -/

namespace Sys2Proof.Machine

/-! ### Whole frames -/

/-- A frame received whole with a good FCS: its port, ingress capture and the uptime of it, its bytes with the FCS, and
the offset of its UTX header. -/
structure Whole where
  port : Port
  ingress : Date
  up : Nat
  bytes : List Byte
  header : Nat
  deriving DecidableEq, Repr

/-- The bytes from the UTX header to the end of the payload, and beyond it, up to the longest UDP payload, the bytes that
only the length fields of a UDP frame can promise (R213, log 24). -/
def Whole.utx (w : Whole) : List Byte :=
  let held := (w.bytes.take (w.bytes.length - 4)).drop w.header
  held ++ (List.range (Config.answerRoom - held.length)).map (Config.beyondPayload w.bytes w.up)

def Whole.dst (w : Whole) : BitVec 48 := bitsAt 6 w.bytes 0

def Whole.src (w : Whole) : BitVec 48 := bitsAt 6 w.bytes 6

/-- The VLAN tag of a frame, if it has one (R104). -/
def tagOf (bytes : List Byte) : Option (BitVec 16) := if natAt bytes 12 2 = 0x8100 then some (bitsAt 2 bytes 14) else none

/-- A date at an offset of a UTX frame. -/
def snAt (bs : List Byte) (off : Nat) : SN := ⟨natAt bs off 6, natAt bs (off + 6) 4⟩

/-- A frame handed on whole to the elastic buffer of the lane's other port, ready on entry (R109, R116, R117). -/
def forwardWhole (w : Whole) (edit : Edit) (s : State) : State :=
  let out := admitFrame w.port.partner w.bytes.length
    { bytes := w.bytes, sinceHalf := 0, ingress := w.ingress, complete := true, ready := true, cut := false, edit := edit } s
  if out.2 then arbitrate w.port.partner out.1 else out.1

/-! ### The requester -/

/-- The conditions under which an uplink's requester works (R21); a reload holds its start back (R211, log 20). -/
def echoRuns (s : State) (p : Port) : Bool :=
  p.isUplink && s.run == .running && !s.agent.reload && (s.port p).up && (s.portRec p).echoOn

/-- An interval expiry is taken (R23). -/
def takeInterval (p : Port) (s : State) : State :=
  let e := s.echoOf p
  match e.st with
  | .idle =>
    let id := e.nextId
    let out := offerTiming p (.ask id) (headerLen none) (askFrame s id)
      (s.setEcho p { e with nextId := (id + 1) % 65536 })
    if out.2 then arbitrate p (out.1.setEcho p { out.1.echoOf p with st := .queued }) else out.1
  | .queued | .inFlight _ => s

/-- The interval schedule measured from now (R22). -/
def restartInterval (p : Port) (s : State) : State := s.setEcho p { s.echoOf p with sched := some s.clock.up }

/-- The schedule starts if the conditions hold, with an interval expiry at once (R22). -/
def startEcho (p : Port) (s : State) : State := if echoRuns s p then takeInterval p (restartInterval p s) else s

/-- Whether the next interval expiry of an uplink is due (R22). -/
def intervalDue (s : State) (p : Port) : Bool :=
  match (s.echoOf p).sched with
  | some t => echoRuns s p && t + intervalPeriods (s.portRec p).k ≤ s.clock.up
  | none => false

/-- The largest path delay, in units of 2^-16 ns (R21, R26). -/
def maxDelay : Int := 281474976710655

/-- The path delay sample before saturation (R26). -/
def delaySample (t1 t2 t3 t4 : SN) (sum : Int) : Int :=
  ((((t4.ns : Int) - t1.ns) - ((t3.ns : Int) - t2.ns)) * Config.unitsPerNs - sum) / 2

/-- A window of up to 8 with a new member; the oldest goes first (R27, R170). -/
def pushWindow {α : Type} (w : List α) (x : α) : List α := if 8 ≤ w.length then w.drop 1 ++ [x] else w ++ [x]

/-- The smallest of a window (R27); 0 of none. -/
def smallest : List Nat → Nat
  | [] => 0
  | [x] => x
  | x :: rest => min x (smallest rest)

/-- A sample that is not negative joins the window (R27). -/
def takeDelay (p : Port) (x : Nat) (s : State) : State :=
  let e := s.echoOf p
  let w := pushWindow e.window x
  s.setEcho p { e with window := w, p := smallest w, stale := false }

/-- Whether an answer matches the ask in flight (R25). DESIGN CHOICE: the echoed t1 equals the recorded one when both its
fields do, whatever number of ns they spell together (log 47). -/
def answerMatches (o : Outstanding) (utx : List Byte) : Bool :=
  decide (natAt utx 12 2 = o.id) && decide (snAt utx 14 = o.t1)

/-- A matching answer ends the exchange (R25, R26). -/
def endExchange (w : Whole) (s : State) : State :=
  let x := delaySample (snAt w.utx 14) (snAt w.utx 24) (snAt w.utx 34) w.ingress.sn (intAt w.utx 44 8)
  let s := s.setEcho w.port { s.echoOf w.port with st := .idle, run := 0 }
  if x < 0 then s.count w.port Stats.incEchoNegative else takeDelay w.port (min x maxDelay).toNat s

/-- An ECHO_ANSWER to the engine (R25). -/
def answerReceived (w : Whole) (s : State) : State :=
  if w.port.isUplink then
    match (s.echoOf w.port).st with
    | .inFlight o => if answerMatches o w.utx then endExchange w s else s.count w.port Stats.incEchoLate
    | .idle | .queued => s.count w.port Stats.incEchoLate
  else s.count w.port Stats.incEchoLate

/-- Whether the timeout of the ask in flight has expired (R28). -/
def timeoutDue (s : State) (p : Port) : Bool :=
  match (s.echoOf p).st with
  | .inFlight o => decide (o.start + o.len ≤ s.clock.up)
  | .idle | .queued => false

/-- The timeout of the ask in flight expires (R28). -/
def echoTimesOut (p : Port) (s : State) : State :=
  let e := s.echoOf p
  let run := satAdd 255 e.run 1
  (s.setEcho p { e with st := .idle, run := run, stale := e.stale || decide (8 ≤ run) }).count p Stats.incEchoTimeouts

/-- The uplink's echo record at a link DOWN (R30). -/
def echoLinkDown (p : Port) (s : State) : State :=
  if p.isUplink then s.setEcho p { s.echoOf p with st := .idle, run := 0, sched := none } else s

/-- The uplink's echo record at a link UP (R30). -/
def echoLinkUp (p : Port) (s : State) : State :=
  if p.isUplink then startEcho p (s.setEcho p { s.echoOf p with window := [] }) else s

/-- What a written port record does to the requester of its uplink, `old` being the record before (R22, R31). DESIGN CHOICE:
a write that turns echo on and changes k too is taken as a start, with an interval expiry at once (log 64). -/
def echoRewritten (p : Port) (old : PortRec) (s : State) : State :=
  if p.isUplink then
    let new := s.portRec p
    if old.echoOn && !new.echoOn then s.setEcho p { s.echoOf p with st := .idle, sched := none }
    else if !old.echoOn && new.echoOn then startEcho p s
    else if old.k ≠ new.k then (if echoRuns s p then restartInterval p s else s)
    else s
  else s

/-- The unit's soft reset for one uplink (R38). -/
def Echo.softReset (e : Echo) : Echo :=
  { e with st := .idle, window := [], p := 0, run := 0, stale := false, sched := none }

/-- CLEAR_FLAGS on a path-stale flag (R29). -/
def clearStale (p : Port) (s : State) : State := s.setEcho p { s.echoOf p with stale := false, run := 0 }

/-! ### The answerer and echoes in transit -/

/-- An ECHO_ASK is answered on the port it arrived on (R32). -/
def answerAsk (w : Whole) (s : State) : State :=
  let tag := tagOf w.bytes
  let out := offerTiming w.port .echoAnswer (headerLen tag) (echoAnswerFrame s w.src tag w.utx w.ingress.sn) s
  if out.2 then arbitrate w.port out.1 else out.1

/-- An ECHO_ASK by destination, port and lane mode (R33). Where the engine's own MAC is also the group MAC the group rows are
taken: DESIGN CHOICE (log 55). -/
def handleAsk (w : Whole) (s : State) : State :=
  let transit := (s.laneRec w.port.lane).mode == .transit
  let withResidence := forwardWhole w (.transit (w.header + 24) 0) s
  if w.dst = s.cfg.group then
    (if w.port.isUplink || !transit then answerAsk w s else withResidence)
  else if w.dst = s.cfg.mac then
    (if w.port.isUplink || !transit then answerAsk w s else s)
  else if transit then withResidence
  else forwardWhole w .none s

/-- An ECHO_ANSWER by destination and lane mode (R33). -/
def handleAnswer (w : Whole) (s : State) : State :=
  if w.dst = s.cfg.group ∨ w.dst = s.cfg.mac then answerReceived w s
  else if (s.laneRec w.port.lane).mode = .transit then forwardWhole w (.transit (w.header + 44) 0) s
  else forwardWhole w .none s

end Sys2Proof.Machine
end

