-- ==== Sys2Proof/Machine/Sources.lean ====
section
/-! DEFINITION. Beacons into the Source Table (R40 to R43, R48), asymmetry (R35), silence (R44), bars (R51 to R53), and
the Beacon Unit: where a beacon goes (R86, R87, R92 to R95) and origination (R88, R90). -/

namespace Sys2Proof.Machine

/-! ### Asymmetry -/

/-- The asymmetry of a beacon (R35). -/
def asymmetryOf (s : State) (p : Port) (sender : BitVec 64) : Int :=
  match s.cfg.overrides.toList.find? (fun o => o.valid && o.port == p && o.sender == sender) with
  | some o => o.asym
  | none => (s.portRec p).asym

/-! ### The table -/

/-- The index of the entry with a key (R40). -/
def findSource (s : State) (p : Port) (sender : BitVec 64) : Option Nat :=
  sourceIndices.find? (fun i =>
    match s.source i with
    | some e => e.sender == sender && e.port == p
    | none => false)

/-- The lowest index that holds nothing (R42). -/
def freeSource (s : State) : Option Nat := sourceIndices.find? (fun i => (s.source i).isNone)

/-- The longest-silent STALE entry so far and the entry at an index; the lower index of equals stays (R42). -/
def longerStale (s : State) (best : Option (Nat × Nat)) (i : Nat) : Option (Nat × Nat) :=
  match s.source i with
  | some e =>
    if e.st = .stale then
      match best with
      | some (j, t) => if e.heardAt < t then some (i, e.heardAt) else some (j, t)
      | none => some (i, e.heardAt)
    else best
  | none => best

/-- The STALE entry that a new one replaces (R42). -/
def replaceSource (s : State) : Option Nat := (sourceIndices.foldl (longerStale s) none).map (fun x => x.1)

/-- An entry updated by a beacon (R41, R43). -/
def updateEntry (e : SourceEntry) (w : Whole) : SourceEntry :=
  let epoch := natAt w.utx 41 2
  { e with
    origin := bitsAt 8 w.utx 12
    cls := min (byteAt w.utx 38) 6
    hops := byteAt w.utx 39
    k := intAt w.utx 40 1
    epoch := epoch
    epochChanged := e.epochChanged || epoch != e.epoch
    lastHeard := secondsOf w.up
    heardAt := w.up
    beacons := satAdd 65535 e.beacons 1
    st := if e.st = .stale then .candidate else e.st }

/-- An entry created by a beacon (R42). -/
def newEntry (w : Whole) : SourceEntry :=
  { sender := bitsAt 8 w.utx 4, port := w.port, origin := bitsAt 8 w.utx 12, cls := min (byteAt w.utx 38) 6,
    hops := byteAt w.utx 39, k := intAt w.utx 40 1, epoch := natAt w.utx 41 2, epochChanged := false,
    lastHeard := secondsOf w.up, heardAt := w.up, beacons := 1, st := .candidate, bar := 0 }

/-- The sample of a beacon, with the P and A resolved for it (R48, R58). -/
def sampleOf (w : Whole) (e : SourceEntry) (p : Nat) (a : Int) : ServoSample :=
  { ingress := w.ingress, origin := snAt w.utx 20, sum := intAt w.utx 30 8, p := p, asym := a, k := e.k,
    epochChanged := e.epochChanged }

/-- Steps 2 and 3 of R48 once the beacon's entry stands at index `i`: the re-evaluation, and the sample if the entry is
SELECTED. `old` is the entry that was SELECTED before the beacon. -/
def afterBeacon (w : Whole) (i p : Nat) (a : Int) (old : Option (Nat × SourceEntry)) (s : State) : State :=
  let s := watchSecond (reevaluate old .lost (some i) s)
  if s.isSelected i then
    match s.source i with
    | some e => takeSample (sampleOf w e p a) (s.setSource i (some { e with epochChanged := false }))
    | none => s
  else s

/-- A beacon from an uplink is taken into the Source Table, or ignored (R40, R41, R42, R48). -/
def beaconIntoTable (w : Whole) (s : State) : State :=
  let sender := bitsAt 8 w.utx 4
  if sender = s.cfg.engineId ∨ bitsAt 8 w.utx 12 = s.cfg.engineId then s.count w.port Stats.incBeaconsIgnored
  else
    let p := (s.echoOf w.port).p
    let a := asymmetryOf s w.port sender
    let old := s.selectedPair
    match findSource s w.port sender with
    | some i =>
      match s.source i with
      | some e => afterBeacon w i p a old (s.setSource i (some (updateEntry e w)))
      | none => s
    | none =>
      match (freeSource s).or (replaceSource s) with
      | some i => afterBeacon w i p a old (s.setSource i (some (newEntry w)))
      | none => s.count w.port Stats.incBeaconsIgnored

/-! ### Silence and bars -/

/-- An entry's interval in oscillator periods, its exponent limited to -4 to 3 (R44). -/
def sourceInterval (e : SourceEntry) : Nat := intervalPeriods (clampInt (-4) 3 e.k)

/-- Whether an entry has been silent for `n` intervals (R44). -/
def silentFor (n : Nat) (now : Nat) (e : SourceEntry) : Bool := decide (e.heardAt + n * sourceInterval e ≤ now)

/-- An entry that has fallen silent becomes STALE (R44). -/
def goStale (i : Nat) (s : State) : State := reevaluate s.selectedPair .lost none (setSourceState i .stale s)

/-- The reason and the re-evaluation of a bar set, lifted or ended, `old` being what was SELECTED before it (R47, R49). -/
def afterBar (old : Option (Nat × SourceEntry)) (s : State) : State := reevaluate old .barred none s

/-- The end of a bar at an index: the entry is placed by its silence (R53). -/
def endBar (i : Nat) (e : SourceEntry) (s : State) : State :=
  let old := s.selectedPair
  let e : SourceEntry := { e with bar := 0 }
  afterBar old (s.setSource i
    (if silentFor 8 s.clock.up e then none
     else if silentFor 3 s.clock.up e then some { e with st := .stale }
     else some { e with st := .candidate }))

/-- A bar above 0 set on an entry (R51). -/
def setBar (i : Nat) (e : SourceEntry) (seconds : Nat) (s : State) : State :=
  let old := s.selectedPair
  let s' := s.setSource i (some { e with st := .barred, bar := seconds })
  if e.st = .barred then s' else afterBar old s'

/-- BAR_SOURCE on the entry at an index (R51). -/
def barEntry (i : Nat) (e : SourceEntry) (seconds : Nat) (s : State) : State :=
  if seconds = 0 then (if e.st = .barred then endBar i e s else s) else setBar i e seconds s

/-- The Drift Monitor's call: the SELECTED entry is barred (R52). -/
def barSelected (seconds : Nat) (s : State) : State :=
  match s.selectedPair with
  | some (i, e) => barEntry i e seconds s
  | none => s

/-! ### The Beacon Unit -/

/-- The thinning counter after a beacon (R92). -/
def thinNext (m thin : Nat) : Nat := if thin + 1 < 2 ^ m then thin + 1 else 0

/-- A beacon from the uplink of a TRANSIT lane: thinned, and forwarded with residence and `p` where its turn comes (R92,
R93). -/
def transitBeacon (w : Whole) (p : Nat) (s : State) : State :=
  let l := w.port.lane
  let u := s.lane l
  let moved := s.setLane l { u with thin := thinNext (s.laneRec l).m u.thin }
  if u.thin = 0 then forwardWhole w (.transit (w.header + 30) p) moved else moved

/-- The Beacon Unit takes a beacon; `p` is the path delay at its arrival (R86, R87, R92, R95). -/
def beaconUnit (w : Whole) (p : Nat) (s : State) : State :=
  match (s.laneRec w.port.lane).mode with
  | .boundary => s
  | .transit => if w.port.isUplink then transitBeacon w p s else forwardWhole w .none s

/-- A well-formed beacon (R48): the Source Table first, if it came from an uplink, then the Beacon Unit. -/
def handleBeacon (w : Whole) (s : State) : State :=
  let p := (s.echoOf w.port).p
  beaconUnit w p (if w.port.isUplink then beaconIntoTable w s else s)

/-- The emission record of a lane after an instant (R88, R90). -/
def recordEmission (l : Lane) (instant : SN) (e : Emission) (s : State) : State :=
  s.setLane l { s.lane l with lastInstant := some instant, outcome := some e }

/-- An aligned instant at the Beacon Unit (R88, R90). -/
def originate (l : Lane) (instant : SN) (s : State) : State :=
  if s.engineClass = 6 then recordEmission l instant .cls s
  else if !(s.port l.downlink).up then recordEmission l instant .link s
  else
    let out := offerTiming l.downlink .beacon (headerLen none) (beaconFrame s (s.laneRec l).k) s
    if out.2 then
      let s := recordEmission l instant .sent out.1
      arbitrate l.downlink (s.setLane l { s.lane l with built := satAdd Config.max32 (s.lane l).built 1 })
    else recordEmission l instant .queue out.1

/-- The aligned instants of a lane in the advance from `old` to `new` (R6, R88, R91). DESIGN CHOICE, unsafe: an instant
reached while a SOFT_RELOAD is in progress, between the reset and its completion, is reported and originates as any other,
where R98 has a BOUNDARY lane beacon from the first instant after the reset completes, and R20 and R211 have instants and
blocks go on meanwhile (log 63). -/
def laneInstant (l : Lane) (old new : Date) (s : State) : State :=
  if s.run = .running ∧ (s.laneRec l).mode = .boundary then
    match alignedInstant (s.laneRec l).k old new with
    | some t => originate l t s
    | none => s
  else s

end Sys2Proof.Machine
end

