-- ==== Sys2Proof/Machine/Drift.lean ====
section
/-! DEFINITION. The Drift Monitor: the report schedule and reports (R164, R165), reports received and their samples (R167
to R171), peer states (R172), the verdict (R173 to R180), and writes to the Peer Table (R162, R163). -/

namespace Sys2Proof.Machine

/-! ### The schedule -/

/-- One report interval in oscillator periods (R164). -/
def reportInterval (s : State) : Nat := intervalPeriods s.cfg.drift.k

/-- An interval of the schedule begins now (R164). -/
def startReports (s : State) : State := s.setDrift { s.drift with sched := some ⟨s.clock.up, 0⟩ }

/-- Whether the slot of an index begins now (R164). -/
def slotDue (s : State) (i : Nat) : Bool :=
  match s.drift.sched with
  | some c => s.run == .running && c.next == i && decide (c.start + i * (reportInterval s / 32) ≤ s.clock.up)
  | none => false

/-- The schedule after a slot: the next slot, or the next interval after slot 31 (R164). -/
def nextSlot (s : State) : State :=
  match s.drift.sched with
  | some c =>
    s.setDrift { s.drift with
      sched := some (if c.next < 31 then ⟨c.start, c.next + 1⟩ else ⟨c.start + reportInterval s, 0⟩) }
  | none => s

/-! ### Reports sent -/

/-- The other uplink. -/
def otherUplink : Port → Port
  | .u0 => .u1
  | .u1 => .u0
  | .d0 => .u0
  | .d1 => .u0

/-- The uplink a report leaves by (R165). -/
def reportUplink (s : State) (preferred : Port) : Option Port :=
  if (s.port preferred).up then some preferred
  else if (s.port (otherUplink preferred)).up then some (otherUplink preferred)
  else none

def reportNotSent (i : Nat) (s : State) : State :=
  s.setPeer i { s.peer i with notSent := satAdd Config.max32 (s.peer i).notSent 1 }

def reportSent (i : Nat) (s : State) : State :=
  s.setPeer i { s.peer i with sent := satAdd Config.max32 (s.peer i).sent 1 }

/-- One report of an enabled entry (R165). -/
def sendReport (i : Nat) (s : State) : State :=
  let c := s.peerCfg i
  match reportUplink s c.preferred with
  | none => reportNotSent i s
  | some p =>
    let out := offerTiming p (.report i c.rack c.ip) (udpUtxOffset none)
      (reportFrame s (s.portRec p).gateway c.ip (s.peer i).pair) s
    if out.2 then arbitrate p (reportSent i out.1) else reportNotSent i out.1

/-! ### Samples -/

/-- Round trip δ, saturated to a signed 64-bit value (R169). -/
def roundTrip (t1 t2 t3 t4 : SN) : Int := satSum (((t4.ns : Int) - t1.ns) - ((t3.ns : Int) - t2.ns))

/-- Offset φ (R169). -/
def peerOffset (t1 t2 t3 t4 : SN) : Int :=
  clampInt (-2147483647) 2147483647 ((((t2.ns : Int) - t1.ns) + ((t3.ns : Int) - t4.ns)) / 2)

/-- The sample of smallest δ, the newest of equals; a window is read oldest first (R171). -/
def bestSample : List Sample → Option Sample
  | [] => none
  | x :: rest =>
    match bestSample rest with
    | some b => if x.delta < b.delta then some x else some b
    | none => some x

/-- The drift of a window (R171). -/
def windowDrift (w : List Sample) : Option Int :=
  match w.head?, w.getLast? with
  | some old, some new =>
    if 3 ≤ w.length ∧ old.t4.ns + 4000000000 ≤ new.t4.ns then
      some (clampInt (-1000000) 1000000
        (((new.phi - old.phi) * 1000000000).tdiv ((new.t4.ns : Int) - old.t4.ns)))
    else none
  | _, _ => none

/-- LEARNING with fewer than 3 samples, ACTIVE with 3 or more (R172). -/
def stateOfWindow (w : List Sample) : PeerState := if 3 ≤ w.length then .active else .learning

/-- An accepted sample in an entry (R170 to R172). -/
def acceptSample (d : PeerDyn) (x : Sample) : PeerDyn :=
  let w := pushWindow d.window x
  { d with
    window := w
    accepted := satAdd Config.max32 d.accepted 1
    best := (bestSample w).map (fun b => b.phi)
    drift := windowDrift w
    st := if d.st = .active then .active else stateOfWindow w }

/-- Whether an echoed date is one of an entry's send dates (R168). DESIGN CHOICE: both fields are compared, not the number
of ns that they spell together (log 47). -/
def echoesSendDate (d : PeerDyn) (t : SN) : Bool := d.newer == some t || d.older == some t

/-- What an accepted report's echo part gives an entry, with whether the window changed (R168 to R170). -/
def takeEcho (limit : Nat) (d : PeerDyn) (utx : List Byte) (t4 : SN) : PeerDyn × Bool :=
  if byteAt utx 36 = 1 then
    let t1 := snAt utx 38
    if echoesSendDate d t1 then
      let t2 := snAt utx 48
      let t3 := snAt utx 16
      let delta := roundTrip t1 t2 t3 t4
      if 0 ≤ delta ∧ delta ≤ limit then (acceptSample d ⟨t4, peerOffset t1 t2 t3 t4, delta⟩, true)
      else ({ d with rejected := satAdd Config.max32 d.rejected 1 }, false)
    else ({ d with unmatched := satAdd Config.max32 d.unmatched 1 }, false)
  else (d, false)

/-- An entry after the first three steps of an accepted report (R167, R172). -/
def hearReport (d : PeerDyn) (w : Whole) : PeerDyn :=
  { d with
    received := satAdd Config.max32 d.received 1
    pair := some (snAt w.utx 16, w.ingress.sn)
    reported := some ⟨w.utx.getD 26 0, w.utx.getD 27 0, bitsAt 8 w.utx 28⟩
    lastPort := some w.port
    lastHeard := some (secondsOf w.up)
    heardAt := some w.up
    st := if d.st = .silent then stateOfWindow d.window else d.st }

/-! ### The verdict -/

/-- The peers that count, by index: enabled and ACTIVE (R173). -/
def countingPeers (s : State) : List Nat :=
  (List.range 32).filter (fun i => (s.peerCfg i).enabled && (s.peer i).st == .active)

/-- Insertion into an ascending list. -/
def insertAsc (x : Int) : List Int → List Int
  | [] => [x]
  | y :: rest => if x ≤ y then x :: y :: rest else y :: insertAsc x rest

/-- A list in ascending order. -/
def sortAsc : List Int → List Int
  | [] => []
  | x :: rest => insertAsc x (sortAsc rest)

/-- The lower median: position ⌈m/2⌉ of m ascending values, counting from 1; none of none (R174). -/
def lowerMedian (xs : List Int) : Option Int := (sortAsc xs)[(xs.length - 1) / 2]?

/-- The votes of the counting peers against two limits, with the rack figures (R174). -/
def votes (s : State) (offsetLimit driftLimit : Nat) : Verdict :=
  let peers := countingPeers s
  let offsets := peers.filterMap (fun i => (s.peer i).best)
  let drifts := peers.filterMap (fun i => (s.peer i).drift)
  { n := peers.length
    behindOffset := (offsets.filter (fun x => decide ((offsetLimit : Int) < x))).length
    aheadOffset := (offsets.filter (fun x => decide (x < -(offsetLimit : Int)))).length
    behindDrift := (drifts.filter (fun x => decide ((driftLimit : Int) < x))).length
    aheadDrift := (drifts.filter (fun x => decide (x < -(driftLimit : Int)))).length
    offsetLimit := offsetLimit
    driftLimit := driftLimit
    offsetFigure := lowerMedian offsets
    driftFigure := lowerMedian drifts }

/-- Whether the offset vote has a majority in either sign (R174). -/
def Verdict.offsetMajority (v : Verdict) : Bool := decide (v.n < 2 * v.behindOffset) || decide (v.n < 2 * v.aheadOffset)

/-- Whether the drift vote has a majority in either sign (R174). -/
def Verdict.driftMajority (v : Verdict) : Bool := decide (v.n < 2 * v.behindDrift) || decide (v.n < 2 * v.aheadDrift)

/-- The alert data of a verdict (R193). -/
def Verdict.alertData (v : Verdict) : AlertData := ⟨some (v.offsetFigure.getD 0), some v.driftFigure⟩

/-- The DRIFT record of SELF_DRIFT (R175, R176). -/
def selfRecord (v : Verdict) (clear : Bool) (vote : Vote) : Offer :=
  .plain none (.drift none clear vote (v.offsetFigure.getD 0) v.driftFigure)

/-- SELF_DRIFT is set (R175, R177). -/
def setSelfDrift (v : Verdict) (s : State) : State :=
  let vote : Vote := if v.offsetMajority then .offset else .drift
  let bar := s.servo.st == .locked && s.cfg.drift.barOn
  let s := offerRecord (selfRecord v false vote) s
  let s := s.setDrift { s.drift with episode := some ⟨vote, bar⟩ }
  let s := if bar then barSelected s.cfg.drift.barTime s else s
  raiseWithHold .selfDrift .self false v.alertData s

/-- SELF_DRIFT is cleared (R176). -/
def clearSelfDrift (v : Verdict) (e : Episode) (s : State) : State :=
  let s := offerRecord (selfRecord v true e.vote) s
  let s := s.setDrift { s.drift with episode := none }
  clearWithHold .selfDrift .self false v.alertData s

/-- Stage 1 of a re-evaluation: the votes at the limits of its purpose, and SELF_DRIFT (R173 to R176). -/
def judgeSelf (s : State) : State :=
  let p := s.cfg.drift
  match s.drift.episode with
  | none =>
    let v := votes s p.offsetThreshold p.driftThreshold
    let s := s.setDrift { s.drift with verdict := v }
    if p.quorum ≤ v.n ∧ (v.offsetMajority || v.driftMajority) = true then setSelfDrift v s else s
  | some e =>
    let v := votes s (p.offsetThreshold / 2) (p.driftThreshold / 2)
    let s := s.setDrift { s.drift with verdict := v }
    if p.quorum ≤ v.n ∧ (v.offsetMajority || v.driftMajority) = false then clearSelfDrift v e s else s

/-- The DRIFT record of a peer (R178, R179). -/
def peerRecord (s : State) (i : Nat) (clear : Bool) (vote : Vote) : Offer :=
  let d := s.peer i
  .plain d.lastPort (.drift (some (s.peerCfg i).rack) clear vote (d.best.getD 0) d.drift)

/-- A peer is warned (R178). -/
def warnPeer (i : Nat) (vote : Vote) (s : State) : State :=
  let s := s.setPeer i { s.peer i with warned := some vote }
  let s := offerRecord (peerRecord s i false vote) s
  raiseWithHold .peerDrift (.peer (s.peerCfg i).rack) false ⟨some ((s.peer i).best.getD 0), some (s.peer i).drift⟩ s

/-- A peer's warning is cleared (R179). -/
def unwarnPeer (i : Nat) (vote : Vote) (s : State) : State :=
  let s := s.setPeer i { s.peer i with warned := none }
  offerRecord (peerRecord s i true vote) s

/-- A counting peer in stage 2 (R178, R179). -/
def judgePeer (s : State) (i : Nat) : State :=
  let d := s.peer i
  let p := s.cfg.drift
  let offset := (d.best.getD 0).natAbs
  let drift := d.drift.map (fun x => x.natAbs)
  match d.warned with
  | some vote =>
    if offset ≤ p.offsetThreshold / 2 ∧ drift.all (fun x => decide (x ≤ p.driftThreshold / 2)) = true then unwarnPeer i vote s
    else s
  | none =>
    if s.drift.episode.isSome then s
    else if p.offsetThreshold < offset then warnPeer i .offset s
    else if drift.any (fun x => decide (p.driftThreshold < x)) then warnPeer i .drift s
    else s

/-- A re-evaluation of the verdict, both stages (R173). -/
def judgeRack (s : State) : State :=
  let s := judgeSelf s
  (countingPeers s).foldl judgePeer s

/-! ### Reports received -/

/-- The enabled entry of an address and rack id (R167). -/
def findPeer (s : State) (ip rack : BitVec 32) : Option Nat :=
  (List.range 32).find? (fun i => (s.peerCfg i).enabled && (s.peerCfg i).ip == ip && (s.peerCfg i).rack == rack)

/-- A PEER_REPORT handed to the monitor (R167). -/
def reportReceived (w : Whole) (s : State) : State :=
  match findPeer s (bitsAt 4 w.bytes (w.header - 16)) (bitsAt 4 w.utx 12) with
  | none => s.count w.port Stats.incReportsUnknown
  | some i =>
    let before := s.peer i
    let heard := hearReport before w
    let echoed := takeEcho s.cfg.drift.roundTrip heard w.utx w.ingress.sn
    let s := s.setPeer i echoed.1
    if before.st = .silent ∨ echoed.2 = true then judgeRack s else s

/-- Whether an entry has been silent for 4 report intervals (R172). -/
def peerSilentDue (s : State) (i : Nat) : Bool :=
  let d := s.peer i
  (s.peerCfg i).enabled && (d.st == .learning || d.st == .active) &&
    (match d.heardAt with
     | some t => decide (t + 4 * reportInterval s ≤ s.clock.up)
     | none => false)

/-! ### The Peer Table written -/

/-- The clean dynamic part with the counts kept (R161, R162). -/
def PeerDyn.clean (d : PeerDyn) : PeerDyn :=
  { PeerDyn.reset with
    sent := d.sent, notSent := d.notSent, received := d.received, accepted := d.accepted, rejected := d.rejected,
    unmatched := d.unmatched }

/-- The dynamic part under a written configuration, with whether it was cleared (R162). A write that changes the rack id or
the address and also turns the entry off meets two rows of R162's table: DESIGN CHOICE, the first holds and the counts
become 0 (log 54). -/
def rewrittenPeer (old new : PeerCfg) (d : PeerDyn) : PeerDyn × Bool :=
  if old.rack ≠ new.rack ∨ old.ip ≠ new.ip ∨ (old.enabled = false ∧ new.enabled = true) then (PeerDyn.reset, true)
  else if old.enabled = true ∧ new.enabled = false then (d.clean, true)
  else (d, false)

/-- A waiting report of the entry at an index, whose send date is no longer to be recorded. -/
def voidTag (i : Nat) (q : QFrame) : QFrame :=
  match q.tag with
  | .report j _ _ => if j = i then { q with tag := .voidReport } else q
  | .beacon | .ask _ | .echoAnswer | .voidReport | .answer _ | .alert => q

/-- The reports to an entry that wait in a timing queue as the entry is cleared or rewritten: each still leaves in its
turn, and its send date is not recorded (R163). -/
def voidReports (i : Nat) (s : State) : State :=
  s.setPorts (s.ports.map (fun u => { u with timing := u.timing.map (voidTag i) }))

def setPeerCfg (i : Nat) (c : PeerCfg) (s : State) : State :=
  s.setCfg { s.cfg with peers := s.cfg.peers.setIfInBounds i c }

/-- A configuration part written at an index (R162). Waiting reports lose their record where the write clears the dynamic
part (R163, R166, log 46). -/
def writePeerAt (i : Nat) (c : PeerCfg) (s : State) : State :=
  let wasActive := (s.peer i).st == .active
  let d := rewrittenPeer (s.peerCfg i) c (s.peer i)
  let s := (setPeerCfg i c s).setPeer i d.1
  let s := if d.2 then voidReports i s else s
  if wasActive && d.2 then judgeRack s else s

/-- An entry cleared (R163). -/
def clearPeerAt (i : Nat) (s : State) : State :=
  let wasActive := (s.peer i).st == .active
  let s := voidReports i ((setPeerCfg i ⟨false, 0, 0, .u0⟩ s).setPeer i PeerDyn.reset)
  if wasActive then judgeRack s else s

/-- Whether another enabled entry has a rack id (R162). -/
def rackInUse (s : State) (i : Nat) (rack : BitVec 32) : Bool :=
  (List.range 32).any (fun j => j != i && (s.peerCfg j).enabled && (s.peerCfg j).rack == rack)

/-- The drift parameters written, with the alert holdoff and level threshold, and what follows at once (R181, R164). -/
def applyDrift (p : DriftParams) (holdoff threshold : Nat) (s : State) : State :=
  let oldK := s.cfg.drift.k
  let s := s.setCfg { s.cfg with drift := p, alertHoldoff := holdoff, logThreshold := threshold }
  judgeRack (if p.k ≠ oldK then startReports s else s)

/-- The monitor's soft reset; the schedule waits for its completion (R184, log 20). -/
def driftSoftReset (s : State) : State :=
  s.setDrift { peers := s.drift.peers.map PeerDyn.clean, episode := none, verdict := Verdict.empty, sched := none }

end Sys2Proof.Machine
end

