-- ==== Sys2Proof/Machine/Dating.lean ====
section
/-! DEFINITION. The freeze (R155, R158) and the Dating Unit: claim and stamp (R130, R131), the settling of the stamp
outcome (R132, R137), key and STAMP record (R133, R135, R136). -/

namespace Sys2Proof.Machine

/-! ### Freeze -/

/-- The frozen view as it stands now (R155). -/
def frozenView (t : Trigger) (s : State) : Frozen :=
  { trigger := t, up := s.clock.up, upSeconds := s.upSeconds, clockStatus := clockStatus s, sources := s.sources,
    peerCfgs := s.cfg.peers, peers := s.drift.peers, stats := s.ports.map (fun u => u.stats), faults := s.faults,
    responses := s.cfg.responses }

/-- A freeze trigger: taken in LIVE, ignored in FROZEN (R155, R156). -/
def freezeTrigger (t : Trigger) (s : State) : State :=
  if s.frozen.isSome then s
  else offerRecord (.plain none (.freeze false t)) (s.setFrozen (some (frozenView t s)))

/-- RELEASE (R158). -/
def releaseFreeze (s : State) : State :=
  if s.frozen.isSome then offerRecord (.plain none (.freeze true .command)) (s.setFrozen none) else s

/-! ### The claim -/

/-- The stamp of an issued date (R131). -/
def buildStamp (s : State) (e : MatchEntry) (ingress : Date) (issued : SN) : Stamp :=
  { s := issued.s, n := issued.n, cls := s.engineClass, domain := e.domain, doubt := s.doubt, catchDown := s.servo.catchDown
    floor := s.engineClass == s.floor && decide (s.servoClass < s.floor)
    pushed := decide ((candidateOf ingress).ns < issued.ns)
    noLog := e.logMode == .stampOnly }

/-- The context a claim opens (R129, R130). -/
def openContext (index : Nat) (e : MatchEntry) (ingress : Date) (stamp : Stamp) : DatingCtx :=
  { index := index, stampOffset := e.stampOffset, keyOffset := e.keyOffset, domain := e.domain, logMode := e.logMode,
    freeze := e.freeze, ingress := ingress, stamp := stamp
    outcome := if e.logMode = .logOnly then .unstamped else .pending }

/-- A storage mark at its lookup point: claim, stamp, context, freeze trigger (R130, R138). -/
def openMark (p : Port) (index : Nat) (e : MatchEntry) (ingress : Date) (s : State) : State :=
  let issued := issueDate s.clock.lastStamp ingress
  let s := rememberStamp issued s
  let s := s.setPort p { s.port p with ctx := some (openContext index e ingress (buildStamp s e ingress issued)) }
  if e.freeze then freezeTrigger (.matched index) s else s

/-! ### The stamp outcome -/

/-- The length of the header of a frame's bytes (R104). -/
def frameHeader (bytes : List Byte) : Nat := headerLen (tagOf bytes)

/-- Whether four bytes beyond the last stamp byte have arrived (R117, R132). -/
def stampArrived (c : DatingCtx) (bytes : List Byte) : Bool :=
  decide (frameHeader bytes + c.stampOffset + 16 ≤ bytes.length)

/-- A PENDING outcome is settled: WRITTEN with the stamps applied count, or UNSTAMPED (R132). -/
def settleStamp (p : Port) (written : Bool) (s : State) : State :=
  match (s.port p).ctx with
  | some c =>
    if c.outcome = .pending then
      let s := s.setPort p { s.port p with ctx := some { c with outcome := if written then .written else .unstamped } }
      if written then s.count p Stats.incStamps else s
    else s
  | none => s

/-- A context whose frame the egress side has lost before its outcome was settled (R137). -/
def loseStamp (p : Port) (s : State) : State := settleStamp p false s

/-- Whether the outcome of a port's context is PENDING. -/
def stampPending (u : PortUnit) : Bool :=
  match u.ctx with
  | some c => c.outcome == .pending
  | none => false

/-- The arriving frame's edit, once its stamp is known to fit, and its hold at an end (R117, R132). -/
def readyArriving (p : Port) (edit : Edit) (s : State) : State :=
  s.setPort p (onArriving (fun x => { x with edit := edit, ready := true }) (s.port p))

/-- The stamp is found to fit: the outcome becomes WRITTEN, the hold of the arriving frame ends with the stamp as its edit,
and the egress arbiter decides (R117, R122, R132). -/
def writeStampNow (p : Port) (c : DatingCtx) (bytes : List Byte) (s : State) : State :=
  let s := settleStamp p true s
  arbitrate p.partner
    (readyArriving p.partner (.stamp (frameHeader bytes + c.stampOffset) (stampBytes c.stamp)) s)

/-! ### The record -/

/-- The key of a frame whose payload runs from the header to `stop`: bytes beyond read as zero (R133). -/
def keyOf (c : DatingCtx) (bytes : List Byte) (stop : Nat) : List Byte :=
  slice (bytes.take stop) (frameHeader bytes + c.keyOffset) 8

/-- Whether a key byte lies at or beyond the end of the payload (R133). -/
def shortKey (c : DatingCtx) (bytes : List Byte) (stop : Nat) : Bool :=
  decide (stop < frameHeader bytes + c.keyOffset + 8)

/-- The STAMP record of a context (R135). `stop` is where the payload ends, `len` the frame length. -/
def stampRecord (p : Port) (c : DatingCtx) (bytes : List Byte) (stop len : Nat) (badFcs : Bool) : Offer :=
  { body := .stamp (keyOf c bytes stop) len p.lane (!p.isUplink) c.index (c.outcome == .unstamped)
              (shortKey c bytes stop) badFcs c.stamp.doubt (c.stamp.cls == 6)
    port := some p
    own := some (c.domain, c.stamp.cls, ⟨c.stamp.s, c.stamp.n⟩) }

/-- The context closes, with its record in STAMP_AND_LOG and LOG_ONLY (R135). -/
def closeMark (p : Port) (bytes : List Byte) (stop len : Nat) (badFcs : Bool) (s : State) : State :=
  match (s.port p).ctx with
  | some c =>
    let s := s.setPort p { s.port p with ctx := none }
    if c.logMode = .stampOnly then s else offerRecord (stampRecord p c bytes stop len badFcs) s
  | none => s

/-- A storage mark whose reception ends other than at a proper frame end (R136). -/
def cutMark (p : Port) (bytes : List Byte) (len : Nat) (s : State) : State :=
  match (s.port p).ctx with
  | some c => closeMark p bytes (min bytes.length len) len true (settleStamp p (stampArrived c bytes) s)
  | none => s

end Sys2Proof.Machine
end

