-- ==== Sys2Proof/Machine/Lookup.lean ====
section
/-! DEFINITION. The parser's fields and the Match Table's search (R104 to R106), and what a frame's action is once found
(R108, R110). -/

namespace Sys2Proof.Machine

/-- The ethertype of a frame (R104). -/
def ethertypeOf (bytes : List Byte) : Nat := natAt bytes (frameHeader bytes - 2) 2

/-- The VLAN condition of an entry on a frame's tag (R105). -/
def vlanMatches (e : MatchEntry) (tag : Option (BitVec 16)) : Bool :=
  match e.vlanKind, tag with
  | .any, _ => true
  | .none, none => true
  | .none, some _ => false
  | .id, none => false
  | .id, some t => t.toNat % 4096 == e.vlanId

/-- The pattern of an entry on a frame's bytes, which end before the FCS (R105). -/
def patternMatches (e : MatchEntry) (bytes : List Byte) : Bool :=
  !e.patPresent ||
    (decide (frameHeader bytes + e.patOffset + 4 ≤ bytes.length) &&
      (bitsAt 4 bytes (frameHeader bytes + e.patOffset) &&& e.patMask) == (e.patValue &&& e.patMask))

/-- Whether an entry matches a frame that arrived on a port (R105). `bytes` end before the FCS. -/
def entryMatches (e : MatchEntry) (p : Port) (bytes : List Byte) : Bool :=
  e.valid && e.ethertype.toNat == ethertypeOf bytes && vlanMatches e (tagOf bytes) && e.ports.get p &&
    patternMatches e bytes

/-- The active bank (R111). -/
def MatchTable.activeBank (t : MatchTable) : Vector MatchEntry 64 := if t.active then t.bank1 else t.bank0

/-- The standby bank (R111). -/
def MatchTable.standbyBank (t : MatchTable) : Vector MatchEntry 64 := if t.active then t.bank0 else t.bank1

/-- The table with another standby bank (R112, R113). -/
def MatchTable.setStandby (t : MatchTable) (b : Vector MatchEntry 64) : MatchTable :=
  if t.active then { t with bank0 := b } else { t with bank1 := b }

/-- The lowest-indexed matching entry of a bank from an index on (R106). -/
def searchFrom (p : Port) (bytes : List Byte) : Nat → List MatchEntry → Option (Nat × MatchEntry)
  | _, [] => none
  | i, e :: rest => if entryMatches e p bytes then some (i, e) else searchFrom p bytes (i + 1) rest

/-- The search of a bank (R106). -/
def searchBank (b : Vector MatchEntry 64) (p : Port) (bytes : List Byte) : Option (Nat × MatchEntry) :=
  searchFrom p bytes 0 b.toList

/-- The further checks of UTX_UDP (R106). -/
def udpChecks (s : State) (bytes : List Byte) : Bool :=
  let ip := frameHeader bytes
  ethertypeOf bytes == 0x0800 && byteAt bytes ip == 0x45 && fold16 (sum16 (slice bytes ip 20)) == 0xFFFF &&
    natAt bytes (ip + 6) 2 % 16384 == 0 && byteAt bytes (ip + 9) == 17 &&
    (natAt bytes (ip + 22) 2 == s.cfg.utxPort.toNat || natAt bytes (ip + 22) 2 == s.cfg.mgmtPort.toNat)

/-- What a lookup decides for a frame. -/
inductive Handling where
  | pass
  | mark (index : Nat) (entry : MatchEntry)
  | utxL2
  | utxUdp (mgmt utx : Bool)
  deriving DecidableEq, Repr

/-- The handling of a UTX_UDP frame that passed its checks: taken for a block when it is addressed to the engine, with the
ports it matched (R110). -/
def udpHandling (s : State) (bytes : List Byte) : Handling :=
  let ip := frameHeader bytes
  if bitsAt 4 bytes (ip + 16) = s.cfg.ip then
    .utxUdp (natAt bytes (ip + 22) 2 == s.cfg.mgmtPort.toNat) (natAt bytes (ip + 22) 2 == s.cfg.utxPort.toNat)
  else .pass

/-- The lookup of a frame in the active bank, with the checks of its action (R106, R108, R110). -/
def lookup (s : State) (p : Port) (bytes : List Byte) : Handling :=
  match searchBank s.matchTab.activeBank p bytes with
  | none => .pass
  | some (i, e) =>
    match e.action with
    | .pass => .pass
    | .storageMark => .mark i e
    | .utxL2 => if ethertypeOf bytes = s.cfg.utxEther.toNat then .utxL2 else .pass
    | .utxUdp => if udpChecks s bytes then udpHandling s bytes else .pass

end Sys2Proof.Machine
end

