-- ==== Sys2Proof/Machine/Frames.lean ====
section
/-! DEFINITION. A frame under reception: its lookup point (R104, R106, R116), bytes beyond an edit (R117), its passing of
9,216 bytes (R103), and its end, with the judgment and dispatch of whole frames (R109, R110, R213) and the acceptance of
control frames (R197, R198). -/

namespace Sys2Proof.Machine

/-! ### The lookup point -/

/-- The frame under reception on a port replaced. -/
def setRx (p : Port) (r : Option Rx) (s : State) : State := s.setPort p { s.port p with rx := r }

/-- A frame forwarded as it arrives: admission with 9,216 bytes free, and the frame's stage; whether it was admitted (R116). -/
def forwardArriving (p : Port) (r : Rx) (ready : Bool) (s : State) : State × Bool :=
  let out := admitFrame p.partner Config.maxFrame
    { bytes := r.bytes, sinceHalf := 0, ingress := r.ingress, complete := false, ready := ready, cut := false, edit := .none } s
  (setRx p (some { r with stage := .forwarding out.2 }) out.1, out.2)

/-- A frame with PASS at its lookup point (R108). -/
def passFrame (p : Port) (r : Rx) (s : State) : State := arbitrate p.partner (forwardArriving p r true s).1

/-- A PENDING outcome settled at once where four bytes beyond the stamp have arrived already (R132). -/
def settleArrived (p : Port) (bytes : List Byte) (s : State) : State :=
  match (s.port p).ctx with
  | some c => if c.outcome = .pending ∧ stampArrived c bytes = true then writeStampNow p c bytes s else s
  | none => s

/-- A storage mark at its lookup point (R108, R130, R134, R137). DESIGN CHOICE: the freeze trigger of its entry is taken
before its admission to the elastic buffer, so that the frozen view has no transit drop of its refusal (R138, R155,
log 56). -/
def markFrame (p : Port) (r : Rx) (index : Nat) (e : MatchEntry) (s : State) : State :=
  let out := forwardArriving p r (e.logMode == .logOnly) (openMark p index e r.ingress s)
  if out.2 then arbitrate p.partner (settleArrived p r.bytes out.1) else loseStamp p out.1

/-- The bytes of a frame before its FCS, as far as they have arrived. -/
def beforeFcs (ended : Bool) (bytes : List Byte) : List Byte := if ended then bytes.take (bytes.length - 4) else bytes

/-- The lookup point of a frame; `r` holds the bytes that have arrived, all of them if the frame has ended. A frame that
started in LOADING is forwarded without a lookup (R106, R124). -/
def lookupFrame (p : Port) (r : Rx) (ended : Bool) (s : State) : State :=
  if r.loading then passFrame p r s
  else
    match lookup s p (beforeFcs ended r.bytes) with
    | .pass => passFrame p r s
    | .mark i e => markFrame p r i e s
    | .utxL2 => setRx p (some { r with stage := .storingL2 }) s
    | .utxUdp mgmt utx => setRx p (some { r with stage := .storingUdp mgmt utx (s.portRec p).privilege }) s

/-- Whether a frame's lookup point can be where its bytes now stand (R103, R104). -/
def lookupReached (bytes : List Byte) (ended : Bool) : Bool :=
  decide (bytes.length ≤ Config.maxFrame) &&
    (if ended then decide (Config.minFrame ≤ bytes.length)
     else decide (frameHeader bytes + Config.lookupBytes ≤ bytes.length))

/-! ### Bytes that go on arriving -/

/-- The arriving frame of the lane's other port holds the bytes received so far. -/
def growArriving (p : Port) (bytes : List Byte) (s : State) : State :=
  s.setPort p.partner (onArriving (FwdFrame.upTo bytes) (s.port p.partner))

/-! ### Beyond 9,216 bytes -/

/-- A frame under reception has passed 9,216 bytes, its lookup made (R103, R136). DESIGN CHOICE: byte 9,217, with which it
passes them, counts among the four bytes beyond the stamp and is no byte of the event key (log 37); and the STAMP record of
a mark is offered before the cut frame is put to the arbiter, but where byte 9,217 is itself the fourth byte beyond a PENDING
stamp, the hold ends as the outcome is settled (R132) and the frame is put to the arbiter before the record as well (log 62). -/
def overrun (p : Port) (r : Rx) (s : State) : State :=
  let done := setRx p (some { r with stage := .discarding }) s
  match r.stage with
  | .forwarding inLane =>
    let s := cutMark p r.bytes Config.maxFrame (settleArrived p r.bytes done)
    if inLane then
      arbitrate p.partner
        ((s.setPort p.partner (onArriving
            (fun x => { x.upTo (r.bytes.take Config.maxFrame) with complete := true, ready := true, cut := true })
            (s.port p.partner))).count p.partner (Stats.addTransitDrops 1))
    else s
  | .storingL2 => done.count p Stats.incMalformed
  | .storingUdp _ _ _ => done.count p Stats.incMalformed
  | .parsing => done
  | .discarding => done

/-! ### Whole frames judged -/

/-- The bytes available to a UTX frame of the Ethernet carriage: the whole payload (R213). -/
def availableL2 (bytes : List Byte) : Nat := bytes.length - 4 - frameHeader bytes

/-- The bytes available to a UTX frame of the UDP carriage: the UDP length less 8, none where the length is below 8 or
beyond the IPv4 total length less 20 (R213). Those that the frame does not hold read as log 24 says. -/
def availableUdp (bytes : List Byte) : Nat :=
  let ip := frameHeader bytes
  let len := natAt bytes (ip + 24) 2
  if len < 8 ∨ natAt bytes (ip + 2) 2 < 20 + len then 0 else len - 8

/-- The body length that a kind must have (R213). -/
def bodyFits (kind : Nat) (body : Nat) (utx : List Byte) : Bool :=
  match kind with
  | 1 => body == 32
  | 2 => body == 20
  | 3 => body == 40
  | 4 => (body == 26 && byteAt utx 36 == 0) || (body == 46 && byteAt utx 36 == 1)
  | 5 => decide (5 ≤ body) && decide (12 + body ≤ 1472)
  | _ => false

/-- Header, version and body of a UTX frame (R213, checks 1, 2, 4 and 5). -/
def utxFits (utx : List Byte) (available : Nat) : Bool :=
  decide (12 ≤ available) && byteAt utx 0 == 1 && bodyFits (byteAt utx 1) (natAt utx 2 2) utx &&
    decide (12 + natAt utx 2 2 ≤ available)

/-- A whole frame that is not well formed: counted, and forwarded unchanged (R109). -/
def malformedFrame (w : Whole) (s : State) : State := forwardWhole w .none (s.count w.port Stats.incMalformed)

/-- A whole UTX_L2 frame with a good FCS (R109). -/
def dispatchL2 (w : Whole) (s : State) : State :=
  if utxFits w.utx (availableL2 w.bytes) then
    match byteAt w.utx 1 with
    | 1 => handleBeacon w s
    | 2 => handleAsk w s
    | 3 => handleAnswer w s
    | _ => malformedFrame w s
  else malformedFrame w s

/-! ### Control frames -/

/-- Whether an address lies within the manager prefix (R197). -/
def withinPrefix (s : State) (ip : BitVec 32) : Bool :=
  let shift := 2 ^ (32 - s.cfg.mgrLen)
  ip.toNat / shift == s.cfg.mgrAddr.toNat / shift

/-- The control frame that a whole frame carries (R197, section 12.1). -/
def controlOf (w : Whole) (privilege : Privilege) : CtlFrame :=
  { port := w.port, srcMac := w.src, tag := tagOf w.bytes, srcIp := bitsAt 4 w.bytes (w.header - 16)
    srcPort := bitsAt 2 w.bytes (w.header - 8), privilege := privilege, request := bitsAt 4 w.utx 12
    count := byteAt w.utx 16, body := slice w.utx 17 (natAt w.utx 2 2 - 5) }

/-- A CONTROL frame handed to the agent: accepted into its port's holding place, or dropped (R197, R198). -/
def acceptControl (w : Whole) (privilege : Privilege) (s : State) : State :=
  if privilege ≠ .none ∧ withinPrefix s (bitsAt 4 w.bytes (w.header - 16)) = true ∧ s.run = .running ∧
      s.agent.reload = false then
    (if (s.port w.port).held.isSome then s
     else s.setPort w.port { s.port w.port with held := some (controlOf w privilege) })
  else s

/-- A whole UTX_UDP frame to the engine's address with a good FCS (R110). -/
def dispatchUdp (w : Whole) (mgmt utx : Bool) (privilege : Privilege) (s : State) : State :=
  if utxFits w.utx (availableUdp w.bytes) then
    match byteAt w.utx 1 with
    | 5 => if mgmt then acceptControl w privilege s else malformedFrame w s
    | 4 => if utx then reportReceived w s else malformedFrame w s
    | _ => malformedFrame w s
  else malformedFrame w s

/-! ### The frame's end -/

/-- A forwarded frame's reception ends: its last bytes, the stamp outcome, the arbiter, and the record (R117, R132, R135).
DESIGN CHOICE: the arbiter decides with the frame ready before the STAMP record, and an alert that it calls for, are taken
(log 62). -/
def endForwarded (p : Port) (r : Rx) (inLane : Bool) (s : State) : State :=
  let s := setRx p none s
  let s := if inLane then growArriving p r.bytes s else s
  let s := settleStamp p false (settleArrived p r.bytes s)
  let s :=
    if inLane then
      s.setPort p.partner (onArriving (fun x => { x with complete := true, ready := true }) (s.port p.partner))
    else s
  closeMark p r.bytes (r.bytes.length - 4) r.bytes.length (!fcsGood r.bytes) (arbitrate p.partner s)

/-- The whole frame of a reception that has ended. -/
def wholeOf (p : Port) (r : Rx) (header : Nat) : Whole := ⟨p, r.ingress, r.up, r.bytes, header⟩

/-- The end of a frame whose lookup has been made, its length within 9,216 bytes; `r` holds all its bytes (R109). -/
def endFrame (p : Port) (r : Rx) (s : State) : State :=
  let gone := setRx p none s
  match r.stage with
  | .forwarding inLane => endForwarded p r inLane s
  | .storingL2 =>
    if fcsGood r.bytes then dispatchL2 (wholeOf p r (frameHeader r.bytes)) gone
    else gone.count p Stats.incMalformed
  | .storingUdp mgmt utx privilege =>
    if fcsGood r.bytes then dispatchUdp (wholeOf p r (udpUtxOffset (tagOf r.bytes))) mgmt utx privilege gone
    else gone.count p Stats.incMalformed
  | .parsing => gone
  | .discarding => gone

/-- The frame under reception with `more` bytes. -/
def Rx.grow (r : Rx) (more : List Byte) : Rx := { r with bytes := r.bytes ++ more }

/-- The frame under reception with no byte after byte 9,217, the one whose arrival makes it too long (R103, log 37). -/
def Rx.upToOversize (r : Rx) : Rx := { r with bytes := r.bytes.take (Config.maxFrame + 1) }

/-- The end of reception on a port with all the frame's bytes in `r`: too short, its lookup still to be made where the
command for it has not come (log 22), too long, or ended. Of a frame that is too long the bytes up to 9,217 are taken, as
FRAME_OVERSIZE takes them (R103, log 37). -/
def receiveEnd (p : Port) (r : Rx) (s : State) : State :=
  let r := r.upToOversize
  let len := r.bytes.length
  if r.stage = .parsing ∧ len < Config.minFrame then (setRx p none s).count p.partner (Stats.addTransitDrops 1)
  else
    let ended := decide (len < frameHeader r.bytes + Config.lookupBytes + 4)
    let s := if r.stage = .parsing then lookupFrame p r ended s else s
    match (s.port p).rx with
    | some r' =>
      if Config.maxFrame < len ∧ r'.stage ≠ .discarding then setRx p none (overrun p { r' with bytes := r.bytes } s)
      else endFrame p { r' with bytes := r.bytes } s
    | none => s

/-- Where the frame under reception reaches byte 9,217 with `more` bytes, the engine takes it as too long: its lookup is
made first where the command for it has not come (log 22), and no byte behind byte 9,217 is taken (R103, log 37). -/
def oversizeArrives (p : Port) (more : List Byte) (s : State) : State :=
  match (s.port p).rx with
  | some r =>
    let r := (r.grow more).upToOversize
    if r.stage ≠ .discarding ∧ Config.maxFrame < r.bytes.length then
      let s := if r.stage = .parsing then lookupFrame p r false s else s
      match (s.port p).rx with
      | some r' => overrun p { r' with bytes := r.bytes } s
      | none => s
    else s
  | none => s

end Sys2Proof.Machine
end

