-- ==== Sys2Proof/Machine/Image.lean ====
section
/-! DEFINITION. The settings image: its bytes (section 12.5), the copy a save writes (R207), a read attempt (R206), the
settings of an image that passes with their corrections (R206, R183), and settings put in force by a full load and by a
reload (R206, R211). -/

namespace Sys2Proof.Machine

/-! ### Writing the image -/

/-- A port record of 24 bytes, the link state byte as given (section 12.5, R204). -/
def portRecBytes (link : List Byte) (r : PortRec) : List Byte :=
  be 1 (privilegeCode r.privilege) ++ link ++ flag r.echoOn ++ beInt 1 r.k ++ beSat 2 r.timeoutMs ++ beInt 4 r.asym ++
  beBits 6 r.gateway ++ be 8 0

/-- A lane record of 8 bytes. -/
def laneRecBytes (r : LaneRec) : List Byte := be 1 (modeCode r.mode) ++ beInt 1 r.k ++ beSat 1 r.m ++ be 5 0

/-- An override entry of 16 bytes. -/
def overrideBytes (o : Override) : List Byte :=
  be 1 (portCode o.port) ++ beBits 8 o.sender ++ beInt 4 o.asym ++ flag o.valid ++ be 2 0

/-- A peer configuration part of 24 bytes. -/
def peerCfgBytes (c : PeerCfg) : List Byte :=
  flag c.enabled ++ beBits 4 c.rack ++ beBits 4 c.ip ++ be 1 (portCode c.preferred) ++ be 14 0

/-- The servo parameter block of 32 bytes, with the SECOND width and class limit. -/
def servoBytes (p : ServoParams) (width limit : Nat) : List Byte :=
  beSat 4 p.stepThreshold ++ beSat 4 p.lockWindow ++ beSat 1 p.lockCount ++ beSat 1 p.unlockCount ++ beSat 1 p.sp ++
  beSat 1 p.si ++ beSat 2 p.catchRate ++ beSat 2 p.plausibility ++ beSat 4 p.holdoverLimit ++ beSat 2 width ++
  beSat 1 limit ++ be 9 0

/-- The drift parameter block of 24 bytes, with the alert holdoff and level threshold. -/
def driftBytes (p : DriftParams) (holdoff threshold : Nat) : List Byte :=
  beSat 4 p.barTime ++ beInt 1 p.k ++ beSat 4 p.roundTrip ++ beSat 4 p.offsetThreshold ++ beSat 4 p.driftThreshold ++
  beSat 1 p.quorum ++ flag p.barOn ++ beSat 2 holdoff ++ beSat 2 threshold ++ be 1 0

/-- The image before its CRC: 3,118 bytes (section 12.5). -/
def imageBody (c : Settings) (bank : Vector MatchEntry 64) : List Byte :=
  be 4 0x52544531 ++ be 2 1 ++ be 2 0 ++ be 4 Config.imageLen ++
  beBits 8 c.engineId ++ beBits 4 c.rackId ++ beBits 6 c.mac ++ beBits 4 c.ip ++ beBits 4 c.mgrAddr ++ beSat 1 c.mgrLen ++
  beBits 2 c.utxEther ++ beBits 2 c.utxPort ++ beBits 2 c.mgmtPort ++ beBits 4 c.collIp ++ beBits 2 c.collPort ++
  beBits 6 c.group ++
  [Port.u0, .u1, .d0, .d1].flatMap (fun p => portRecBytes (be 1 0) (c.ports.get p)) ++
  laneRecBytes c.lanes.a ++ laneRecBytes c.lanes.b ++
  bank.toList.flatMap matchBytes ++ c.overrides.toList.flatMap overrideBytes ++ c.peers.toList.flatMap peerCfgBytes ++
  servoBytes c.servo c.secWidth c.secLimit ++ driftBytes c.drift c.alertHoldoff c.logThreshold ++
  c.responses.toList.flatMap (fun r => be 1 r.rank) ++ beInt 4 c.trim

/-- The whole image that a save writes (R207). -/
def imageOf (c : Settings) (bank : Vector MatchEntry 64) : List Byte :=
  let body := imageBody c bank
  body ++ le4 (crc32 body)

/-! ### Reading the image -/

/-- What a read of the whole image gives: bytes the flash does not give read as all ones (R206, log 10). -/
def flashRead (bs : List Byte) : List Byte :=
  (bs ++ List.replicate (Config.imageLen - bs.length) 0xFF).take Config.imageLen

/-- The CRC stored in an image's last four bytes. -/
def storedCrc (img : List Byte) : List Byte := img.drop (Config.imageLen - 4)

/-- A read attempt: the image if magic number, version, length and CRC are right (R206, section 12.5). -/
def readAttempt (bs : List Byte) : Option (List Byte) :=
  let img := flashRead bs
  if natAt img 0 4 = 0x52544531 ∧ natAt img 4 2 = 1 ∧ natAt img 8 4 = Config.imageLen ∧
      storedCrc img = le4 (crc32 (img.take (Config.imageLen - 4))) then
    some img
  else none

/-- The port record at an offset of an image; a privilege that names nothing takes its default (R206). -/
def imagePort (img : List Byte) (off : Nat) : PortRec :=
  let a := portArgOf (0 :: slice img off 24)
  portRecOf a ((privilegeOf a.privilege.toNat).getD PortRec.default.privilege)

/-- The lane record at an offset of an image. -/
def imageLane (img : List Byte) (off : Nat) : LaneRec :=
  let a := laneArgOf (0 :: slice img off 8)
  laneRecOf a ((modeOf a.mode.toNat).getD .boundary)

/-- The override entry at an offset of an image. DESIGN CHOICE: a port that names none is U0 (log 49). -/
def imageOverride (img : List Byte) (off : Nat) : Override :=
  let a := overrideArgOf (0 :: slice img off 16)
  overrideOf a ((portOf a.port.toNat).getD .u0)

/-- The peer configuration part at an offset of an image. -/
def imagePeer (img : List Byte) (off : Nat) : PeerCfg :=
  let a := peerArgOf (0 :: slice img off 24)
  peerCfgOf a ((uplinkOf a.preferred.toNat).getD .u0)

/-- The match entry of an index, at an offset of an image; enumerated values that name nothing take the default of that
index's entry. -/
def imageMatch (img : List Byte) (i off : Nat) : MatchEntry :=
  let a := matchArgOf (slice img off 32)
  let d := defaultBank.getD i MatchEntry.blank
  matchEntryOf a ((actionOf a.action.toNat).getD d.action) ((vlanKindOf a.vlanKind.toNat).getD d.vlanKind)
    ((logModeOf a.logMode.toNat).getD d.logMode)

/-- The bank of an image. -/
def imageBank (img : List Byte) : Vector MatchEntry 64 := Vector.ofFn (fun i => imageMatch img i (169 + 32 * i))

/-- The response of a fault kind at an offset of an image. -/
def imageResponse (img : List Byte) (k : FaultKind) (off : Nat) : Response :=
  k.limitResponse ((responseOf (byteAt img off)).getD k.defaultResponse)

/-- The kind of an index of the fault records. -/
def kindAt (i : Fin 9) : FaultKind := (FaultKind.ofIndex i).getD .sourceLost

/-- An entry whose rack id repeats that of an earlier enabled entry is loaded disabled; `seen` are the enabled entries so
far (R183). -/
def disableRepeats : List (BitVec 32) → List PeerCfg → List PeerCfg
  | _, [] => []
  | seen, c :: rest =>
    if c.enabled then
      (if seen.contains c.rack then { c with enabled := false } :: disableRepeats seen rest
       else c :: disableRepeats (c.rack :: seen) rest)
    else c :: disableRepeats seen rest

/-- The peer configurations of an image (R183, R206). -/
def imagePeers (img : List Byte) : Vector PeerCfg 32 :=
  let all := disableRepeats [] ((List.range 32).map (fun i => imagePeer img (2281 + 24 * i)))
  Vector.ofFn (fun i => all.getD i ⟨false, 0, 0, .u0⟩)

/-- The settings of an image that passed, with their corrections (R206). -/
def imageSettings (img : List Byte) : Settings :=
  let servo := servoArgOf (slice img 3049 32)
  let drift := driftArgOf (slice img 3081 24)
  let limit : Int := (((servoParamsOf servo).plausibility * Config.unitsPerPpm : Nat) : Int)
  { engineId := bitsAt 8 img 12, rackId := bitsAt 4 img 20, mac := bitsAt 6 img 24, ip := bitsAt 4 img 30,
    mgrAddr := bitsAt 4 img 34, mgrLen := clampNat 0 32 (byteAt img 38), utxEther := bitsAt 2 img 39,
    utxPort := bitsAt 2 img 41, mgmtPort := bitsAt 2 img 43, collIp := bitsAt 4 img 45, collPort := bitsAt 2 img 49,
    group := bitsAt 6 img 51,
    ports := ⟨imagePort img 57, imagePort img 81, imagePort img 105, imagePort img 129⟩
    lanes := ⟨imageLane img 153, imageLane img 161⟩
    overrides := Vector.ofFn (fun i => imageOverride img (2217 + 16 * i))
    peers := imagePeers img
    servo := servoParamsOf servo
    secWidth := secWidthOf servo
    secLimit := secLimitOf servo
    drift := driftParamsOf drift
    alertHoldoff := holdoffOf drift
    logThreshold := thresholdOf drift
    responses := Vector.ofFn (fun i => imageResponse img (kindAt i) (3105 + i))
    trim := clampInt (-limit) limit (intAt img 3114 4) }

/-! ### Settings put in force -/

/-- The settings and the bank of a full load, applied to every block as one event (R206, R128). -/
def applyFull (c : Settings) (bank : Vector MatchEntry 64) (source : LoadSource) (version : Nat) (s : State) : State :=
  let s := s.setCfg c
  let s := s.setMatchTab { bank0 := bank, bank1 := bank, active := false, armed := false }
  s.setAgent { s.agent with loadSource := source, imageVersion := version }

/-- The dynamic parts of the peers under reloaded configurations: cleared where the identity changes or the enable does,
the counts kept (R184, log 19). -/
def reloadedPeers (old new : Vector PeerCfg 32) (peers : Vector PeerDyn 32) : Vector PeerDyn 32 :=
  Vector.ofFn (fun i =>
    let d := peers[i]
    if (rewrittenPeer old[i] new[i] d).2 then d.clean else d)

/-- A lane's thinning counter under a reloaded record (log 19). -/
def reloadedThin (old new : LaneRec) (u : LaneUnit) : LaneUnit := if old.m = new.m then u else { u with thin := 0 }

/-- The settings of a passing reload, but for trim, applied as one event (R211, R84, R128, R160, R184, R196). DESIGN
CHOICE: a SECOND pulse that runs is judged once, by the class and the class limit that the whole event leaves, as
WRITE_SERVO judges it (R13, R20, log 48). -/
def applyReload (c : Settings) (bank : Vector MatchEntry 64) (s : State) : State :=
  let old := s.cfg
  let before := s.hold
  let pulse := s.clock.secondEnd
  let s := s.setDrift { s.drift with peers := reloadedPeers old.peers c.peers s.drift.peers }
  let s := s.setLanes ⟨reloadedThin old.lanes.a c.lanes.a s.lanes.a, reloadedThin old.lanes.b c.lanes.b s.lanes.b⟩
  let s := s.setMatchTab { s.matchTab with bank0 := bank, bank1 := bank }
  let s := s.setCfg { c with servo := old.servo, secWidth := old.secWidth, secLimit := old.secLimit, trim := old.trim }
  let s := reevaluateOnHold before (s.setAgent { s.agent with imageVersion := 1 })
  judgePulse pulse (applyServo c.servo c.secWidth c.secLimit s)

end Sys2Proof.Machine
end

