-- ==== Sys2Proof/Machine/Resets.lean ====
section
/-! DEFINITION. Link changes (R100 to R102), the full reset, the soft reset and its completion (R210 to R212, and the reset
values of every chapter), and the ends of the loads (R206, R211). -/

namespace Sys2Proof.Machine

/-- The ports in port order. -/
def allPorts : List Port := [.u0, .u1, .d0, .d1]

/-- Whether a port with its seen-UP flag set is DOWN (R100). -/
def portLost (s : State) (p : Port) : Bool := (s.port p).seenUp && !(s.port p).up

/-- LINK_DOWN's condition: some port with its seen-UP flag set is DOWN; the lowest-numbered such port (R100). -/
def lostPort (s : State) : Option Port := allPorts.find? (portLost s)

/-! ### Soft reset -/

/-- A frame under reception at a soft reset: before its lookup it is kept, to be classified later; one that leaves goes on;
any other is discarded (R128). -/
def softRx (leaves : Bool) (r : Rx) : Rx :=
  match r.stage with
  | .parsing => r
  | .forwarding true => if leaves then r else { r with stage := .discarding }
  | .forwarding false => { r with stage := .discarding }
  | .storingL2 => { r with stage := .discarding }
  | .storingUdp _ _ _ => { r with stage := .discarding }
  | .discarding => r

/-- A port at a soft reset: holding place, buffer and queues emptied, its context closed without a record; a leaving frame
goes on (R128, R141, R212). `leaves` says that the frame it is receiving has begun to leave the lane's other port. -/
def softPort (leaves : Bool) (u : PortUnit) : PortUnit :=
  { u with rx := u.rx.map (softRx leaves), ctx := none, held := none, buffer := [], timing := [], general := [] }

/-- Every port at a soft reset. -/
def softPorts (q : Quad PortUnit) : Quad PortUnit :=
  let out := fun p => softPort (arrivingLeaves (q.get p.partner)) (q.get p)
  ⟨out .u0, out .u1, out .d0, out .d1⟩

/-- The Event Log at a soft reset: a test under way ends without a result (R160). -/
def EventLog.softReset (l : EventLog) : EventLog :=
  match l.mem with
  | .testing _ => { l with records := [], mem := .inService, noticeSent := false }
  | .inService => l
  | .failed => l

/-- The fault records at a soft reset: actives cleared, the rest kept (R196). -/
def FaultUnit.softReset (u : FaultUnit) : FaultUnit := { u with recs := u.recs.map (fun r => { r with active := false }) }

/-- The Management Agent at a soft reset (R207, R212). -/
def Agent.softReset (reload : Bool) (a : Agent) : Agent :=
  { a with
    exec := none
    resetPending := none
    reload := reload
    saving := none
    lastSave := if a.saving.isSome then .abandoned else a.lastSave }

/-- A soft reset as every block takes it at one moment (R211); `reload` is SOFT_RELOAD's. DESIGN CHOICE: the Fault Unit clears
its actives before the Servo offers its STATE record, so that a LOG_FULL raised by the miss of that record stands (log 65). -/
def softResetNow (reload : Bool) (s : State) : State :=
  let s := s.setAgent (s.agent.softReset reload)
  let s := s.setPorts (softPorts s.ports)
  let s := s.setMatchTab { s.matchTab with armed := false }
  let s := s.setEchos (s.echo.map Echo.softReset)
  let s := s.setSources (Vector.replicate 8 none)
  let s := s.setLanes (s.lanes.map (fun u => { u with thin := 0 }))
  let s := s.setFaults s.faults.softReset
  let s := (s.setLog s.log.softReset).setFrozen none
  let s := driftSoftReset s
  servoSoftReset s

/-- The faults raised again as a soft reset completes (R100, R160, R84, R196). `expired` says that the holdover was expired
before any setting of a reload was applied. -/
def raiseAgain (expired : Bool) (s : State) : State :=
  let s := match lostPort s with
    | some p => raiseWithHold .linkDown (.port p) true .nothing s
    | none => s
  let s := if s.log.gap then raiseLogFullAgain s else s
  let s := if s.log.mem = .failed then raiseWithHold .memoryFault .self true .nothing s else s
  if expired && s.servo.st == .holdover && s.servo.expired then raiseWithHold .holdoverExpired .self true .nothing s else s

/-- A soft reset completes: schedules start, and faults whose conditions hold are raised again (R211, R22, R164, R196). DESIGN
CHOICE: their order (logs 20 and 33). -/
def completeSoft (expired : Bool) (s : State) : State :=
  raiseAgain expired (startReports (startEcho .u1 (startEcho .u0 s)))

/-- The state after a full reset, LOADING; the commands that wait are outside the engine (R210, log 3). -/
def fullReset (s : State) : State := { State.reset with pending := s.pending }

/-- The engine held in full reset by the RESET line (R210). -/
def holdReset (s : State) : State := (fullReset s).setRun .held

/-- A commanded reset takes effect (R209). -/
def takeReset (k : ResetKind) (s : State) : State :=
  match k with
  | .full => fullReset s
  | .softReload => softResetNow true s
  | .soft =>
    let s := softResetNow false s
    completeSoft s.servo.expired s

/-- A reset waiting for its answer takes effect (R209). -/
def takePendingReset (s : State) : State :=
  match s.agent.resetPending with
  | some k => takeReset k s
  | none => s

/-! ### Ends of loads -/

/-- The first read attempt that passes, with the load source that says which it was (R206). -/
def loadOutcome (first second : List Byte) : Option (List Byte × LoadSource) :=
  match readAttempt first with
  | some img => some (img, .image)
  | none => (readAttempt second).map (fun img => (img, .retry))

/-- The seen-UP flag of a port as the engine enters RUNNING (R100). -/
def markSeen (u : PortUnit) : PortUnit := { u with seenUp := u.up }

/-- The engine enters RUNNING (R83, R100, R124, R22, R164). DESIGN CHOICE: the order in
which the schedules start (log 20). -/
def enterRunning (s : State) : State :=
  let s := loadTrim (s.setRun .running)
  let s := s.setPorts (s.ports.map markSeen)
  startReports (startEcho .u1 (startEcho .u0 s))

/-- The load of a full reset has ended (R206). -/
def finishLoad (first second : List Byte) (s : State) : State :=
  match loadOutcome first second with
  | some (img, source) => enterRunning (applyFull (imageSettings img) (imageBank img) source 1 s)
  | none =>
    raiseWithHold .settingsFault .self true .nothing
      (enterRunning (applyFull Settings.default defaultBank .defaults 0 s))

/-- The load of a SOFT_RELOAD has ended, and the soft reset completes (R211). -/
def finishReload (first second : List Byte) (s : State) : State :=
  let expired := s.servo.expired
  let done := s.setAgent { s.agent with reload := false }
  match loadOutcome first second with
  | some (img, _) => completeSoft expired (applyReload (imageSettings img) (imageBank img) done)
  | none => raiseWithHold .settingsFault .self true .nothing (completeSoft expired done)

/-! ### Links -/

/-- What a link DOWN loses of the frame its port is receiving (R101, R136). -/
def loseReception (p : Port) (more : List Byte) (s : State) : State :=
  match (s.port p).rx with
  | none => s
  | some r =>
    let r := r.grow more
    let gone := setRx p none s
    match r.stage with
    | .parsing => gone
    | .discarding => gone
    | .storingL2 => gone.count p.partner (Stats.addTransitDrops 1)
    | .storingUdp _ _ _ => gone.count p.partner (Stats.addTransitDrops 1)
    | .forwarding inLane =>
      let s := cutMark p r.bytes r.bytes.length gone
      if inLane then
        (s.setPort p.partner (loseArriving r.bytes (s.port p.partner))).count p.partner (Stats.addTransitDrops 1)
      else s

/-- Pass-through frames of a port's egress side that a link DOWN loses and that are not yet counted (R101). -/
def flushedCount (u : PortUnit) : Nat :=
  (u.buffer.filter (fun f => !f.cut)).length +
    (match u.tx with
     | some t => (match t.body with | .forwarded f => if f.cut then 0 else 1 | .originated _ _ => 0)
     | none => 0)

/-- Whether a link DOWN takes with it the answer that a RESET waits for (R209). -/
def losesResetAnswer (u : PortUnit) : Bool :=
  u.general.any (fun q => q.tag == .answer true) ||
    (match u.tx with
     | some t => (match t.body with | .originated tag _ => tag == .answer true | .forwarded _ => false)
     | none => false)

/-- Whether the frame still arriving is held by a port's egress side. -/
def holdsArriving (u : PortUnit) : Bool := arrivingLeaves u || u.buffer.any (fun f => !f.complete)

/-- A frame under reception that its egress side has lost. -/
def refuseRx (r : Rx) : Rx := if r.stage = .forwarding true then { r with stage := .forwarding false } else r

/-- The egress side of a port at a link DOWN (R101), with what the frame arriving for it learns (R137). -/
def flushEgress (p : Port) (s : State) : State :=
  let u := s.port p
  let n := flushedCount u
  let arriving := holdsArriving u
  let s := s.setPort p { u with
    buffer := [], timing := [], general := [], tx := none, stats := Stats.addTransitDrops n u.stats }
  if arriving then
    let q := p.partner
    loseStamp q (s.setPort q { s.port q with rx := (s.port q).rx.map refuseRx })
  else s

/-- A port's link goes DOWN (R101, R100, R30, R55, R209), in the order of log 21. -/
def linkGoesDown (p : Port) (more : List Byte) (s : State) : State :=
  let lost := losesResetAnswer (s.port p)
  let s := s.setPort p { s.port p with up := false }
  let s := flushEgress p (loseReception p more s)
  let s := echoLinkDown p s
  let s := if (s.port p).seenUp then raiseWithHold .linkDown (.port p) true .nothing s else s
  let s := if p.isUplink then reevaluate s.selectedPair .lost none s else s
  if lost then takePendingReset s else s

/-- The blocks that act on a link coming UP while RUNNING (R100, R102, R30, R55). DESIGN CHOICE: LINK_DOWN is cleared
first, then the Path Delay Unit acts, then the selection is re-evaluated (log 50). -/
def linkBackUp (p : Port) (s : State) : State :=
  let s := s.setPort p { s.port p with seenUp := true }
  let s := if (lostPort s).isNone then clearWithHold .linkDown (.port p) true .nothing s else s
  let s := echoLinkUp p s
  if p.isUplink then reevaluate s.selectedPair .lost none s else s

/-- A port's link comes UP (R100, R102). -/
def linkComesUp (p : Port) (s : State) : State :=
  let s := s.setPort p { s.port p with up := true }
  if s.run = .running then linkBackUp p s else s

end Sys2Proof.Machine
end

