-- ==== Sys2Proof/Machine/Tables.lean ====
section
/-! DEFINITION. READ_TABLE: the entries of each table (R37, R56, R97, R126, R127, R157, R182, R195) and the answer (R203,
section 12.1). The order of the parts of an entry that the owning rules leave to a sentence is log 18. -/

namespace Sys2Proof.Machine

/-- The byte of an enumerated value without a stated code (log 7). -/
def openByte (c : Config.OpenCode) : List Byte := [Config.openCode c]

/-- A path delay or sample of 6 bytes: whole ns in 4, fraction in 2 (section 12.1). -/
def delayBytes (x : Nat) : List Byte := beSat 6 x

/-- Whole milliseconds of uptime of a count of periods, 32 bits saturating. -/
def msBytes (periods : Nat) : List Byte := beSat 4 (periods / Config.periodsPerMs)

/-- A signed value of 4 bytes, or zero for none (R214). -/
def figureBytes (v : Option Int) : List Byte := beInt 4 (v.getD 0)

/-! ### Lane Path -/

/-- A statistics entry (R126). -/
def statsBytes (t : Stats) : List Byte :=
  beSat 4 t.passed ++ beSat 4 t.transitDrops ++ beSat 4 t.malformed ++ beSat 4 t.beaconsIgnored ++ beSat 4 t.echoTimeouts ++
  beSat 4 t.echoLate ++ beSat 4 t.echoNegative ++ beSat 4 t.timingDrops ++ beSat 4 t.generalDrops ++ beSat 4 t.stamps ++
  beSat 4 t.reportsUnknown

/-- Bytes and frames held (section 12.1). -/
def occupancyBytes (bytes frames : Nat) : List Byte := beSat 4 bytes ++ beSat 1 frames

/-- A port record entry (R125, R127). -/
def portEntry (s : State) (p : Port) : List Byte :=
  let r := s.portRec p
  let u := s.port p
  openByte (if u.up then .linkUp else .linkDown) ++ be 1 (privilegeCode r.privilege) ++ flag r.echoOn ++ beInt 1 r.k ++
  beSat 2 r.timeoutMs ++ beInt 4 r.asym ++ beBits 6 r.gateway ++ flag u.seenUp ++
  occupancyBytes (bufferOccupancy u) (bufferHeld u) ++
  occupancyBytes (queueOccupancy u.timing + leavingBytes u .timing) (timingHeld u) ++
  occupancyBytes (queueOccupancy u.general + leavingBytes u .general) (generalHeld u)

/-- What became of the last aligned instant; none is zero (R90, R214). -/
def outcomeByte : Option Emission → List Byte
  | none => be 1 0
  | some .sent => openByte .outcomeSent
  | some .cls => openByte .outcomeClass
  | some .link => openByte .outcomeLink
  | some .queue => openByte .outcomeQueue

/-- A lane entry (R97). DESIGN CHOICE: the thinning counter takes 1 byte (log 18). -/
def laneEntry (s : State) (l : Lane) : List Byte :=
  let r := s.laneRec l
  let u := s.lane l
  be 1 (modeCode r.mode) ++ beInt 1 r.k ++ beSat 1 r.m ++ beSat 1 u.thin ++ snBytes? u.lastInstant ++
  outcomeByte u.outcome ++ beSat 4 u.built

/-! ### Path Delay Unit -/

/-- The ask in flight. -/
def Echo.outstanding (e : Echo) : Option Outstanding :=
  match e.st with
  | .inFlight o => some o
  | .idle | .queued => none

/-- A path delay entry (R37). DESIGN CHOICE: the number of samples, for which section 12.1 lists no width, takes 1 byte
(log 18). -/
def echoEntry (e : Echo) : List Byte :=
  openByte (if e.st = .idle then .echoIdle else .echoAwaiting) ++ flag e.outstanding.isSome ++ beSat 2 e.nextId ++
  beSat 2 ((e.outstanding.map (fun o => o.id)).getD 0) ++ snBytes? (e.outstanding.map (fun o => o.t1)) ++
  beSat 1 e.run ++ flag e.stale ++ beSat 1 e.window.length ++ e.window.flatMap delayBytes ++ delayBytes e.p

/-- An override entry (R37). -/
def overrideEntry (o : Override) : List Byte :=
  be 1 (portCode o.port) ++ beBits 8 o.sender ++ beInt 4 o.asym ++ flag o.valid

/-! ### Source Table -/

def sourceStateByte : SourceState → List Byte
  | .candidate => openByte .srcCandidate
  | .selected => openByte .srcSelected
  | .stale => openByte .srcStale
  | .barred => openByte .srcBarred

/-- A Source Table entry at an uptime: a mark byte, 1 for an index that holds nothing, before the fields (R56). -/
def sourceEntryBytes (up : Nat) : Option SourceEntry → List Byte
  | none => be 1 1
  | some e =>
    be 1 0 ++ beBits 8 e.sender ++ be 1 (portCode e.port) ++ beBits 8 e.origin ++ beSat 1 e.cls ++ beSat 1 e.hops ++
    beInt 1 e.k ++ beSat 2 e.epoch ++ flag e.epochChanged ++ beSat 4 e.lastHeard ++ msBytes (up - e.heardAt) ++
    beSat 2 e.beacons ++ sourceStateByte e.st ++ beSat 4 e.bar

/-! ### Drift Monitor -/

def peerStateByte : PeerState → List Byte
  | .unheard => openByte .peerUnheard
  | .learning => openByte .peerLearning
  | .active => openByte .peerActive
  | .silent => openByte .peerSilent

def sampleBytes (x : Sample) : List Byte := snBytes x.t4 ++ beInt 4 x.phi ++ beInt 8 x.delta

/-- What a peer has been told and has told, from its configuration to what its report carried (R161). -/
def peerExchange (c : PeerCfg) (d : PeerDyn) : List Byte :=
  flag c.enabled ++ beBits 4 c.rack ++ beBits 4 c.ip ++ be 1 (portCode c.preferred) ++
  peerStateByte d.st ++ flag d.warned.isSome ++ snBytes? d.newer ++ snBytes? d.older ++
  snBytes? (d.pair.map (fun x => x.1)) ++ snBytes? (d.pair.map (fun x => x.2)) ++
  [(d.reported.map (fun r => r.cls)).getD 0] ++ [(d.reported.map (fun r => r.servo)).getD 0] ++
  beBits 8 ((d.reported.map (fun r => r.origin)).getD 0)

/-- A peer's figures and counts (R161). -/
def peerFigures (up : Nat) (d : PeerDyn) : List Byte :=
  figureBytes d.best ++ figureBytes d.drift ++ beSat 4 (d.lastHeard.getD 0) ++
  msBytes ((d.heardAt.map (fun t => up - t)).getD 0) ++ be 1 ((d.lastPort.map portCode).getD 0) ++
  beSat 4 d.sent ++ beSat 4 d.notSent ++ beSat 4 d.received ++ beSat 4 d.accepted ++ beSat 4 d.rejected ++ beSat 4 d.unmatched

/-- A Peer Table entry at an uptime (R182). DESIGN CHOICE: the number of samples, for which section 12.1 lists no width,
takes 1 byte (log 18). -/
def peerEntry (up : Nat) (c : PeerCfg) (d : PeerDyn) : List Byte :=
  peerExchange c d ++ beSat 1 d.window.length ++ d.window.flatMap sampleBytes ++ peerFigures up d

/-- The rack verdict (R182). -/
def verdictEntry (s : State) : List Byte :=
  let v := s.drift.verdict
  let one := fun (count limit : Nat) => beSat 1 count ++ beSat 4 limit
  flag s.drift.episode.isSome ++ flag ((s.drift.episode.map (fun e => e.barCalled)).getD false) ++ beSat 1 v.n ++
  one v.behindOffset v.offsetLimit ++ one v.aheadOffset v.offsetLimit ++ one v.behindDrift v.driftLimit ++
  one v.aheadDrift v.driftLimit ++ figureBytes v.offsetFigure ++ figureBytes v.driftFigure

/-! ### Fault Unit -/

/-- The holdoff left of a form at an uptime, in whole ms; zero while none runs (R195). -/
def holdoffBytes (up : Nat) (f : FormState) : List Byte := msBytes ((f.holdoff.map (fun t => t - up)).getD 0)

/-- A fault record entry (R195). DESIGN CHOICE: the last subject, for which section 12.1 lists no width, takes the kind
byte and the 4-byte value that an alert gives a subject, all zero for none (log 18). -/
def faultEntry (up : Nat) (r : FaultRec) (response : Response) (f : FormState) : List Byte :=
  flag r.active ++ beSat 1 r.count ++ beSat 4 (r.lastRaised.getD 0) ++ subjectBytes (r.lastSubject.getD .self) ++
  be 1 response.rank ++ holdoffBytes up f ++ beSat 2 f.suppressed

/-- The fault record entry of an index in a Fault Unit and its responses. -/
def faultEntryAt (up : Nat) (u : FaultUnit) (responses : Vector Response 9) (i : Nat) : List Byte :=
  match FaultKind.ofIndex i with
  | some k => faultEntry up u.recs[k.ix] responses[k.ix] u.forms[k.ix.castSucc]
  | none => []

/-- The alert state (R195). -/
def alertEntry (s : State) : List Byte :=
  be 1 s.floor ++ flag s.hold ++ holdoffBytes s.clock.up (s.form .logLevel) ++ beSat 2 (s.form .logLevel).suppressed ++
  beSat 4 s.cfg.alertHoldoff ++ beBits 4 s.cfg.collIp ++ beBits 2 s.cfg.collPort

/-! ### The tables by code -/

/-- The entries of a live table, by index; none for a code that names no live table (R203). -/
def liveTable (s : State) : Nat → Option (List (List Byte))
  | 1 => some (allPorts.map (portEntry s))
  | 2 => some (allPorts.map (fun p => statsBytes (s.port p).stats))
  | 3 => some (s.matchTab.activeBank.toList.map matchBytes)
  | 4 => some (s.matchTab.standbyBank.toList.map matchBytes)
  | 5 => some [laneEntry s .a, laneEntry s .b]
  | 6 => some [echoEntry s.echo.a, echoEntry s.echo.b]
  | 7 => some (s.cfg.overrides.toList.map overrideEntry)
  | 8 => some (s.sources.toList.map (sourceEntryBytes s.clock.up))
  | 9 => some ((List.range 32).map (fun i => peerEntry s.clock.up (s.peerCfg i) (s.peer i)))
  | 10 => some [verdictEntry s]
  | 11 => some ((List.range 9).map (faultEntryAt s.clock.up s.faults s.cfg.responses))
  | 12 => some [alertEntry s]
  | _ => none

/-- The entries of a frozen table, by index; none for a code that names no frozen table (R157, R203). -/
def frozenTable (v : Frozen) : Nat → Option (List (List Byte))
  | 16 => some [v.clockStatus]
  | 17 => some (v.sources.toList.map (sourceEntryBytes v.up))
  | 18 => some ((List.range 32).map (fun i =>
      peerEntry v.up (v.peerCfgs.getD i ⟨false, 0, 0, .u0⟩) (v.peers.getD i PeerDyn.reset)))
  | 19 => some (allPorts.map (fun p => statsBytes (v.stats.get p)))
  | 20 => some ((List.range 9).map (faultEntryAt v.up v.faults v.responses))
  | _ => none

/-- The number of entries of a table; none for a code not in the table of R203. -/
def tableSize : Nat → Option Nat
  | 1 => some 4
  | 2 => some 4
  | 3 => some 64
  | 4 => some 64
  | 5 => some 2
  | 6 => some 2
  | 7 => some 4
  | 8 => some 8
  | 9 => some 32
  | 10 => some 1
  | 11 => some 9
  | 12 => some 1
  | 16 => some 1
  | 17 => some 8
  | 18 => some 32
  | 19 => some 4
  | 20 => some 9
  | _ => none

/-- Codes 16 to 20 are the frozen ones (R203). -/
def isFrozenCode (code : Nat) : Bool := decide (16 ≤ code) && decide (code ≤ 20)

/-- The entries a code asks for, live or frozen; none for a frozen code while LIVE. -/
def tableOf (s : State) (code : Nat) : Option (List (List Byte)) :=
  if isFrozenCode code then s.frozen.bind (fun v => frozenTable v code) else liveTable s code

/-- The leading entries that fit a number of bytes together. -/
def fitting : Nat → List (List Byte) → List (List Byte)
  | _, [] => []
  | room, e :: rest => if e.length ≤ room then e :: fitting (room - e.length) rest else []

/-- The swap state; NONE is zero (R111, R214). -/
def swapByte (armed : Bool) : List Byte := if armed then openByte .swapArmed else be 1 0

/-- The 8-byte data header (section 12.1). The frozen mark is that of an answer given while FROZEN (R157, R203). -/
def tableHeader (s : State) (code first returned : Nat) : List Byte :=
  let banks := code == 3 || code == 4
  be 1 code ++ beSat 2 first ++ beSat 2 returned ++ flag (isFrozenCode code && s.frozen.isSome) ++
  (if banks then flag s.matchTab.active else be 1 0) ++ (if banks then swapByte s.matchTab.armed else be 1 0)

/-- The data of an answer that returns entries `out`: its header and them, in a room that holds the header (R203). -/
def tableData (s : State) (code first room : Nat) (out : List (List Byte)) : List Byte :=
  if room < 8 then [] else tableHeader s code first out.length ++ out.flatten

/-- READ_TABLE with the data room of its answer (R203, R157). DESIGN CHOICE: the index is judged first, RANGE beyond the
table; then the frozen code, STATE while LIVE; and the count last, so that a count of 0 is DONE only where neither of these
holds (log 53). -/
def readTableData (code first count room : Nat) (s : State) : Status × List Byte :=
  match tableSize code with
  | none => (.range, tableData s code first room [])
  | some size =>
    if size ≤ first then (.range, tableData s code first room [])
    else
      match tableOf s code with
      | none => (.state, [])
      | some entries =>
        let out := if room < 8 then [] else fitting (room - 8) ((entries.drop first).take count)
        (if out.length < count then .truncated else .done, tableData s code first room out)

end Sys2Proof.Machine
end

