-- ==== Sys2Proof/Machine/Agent.lean ====
section
/-! DEFINITION. The Management Agent: the judgment of a frame's commands (R199), the answer (R200), and the running of one
command, of a frame or given directly (R198, log 11, log 12). -/

namespace Sys2Proof.Machine

/-! ### Commands of the frame under execution -/

/-- The next command in a body: none where the body has ended, else its code with its argument length and arguments where
the body holds them all (R199). -/
structure Parsed where
  code : Byte
  args : Option (List Byte)
  rest : List Byte
  deriving DecidableEq, Repr

/-- The next command of a body (section 12.1). -/
def parseNext : List Byte → Option Parsed
  | [] => none
  | [code] => some ⟨code, none, []⟩
  | code :: len :: more =>
    if len.toNat ≤ more.length then some ⟨code, some (more.take len.toNat), more.drop len.toNat⟩
    else some ⟨code, none, []⟩

/-- How a command of a frame is judged before its own judgment (R199). -/
inductive Judged where
  /-- Answered without being executed, and whether processing ends with it. -/
  | answered (status : Status) (ends : Bool)
  /-- To be executed. -/
  | execute (code : Nat) (i : Instr)
  deriving DecidableEq, Repr

/-- Cases 2 to 5 of R199 for a command whose code is in the body. -/
def judgeParsed (privilege : Privilege) (c : Parsed) : Judged :=
  match commandLength c.code.toNat with
  | none => .answered .unknown true
  | some n =>
    match c.args with
    | none => .answered .length true
    | some a =>
      if a.length ≠ n then .answered .length true
      else if privilege = .read ∧ isWriteClass c.code.toNat = true then .answered .denied false
      else
        match commandOf c.code.toNat a with
        | some i => .execute c.code.toNat i
        | none => .answered .unknown true

/-- The command of the frame that is to be executed next, with its code. -/
def nextCommand (e : Exec) : Option (Nat × Instr) :=
  if e.left = 0 ∨ e.ended = true then none
  else
    match parseNext e.rest with
    | none => none
    | some c =>
      match judgeParsed e.frame.privilege c with
      | .execute code i => some (code, i)
      | .answered _ _ => none

/-- The frame with one more result, the command it answers taken from the body. -/
def Exec.push (e : Exec) (r : Result) (rest : List Byte) (ended : Bool) : Exec :=
  { e with rest := rest, left := e.left - 1, results := e.results ++ [r], ended := ended }

/-- The frame after the commands that are answered without being executed, up to the next to be executed or the end; the
first argument bounds the commands left (R199). -/
def settleExec : Nat → Exec → Exec
  | 0, e => e
  | fuel + 1, e =>
    if e.left = 0 then e
    else
      match parseNext e.rest with
      | none => settleExec fuel (e.push ⟨0, if e.ended then .skipped else .length, []⟩ [] true)
      | some c =>
        if e.ended then settleExec fuel (e.push ⟨c.code, .skipped, []⟩ c.rest true)
        else
          match judgeParsed e.frame.privilege c with
          | .answered st ends => settleExec fuel (e.push ⟨c.code, st, []⟩ c.rest ends)
          | .execute _ _ => e

/-! ### The answer -/

/-- Bytes left for the data of the next command, room for every result's header set aside (R200). -/
def roomLeft (e : Exec) : Nat :=
  Config.answerRoom - (17 + 4 * e.frame.count) - (e.results.map (fun r => r.data.length)).sum

/-- Room for the data of a command given alone (R200, log 11). -/
def roomAlone : Nat := Config.answerRoom - 21

/-- The answer is built and offered; a reset that waits for it takes effect if it is dropped (R198, R200, R209). -/
def finishFrame (e : Exec) (s : State) : State :=
  let frame := answerFrame s e.frame e.results
  let s := s.setAgent { s.agent with exec := none }
  let out := offerGeneral e.frame.port (.answer s.agent.resetPending.isSome) (udpUtxOffset e.frame.tag) frame s
  if out.2 then arbitrate e.frame.port out.1 else takePendingReset out.1

/-- The frame under execution after a result: settled, and answered if nothing is left to execute. -/
def advanceFrame (e : Exec) (s : State) : State :=
  let e := settleExec e.left e
  if e.left = 0 then finishFrame e s else s.setAgent { s.agent with exec := some e }

/-- Whether the agent takes a frame now (R198, R209, R211). -/
def agentFree (s : State) : Bool :=
  s.run == .running && !s.agent.reload && s.agent.resetPending.isNone && s.agent.exec.isNone

/-- The agent takes a frame from its holding place and begins with it (R198). -/
def takeFrame (p : Port) (c : CtlFrame) (s : State) : State :=
  advanceFrame { frame := c, rest := c.body, left := c.count, results := [], ended := false }
    (s.setPort p { s.port p with held := none })

/-! ### Running one command -/

/-- What a command does: its effect with its status and data, given the room for its data. -/
abbrev Meaning := Nat → State → State × Status × List Byte

/-- A command with no data. -/
def Meaning.plain (f : State → State × Status) : Meaning := fun _ s => ((f s).1, (f s).2, [])

/-- A command that returns a fixed block: TRUNCATED with no data where the block does not fit (R200). -/
def Meaning.block (data : State → List Byte) : Meaning := fun room s =>
  if (data s).length ≤ room then (s, .done, data s) else (s, .truncated, [])

/-- Whether commands are executed now: RUNNING, no reload, and no reset waiting (R197, R209). -/
def commandsTaken (s : State) : Bool := s.run == .running && !s.agent.reload && s.agent.resetPending.isNone

/-- Whether a command row is executed: it is the next command of the frame under execution, or no frame is under execution
and it is given directly (log 11, log 12). -/
def hasTurn (code : Nat) (i : Instr) (s : State) : Bool :=
  commandsTaken s &&
    (match s.agent.exec with
     | some e => nextCommand e == some (code, i)
     | none => true)

/-- Room for the data of the command that has its turn (R200). -/
def dataRoom (s : State) : Nat :=
  match s.agent.exec with
  | some e => roomLeft e
  | none => roomAlone

/-- The frame under execution with the result of its next command (R199, R200). -/
def answerInFrame (e : Exec) (r : Result) (s : State) : State :=
  advanceFrame (e.push r (((parseNext e.rest).map (fun c => c.rest)).getD []) s.agent.resetPending.isSome) s

/-- A command's result: into the answer of the frame under execution, or left as the last result; there a reset takes
effect at once (R200, R209, log 11). -/
def deliver (code : Nat) (out : State × Status × List Byte) : State :=
  let r : Result := ⟨BitVec.ofNat 8 code, out.2.1, out.2.2⟩
  let s := out.1.setAgent { out.1.agent with lastResult := some r }
  match s.agent.exec with
  | some e => answerInFrame e r s
  | none => takePendingReset s

/-- A command row (R198, log 12). -/
def runCommand (code : Nat) (i : Instr) (m : Meaning) (s : State) : State :=
  if hasTurn code i s then deliver code (m (dataRoom s) s) else s

end Sys2Proof.Machine
end

