-- ==== Sys2Proof/Machine/ExecClock.lean ====
section
/-! DEFINITION. The meanings of the clock's, the power and reset lines', and the settings flash's events: OSCILLATOR_PERIOD,
SECOND_PULSE_END, POWER_ON, RESET_LINE_ASSERT, RESET_LINE_RELEASE, SETTINGS_LOAD_END, SOFT_RELOAD_END,
SETTINGS_SAVE_END. An event that is not due in the state it meets changes nothing (log 2). -/

namespace Sys2Proof.Machine

/-- One oscillator period that moves the date to `moved`, a date with the mark of a carry into S; `second` says that the
whole uptime seconds count increases (R2, R4, R5, R6, R116, log 4, log 5, log 63). -/
def periodTo (moved : Date × Bool) (second : Bool) (s : State) : State :=
  let old := s.clock.date
  let s := s.setClock { s.clock with date := moved.1, up := s.clock.up + 1 }
  let s := s.setPorts (s.ports.map flowPort)
  let s := if second then uptimeSecond s else s
  let s := if moved.2 then secondBoundary s else s
  laneInstant .b old moved.1 (laneInstant .a old moved.1 s)

/-- One oscillator period: uptime, the advance, the bytes that arrive and leave, and what falls at it (R2, R4, R5, R6). -/
def clockPeriod (s : State) : State := periodTo (advance s.clock.date s.clock.inc) (secondTurns s.clock.up) s

/-- OSCILLATOR_PERIOD (R2). The engine held in reset does not count (R210). -/
def execOscillatorPeriod (s : State) : Host.Outcome State Fault Refusal :=
  .next (if s.run = .held then s else clockPeriod s)

/-- Whether the running pulse's width has passed (R12). -/
def pulseOver (s : State) : Bool :=
  match s.clock.secondEnd with
  | some t => decide (t ≤ s.clock.up)
  | none => false

/-- SECOND_PULSE_END (R12). -/
def execSecondPulseEnd (s : State) : Host.Outcome State Fault Refusal :=
  .next (if pulseOver s then s.setClock { s.clock with secondEnd := none } else s)

/-- POWER_ON acts as a release of the RESET line (R210). -/
def execPowerOn (s : State) : Host.Outcome State Fault Refusal := .next (fullReset s)

/-- RESET_LINE_ASSERT: held in full reset while the line is low (R210). -/
def execResetLineAssert (s : State) : Host.Outcome State Fault Refusal := .next (holdReset s)

/-- RESET_LINE_RELEASE: a full reset begins, uptime from 0 and the load (R210). -/
def execResetLineRelease (s : State) : Host.Outcome State Fault Refusal :=
  .next (if s.run = .held then fullReset s else s)

/-- SETTINGS_LOAD_END (R206): the operands are the bytes the flash gave in each read attempt (log 10). -/
def execSettingsLoadEnd (first second : List Byte) (s : State) : Host.Outcome State Fault Refusal :=
  .next (if s.run = .loading then finishLoad first second s else s)

/-- SOFT_RELOAD_END (R211). -/
def execSoftReloadEnd (first second : List Byte) (s : State) : Host.Outcome State Fault Refusal :=
  .next (if s.agent.reload then finishReload first second s else s)

/-- Whether the image read back passes with the CRC that was written (R208). -/
def saveGood (written readBack : List Byte) : Bool :=
  match readAttempt readBack with
  | some img => storedCrc img == storedCrc written
  | none => false

/-- The end of a save (R208). -/
def finishSave (written readBack : List Byte) (s : State) : State :=
  if saveGood written readBack then s.setAgent { s.agent with saving := none, lastSave := .ok }
  else
    raiseWithHold .settingsFault .self true .nothing (s.setAgent { s.agent with saving := none, lastSave := .failed })

/-- SETTINGS_SAVE_END (R208): the operand is what the flash gives when it is read back. -/
def execSettingsSaveEnd (readBack : List Byte) (s : State) : Host.Outcome State Fault Refusal :=
  .next (match s.agent.saving with
    | some img => finishSave img readBack s
    | none => s)

end Sys2Proof.Machine
end

