-- ==== Sys2Proof/Machine/ExecCommand.lean ====
section
/-! DEFINITION. The meanings of the 25 commands of a control frame (section 11.2), each as its owning rule gives it. -/

namespace Sys2Proof.Machine

/-! ### Reading -/

/-- IDENTIFY (R202). -/
def execIdentify (s : State) : Host.Outcome State Fault Refusal :=
  .next (runCommand 1 .identify (Meaning.block identifyBlock) s)

/-- READ_CLOCK (R19, R82). -/
def execReadClock (s : State) : Host.Outcome State Fault Refusal :=
  .next (runCommand 2 .readClock (Meaning.block clockStatus) s)

/-- READ_TABLE (R203). -/
def readTableMeaning (code : Byte) (first count : BitVec 16) : Meaning := fun room s =>
  let out := readTableData code.toNat first.toNat count.toNat room s
  (s, out.1, out.2)

def execReadTable (code : Byte) (first count : BitVec 16) (s : State) : Host.Outcome State Fault Refusal :=
  .next (runCommand 3 (.readTable code first count) (readTableMeaning code first count) s)

/-- LOG_STATUS (R148). -/
def execLogStatus (s : State) : Host.Outcome State Fault Refusal :=
  .next (runCommand 4 .logStatus (Meaning.block logStatusBlock) s)

/-! ### Event Log -/

/-- The records of a LOG_TAKE removed, and the notice re-armed where the level has fallen below half the threshold (R149,
R147). -/
def removeRecords (k : Nat) (s : State) : State :=
  if k = 0 then s
  else
    let left := s.log.records.drop k
    s.setLog { s.log with
      records := left
      noticeSent := s.log.noticeSent && !decide (2 * left.length < s.cfg.logThreshold) }

/-- The data of a LOG_TAKE: the count, then the records; nothing where not even the count fits. -/
def takenData (room : Nat) (records : List LogRecord) : List Byte :=
  if room = 0 then [] else beSat 1 records.length ++ records.flatMap recordBytes

/-- LOG_TAKE (R149). DESIGN CHOICE: an n of 0 is judged before the memory state (log 57); and RANGE and BUSY carry no data,
not even a count, while FAILED carries a count of 0 (log 67). -/
def logTakeMeaning (n : Byte) : Meaning := fun room s =>
  let want := min n.toNat 40
  let limited := decide (40 < n.toNat)
  if n.toNat = 0 then (s, .range, [])
  else
    match s.log.mem with
    | .testing _ => (s, .busy, [])
    | .failed => (s, doneOr limited, takenData room [])
    | .inService =>
      let out := s.log.records.take (min want ((room - 1) / 32))
      (removeRecords out.length s, if out.length < want then .truncated else doneOr limited, takenData room out)

def execLogTake (n : Byte) (s : State) : Host.Outcome State Fault Refusal :=
  .next (runCommand 5 (.logTake n) (logTakeMeaning n) s)

/-- TEST_LOG_MEMORY (R151). -/
def testLog (s : State) : State × Status :=
  match s.log.mem with
  | .testing _ => (s, .busy)
  | .inService | .failed =>
    if s.frozen.isSome then (s, .state)
    else if 0 < s.log.records.length then (s, .notEmpty)
    else (s.setLog { s.log with mem := .testing s.clock.up }, .done)

def execTestLogMemory (s : State) : Host.Outcome State Fault Refusal :=
  .next (runCommand 23 .testLogMemory (Meaning.plain testLog) s)

/-- FREEZE (R155, R156). -/
def execFreeze (s : State) : Host.Outcome State Fault Refusal :=
  .next (runCommand 21 .freeze (Meaning.plain (fun s => (freezeTrigger .command s, .done))) s)

/-- RELEASE (R158). -/
def execRelease (s : State) : Host.Outcome State Fault Refusal :=
  .next (runCommand 22 .release (Meaning.plain (fun s => (releaseFreeze s, .done))) s)

/-! ### Match Table -/

/-- WRITE_MATCH (R112). DESIGN CHOICE: an armed swap is judged before the values that name nothing (R201, log 61). -/
def writeMatch (index : Byte) (a : MatchArg) (s : State) : State × Status :=
  if s.matchTab.armed then (s, .state)
  else if 63 < index.toNat then (s, .range)
  else
    match actionOf a.action.toNat, vlanKindOf a.vlanKind.toNat, logModeOf a.logMode.toNat with
    | some action, some vlan, some mode =>
      (s.setMatchTab (s.matchTab.setStandby
        (s.matchTab.standbyBank.setIfInBounds index.toNat (matchEntryOf a action vlan mode))), doneOr (matchLimited a))
    | _, _, _ => (s, .range)

def execWriteMatch (index : Byte) (entry : MatchArg) (s : State) : Host.Outcome State Fault Refusal :=
  .next (runCommand 6 (.writeMatch index entry) (Meaning.plain (writeMatch index entry)) s)

/-- COPY_BANK (R113). -/
def copyActive (s : State) : State × Status :=
  if s.matchTab.armed then (s, .state)
  else (s.setMatchTab (s.matchTab.setStandby s.matchTab.activeBank), .done)

def execCopyBank (s : State) : Host.Outcome State Fault Refusal :=
  .next (runCommand 7 .copyBank (Meaning.plain copyActive) s)

/-- SWAP_BANKS (R114). -/
def swapCommand (arg : Byte) (s : State) : State × Status :=
  match arg.toNat with
  | 0 => (performSwap s, .done)
  | 1 => (s.setMatchTab { s.matchTab with armed := true }, .done)
  | _ => (s, .range)

def execSwapBanks (arg : Byte) (s : State) : Host.Outcome State Fault Refusal :=
  .next (runCommand 8 (.swapBanks arg) (Meaning.plain (swapCommand arg)) s)

/-! ### Records and parameters -/

/-- WRITE_PORT (R125, R31). -/
def writePort (a : PortArg) (s : State) : State × Status :=
  match portOf a.port.toNat, privilegeOf a.privilege.toNat with
  | some p, some privilege =>
    let old := s.portRec p
    let s := s.setCfg { s.cfg with ports := s.cfg.ports.set p (portRecOf a privilege) }
    (echoRewritten p old s, doneOr (portLimited a))
  | _, _ => (s, .range)

def execWritePort (arg : PortArg) (s : State) : Host.Outcome State Fault Refusal :=
  .next (runCommand 9 (.writePort arg) (Meaning.plain (writePort arg)) s)

/-- WRITE_LANE (R85, R96). -/
def writeLane (a : LaneArg) (s : State) : State × Status :=
  match laneOf a.lane.toNat, modeOf a.mode.toNat with
  | some l, some mode =>
    let old := s.laneRec l
    let r := laneRecOf a mode
    let s := s.setCfg { s.cfg with lanes := s.cfg.lanes.set l r }
    (if old.m = r.m then s else s.setLane l { s.lane l with thin := 0 }, doneOr (laneLimited a))
  | _, _ => (s, .range)

def execWriteLane (arg : LaneArg) (s : State) : Host.Outcome State Fault Refusal :=
  .next (runCommand 10 (.writeLane arg) (Meaning.plain (writeLane arg)) s)

/-- WRITE_OVERRIDE (R36). -/
def writeOverride (a : OverrideArg) (s : State) : State × Status :=
  if 3 < a.index.toNat then (s, .range)
  else
    match portOf a.port.toNat with
    | some p =>
      (s.setCfg { s.cfg with overrides := s.cfg.overrides.setIfInBounds a.index.toNat (overrideOf a p) },
        doneOr (overrideLimited a))
    | none => (s, .range)

def execWriteOverride (arg : OverrideArg) (s : State) : Host.Outcome State Fault Refusal :=
  .next (runCommand 11 (.writeOverride arg) (Meaning.plain (writeOverride arg)) s)

/-- WRITE_PEER (R162). -/
def writePeer (a : PeerArg) (s : State) : State × Status :=
  if 31 < a.index.toNat then (s, .range)
  else
    match uplinkOf a.preferred.toNat with
    | none => (s, .range)
    | some p =>
      let c := peerCfgOf a p
      if c.enabled && rackInUse s a.index.toNat c.rack then (s, .state)
      else (writePeerAt a.index.toNat c s, .done)

def execWritePeer (arg : PeerArg) (s : State) : Host.Outcome State Fault Refusal :=
  .next (runCommand 12 (.writePeer arg) (Meaning.plain (writePeer arg)) s)

/-- CLEAR_PEER (R163). -/
def clearPeer (index : Byte) (s : State) : State × Status :=
  if 31 < index.toNat then (s, .range) else (clearPeerAt index.toNat s, .done)

def execClearPeer (index : Byte) (s : State) : Host.Outcome State Fault Refusal :=
  .next (runCommand 13 (.clearPeer index) (Meaning.plain (clearPeer index)) s)

/-- WRITE_SERVO (R80, R12, R13). -/
def writeServo (a : ServoArg) (s : State) : State × Status :=
  (applyServo (servoParamsOf a) (secWidthOf a) (secLimitOf a) s, doneOr (servoLimited a))

def execWriteServo (arg : ServoArg) (s : State) : Host.Outcome State Fault Refusal :=
  .next (runCommand 14 (.writeServo arg) (Meaning.plain (writeServo arg)) s)

/-- WRITE_DRIFT (R181, R204). -/
def writeDrift (a : DriftArg) (s : State) : State × Status :=
  (applyDrift (driftParamsOf a) (holdoffOf a) (thresholdOf a) s, doneOr (driftLimited a))

def execWriteDrift (arg : DriftArg) (s : State) : Host.Outcome State Fault Refusal :=
  .next (runCommand 15 (.writeDrift arg) (Meaning.plain (writeDrift arg)) s)

/-- A response written for a kind; floor and HOLD follow at once where its fault is active (R186, R190, R54). -/
def applyResponse (k : FaultKind) (r : Response) (s : State) : State :=
  let before := s.hold
  let s' := s.setCfg { s.cfg with responses := s.cfg.responses.set k.ix r }
  if (s.fault k).active then reevaluateOnHold before (watchSecond s') else s'

/-- WRITE_FAULT (R186). -/
def writeFault (kind response : Byte) (s : State) : State × Status :=
  match FaultKind.ofIndex kind.toNat, responseOf response.toNat with
  | some k, some r => (applyResponse k (k.limitResponse r) s, doneOr (k.limitResponse r != r))
  | _, _ => (s, .range)

def execWriteFault (kind response : Byte) (s : State) : Host.Outcome State Fault Refusal :=
  .next (runCommand 16 (.writeFault kind response) (Meaning.plain (writeFault kind response)) s)

/-! ### Clock, flags and bars -/

/-- SET_DATE (R78). -/
def execSetDate (sec : BitVec 48) (n : BitVec 32) (s : State) : Host.Outcome State Fault Refusal :=
  .next (runCommand 17 (.setDate sec n) (Meaning.plain (setDateTo ⟨sec.toNat, n.toNat⟩)) s)

/-- SET_TRIM (R79). -/
def execSetTrim (f : BitVec 32) (s : State) : Host.Outcome State Fault Refusal :=
  .next (runCommand 18 (.setTrim f) (Meaning.plain (setTrimTo f.toInt)) s)

/-- One fault position of a CLEAR_FLAGS mask: an active edge fault clears, with its last subject (R189). -/
def clearPosition (mask : BitVec 32) (s : State) (k : FaultKind) : State :=
  if mask.getLsbD k.ix && k.isEdge && (s.fault k).active then
    clearWithHold k ((s.fault k).lastSubject.getD .self) true .nothing s
  else s

/-- CLEAR_FLAGS (R189, R29, R67). DESIGN CHOICE: the positions of one mask are taken in rising order, each with all that
follows from it (log 59). -/
def clearFlags (mask : BitVec 32) (s : State) : State × Status :=
  let s := faultKinds.foldl (clearPosition mask) s
  let s := if mask.getLsbD 9 then s.setServo { s.servo with sat := false } else s
  let s := if mask.getLsbD 10 then clearStale .u0 s else s
  (if mask.getLsbD 11 then clearStale .u1 s else s, .done)

def execClearFlags (mask : BitVec 32) (s : State) : Host.Outcome State Fault Refusal :=
  .next (runCommand 19 (.clearFlags mask) (Meaning.plain (clearFlags mask)) s)

/-- BAR_SOURCE (R51). -/
def barSource (index : Byte) (seconds : BitVec 16) (s : State) : State × Status :=
  if 7 < index.toNat then (s, .range)
  else
    match s.source index.toNat with
    | none => (s, .state)
    | some e => (barEntry index.toNat e seconds.toNat s, .done)

def execBarSource (index : Byte) (seconds : BitVec 16) (s : State) : Host.Outcome State Fault Refusal :=
  .next (runCommand 20 (.barSource index seconds) (Meaning.plain (barSource index seconds)) s)

/-! ### Saving and resetting -/

/-- SAVE_SETTINGS (R207). -/
def saveSettings (s : State) : State × Status :=
  if s.agent.saving.isSome then (s, .busy)
  else (s.setAgent { s.agent with saving := some (imageOf s.cfg s.matchTab.activeBank) }, .done)

def execSaveSettings (s : State) : Host.Outcome State Fault Refusal :=
  .next (runCommand 24 .saveSettings (Meaning.plain saveSettings) s)

/-- RESET (R209): the reset waits for the frame's answer to go. -/
def resetCommand (arg : Byte) (s : State) : State × Status :=
  match resetKindOf arg.toNat with
  | some k => (s.setAgent { s.agent with resetPending := some k }, .done)
  | none => (s, .range)

def execReset (arg : Byte) (s : State) : Host.Outcome State Fault Refusal :=
  .next (runCommand 25 (.reset arg) (Meaning.plain (resetCommand arg)) s)

end Sys2Proof.Machine
end

