-- ==== Sys2Proof/Machine/ExecFrame.lean ====
section
/-! DEFINITION. The meanings of the ports' events: LINK_DOWN, LINK_UP, FRAME_START, LOOKUP_POINT, EDIT_HOLD_END,
FRAME_OVERSIZE, FRAME_END, FRAME_SENT, CONTROL_FRAME_TAKE. An event that cannot be in the state it meets changes nothing
(log 2). -/

namespace Sys2Proof.Machine

/-- Whether a port can have events of its line: its link UP and the engine not held in reset. -/
def portLive (s : State) (p : Port) : Bool := s.run != .held && (s.port p).up

/-- LINK_DOWN (R101): `more` had arrived of the frame under reception. DESIGN CHOICE: where that takes the frame beyond
9,216 bytes, FRAME_OVERSIZE not having come, its passing of them is taken first (R103, R136, log 37). -/
def execLinkDown (p : Port) (more : List Byte) (s : State) : Host.Outcome State Fault Refusal :=
  .next (if portLive s p then linkGoesDown p more (oversizeArrives p more s) else s)

/-- LINK_UP (R102). -/
def execLinkUp (p : Port) (s : State) : Host.Outcome State Fault Refusal :=
  .next (if s.run ≠ .held ∧ (s.port p).up = false then linkComesUp p s else s)

/-- FRAME_START (R14): the ingress capture of the frame that begins. -/
def execFrameStart (p : Port) (s : State) : Host.Outcome State Fault Refusal :=
  .next (if portLive s p && (s.port p).rx.isNone then
      setRx p (some { ingress := s.clock.date, up := s.clock.up, loading := s.run == .loading, bytes := [],
                      stage := .parsing }) s
    else s)

/-- LOOKUP_POINT (R104, R106). -/
def execLookupPoint (p : Port) (more : List Byte) (ended : Bool) (s : State) : Host.Outcome State Fault Refusal :=
  .next (match (s.port p).rx with
    | some r =>
      let r := r.grow more
      if portLive s p ∧ r.stage = .parsing ∧ lookupReached r.bytes ended = true then lookupFrame p r ended s else s
    | none => s)

/-- EDIT_HOLD_END (R117, R132). -/
def execEditHoldEnd (p : Port) (more : List Byte) (s : State) : Host.Outcome State Fault Refusal :=
  .next (match (s.port p).rx, (s.port p).ctx with
    | some r, some c =>
      let r := r.grow more
      if portLive s p ∧ r.stage = .forwarding true ∧ c.outcome = .pending ∧ stampArrived c r.bytes = true ∧
          r.bytes.length ≤ Config.maxFrame then
        writeStampNow p c r.bytes (growArriving p r.bytes (setRx p (some r) s))
      else s
    | _, _ => s)

/-- FRAME_OVERSIZE (R103): the frame's byte 9,217 has arrived. A lookup whose command has not come is made first (log 22). -/
def execFrameOversize (p : Port) (more : List Byte) (s : State) : Host.Outcome State Fault Refusal :=
  .next (if portLive s p then oversizeArrives p more s else s)

/-- FRAME_END (R109). -/
def execFrameEnd (p : Port) (more : List Byte) (s : State) : Host.Outcome State Fault Refusal :=
  .next (match (s.port p).rx with
    | some r => if portLive s p then receiveEnd p (r.grow more) s else s
    | none => s)

/-- Whether a leaving frame carries the answer that a RESET waits for (R209). -/
def carriesReset (t : Tx) : Bool :=
  match t.body with
  | .originated tag _ => tag == .answer true
  | .forwarded _ => false

/-- FRAME_SENT (R123, R209). DESIGN CHOICE: where the frame carried the answer that a RESET waits for, the reset is taken in
place of the arbiter's decision that the free transmitter calls for (R122, log 66). -/
def execFrameSent (p : Port) (s : State) : Host.Outcome State Fault Refusal :=
  .next (match (s.port p).tx with
    | some t =>
      if portLive s p && txComplete t then
        (if carriesReset t then takePendingReset (finishTx p t s) else arbitrate p (finishTx p t s))
      else s
    | none => s)

/-- CONTROL_FRAME_TAKE (R198). -/
def execControlFrameTake (p : Port) (s : State) : Host.Outcome State Fault Refusal :=
  .next (match (s.port p).held with
    | some c => if agentFree s then takeFrame p c s else s
    | none => s)

end Sys2Proof.Machine
end

