-- ==== Sys2Proof/Machine/ExecTimer.lean ====
section
/-! DEFINITION. The meanings of the events that come when a duration has passed: echo interval and timeout, silence of
sources and peers, bars, the holdover, report slots, alert holdoffs and the memory test. An event that is not due changes
nothing (log 2). -/

namespace Sys2Proof.Machine

/-- ECHO_INTERVAL_EXPIRY (R23): the next interval runs from it. -/
def execEchoIntervalExpiry (p : Port) (s : State) : Host.Outcome State Fault Refusal :=
  .next (if p.isUplink && intervalDue s p then takeInterval p (restartInterval p s) else s)

/-- ECHO_TIMEOUT (R28). -/
def execEchoTimeout (p : Port) (s : State) : Host.Outcome State Fault Refusal :=
  .next (if p.isUplink && timeoutDue s p then echoTimesOut p s else s)

/-- Whether an entry becomes STALE now (R44). -/
def staleDue (s : State) (e : SourceEntry) : Bool :=
  (e.st == .candidate || e.st == .selected) && silentFor 3 s.clock.up e

/-- SOURCE_STALE (R44). -/
def execSourceStale (i : Nat) (s : State) : Host.Outcome State Fault Refusal :=
  .next (match s.source i with
    | some e => if staleDue s e then goStale i s else s
    | none => s)

/-- SOURCE_REMOVAL (R44). -/
def execSourceRemoval (i : Nat) (s : State) : Host.Outcome State Fault Refusal :=
  .next (match s.source i with
    | some e => if e.st == .stale && silentFor 8 s.clock.up e then s.setSource i none else s
    | none => s)

/-- BAR_EXPIRY (R53). -/
def execBarExpiry (i : Nat) (s : State) : Host.Outcome State Fault Refusal :=
  .next (match s.source i with
    | some e => if e.st = .barred ∧ e.bar = 0 then endBar i e s else s
    | none => s)

/-- Whether the holdover limit is reached and the holdover not yet expired (R76). -/
def holdoverDue (s : State) : Bool :=
  s.servo.st == .holdover && !s.servo.expired && decide (s.cfg.servo.holdoverLimit ≤ s.servo.holdTimer)

/-- HOLDOVER_EXPIRY (R76). -/
def execHoldoverExpiry (s : State) : Host.Outcome State Fault Refusal :=
  .next (if holdoverDue s then expireHoldover s else s)

/-- REPORT_SLOT (R164, R165). -/
def execReportSlot (i : Nat) (s : State) : Host.Outcome State Fault Refusal :=
  .next (if slotDue s i then
      (if (s.peerCfg i).enabled then sendReport i (nextSlot s) else nextSlot s)
    else s)

/-- PEER_SILENCE (R172, R173). -/
def execPeerSilence (i : Nat) (s : State) : Host.Outcome State Fault Refusal :=
  .next (if peerSilentDue s i then judgeRack (s.setPeer i { s.peer i with st := .silent }) else s)

/-- The alert form of an index (section 12.1). -/
def AlertForm.ofIndex (i : Nat) : Option AlertForm :=
  if i = 9 then some .logLevel else (FaultKind.ofIndex i).map AlertForm.fault

/-- Whether a form's holdoff has run out (R192). -/
def holdoffOver (s : State) (a : AlertForm) : Bool :=
  match (s.form a).holdoff with
  | some t => decide (t ≤ s.clock.up)
  | none => false

/-- ALERT_HOLDOFF_EXPIRY (R192): nothing is sent. -/
def execAlertHoldoffExpiry (form : Nat) (s : State) : Host.Outcome State Fault Refusal :=
  .next (match AlertForm.ofIndex form with
    | some a => if holdoffOver s a then s.setForm a { s.form a with holdoff := none } else s
    | none => s)

/-- The memory test's 20 ms in oscillator periods (R152). -/
def testPeriods : Nat := 20 * Config.periodsPerMs

/-- The memory test's end (R153). -/
def endMemoryTest (pass : Bool) (s : State) : State :=
  if pass then s.setLog { s.log with records := [], mem := .inService, noticeSent := false }
  else raiseWithHold .memoryFault .self true .nothing (s.setLog { s.log with records := [], mem := .failed })

/-- LOG_MEMORY_TEST_END (R153). -/
def execLogMemoryTestEnd (pass : Bool) (s : State) : Host.Outcome State Fault Refusal :=
  .next (match s.log.mem with
    | .testing start => if start + testPeriods ≤ s.clock.up then endMemoryTest pass s else s
    | .inService => s
    | .failed => s)

end Sys2Proof.Machine
end

