-- ==== Sys2Proof/Machine/Dispatch.lean ====
section
/-! DEFINITION. One arm for each command: its effect on everything but the queue. -/

namespace Sys2Proof.Machine

def exec (i : Instr) (s : State) : Host.Outcome State Fault Refusal :=
  match i with
  | .oscillatorPeriod => Sys2Proof.Machine.execOscillatorPeriod s
  | .secondPulseEnd => Sys2Proof.Machine.execSecondPulseEnd s
  | .powerOn => Sys2Proof.Machine.execPowerOn s
  | .resetLineAssert => Sys2Proof.Machine.execResetLineAssert s
  | .resetLineRelease => Sys2Proof.Machine.execResetLineRelease s
  | .settingsLoadEnd first second => Sys2Proof.Machine.execSettingsLoadEnd first second s
  | .linkDown port more => Sys2Proof.Machine.execLinkDown port more s
  | .linkUp port => Sys2Proof.Machine.execLinkUp port s
  | .frameStart port => Sys2Proof.Machine.execFrameStart port s
  | .lookupPoint port more ended => Sys2Proof.Machine.execLookupPoint port more ended s
  | .editHoldEnd port more => Sys2Proof.Machine.execEditHoldEnd port more s
  | .frameOversize port more => Sys2Proof.Machine.execFrameOversize port more s
  | .frameEnd port more => Sys2Proof.Machine.execFrameEnd port more s
  | .controlFrameTake port => Sys2Proof.Machine.execControlFrameTake port s
  | .identify => Sys2Proof.Machine.execIdentify s
  | .readClock => Sys2Proof.Machine.execReadClock s
  | .readTable code first count => Sys2Proof.Machine.execReadTable code first count s
  | .logStatus => Sys2Proof.Machine.execLogStatus s
  | .logTake n => Sys2Proof.Machine.execLogTake n s
  | .writeMatch index entry => Sys2Proof.Machine.execWriteMatch index entry s
  | .copyBank => Sys2Proof.Machine.execCopyBank s
  | .swapBanks arg => Sys2Proof.Machine.execSwapBanks arg s
  | .writePort arg => Sys2Proof.Machine.execWritePort arg s
  | .writeLane arg => Sys2Proof.Machine.execWriteLane arg s
  | .writeOverride arg => Sys2Proof.Machine.execWriteOverride arg s
  | .writePeer arg => Sys2Proof.Machine.execWritePeer arg s
  | .clearPeer index => Sys2Proof.Machine.execClearPeer index s
  | .writeServo arg => Sys2Proof.Machine.execWriteServo arg s
  | .writeDrift arg => Sys2Proof.Machine.execWriteDrift arg s
  | .writeFault kind response => Sys2Proof.Machine.execWriteFault kind response s
  | .setDate sec n => Sys2Proof.Machine.execSetDate sec n s
  | .setTrim f => Sys2Proof.Machine.execSetTrim f s
  | .clearFlags mask => Sys2Proof.Machine.execClearFlags mask s
  | .barSource index seconds => Sys2Proof.Machine.execBarSource index seconds s
  | .freeze => Sys2Proof.Machine.execFreeze s
  | .release => Sys2Proof.Machine.execRelease s
  | .testLogMemory => Sys2Proof.Machine.execTestLogMemory s
  | .saveSettings => Sys2Proof.Machine.execSaveSettings s
  | .reset arg => Sys2Proof.Machine.execReset arg s
  | .softReloadEnd first second => Sys2Proof.Machine.execSoftReloadEnd first second s
  | .settingsSaveEnd readBack => Sys2Proof.Machine.execSettingsSaveEnd readBack s
  | .echoIntervalExpiry port => Sys2Proof.Machine.execEchoIntervalExpiry port s
  | .echoTimeout port => Sys2Proof.Machine.execEchoTimeout port s
  | .sourceStale index => Sys2Proof.Machine.execSourceStale index s
  | .sourceRemoval index => Sys2Proof.Machine.execSourceRemoval index s
  | .barExpiry index => Sys2Proof.Machine.execBarExpiry index s
  | .holdoverExpiry => Sys2Proof.Machine.execHoldoverExpiry s
  | .reportSlot index => Sys2Proof.Machine.execReportSlot index s
  | .peerSilence index => Sys2Proof.Machine.execPeerSilence index s
  | .alertHoldoffExpiry form => Sys2Proof.Machine.execAlertHoldoffExpiry form s
  | .logMemoryTestEnd pass => Sys2Proof.Machine.execLogMemoryTestEnd pass s
  | .frameSent port => Sys2Proof.Machine.execFrameSent port s

end Sys2Proof.Machine
end

