-- ==== Sys2Proof/Safety.lean ====
section
/-! DEFINITION. What the manual says holds of the engine at all times, as predicates on a state. -/

namespace Sys2Proof.Machine

/-! ### Rack Clock -/

/-- The ranges of a date's three parts (R2; spec/00_scope.md, The rack date). -/
structure DateOk (d : Date) : Prop where
  s : d.s ≤ 281474976710655
  n : d.n < 1000000000
  f : d.f < 4294967296

/-- A date the allocator can have issued: even, and not beyond the maximum even date (R16). -/
structure StampOk (d : SN) : Prop where
  s : d.s ≤ 281474976710655
  n : d.n < 1000000000
  even : d.n % 2 = 0

/-- The ingress captures that a port holds, of the frame under reception and in an open dating context, are dates (R14). -/
structure CapturesOk (u : PortUnit) : Prop where
  frame : ∀ r, u.rx = some r → DateOk r.ingress
  context : ∀ c, u.ctx = some c → DateOk c.ingress

/-- The Rack Clock: its date in range (R2), its increment within the nominal one and 500 ppm of it (R3, R67), the step
epoch of 16 bits (R8), the last issued stamp even and in range (R16), and every capture a date (R14). -/
structure ClockOk (s : State) : Prop where
  date : DateOk s.clock.date
  inc : 17171279249 ≤ s.clock.inc ∧ s.clock.inc ≤ 17188459119
  epoch : s.clock.epoch < 65536
  stamp : ∀ d, s.clock.lastStamp = some d → StampOk d
  captures : ∀ p, CapturesOk (s.port p)

/-! ### Servo -/

/-- Rates and the parameters that bound them: |F| within the plausibility limit in force (R66, R80), |r| within 500 ppm
(R67), and both limits within 500 ppm (section 4.1). -/
structure RateOk (s : State) : Prop where
  integral : -((s.cfg.servo.plausibility * 1024000 : Nat) : Int) ≤ s.servo.f ∧
    s.servo.f ≤ ((s.cfg.servo.plausibility * 1024000 : Nat) : Int)
  rate : -512000000 ≤ s.servo.r ∧ s.servo.r ≤ 512000000
  plausibility : s.cfg.servo.plausibility ≤ 500
  catchRate : s.cfg.servo.catchRate ≤ 500

/-! ### Source Table -/

/-- At most one entry is SELECTED, and its class is 4 or better; no two entries have the same key; every entry is of an
uplink; and the Servo is ACQUIRING or LOCKED exactly while an entry is SELECTED (R39). -/
structure SourcesOk (s : State) : Prop where
  unique : ∀ i j e e', s.source i = some e → s.source j = some e' → e.st = .selected → e'.st = .selected → i = j
  cls : ∀ i e, s.source i = some e → e.st = .selected → e.cls ≤ 4
  key : ∀ i j e e', s.source i = some e → s.source j = some e' → e.sender = e'.sender → e.port = e'.port → i = j
  port : ∀ i e, s.source i = some e → e.port.isUplink = true
  follow : (∃ i e, s.source i = some e ∧ e.st = .selected) ↔ s.servo.st = .acquiring ∨ s.servo.st = .locked

/-! ### Event Log -/

/-- A GAP record's body. -/
def RecBody.isGap : RecBody → Bool
  | .gap _ => true
  | .stamp .. | .step .. | .state .. | .source .. | .drift .. | .fault .. | .freeze .. => false

/-- The Event Log (R142, R145, R152, R154): at most 4,096 records; their sequences consecutive modulo 2^32 up to the next
sequence; a GAP record is followed by a record of another kind; no records held outside IN_SERVICE; and the missed count,
which is 0 while no gap is pending. -/
structure LogOk (l : EventLog) : Prop where
  level : l.records.length ≤ 4096
  next : l.nextSeq < 4294967296
  seqs : ∀ i (h : i < l.records.length),
    (l.records[i].seq + (l.records.length - i)) % 4294967296 = l.nextSeq
  gaps : ∀ i (h : i < l.records.length), l.records[i].body.isGap = true →
    ∃ h' : i + 1 < l.records.length, l.records[i + 1].body.isGap = false
  out : l.mem ≠ .inService → l.records = []
  missed : l.missed ≤ 65535
  noGap : l.gap = false → l.missed = 0

/-! ### Queues -/

/-- What a port's queues hold: the leaving frame counts in the queue it came from until its last byte is sent (R121, R123). -/
structure QueuesOk (u : PortUnit) : Prop where
  timing : timingHeld u ≤ 8
  general : generalHeld u ≤ 16

/-! ### Peer Table -/

/-- The rack ids of the enabled entries are distinct (R161). -/
def RacksDistinct (s : State) : Prop :=
  ∀ i j, i < 32 → j < 32 → (s.peerCfg i).enabled = true → (s.peerCfg j).enabled = true →
    (s.peerCfg i).rack = (s.peerCfg j).rack → i = j

/-! ### Settings -/

/-- The responses in the order of their effect, up to a kind's maximum (R185). -/
def Response.within (most r : Response) : Bool := decide (r.rank ≤ most.rank)

/-- Every setting within the range its owning chapter gives it (R201, R206; sections 1.6, 2.1, 2.6, 4.1, 5.1, 8.3, 9.1, 10.4
and 11.3). Trim lies within ±500 ppm, the largest plausibility limit. -/
structure SettingsOk (c : Settings) : Prop where
  manager : c.mgrLen ≤ 32
  echo : ∀ p, -4 ≤ (c.ports.get p).k ∧ (c.ports.get p).k ≤ 3 ∧ 1 ≤ (c.ports.get p).timeoutMs ∧ (c.ports.get p).timeoutMs ≤ 100
  asym : ∀ p, -1000000 ≤ (c.ports.get p).asym ∧ (c.ports.get p).asym ≤ 1000000
  lane : ∀ l, -4 ≤ (c.lanes.get l).k ∧ (c.lanes.get l).k ≤ 1 ∧ (c.lanes.get l).m ≤ 3
  override : ∀ i : Fin 4, -1000000 ≤ c.overrides[i].asym ∧ c.overrides[i].asym ≤ 1000000
  uplink : ∀ i : Fin 32, c.peers[i].preferred.isUplink = true
  step : 1000 ≤ c.servo.stepThreshold ∧ c.servo.stepThreshold ≤ 999999999
  window : 50 ≤ c.servo.lockWindow ∧ c.servo.lockWindow ≤ 100000 ∧ c.servo.lockWindow < c.servo.stepThreshold
  locks : 2 ≤ c.servo.lockCount ∧ c.servo.lockCount ≤ 32 ∧ 1 ≤ c.servo.unlockCount ∧ c.servo.unlockCount ≤ 16
  shifts : c.servo.sp ≤ 8 ∧ c.servo.si ≤ 12
  rates : 10 ≤ c.servo.catchRate ∧ c.servo.catchRate ≤ 500 ∧ 10 ≤ c.servo.plausibility ∧ c.servo.plausibility ≤ 500
  holdover : 10 ≤ c.servo.holdoverLimit ∧ c.servo.holdoverLimit ≤ 86400
  second : 1 ≤ c.secWidth ∧ c.secWidth ≤ 999 ∧ c.secLimit ≤ 6
  barTime : 10 ≤ c.drift.barTime ∧ c.drift.barTime ≤ 86400
  report : -2 ≤ c.drift.k ∧ c.drift.k ≤ 3
  roundTrip : 1000 ≤ c.drift.roundTrip ∧ c.drift.roundTrip ≤ 10000000
  thresholds : 100 ≤ c.drift.offsetThreshold ∧ c.drift.offsetThreshold ≤ 100000000 ∧
    10 ≤ c.drift.driftThreshold ∧ c.drift.driftThreshold ≤ 100000
  quorum : 3 ≤ c.drift.quorum ∧ c.drift.quorum ≤ 32
  notices : 1 ≤ c.alertHoldoff ∧ c.alertHoldoff ≤ 3600 ∧ 1 ≤ c.logThreshold ∧ c.logThreshold ≤ 4095
  response : ∀ k : FaultKind, k.maxResponse.within c.responses[k.ix] = true
  trim : -512000000 ≤ c.trim ∧ c.trim ≤ 512000000

/-- The numeric fields of a match entry within their ranges (R105, R112). -/
structure MatchOk (e : MatchEntry) : Prop where
  vlan : e.vlanId ≤ 4094
  pattern : e.patOffset ≤ 127
  stamp : e.stampOffset ≤ 9188
  key : e.keyOffset ≤ 9192
  domain : e.domain ≤ 15

/-- Every entry of a bank within its ranges. -/
def BankOk (b : Vector MatchEntry 64) : Prop := ∀ i : Fin 64, MatchOk b[i]

/-! ### LOADING -/

/-- A frame under reception that started in LOADING: it is forwarded without a lookup (R124). -/
def Rx.plain (r : Rx) : Prop :=
  r.loading = true ∧ (r.stage = .parsing ∨ (∃ b, r.stage = .forwarding b) ∨ r.stage = .discarding)

/-- A leaving frame that was forwarded without an edit. -/
def Tx.plain (t : Tx) : Prop := t.origin = .buffer ∧ ∃ f, t.body = .forwarded f ∧ f.edit = .none

/-- A port in LOADING: pass-through frames and their two counts alone (R100, R124, R141, R198). -/
structure PortLoading (u : PortUnit) : Prop where
  seen : u.seenUp = false
  ctx : u.ctx = none
  timing : u.timing = []
  general : u.general = []
  held : u.held = none
  rx : ∀ r, u.rx = some r → r.plain
  buffer : ∀ f ∈ u.buffer, f.edit = .none
  tx : ∀ t, u.tx = some t → t.plain
  stats : u.stats = { Stats.zero with passed := u.stats.passed, transitDrops := u.stats.transitDrops }

/-- The engine in LOADING: as the full reset left it (the settings until the load are those of log 9) but for the date,
uptime and the traffic that passes (R124). -/
structure LoadingOk (s : State) : Prop where
  rest : s = { State.reset with
    pending := s.pending
    clock := { Clock.reset with date := s.clock.date, up := s.clock.up }
    ports := s.ports }
  ports : ∀ p, PortLoading (s.port p)

end Sys2Proof.Machine
end

