-- ==== Sys2Proof/WellFormed.lean ====
section
/-! DEFINITION. Which operands a command can carry. The widths of a control command's fields are in their types; what is
checked here is that an index names a place of its table, that an echo command names an uplink, and that the bytes of a
frame or image command fit the event it stands for. The check is about operands only, so it reads no state. -/

namespace Sys2Proof

/-- The operands of a command are ones the event it stands for can have.
- An echo event belongs to an uplink (R21).
- Source Table indices are 0 to 7 (R39), Peer Table indices 0 to 31 (R161), alert forms 0 to 9 (section 12.1).
- A read attempt reads no more than an image (R206).
- A lookup before the frame's end has the Ethernet header and 131 payload bytes (R104), and some byte has arrived in any
  case; what has arrived at the lookup point is no longer than a frame may be (R103).
- A frame that passes 9,216 bytes has had some bytes arrive since its lookup point (R103). -/
def Instr.wf : Instr → Bool
  | .settingsLoadEnd first second => first.length ≤ Config.imageLen && second.length ≤ Config.imageLen
  | .softReloadEnd first second => first.length ≤ Config.imageLen && second.length ≤ Config.imageLen
  | .settingsSaveEnd readBack => readBack.length ≤ Config.imageLen
  | .lookupPoint _ more ended =>
      (ended || 14 + Config.lookupBytes ≤ more.length) && 0 < more.length && more.length ≤ Config.maxFrame
  | .frameOversize _ more => 0 < more.length
  | .echoIntervalExpiry p => p.isUplink
  | .echoTimeout p => p.isUplink
  | .sourceStale i => i < 8
  | .sourceRemoval i => i < 8
  | .barExpiry i => i < 8
  | .reportSlot i => i < 32
  | .peerSilence i => i < 32
  | .alertHoldoffExpiry form => form < 10
  | .oscillatorPeriod | .secondPulseEnd | .powerOn | .resetLineAssert | .resetLineRelease => true
  | .linkDown _ _ | .linkUp _ | .frameStart _ | .editHoldEnd _ _ | .frameEnd _ _ | .controlFrameTake _ => true
  | .identify | .readClock | .readTable _ _ _ | .logStatus | .logTake _ | .writeMatch _ _ | .copyBank | .swapBanks _ => true
  | .writePort _ | .writeLane _ | .writeOverride _ | .writePeer _ | .clearPeer _ | .writeServo _ | .writeDrift _ => true
  | .writeFault _ _ | .setDate _ _ | .setTrim _ | .clearFlags _ | .barSource _ _ | .freeze | .release => true
  | .testLogMemory | .saveSettings | .reset _ | .holdoverExpiry | .logMemoryTestEnd _ | .frameSent _ => true

end Sys2Proof
end

