-- ==== Sys2Proof/Certificates/Slice0/Obligations.lean ====
section
/-! DEFINITION. The statements about the engine. `exec` is the effect of one command, `step` takes the command that waits at
the front of the queue. A statement of what a command does names the next state, so that everything it does not name is
unchanged. The commands of a control frame end in `deliver`, which two statements of their own describe. -/

section Statements

open Sys2Proof Sys2Proof.Machine

/-! ### The machine -/

/-- A step runs the command at the front of the queue on the state with the queue's rest; an empty queue idles (log 1); and
every command, in every state and with any operands, answers a next state. -/
def Obligations.StepRunsTheFrontCommand : Prop :=
  (∀ (s : State) (c : Instr) (rest : List Instr), s.pending = c :: rest → step s = exec c { s with pending := rest }) ∧
  (∀ s : State, s.pending = [] → step s = .next s) ∧
  (∀ (c : Instr) (s : State), ∃ t, exec c s = .next t)

/-- The values the manual gives for a full reset, before any settings are loaded (R20, R38, R57, R83, R98, R128, R141, R159,
R183, R196, R212). -/
def Obligations.ResetLeavesTheValuesOfTheManual : Prop :=
  State.reset.run = .loading ∧
  State.reset.clock = { date := ⟨0, 0, 0⟩, inc := 17179869184, up := 0, epoch := 0, lastStamp := none, secondEnd := none } ∧
  (∀ l, State.reset.echo.get l =
    { st := .idle, nextId := 0, window := [], p := 0, run := 0, stale := false, sched := none }) ∧
  (∀ i, State.reset.source i = none) ∧
  State.reset.servo =
    { st := .unset, f := 0, r := 0, excSign := .none, excCount := 0, lockCtr := 0, unlockCtr := 0, catchDown := false,
      holdTimer := 0, expired := false, lastTheta := none, sat := false } ∧
  (∀ l, State.reset.lane l = { thin := 0, lastInstant := none, outcome := none, built := 0 }) ∧
  (∀ p, let u := State.reset.port p
    u.up = false ∧ u.seenUp = false ∧ u.stats = ⟨0, 0, 0, 0, 0, 0, 0, 0, 0, 0, 0⟩ ∧ u.rx = none ∧ u.ctx = none ∧
    u.buffer = [] ∧ u.timing = [] ∧ u.general = [] ∧ u.tx = none ∧ u.held = none) ∧
  State.reset.matchTab.active = false ∧ State.reset.matchTab.armed = false ∧
  State.reset.log = { records := [], nextSeq := 0, gap := false, missed := 0, mem := .inService, noticeSent := false } ∧
  State.reset.frozen = none ∧
  (∀ i, State.reset.peer i = PeerDyn.reset) ∧ State.reset.drift.episode = none ∧ State.reset.drift.verdict.n = 0 ∧
  State.reset.drift.sched = none ∧
  (∀ k, State.reset.fault k = { active := false, count := 0, lastRaised := none, lastSubject := none }) ∧
  (∀ a, State.reset.form a = { holdoff := none, suppressed := 0 }) ∧
  State.reset.agent.exec = none ∧ State.reset.agent.saving = none ∧ State.reset.agent.lastSave = .none ∧
  State.reset.agent.reload = false ∧ State.reset.agent.resetPending = none

/-- The state after reset meets every invariant stated below. -/
def Obligations.ResetMeetsTheInvariants : Prop :=
  LogOk State.reset.log ∧ ClockOk State.reset ∧ RateOk State.reset ∧ SourcesOk State.reset ∧
  (∀ p, QueuesOk (State.reset.port p)) ∧ RacksDistinct State.reset ∧ SettingsOk State.reset.cfg ∧
  BankOk State.reset.matchTab.bank0 ∧ BankOk State.reset.matchTab.bank1 ∧ LoadingOk State.reset

/-! ### Invariants of every step -/

/-- The Event Log holds at most 4,096 records, of consecutive sequences, no two GAP records adjacent (R142, R144, R145). -/
def Obligations.EveryStepKeepsTheLogInOrder : Prop :=
  ∀ s t : State, LogOk s.log → step s = .next t → LogOk t.log

/-- The date, the increment and the step epoch stay in their ranges, the last issued date even and within the date's range, and
so does every ingress capture that a port holds; and the rates stay within 500 ppm and the plausibility limit (R2, R3, R8,
R14, R16, R66, R67, R80). -/
def Obligations.EveryStepKeepsClockAndRatesInRange : Prop :=
  ∀ s t : State, ClockOk s → RateOk s → step s = .next t → ClockOk t ∧ RateOk t

/-- At most one entry is SELECTED, of class 4 or better, no two entries have one key, and the Servo is ACQUIRING or LOCKED
exactly while an entry is SELECTED (R39). -/
def Obligations.EveryStepKeepsOneSelection : Prop :=
  ∀ s t : State, SourcesOk s → step s = .next t → SourcesOk t

/-- No timing queue holds more than 8 frames and no general queue more than 16, the leaving frame counted with its queue
(R121, R123). -/
def Obligations.EveryStepKeepsTheQueuesWithinCapacity : Prop :=
  ∀ s t : State, (∀ p, QueuesOk (s.port p)) → step s = .next t → ∀ p, QueuesOk (t.port p)

/-- Whatever a command or an image carries, the settings and match entries in force stay within their ranges, and the rack
ids of the enabled peers stay distinct (R112, R161, R162, R183, R201, R206). -/
def Obligations.EveryStepKeepsTheSettingsInRange : Prop :=
  (∀ s t : State, SettingsOk s.cfg → BankOk s.matchTab.bank0 → BankOk s.matchTab.bank1 → step s = .next t →
    SettingsOk t.cfg ∧ BankOk t.matchTab.bank0 ∧ BankOk t.matchTab.bank1) ∧
  (∀ s t : State, RacksDistinct s → step s = .next t → RacksDistinct t)

/-- From one full reset to the next and outside UNSET, no command sets the rack date back, in units of 2^-32 ns, and none
returns the Servo to UNSET (R1, R9, R71). -/
def Obligations.TheDateNeverGoesBackOutsideUnset : Prop :=
  ∀ s t : State, ClockOk s → s.run = .running → s.servo.st ≠ .unset → step s = .next t → t.run = .running →
    s.clock.date.units ≤ t.clock.date.units ∧ t.servo.st ≠ .unset

/-- Uptime moves by one at an oscillator period and by nothing else but a full reset, which sets it to 0; and the run state
changes only at a full reset and at the end of its load (R4, R124, R210). Two clauses are the model's choice: that no command,
a full reset included, touches the waiting queue (log 3), and that a period in a held reset counts no uptime (log 25). -/
def Obligations.UptimeCountsPeriodsFromTheFullReset : Prop :=
  ∀ (c : Instr) (s t : State), exec c s = .next t →
    t.pending = s.pending ∧
    ((t.run = s.run ∧ t.clock.up = s.clock.up ∧ (c = .oscillatorPeriod → s.run = .held)) ∨
     (c = .oscillatorPeriod ∧ s.run ≠ .held ∧ t.run = s.run ∧ t.clock.up = s.clock.up + 1) ∨
     (∃ first second, c = .settingsLoadEnd first second ∧ s.run = .loading ∧ t.run = .running ∧ t.clock.up = s.clock.up) ∨
     (c ≠ .oscillatorPeriod ∧ t.clock.up = 0 ∧ (t.run = .loading ∨ t.run = .held)))

/-- While the RESET line is low the engine is as a full reset leaves it, and no command changes it but POWER_ON and
RESET_LINE_RELEASE, which begin a full reset (R210, log 25). -/
def Obligations.TheHeldEngineStandsStill : Prop :=
  ∀ (c : Instr) (s : State), s = { State.reset with pending := s.pending, run := .held } →
    (c ≠ .powerOn → c ≠ .resetLineRelease → exec c s = .next s) ∧
    (c = .powerOn ∨ c = .resetLineRelease → exec c s = .next { State.reset with pending := s.pending })

/-- In LOADING nothing but traffic, links, the date and uptime moves: no source, servo state, record, fault, context, stamp,
peer, frozen view or setting, and no block originates a frame (R124, R6, R21, R159, R164, R196). -/
def Obligations.LoadingOnlyForwardsTraffic : Prop :=
  ∀ (s t : State) (c : Instr), LoadingOk s → exec c s = .next t → t.run = .loading → LoadingOk t

/-! ### Rack Clock -/

/-- One period adds the increment to the date, counted in units of 2^-32 ns, or holds it at the maximum date; the mark of a
second boundary stands exactly where S increased (R2, R5). -/
def Obligations.APeriodAddsTheIncrement : Prop :=
  ∀ (d : Date) (inc : Nat), DateOk d → inc < 1000000000 * 4294967296 →
    DateOk (advance d inc).1 ∧
    (d.units + inc < 281474976710656 * 1000000000 * 4294967296 →
      (advance d inc).1.units = d.units + inc ∧
      (advance d inc).1.s = d.s + (if (advance d inc).2 then 1 else 0)) ∧
    (281474976710656 * 1000000000 * 4294967296 ≤ d.units + inc →
      advance d inc = (⟨281474976710655, 999999999, 4294967295⟩, false))

/-- OSCILLATOR_PERIOD outside a held reset: the advance, uptime, the second boundary of a carry with its pulse and its armed
swap, the bars and the holdover timer at a whole uptime second, and the bytes that arrive and leave; then, in RUNNING,
each BOUNDARY lane, A before B, originates at the aligned instant of its exponent that the advance reached; and where neither
lane reaches one, nothing else (R2, R4, R5, R6, R12, R53, R76, R88, R115). That bars and the holdover timer stand still where
the count of uptime seconds is saturated is log 31; that 12.5 bytes of the frame under way into a buffer arrive in a period,
until the next command about it tells what did, is log 4, and that 12.5 bytes of a leaving frame go in a period is log 5. That
a lane originates at an instant reached while a SOFT_RELOAD is in progress too is the model's choice, log 63. -/
def Obligations.OscillatorPeriodDoes : Prop :=
  (∀ u : PortUnit,
    let counted := fun (half : Nat) => min 18432 (half + 25)
    let arriving := fun (f : FwdFrame) => if f.complete then f else { f with sinceHalf := counted f.sinceHalf }
    flowPort u = { u with
      buffer := u.buffer.map arriving
      tx := u.tx.map (fun x => { x with
        sentHalf := counted x.sentHalf
        body := match x.body with
          | .forwarded f => .forwarded (arriving f)
          | .originated tag bs => .originated tag bs }) }) ∧
  (∀ s : State, s.run ≠ .held → ∃ t, exec .oscillatorPeriod s = .next t ∧
    t.clock =
      { s.clock with
        date := (advance s.clock.date s.clock.inc).1
        up := s.clock.up + 1
        secondEnd :=
          if (advance s.clock.date s.clock.inc).2 then
            (if s.engineClass ≤ s.cfg.secLimit then some (s.clock.up + 1 + s.cfg.secWidth * 250000) else none)
          else s.clock.secondEnd } ∧
    t.matchTab =
      (if (advance s.clock.date s.clock.inc).2 ∧ s.matchTab.armed then
        { s.matchTab with active := !s.matchTab.active, armed := false } else s.matchTab) ∧
    (∀ i, t.source i = (s.source i).map (fun e =>
      if secondTurns s.clock.up ∧ e.st = .barred then { e with bar := e.bar - 1 } else e)) ∧
    t.servo =
      (if secondTurns s.clock.up ∧ s.servo.st = .holdover then
        { s.servo with holdTimer := min 86400 (s.servo.holdTimer + 1) } else s.servo) ∧
    t.pending = s.pending ∧ t.run = s.run ∧ t.cfg = s.cfg ∧ t.log = s.log ∧ t.frozen = s.frozen ∧ t.faults = s.faults ∧
    t.agent = s.agent ∧
    (let tick := fun (l : Lane) (x : State) =>
      match alignedInstant (s.laneRec l).k s.clock.date (advance s.clock.date s.clock.inc).1 with
      | some instant => if s.run = .running ∧ (s.laneRec l).mode = .boundary then originate l instant x else x
      | none => x
     t = tick .b (tick .a { s with
      clock := t.clock, matchTab := t.matchTab, sources := t.sources, servo := t.servo, ports := s.ports.map flowPort })) ∧
    ((∀ l, s.run = .running → (s.laneRec l).mode = .boundary →
        alignedInstant (s.laneRec l).k s.clock.date (advance s.clock.date s.clock.inc).1 = none) →
      t.ports = s.ports.map flowPort ∧ t.lanes = s.lanes ∧ t.echo = s.echo ∧ t.drift = s.drift))

/-- An aligned instant lies past the old date and at or before the new one, at a whole multiple of 2^k s, and is the latest
such; none is reported only where there is none (R6). -/
def Obligations.AlignedInstantsAreTheMultiplesPassed : Prop :=
  ∀ (k : Int) (old new : Date), -4 ≤ k → k ≤ 1 →
    (∀ t, alignedInstant k old new = some t →
      old.ns < t.ns ∧ t.ns ≤ new.ns ∧ alignedStep k ∣ t.ns ∧
      ∀ m, m ≤ new.ns → alignedStep k ∣ m → m ≤ t.ns) ∧
    (alignedInstant k old new = none → ∀ m, old.ns < m → m ≤ new.ns → ¬ alignedStep k ∣ m) ∧
    (alignedStep k : Rat) = 1000000000 * (2 : Rat) ^ k

/-- At an aligned instant of a BOUNDARY lane the emission record takes the instant and its outcome: CLASS at class 6, LINK
with the downlink DOWN, QUEUE with its timing queue full, else SENT with one more beacon built, queued and put to the arbiter
(R88, R90). The bytes of a beacon as it is built, from the engine's MAC address to the group MAC, untagged, under the UTX
ethertype: the fields written at egress are zero, and zero bytes fill it up to 60, 64 with its FCS (R120, R214, section 12.1). -/
def Obligations.AnAlignedInstantDecidesABeacon : Prop :=
  (∀ (s : State) (k : Int),
    let built := [be 6 s.cfg.group.toNat, be 6 s.cfg.mac.toNat, be 2 s.cfg.utxEther.toNat, [1, 1], be 2 32,
      be 8 s.cfg.engineId.toNat, be 8 0, be 10 0, be 8 0, [0, 0], beInt 1 k, be 2 0, [0]].flatten
    built.length = 58 ∧ beaconFrame s k = built ++ [0, 0]) ∧
  (∀ (l : Lane) (instant : SN) (s : State),
    let p := l.downlink
    let mark := fun (o : Emission) (t : State) =>
      t.setLane l { t.lane l with lastInstant := some instant, outcome := some o }
    (s.engineClass = 6 → originate l instant s = mark .cls s) ∧
    (s.engineClass ≠ 6 → (s.port p).up = false → originate l instant s = mark .link s) ∧
    (s.engineClass ≠ 6 → (s.port p).up = true → 8 ≤ timingHeld (s.port p) →
      originate l instant s = mark .queue (s.setPort p { s.port p with stats :=
        { (s.port p).stats with timingDrops := min 4294967295 ((s.port p).stats.timingDrops + 1) } })) ∧
    (s.engineClass ≠ 6 → (s.port p).up = true → timingHeld (s.port p) < 8 →
      originate l instant s = arbitrate p (
        (s.setPort p { s.port p with timing := (s.port p).timing ++
          [⟨.beacon, 14, beaconFrame s (s.laneRec l).k, s.clock.up⟩] }).setLane l
        { s.lane l with
          lastInstant := some instant, outcome := some .sent, built := min 4294967295 ((s.lane l).built + 1) })))

/-- POWER_ON and the release of the RESET line begin a full reset, the line driven low holds the engine in one; a release of a
line that is not low does nothing (R210, log 25). RESET names a reset that waits for the frame's answer to go, or is RANGE;
given alone it takes effect at once (R209, log 11). The waiting commands are outside the engine (log 3). A soft reset leaves
settings, date, uptime, step epoch, allocator, statistics, links, next ids, emission records, log and counts, and clears the
rest of each block's own table; from ACQUIRING or LOCKED the Servo enters HOLDOVER with its STATE record (R20, R38, R57, R84,
R98, R128, R141, R160, R184, R196, R212); there a running pulse ends where the class limit is below 3 (log 48). The model's
choices: of a frame under reception, one before its lookup is kept and one that already leaves goes on, the rest being
discarded (log 38), and of a completion, the parameter that says whether the holdover was expired before any setting of a
reload was applied, of which HOLDOVER_EXPIRED is raised again, after the others (log 33). The actives clear before the STATE
record is offered, so that a LOG_FULL raised by its miss stands (log 65). A soft reset that completes starts the echo
schedules, each with an interval expiry at once that builds the first ask (R22), U0 before U1, then the report schedule (log
20), and then raises faults again; no fault active but a LOG_FULL of a pending gap and the responses within their maxima as
every step keeps them, LINK_DOWN, LOG_FULL, MEMORY_FAULT and HOLDOVER_EXPIRED exactly where their conditions hold (R22, R100,
R160, R164, R196, R211). -/
def Obligations.ResetsAreTaken : Prop :=
  (∀ s : State,
    exec .powerOn s = .next { State.reset with pending := s.pending } ∧
    exec .resetLineAssert s = .next { State.reset with pending := s.pending, run := .held } ∧
    (s.run = .held → exec .resetLineRelease s = .next { State.reset with pending := s.pending }) ∧
    (s.run ≠ .held → exec .resetLineRelease s = .next s)) ∧
  (∀ (arg : Byte) (s : State), hasTurn 25 (.reset arg) s = true →
    (2 < arg.toNat → exec (.reset arg) s = .next (deliver 25 (s, .range, []))) ∧
    (∀ k, [ResetKind.soft, .softReload, .full][arg.toNat]? = some k →
      exec (.reset arg) s = .next (deliver 25 ({ s with agent := { s.agent with resetPending := some k } }, .done, []))) ∧
    (s.agent.exec = none →
      let told := fun (k : ResetKind) =>
        { s with agent := { s.agent with lastResult := some ⟨25, .done, []⟩, resetPending := some k } }
      (arg = 2 → exec (.reset arg) s = .next { State.reset with pending := s.pending }) ∧
      (arg = 1 → exec (.reset arg) s = .next (softResetNow true (told .softReload))) ∧
      (arg = 0 → exec (.reset arg) s = .next
        (let soft := softResetNow false (told .soft)
         completeSoft soft.servo.expired soft)))) ∧
  (∀ (reload : Bool) (s : State),
    let kept := fun (p : Port) (r : Rx) =>
      match r.stage with
      | .parsing => r
      | .forwarding true =>
        (match (s.port p.partner).tx with
         | some ⟨_, .forwarded f, _, _⟩ => if f.complete then { r with stage := .discarding } else r
         | some ⟨_, .originated _ _, _, _⟩ => { r with stage := .discarding }
         | none => { r with stage := .discarding })
      | .forwarding false | .storingL2 | .storingUdp _ _ _ | .discarding => { r with stage := .discarding }
    let port := fun (p : Port) =>
      { s.port p with
        rx := (s.port p).rx.map (kept p), ctx := none, held := none, buffer := [], timing := [], general := [] }
    let clean : PeerDyn → PeerDyn := fun d =>
      { PeerDyn.reset with
        sent := d.sent, notSent := d.notSent, received := d.received, accepted := d.accepted, rejected := d.rejected
        unmatched := d.unmatched }
    let base : State := { s with
      agent := { s.agent with
        exec := none, resetPending := none, reload := reload, saving := none
        lastSave := if s.agent.saving = none then s.agent.lastSave else .abandoned }
      ports := ⟨port .u0, port .u1, port .d0, port .d1⟩
      matchTab := { s.matchTab with armed := false }
      echo := s.echo.map (fun e => { e with st := .idle, window := [], p := 0, run := 0, stale := false, sched := none })
      sources := Vector.replicate 8 none
      lanes := s.lanes.map (fun u => { u with thin := 0 })
      faults := { s.faults with recs := s.faults.recs.map (fun r => { r with active := false }) }
      log := (match s.log.mem with
        | .testing _ => { s.log with records := [], mem := .inService, noticeSent := false }
        | .inService => s.log
        | .failed => s.log)
      frozen := none
      drift :=
        { peers := s.drift.peers.map clean
          episode := none, verdict := ⟨0, 0, 0, 0, 0, 0, 0, none, none⟩, sched := none } }
    let servo := { s.servo with excSign := .none, excCount := 0, lockCtr := 0, unlockCtr := 0, catchDown := false }
    (s.servo.st ≠ .acquiring → s.servo.st ≠ .locked →
      softResetNow reload s = handRate s.servo.f { base with servo := servo }) ∧
    (s.servo.st = .acquiring ∨ s.servo.st = .locked →
      softResetNow reload s = offerRecord (.plain none (.state s.servo.st .holdover 3)) (handRate s.servo.f { base with
        servo := { servo with st := .holdover, holdTimer := 0, expired := false }
        clock := { s.clock with secondEnd := if s.cfg.secLimit < 3 then none else s.clock.secondEnd } }))) ∧
  (∀ (expired : Bool) (s : State),
    let asked := fun (p : Port) (x : State) =>
      if s.run = .running ∧ s.agent.reload = false ∧ (s.port p).up = true ∧ (s.portRec p).echoOn = true then
        takeInterval p (x.setEcho p { x.echoOf p with sched := some s.clock.up }) else x
    let begun := asked .u1 (asked .u0 s)
    let t := completeSoft expired s
    t = raiseAgain expired { begun with drift := { begun.drift with sched := some ⟨s.clock.up, 0⟩ } } ∧
    ∀ p, p.isUplink = true → s.run = .running → s.agent.reload = false → (s.port p).up = true →
      (s.portRec p).echoOn = true → (s.echoOf p).st = .idle →
      (t.echoOf p).nextId = ((s.echoOf p).nextId + 1) % 65536 ∧
      (timingHeld (s.port p) < 8 → (t.echoOf p).st ≠ .idle)) ∧
  (∀ (expired : Bool) (s : State), (∀ k, (s.fault k).active = true → k = .logFull ∧ s.log.gap = true) →
    (∀ k : FaultKind, (s.response k).rank ≤ k.maxResponse.rank) →
    let t := completeSoft expired s
    let lost := fun (p : Port) => (s.port p).seenUp = true ∧ (s.port p).up = false
    t.run = s.run ∧ t.cfg = s.cfg ∧ t.servo = s.servo ∧ t.sources = s.sources ∧ t.matchTab = s.matchTab ∧
    t.agent = s.agent ∧ t.clock.date = s.clock.date ∧ t.drift.peers = s.drift.peers ∧
    t.drift.sched = some ⟨s.clock.up, 0⟩ ∧
    (∀ p, p.isUplink = true → s.run = .running → s.agent.reload = false → (s.port p).up = true →
      (s.portRec p).echoOn = true → (t.echoOf p).sched = some s.clock.up) ∧
    ((t.fault .linkDown).active = true ↔ ∃ p, lost p) ∧
    (∀ p, lost p → (∀ q, portCode q < portCode p → ¬ lost q) → (t.fault .linkDown).lastSubject = some (.port p)) ∧
    ((t.fault .memoryFault).active = true ↔ s.log.mem = .failed) ∧
    ((t.fault .holdoverExpired).active = true ↔ expired = true ∧ s.servo.st = .holdover ∧ s.servo.expired = true) ∧
    (t.fault .logFull).active = t.log.gap ∧
    (∀ k, k = .sourceLost ∨ k = .freqImplausible ∨ k = .selfDrift ∨ k = .peerDrift ∨ k = .settingsFault →
      t.fault k = s.fault k))

/-- A forward step moves the date ahead by its whole nanoseconds and keeps the fraction, or leaves it at the maximum date; it
increases the step epoch, wrapping from 65,535 to 0; and one second-boundary event, with pulse and armed swap, follows where
a second was passed (R7, R8, R12, R115). A step beyond the maximum date gives its full value (log 39). -/
def Obligations.AForwardStepMovesTheDateAhead : Prop :=
  ∀ (amount : Nat) (s : State), DateOk s.clock.date → 0 < amount →
    let t := forwardStep amount s
    (s.clock.date.ns + amount < 281474976710656 * 1000000000 →
      t.clock.date.ns = s.clock.date.ns + amount ∧ t.clock.date.n < 1000000000 ∧ t.clock.date.f = s.clock.date.f) ∧
    (281474976710656 * 1000000000 ≤ s.clock.date.ns + amount →
      t.clock.date = ⟨281474976710655, 999999999, 4294967295⟩) ∧
    t.clock =
      { s.clock with
        date := t.clock.date
        epoch := (s.clock.epoch + 1) % 65536
        secondEnd :=
          if t.clock.date.s ≠ s.clock.date.s then
            (if s.engineClass ≤ s.cfg.secLimit then some (s.clock.up + s.cfg.secWidth * 250000) else none)
          else s.clock.secondEnd } ∧
    t.matchTab =
      (if t.clock.date.s ≠ s.clock.date.s ∧ s.matchTab.armed then
        { s.matchTab with active := !s.matchTab.active, armed := false } else s.matchTab) ∧
    t = { s with clock := t.clock, matchTab := t.matchTab }

/-- A claim's issued date: the candidate from the ingress date for an empty allocator, else the later of the candidate and
the last issued date plus 2 ns, even, and at the maximum even date that date again; the storage mark's claim leaves it as the
last issued date (R16). -/
def Obligations.TheAllocatorIssuesRisingEvenDates : Prop :=
  (∀ (last : Option SN) (ingress : Date), DateOk ingress → (∀ l, last = some l → StampOk l) →
    let candidate : SN := ⟨ingress.s, ingress.n - ingress.n % 2⟩
    StampOk (issueDate last ingress) ∧
    (last = none → issueDate last ingress = candidate) ∧
    (∀ l, last = some l → l ≠ ⟨281474976710655, 999999998⟩ →
      l.ns + 2 ≤ (issueDate last ingress).ns ∧ candidate.ns ≤ (issueDate last ingress).ns ∧
      ((issueDate last ingress).ns = l.ns + 2 ∨ issueDate last ingress = candidate)) ∧
    (∀ l, last = some l → l = ⟨281474976710655, 999999998⟩ → issueDate last ingress = l)) ∧
  (∀ (p : Port) (index : Nat) (e : MatchEntry) (ingress : Date) (s : State),
    (openMark p index e ingress s).clock.lastStamp = some (issueDate s.clock.lastStamp ingress))

/-- The rate r handed to the clock gives an increment whose difference from nominal is r × 16,777,216 / 1,000,000,000 to the
nearest integer, halves away from zero, and lies within the range of R3 (R3, R68). -/
def Obligations.TheRateGivesTheIncrement : Prop :=
  ∀ (r : Int) (s : State), -512000000 ≤ r → r ≤ 512000000 →
    let t := handRate r s
    let delta : Int := (t.clock.inc : Int) - 17179869184
    t = { s with servo := { s.servo with r := r }, clock := { s.clock with inc := t.clock.inc } } ∧
    2 * (delta * 1000000000 - r * 16777216).natAbs ≤ 1000000000 ∧
    (2 * (delta * 1000000000 - r * 16777216).natAbs = 1000000000 →
      (r * 16777216).natAbs ≤ (delta * 1000000000).natAbs) ∧
    17171279249 ≤ t.clock.inc ∧ t.clock.inc ≤ 17188459119

/-! ### Settings -/

/-- DECODE AND ENCODE AGREE for the settings image: what a save writes of settings and a bank within their ranges, a read
attempt passes, and the load reads back as the same settings and the same bank, every field at every value (sections 11.3 and
12.5, R206, R207). The two premises beside the ranges are those of R183 and of R206's last correction. The image is 3,118 bytes
of fields in the order of section 12.5, each record in the form of its command's argument without its index (R204), and the
CRC over them, its register shifted by the reflected polynomial, least significant byte first. -/
def Obligations.ASavedImageLoadsBack : Prop :=
  (∀ (c : Settings) (bank : Vector MatchEntry 64),
    let num : Bool → Nat := fun b => if b then 1 else 0
    let bit : Bool → List Byte := fun b => be 1 (num b)
    let port : Port → Nat := fun p => match p with | .u0 => 0 | .u1 => 1 | .d0 => 2 | .d1 => 3
    let ports := [c.ports.u0, c.ports.u1, c.ports.d0, c.ports.d1].map (fun r =>
      [be 1 (match r.privilege with | .none => 0 | .read => 1 | .full => 2), [0], bit r.echoOn, beInt 1 r.k,
        beSat 2 r.timeoutMs, beInt 4 r.asym, be 6 r.gateway.toNat, be 8 0].flatten)
    let lanes := [c.lanes.a, c.lanes.b].map (fun r =>
      [be 1 (match r.mode with | .boundary => 0 | .transit => 1), beInt 1 r.k, beSat 1 r.m, be 5 0].flatten)
    let entries := bank.toList.map (fun e =>
      [bit e.valid, be 1 (match e.action with | .pass => 0 | .storageMark => 1 | .utxL2 => 2 | .utxUdp => 3),
        be 2 e.ethertype.toNat, be 1 (match e.vlanKind with | .any => 0 | .none => 1 | .id => 2), beSat 2 e.vlanId,
        be 1 (num e.ports.u0 + 2 * num e.ports.u1 + 4 * num e.ports.d0 + 8 * num e.ports.d1), bit e.patPresent,
        beSat 1 e.patOffset, be 4 e.patValue.toNat, be 4 e.patMask.toNat, beSat 2 e.stampOffset, beSat 2 e.keyOffset,
        beSat 1 e.domain, be 1 (match e.logMode with | .stampAndLog => 0 | .stampOnly => 1 | .logOnly => 2), bit e.freeze,
        be 7 0].flatten)
    let overrides := c.overrides.toList.map (fun o =>
      [be 1 (port o.port), be 8 o.sender.toNat, beInt 4 o.asym, bit o.valid, be 2 0].flatten)
    let peers := c.peers.toList.map (fun x =>
      [bit x.enabled, be 4 x.rack.toNat, be 4 x.ip.toNat, be 1 (port x.preferred), be 14 0].flatten)
    let servo := [beSat 4 c.servo.stepThreshold, beSat 4 c.servo.lockWindow, beSat 1 c.servo.lockCount,
      beSat 1 c.servo.unlockCount, beSat 1 c.servo.sp, beSat 1 c.servo.si, beSat 2 c.servo.catchRate,
      beSat 2 c.servo.plausibility, beSat 4 c.servo.holdoverLimit, beSat 2 c.secWidth, beSat 1 c.secLimit, be 9 0]
    let drift := [beSat 4 c.drift.barTime, beInt 1 c.drift.k, beSat 4 c.drift.roundTrip, beSat 4 c.drift.offsetThreshold,
      beSat 4 c.drift.driftThreshold, beSat 1 c.drift.quorum, bit c.drift.barOn, beSat 2 c.alertHoldoff,
      beSat 2 c.logThreshold, [0]]
    let responses := c.responses.toList.map (fun r =>
      be 1 (match r with | .note => 0 | .alert => 1 | .demote => 2 | .hold => 3))
    let head := [be 4 0x52544531, be 2 1, be 2 0, be 4 3122, be 8 c.engineId.toNat, be 4 c.rackId.toNat,
      be 6 c.mac.toNat, be 4 c.ip.toNat, be 4 c.mgrAddr.toNat, beSat 1 c.mgrLen, be 2 c.utxEther.toNat, be 2 c.utxPort.toNat,
      be 2 c.mgmtPort.toNat, be 4 c.collIp.toNat, be 2 c.collPort.toNat, be 6 c.group.toNat]
    let body := (head ++ ports ++ lanes ++ entries ++ overrides ++ peers ++ servo ++ drift ++ responses ++
      [beInt 4 c.trim]).flatten
    body.length = 3118 ∧ imageOf c bank = body ++ (be 4 (crc32 body)).reverse) ∧
  (∀ bs : List Byte,
    let shift := fun (r : Nat) => if r % 2 = 1 then (r / 2) ^^^ 0xEDB88320 else r / 2
    let take := fun (r : Nat) (b : Byte) => (List.range 8).foldl (fun r _ => shift r) (r ^^^ b.toNat)
    crc32 bs = bs.foldl take 0xFFFFFFFF ^^^ 0xFFFFFFFF) ∧
  ∀ (c : Settings) (bank : Vector MatchEntry 64), SettingsOk c → BankOk bank →
    (∀ i j : Fin 32, c.peers[i].enabled = true → c.peers[j].enabled = true → c.peers[i].rack = c.peers[j].rack → i = j) →
    c.trim.natAbs ≤ c.servo.plausibility * 1024000 →
    ∃ img, readAttempt (imageOf c bank) = some img ∧ imageSettings img = c ∧ imageBank img = bank

/-- SETTINGS_LOAD_END: the first attempt that passes, else the built-in defaults with SETTINGS_FAULT raised, and the engine
enters RUNNING with both banks of the load, bank 0 active, F and r at its trim, and the seen-UP flags of the ports that are UP
set; then its schedules start: of each uplink that is UP with echo on, with an interval expiry at once that builds the first
ask, U0 before U1, and of the reports (log 20). Outside LOADING the event does nothing (log 2); the bytes that the flash gave
in each attempt are its operands (log 10) (R206, R22, R83, R100, R124, R128, R164). The built-in defaults are those of R205
and of the parameter tables of the chapters (sections 1.6, 2.1, 4.1, 9.1, 11.3; R38, R85, R107, R128, R147, R161, R183, R185,
R192); what the invalid override entries and match entries hold beside their flag is logs 49 and 52. -/
def Obligations.TheLoadOfAFullResetEnds : Prop :=
  (let port : PortRec := { privilege := .none, echoOn := true, k := -2, timeoutMs := 10, asym := 0, gateway := 0 }
   let lane : LaneRec := { mode := .boundary, k := -3, m := 0 }
   Settings.default =
     { engineId := 0, rackId := 0, mac := 0x020000004420, ip := 0, mgrAddr := 0, mgrLen := 32, utxEther := 0x88B6,
       utxPort := 7420, mgmtPort := 7421, collIp := 0, collPort := 7420, group := 0x036A10000001
       ports := ⟨port, port, port, port⟩, lanes := ⟨lane, lane⟩
       overrides := Vector.replicate 4 { port := .u0, sender := 0, asym := 0, valid := false }
       peers := Vector.replicate 32 { enabled := false, rack := 0, ip := 0, preferred := .u0 }
       servo := { stepThreshold := 100000, lockWindow := 1000, lockCount := 8, unlockCount := 4, sp := 1, si := 4,
                  catchRate := 200, plausibility := 100, holdoverLimit := 600 }
       secWidth := 100, secLimit := 4
       drift := { barTime := 600, k := 0, roundTrip := 200000, offsetThreshold := 5000, driftThreshold := 200, quorum := 3,
                  barOn := true }
       alertHoldoff := 10, logThreshold := 3072
       responses := #v[.alert, .alert, .hold, .demote, .alert, .alert, .note, .alert, .alert], trim := 0 } ∧
   ∀ i : Fin 64,
     let blank : MatchEntry :=
       { valid := false, action := .pass, ethertype := 0, vlanKind := .any, vlanId := 0, ports := ⟨false, false, false, false⟩
         patPresent := false, patOffset := 0, patValue := 0, patMask := 0, stampOffset := 0, keyOffset := 0, domain := 0
         logMode := .stampAndLog, freeze := false }
     defaultBank[i] =
       if i = 62 then { blank with valid := true, action := .utxL2, ethertype := 0x88B6, ports := ⟨true, true, true, true⟩ }
       else if i = 63 then { blank with
         valid := true, action := .utxUdp, ethertype := 0x0800, ports := ⟨true, true, true, true⟩, patPresent := true
         patOffset := 9, patValue := 0x11000000, patMask := 0xFF000000 }
       else blank) ∧
  ∀ (first second : List Byte) (s : State),
    (s.run ≠ .loading → exec (.settingsLoadEnd first second) s = .next s) ∧
    (s.run = .loading → ∀ (c : Settings) (bank : Vector MatchEntry 64) (source : LoadSource) (version : Nat),
      ((∃ img, readAttempt first = some img ∧ c = imageSettings img ∧ bank = imageBank img ∧ source = .image ∧ version = 1) ∨
       (readAttempt first = none ∧
         ∃ img, readAttempt second = some img ∧ c = imageSettings img ∧ bank = imageBank img ∧ source = .retry ∧ version = 1) ∨
       (readAttempt first = none ∧ readAttempt second = none ∧ c = Settings.default ∧ bank = defaultBank ∧
         source = .defaults ∧ version = 0)) →
      ∃ t, exec (.settingsLoadEnd first second) s = .next t ∧
        t.run = .running ∧ t.cfg = c ∧ t.matchTab = { bank0 := bank, bank1 := bank, active := false, armed := false } ∧
        t.agent = { s.agent with loadSource := source, imageVersion := version } ∧
        t.servo = { s.servo with f := c.trim, r := c.trim } ∧ t.clock.inc = incrementOf c.trim ∧
        t.clock.date = s.clock.date ∧ t.clock.up = s.clock.up ∧ t.sources = s.sources ∧
        (∀ p, (t.port p).up = (s.port p).up ∧ (t.port p).seenUp = (s.port p).up) ∧
        t.drift.sched = some ⟨s.clock.up, 0⟩ ∧
        (∀ p, p.isUplink = true → s.agent.reload = false → (s.port p).up = true → (c.ports.get p).echoOn = true →
          (t.echoOf p).sched = some s.clock.up ∧
          ((s.echoOf p).st = .idle → (t.echoOf p).nextId = ((s.echoOf p).nextId + 1) % 65536 ∧
            (timingHeld (s.port p) < 8 → (t.echoOf p).st ≠ .idle))) ∧
        (source = .defaults → (t.fault .settingsFault).active = true) ∧
        (let base : State := { s with
           run := .running, cfg := c
           matchTab := { bank0 := bank, bank1 := bank, active := false, armed := false }
           agent := { s.agent with loadSource := source, imageVersion := version }
           servo := { s.servo with f := c.trim, r := c.trim }
           clock := { s.clock with inc := incrementOf c.trim }
           ports := s.ports.map (fun u => { u with seenUp := u.up }) }
         let asked := fun (p : Port) (x : State) =>
           if s.agent.reload = false ∧ (s.port p).up = true ∧ (c.ports.get p).echoOn = true then
             takeInterval p (x.setEcho p { x.echoOf p with sched := some s.clock.up }) else x
         let begun := asked .u1 (asked .u0 base)
         let ready := { begun with drift := { begun.drift with sched := some ⟨s.clock.up, 0⟩ } }
         t = if source = .defaults then raiseWithHold .settingsFault .self true .nothing ready else ready))

/-- SOFT_RELOAD_END: a passing attempt puts the image's settings in force but for trim, loads its bank into both banks and
keeps the active bank's number and the load source; two failing attempts keep settings and banks and raise SETTINGS_FAULT.
The soft reset then completes: the report schedule starts. With no reload in progress the event does nothing (log 2) (R211,
R128). The trim kept is log 32, the schedule's start at completion log 20, and the holdover expired before the reload log 33. A
SECOND pulse that runs is judged once, by the class and the class limit that all the settings leave (R13, R20; log 48). -/
def Obligations.TheReloadOfASoftResetEnds : Prop :=
  (∀ (first second : List Byte) (s : State),
    (s.agent.reload = false → exec (.softReloadEnd first second) s = .next s) ∧
    (s.agent.reload = true →
      (∀ img, (readAttempt first = some img ∨ (readAttempt first = none ∧ readAttempt second = some img)) →
        ∃ t, exec (.softReloadEnd first second) s = .next t ∧
          t.agent = { s.agent with reload := false, imageVersion := 1 } ∧
          t.cfg = { imageSettings img with trim := s.cfg.trim } ∧
          t.matchTab = { s.matchTab with bank0 := imageBank img, bank1 := imageBank img } ∧
          t.run = s.run ∧ t.clock.date = s.clock.date ∧ t.drift.sched = some ⟨s.clock.up, 0⟩ ∧
          t = completeSoft s.servo.expired
            (applyReload (imageSettings img) (imageBank img) { s with agent := { s.agent with reload := false } })) ∧
      (readAttempt first = none → readAttempt second = none →
        ∃ t, exec (.softReloadEnd first second) s = .next t ∧
          t.agent = { s.agent with reload := false } ∧ t.cfg = s.cfg ∧ t.matchTab = s.matchTab ∧ t.run = s.run ∧
          t.clock.date = s.clock.date ∧ t.drift.sched = some ⟨s.clock.up, 0⟩ ∧
          (t.fault .settingsFault).active = true))) ∧
  (∀ (c : Settings) (bank : Vector MatchEntry 64) (s : State),
    let t := applyReload c bank s
    t.clock.secondEnd = if c.secLimit < t.engineClass then none else s.clock.secondEnd)

/-- SAVE_SETTINGS takes a copy of the settings in force with the active bank and begins the save, or is BUSY during one;
SETTINGS_SAVE_END is OK where the image read back passes with the CRC that was written, as the written image itself does, and
else FAILED with SETTINGS_FAULT raised and no setting changed (R207, R208). That the bytes read back are an operand is log 10,
that the event with no save in progress changes nothing is log 2. -/
def Obligations.ASaveAndItsEnd : Prop :=
  (∀ s : State, hasTurn 24 .saveSettings s = true →
    (s.agent.saving = none → exec .saveSettings s = .next (deliver 24
      ({ s with agent := { s.agent with saving := some (imageOf s.cfg s.matchTab.activeBank) } }, .done, []))) ∧
    (s.agent.saving ≠ none → exec .saveSettings s = .next (deliver 24 (s, .busy, [])))) ∧
  (∀ (readBack : List Byte) (s : State), s.agent.saving = none → exec (.settingsSaveEnd readBack) s = .next s) ∧
  (∀ (img readBack : List Byte) (s : State), s.agent.saving = some img →
    ((∃ back, readAttempt readBack = some back ∧ back.drop 3118 = img.drop 3118) →
      exec (.settingsSaveEnd readBack) s = .next { s with agent := { s.agent with saving := none, lastSave := .ok } }) ∧
    (¬ (∃ back, readAttempt readBack = some back ∧ back.drop 3118 = img.drop 3118) →
      ∃ t, exec (.settingsSaveEnd readBack) s = .next t ∧
        t.agent = { s.agent with saving := none, lastSave := .failed } ∧ t.cfg = s.cfg ∧ t.matchTab = s.matchTab ∧
        (t.fault .settingsFault).active = true)) ∧
  (∀ (c : Settings) (bank : Vector MatchEntry 64), ∃ back, readAttempt (imageOf c bank) = some back ∧
    back.drop 3118 = (imageOf c bank).drop 3118)

/-! ### Links and frames -/

/-- LINK_UP: in LOADING the port is UP and nothing else changes; in RUNNING its seen-UP flag is set too, LINK_DOWN's condition
ends where no other port with its flag set is DOWN, an uplink's echo window empties with its schedule starting, an interval
expiry taken at once that builds the first ask, and for an uplink the selection is re-evaluated, with the sources, the Servo
and its rate as TheSelectionFollowsTheRank says, the responses within their maxima as every step keeps them; in that order
(log 50). A port that is UP (log 2), or the engine held in reset (log 25), is left as it is (R100, R102, R22, R30, R47, R55).
That a reload in progress holds the schedule back is log 20. -/
def Obligations.LinkUpDoes : Prop :=
  ∀ (p : Port) (s : State),
    (s.run = .held ∨ (s.port p).up = true → exec (.linkUp p) s = .next s) ∧
    (s.run = .loading → (s.port p).up = false →
      exec (.linkUp p) s = .next (s.setPort p { s.port p with up := true })) ∧
    (s.run = .running → (s.port p).up = false → ∃ t, exec (.linkUp p) s = .next t ∧
      (t.port p).up = true ∧ (t.port p).seenUp = true ∧
      (∀ q, q ≠ p → (t.port q).up = (s.port q).up ∧ (t.port q).seenUp = (s.port q).seenUp) ∧
      t.cfg = s.cfg ∧ t.clock.date = s.clock.date ∧ t.matchTab = s.matchTab ∧ t.agent = s.agent ∧
      ((∃ q, q ≠ p ∧ (s.port q).seenUp = true ∧ (s.port q).up = false) → t.fault .linkDown = s.fault .linkDown) ∧
      ((∀ q, q ≠ p → (s.port q).seenUp = true → (s.port q).up = true) → (t.fault .linkDown).active = false) ∧
      (p.isUplink = true → (t.echoOf p).window = [] ∧ (t.echoOf p).p = (s.echoOf p).p ∧
        (s.agent.reload = false → (s.portRec p).echoOn = true → (t.echoOf p).sched = some s.clock.up ∧
          ((s.echoOf p).st = .idle → (t.echoOf p).nextId = ((s.echoOf p).nextId + 1) % 65536 ∧
            (timingHeld (s.port p) < 8 → (t.echoOf p).st ≠ .idle)))) ∧
      (let lit := s.setPort p { s.port p with up := true, seenUp := true }
       let asks := s.agent.reload = false ∧ (s.portRec p).echoOn = true
       ∃ told,
         ((∀ q, q ≠ p → (s.port q).seenUp = true → (s.port q).up = true) →
           told = clearWithHold .linkDown (.port p) true .nothing lit) ∧
         ((∃ q, q ≠ p ∧ (s.port q).seenUp = true ∧ (s.port q).up = false) → told = lit) ∧
         (p.isUplink = false → t = told) ∧
         (p.isUplink = true →
           let emptied := told.setEcho p { told.echoOf p with window := [] }
           let asked := if asks then
             takeInterval p (emptied.setEcho p { emptied.echoOf p with sched := some s.clock.up }) else emptied
           t = reevaluate asked.selectedPair .lost none asked) ∧
         ((∀ k : FaultKind, (s.response k).rank ≤ k.maxResponse.rank) →
           let v := reevaluate s.selectedPair .lost none lit
           (p.isUplink = true → t.sources = v.sources ∧ t.servo = v.servo ∧ t.clock.inc = v.clock.inc ∧
             t.fault .sourceLost = v.fault .sourceLost) ∧
           (p.isUplink = false → t.sources = s.sources ∧ t.servo = s.servo ∧ t.clock.inc = s.clock.inc))))

/-- LINK_DOWN: the port's buffer and queues are emptied and a leaving frame is cut off, pass-through frames counted as transit
drops and originated ones not counted; the frame under reception is lost, counted on the lane's other port if its lookup had
been made and the frame was still in hand; LINK_DOWN is raised where the port had been UP in RUNNING; an uplink's ask is
forgotten with its window, P and path-stale kept; and for an uplink the selection is re-evaluated with reason LOST for an
entry that its link took out of it, with the sources, the Servo and its rate as TheSelectionFollowsTheRank says, the responses
within their maxima as every step keeps them (R47, R49, R55). The premise leaves out only the answer a RESET waits for, which
ends in that reset (R101, R100, R30, R209). A port that is DOWN (log 2), or the engine held in reset (log 25), is left as it
is. The order of what a link DOWN does is log 21. Where the bytes that had arrived take the frame beyond 9,216, its
FRAME_OVERSIZE is taken first, and the link then goes DOWN (log 37). The reception of a storage mark that is logged ends in
its STAMP record, before any other record of the event: BAD_FCS, its length that of the bytes received, key bytes not received
zero with SHORT_KEY, UNSTAMPED unless its stamp is written or four bytes beyond it had arrived (R136). -/
def Obligations.LinkDownDoes : Prop :=
  ∀ (p : Port) (more : List Byte) (s : State),
    let tooLong := fun (r : Rx) => r.stage ≠ .discarding ∧ 9216 < (r.bytes ++ more).length
    (s.run = .held ∨ (s.port p).up = false → exec (.linkDown p more) s = .next s) ∧
    (∀ r t, s.run ≠ .held → (s.port p).up = true → (s.port p).rx = some r → tooLong r →
      exec (.frameOversize p more) s = .next t → exec (.linkDown p more) s = exec (.linkDown p []) t) ∧
    (s.run ≠ .held → (s.port p).up = true → (losesResetAnswer (s.port p) = true → s.agent.resetPending = none) →
      (∀ r, (s.port p).rx = some r → ¬ tooLong r) →
      ∃ t, exec (.linkDown p more) s = .next t ∧
        let u := s.port p
        let v := t.port p
        let passing := (u.buffer.filter (fun f => !f.cut)).length + (match u.tx with
          | some ⟨_, .forwarded f, _, _⟩ => if f.cut then 0 else 1
          | some ⟨_, .originated _ _, _, _⟩ => 0
          | none => 0)
        let inHand := match u.rx with
          | some r => r.stage = .storingL2 ∨ (∃ a b c, r.stage = .storingUdp a b c) ∨ r.stage = .forwarding true
          | none => False
        v.up = false ∧ v.seenUp = u.seenUp ∧ v.buffer = [] ∧ v.timing = [] ∧ v.general = [] ∧ v.tx = none ∧ v.rx = none ∧
        ((∃ r inLane, u.rx = some r ∧ r.stage = .forwarding inLane) → v.ctx = none) ∧ v.stats.passed = u.stats.passed ∧
        v.stats.timingDrops = u.stats.timingDrops ∧
        v.stats.generalDrops = u.stats.generalDrops ∧
        v.stats.transitDrops = min 4294967295 (u.stats.transitDrops + passing) ∧
        (inHand → (t.port p.partner).stats.transitDrops =
          min 4294967295 ((s.port p.partner).stats.transitDrops + 1)) ∧
        (¬ inHand → (t.port p.partner).stats.transitDrops = (s.port p.partner).stats.transitDrops) ∧
        (u.seenUp = true → (t.fault .linkDown).active = true) ∧
        (p.isUplink = true → t.echoOf p = { s.echoOf p with st := .idle, run := 0, sched := none }) ∧
        t.cfg = s.cfg ∧ t.clock.date = s.clock.date ∧ t.matchTab = s.matchTab ∧
        ((∀ k : FaultKind, (s.response k).rank ≤ k.maxResponse.rank) →
          let cut := s.setPort p { u with up := false }
          let seen := reevaluate s.selectedPair .lost none cut
          (p.isUplink = true → t.sources = seen.sources ∧ t.servo = seen.servo ∧ t.clock.inc = seen.clock.inc ∧
            t.fault .sourceLost = seen.fault .sourceLost ∧
            ∃ w, w.sources = s.sources ∧ w.servo = s.servo ∧ w.hold = s.hold ∧
              (∀ q, (w.port q).up = (cut.port q).up) ∧ t = reevaluate s.selectedPair .lost none w) ∧
          (p.isUplink = false → t.sources = s.sources ∧ t.servo = s.servo ∧ t.clock.inc = s.clock.inc)) ∧
        (∀ r inLane c, u.rx = some r → r.stage = .forwarding inLane → u.ctx = some c → c.logMode ≠ .stampOnly →
          s.log.mem = .inService → s.log.gap = false → s.log.records.length + 2 ≤ 4096 →
          let bytes := r.bytes ++ more
          let arrived := frameHeader bytes + c.stampOffset + 16 ≤ bytes.length
          ∃ later, t.log.records = s.log.records ++
            { seq := s.log.nextSeq, port := some p, domain := c.domain, cls := c.stamp.cls, date := ⟨c.stamp.s, c.stamp.n⟩
              body := .stamp ((List.range 8).map (fun j => bytes.getD (frameHeader bytes + c.keyOffset + j) 0))
                bytes.length p.lane (!p.isUplink) c.index
                (decide (c.outcome = .unstamped ∨ (c.outcome = .pending ∧ ¬ arrived)))
                (decide (bytes.length < frameHeader bytes + c.keyOffset + 8)) true c.stamp.doubt
                (decide (c.stamp.cls = 6)) } :: later))

/-- FRAME_START takes the ingress capture of a frame on a port that is UP and receives none (R14); a start while a frame is
received, on a port that is DOWN or in a held reset cannot be and does nothing (log 2). -/
def Obligations.FrameStartTakesTheIngressCapture : Prop :=
  ∀ (p : Port) (s : State),
    let r : Rx := ⟨s.clock.date, s.clock.up, decide (s.run = .loading), [], .parsing⟩
    (s.run ≠ .held → (s.port p).up = true → (s.port p).rx = none →
      exec (.frameStart p) s = .next (s.setPort p { s.port p with rx := some r })) ∧
    (s.run = .held ∨ (s.port p).up = false ∨ (s.port p).rx ≠ none → exec (.frameStart p) s = .next s)

/-- LOOKUP_POINT of a frame that takes PASS, or that started in LOADING: offered to the elastic buffer of the lane's other
port, admitted with its link UP and 9,216 bytes free, else counted there as a transit drop; the port's arbiter then decides
(R99, R106, R108, R116, R124). A frame for a block is received whole, a UTX_UDP frame with the privilege its port has at the
lookup (R109, R110, R197). A frame whose lookup point has not come, or was made, is left (log 2). A lookup finds the
lowest-indexed valid entry of the active bank whose ethertype, VLAN condition, port set and pattern the frame meets, and gives
its action; with none, or where the further checks of UTX_L2 or UTX_UDP fail, or a UTX_UDP frame is not to the engine's
address, PASS (R104, R105, R106, R110, R111). The lookup point is reached when 131 bytes of the payload have
arrived, behind a header of 14 bytes or 18 with a tag, or the frame, of at least 64 bytes, has ended (R103, R104). The bytes
held by an elastic buffer are those of its frames and of the one that leaves from it; that of a frame still arriving they are
those brought so far and 12.5 in each period since is log 4, and that of the leaving one those gone are deducted, 12.5 in each
period, is log 5 (R116). -/
def Obligations.TheLookupSendsAFrameItsWay : Prop :=
  (∀ (bytes : List Byte) (ended : Bool),
    frameHeader bytes = (if natAt bytes 12 2 = 0x8100 then 18 else 14) ∧
    (lookupReached bytes ended = true ↔ bytes.length ≤ 9216 ∧
      ((ended = true ∧ 64 ≤ bytes.length) ∨ (ended = false ∧ frameHeader bytes + 131 ≤ bytes.length)))) ∧
  (∀ u : PortUnit,
    let arrived := fun (f : FwdFrame) => if f.complete then f.bytes.length else min 9216 (f.bytes.length + f.sinceHalf / 2)
    bufferOccupancy u = (u.buffer.map arrived).sum +
      (match u.tx with
       | some ⟨.buffer, .forwarded f, _, sentHalf⟩ => arrived f - sentHalf / 2
       | some ⟨.buffer, .originated _ bs, _, sentHalf⟩ => bs.length - sentHalf / 2
       | some ⟨.timing, _, _, _⟩ | some ⟨.general, _, _, _⟩ | none => 0)) ∧
  (∀ (s : State) (p : Port) (bytes : List Byte),
    let tagged := natAt bytes 12 2 = 0x8100
    let payload := if tagged then 18 else 14
    let ethertype := natAt bytes (payload - 2) 2
    let bank := if s.matchTab.active then s.matchTab.bank1 else s.matchTab.bank0
    let onPort := fun (e : MatchEntry) =>
      match p with | .u0 => e.ports.u0 | .u1 => e.ports.u1 | .d0 => e.ports.d0 | .d1 => e.ports.d1
    let meets := fun (e : MatchEntry) =>
      e.valid = true ∧ e.ethertype.toNat = ethertype ∧
      (e.vlanKind = .any ∨ (e.vlanKind = .none ∧ ¬ tagged) ∨
        (e.vlanKind = .id ∧ tagged ∧ natAt bytes 14 2 % 4096 = e.vlanId)) ∧
      onPort e = true ∧
      (e.patPresent = true → payload + e.patOffset + 4 ≤ bytes.length ∧
        BitVec.ofNat 32 (natAt bytes (payload + e.patOffset) 4) &&& e.patMask = e.patValue &&& e.patMask)
    let words := ((List.range 10).map (fun i => natAt bytes (payload + 2 * i) 2)).sum
    let udpPort := natAt bytes (payload + 22) 2
    let udp := ethertype = 0x0800 ∧ byteAt bytes payload = 0x45 ∧ words % 65535 = 0 ∧
      natAt bytes (payload + 6) 2 % 16384 = 0 ∧ byteAt bytes (payload + 9) = 17 ∧
      (udpPort = s.cfg.utxPort.toNat ∨ udpPort = s.cfg.mgmtPort.toNat)
    let own := natAt bytes (payload + 16) 4 = s.cfg.ip.toNat
    ((∀ i : Fin 64, ¬ meets bank[i]) → lookup s p bytes = .pass) ∧
    (∀ i : Fin 64, meets bank[i] → (∀ j : Fin 64, j < i → ¬ meets bank[j]) →
      (bank[i].action = .pass → lookup s p bytes = .pass) ∧
      (bank[i].action = .storageMark → lookup s p bytes = .mark i bank[i]) ∧
      (bank[i].action = .utxL2 →
        lookup s p bytes = if ethertype = s.cfg.utxEther.toNat then .utxL2 else .pass) ∧
      (bank[i].action = .utxUdp →
        (udp → own → lookup s p bytes =
          .utxUdp (decide (udpPort = s.cfg.mgmtPort.toNat)) (decide (udpPort = s.cfg.utxPort.toNat))) ∧
        (¬ udp ∨ ¬ own → lookup s p bytes = .pass)))) ∧
  ∀ (p : Port) (more : List Byte) (ended : Bool) (s : State) (r : Rx),
    s.run ≠ .held → (s.port p).up = true → (s.port p).rx = some r →
    let q := p.partner
    let bytes := r.bytes ++ more
    let found := lookup s p (if ended then bytes.take (bytes.length - 4) else bytes)
    let admitted := (s.port q).up = true ∧ 9216 + bufferOccupancy (s.port q) ≤ 32768
    (r.stage = .parsing → lookupReached bytes ended = true →
      (r.loading = true ∨ found = .pass →
        (admitted → exec (.lookupPoint p more ended) s = .next (arbitrate q
          ((s.setPort q { s.port q with buffer := (s.port q).buffer ++
              [{ bytes := bytes, sinceHalf := 0, ingress := r.ingress, complete := false, ready := true, cut := false,
                 edit := .none }] }).setPort p
            { s.port p with rx := some { r with bytes := bytes, stage := .forwarding true } }))) ∧
        (¬ admitted → exec (.lookupPoint p more ended) s = .next (arbitrate q
          ((s.setPort q { s.port q with stats := { (s.port q).stats with
              transitDrops := min 4294967295 ((s.port q).stats.transitDrops + 1) } }).setPort p
            { s.port p with rx := some { r with bytes := bytes, stage := .forwarding false } })))) ∧
      (r.loading = false → found = .utxL2 → exec (.lookupPoint p more ended) s = .next (s.setPort p
        { s.port p with rx := some { r with bytes := bytes, stage := .storingL2 } })) ∧
      (r.loading = false → ∀ mgmt utx, found = .utxUdp mgmt utx → exec (.lookupPoint p more ended) s = .next (s.setPort p
        { s.port p with
          rx := some { r with bytes := bytes, stage := .storingUdp mgmt utx (s.cfg.ports.get p).privilege } }))) ∧
    (r.stage ≠ .parsing ∨ lookupReached bytes ended = false → exec (.lookupPoint p more ended) s = .next s)

/-- LOOKUP_POINT of a storage mark: the claim is made and spent, the context opens with the entry's parameters and the stamp of
the moment, the outcome is UNSTAMPED in LOG_ONLY or where the buffer refuses the frame, WRITTEN where four bytes beyond the
stamp have arrived, else PENDING; and a freeze-on-match freezes a LIVE engine (R116, R129, R130, R131, R132, R137, R138). -/
def Obligations.AStorageMarkClaimsItsStamp : Prop :=
  ∀ (p : Port) (more : List Byte) (ended : Bool) (s : State) (r : Rx) (i : Nat) (e : MatchEntry),
    s.run ≠ .held → (s.port p).up = true → (s.port p).rx = some r → r.stage = .parsing → r.loading = false →
    lookupReached (r.bytes ++ more) ended = true →
    lookup s p (if ended then (r.bytes ++ more).take ((r.bytes ++ more).length - 4) else r.bytes ++ more) = .mark i e →
    let bytes := r.bytes ++ more
    let issued := issueDate s.clock.lastStamp r.ingress
    let admitted := (s.port p.partner).up = true ∧ 9216 + bufferOccupancy (s.port p.partner) ≤ 32768
    ∃ t c, exec (.lookupPoint p more ended) s = .next t ∧ t.clock.lastStamp = some issued ∧
      t.clock.date = s.clock.date ∧ t.clock.inc = s.clock.inc ∧
      (t.port p).ctx = some c ∧
      c = { index := i, stampOffset := e.stampOffset, keyOffset := e.keyOffset, domain := e.domain, logMode := e.logMode,
            freeze := e.freeze, ingress := r.ingress
            stamp :=
              { s := issued.s, n := issued.n, cls := s.engineClass, domain := e.domain
                doubt := decide (3 ≤ s.engineClass) || s.servo.catchDown
                catchDown := s.servo.catchDown
                floor := decide (s.engineClass = s.floor ∧ s.servoClass < s.floor)
                pushed := decide ((SN.mk r.ingress.s (r.ingress.n - r.ingress.n % 2)).ns < issued.ns)
                noLog := decide (e.logMode = .stampOnly) }
            outcome := c.outcome } ∧
      (e.logMode = .logOnly → c.outcome = .unstamped) ∧
      (e.logMode ≠ .logOnly → ¬ admitted → c.outcome = .unstamped) ∧
      (e.logMode ≠ .logOnly → admitted →
        c.outcome = if frameHeader bytes + e.stampOffset + 16 ≤ bytes.length then .written else .pending) ∧
      (e.freeze = true → s.frozen = none → ∃ v, t.frozen = some v ∧ v.trigger = .matched i ∧ v.sources = s.sources) ∧
      (e.freeze = false ∨ s.frozen ≠ none → t.frozen = s.frozen) ∧
      t.cfg = s.cfg ∧ t.servo = s.servo ∧ t.sources = s.sources

/-- EDIT_HOLD_END: four bytes beyond the stamp have arrived, so the outcome becomes WRITTEN, stamps applied is counted on the
ingress port, and the frame, ready with the stamp to be written at its offset, is put to the arbiter (R117, R122, R132). Where no hold can end,
nothing changes (log 2). The twelve bytes of a stamp: the seconds, the nanoseconds with the doubt mark in the lowest bit, the
class, and the domain above CATCH, FLOOR, PUSHED and NOLOG (R18, R131, section 12.3). -/
def Obligations.TheEditHoldEndsWithTheStampWritten : Prop :=
  (∀ t : Stamp,
    let num : Bool → Nat := fun b => if b then 1 else 0
    (stampBytes t).length = 12 ∧
    stampBytes t = [beSat 6 t.s, beSat 4 (t.n + num t.doubt), beSat 1 t.cls,
      be 1 (16 * t.domain + 8 * num t.catchDown + 4 * num t.floor + 2 * num t.pushed + num t.noLog)].flatten) ∧
  (∀ (p : Port) (more : List Byte) (s : State),
    (s.run = .held ∨ (s.port p).up = false ∨ (s.port p).rx = none ∨ (s.port p).ctx = none →
      exec (.editHoldEnd p more) s = .next s) ∧
    (∀ r c, (s.port p).rx = some r → (s.port p).ctx = some c →
      (r.stage ≠ .forwarding true ∨ c.outcome ≠ .pending ∨ 9216 < (r.bytes ++ more).length ∨
        (r.bytes ++ more).length < frameHeader (r.bytes ++ more) + c.stampOffset + 16) →
      exec (.editHoldEnd p more) s = .next s)) ∧
  ∀ (p : Port) (more : List Byte) (s : State) (r : Rx) (c : DatingCtx),
    s.run ≠ .held → (s.port p).up = true → (s.port p).rx = some r → (s.port p).ctx = some c →
    r.stage = .forwarding true → c.outcome = .pending →
    frameHeader (r.bytes ++ more) + c.stampOffset + 16 ≤ (r.bytes ++ more).length → (r.bytes ++ more).length ≤ 9216 →
    let q := p.partner
    let bytes := r.bytes ++ more
    exec (.editHoldEnd p more) s = .next (arbitrate q
      ((s.setPort p { s.port p with
          rx := some { r with bytes := bytes }
          ctx := some { c with outcome := .written }
          stats := { (s.port p).stats with stamps := min 4294967295 ((s.port p).stats.stamps + 1) } }).setPort q
        (onArriving (fun x => { x with
          bytes := bytes, sinceHalf := 0, ready := true
          edit := .stamp (frameHeader bytes + c.stampOffset) (stampBytes c.stamp) }) (s.port q))))

/-- FRAME_OVERSIZE: beyond 9,216 bytes a frame received whole is discarded and counted UTX malformed; one forwarded is cut at
9,216 bytes to end with an invalid FCS and counted as a transit drop, its storage mark's context closing (R103, R136); a frame
already discarded, or one that has not passed 9,216 bytes, is left (log 2). The bytes kept of such a frame are log 37. A frame whose
lookup is still to come (log 22) is not said here. The stamp of a mark is settled, WRITTEN and counted where four bytes beyond
it had arrived, and a mark that is logged gets its STAMP record, of length 9,216 and BAD_FCS (R132, R136); that byte 9,217
counts among the four and not in the key is log 37, and the order of the record and the arbiter's decisions log 62. -/
def Obligations.AFrameBeyond9216Bytes : Prop :=
  ∀ (p : Port) (more : List Byte) (s : State) (r : Rx),
    s.run ≠ .held → (s.port p).up = true → (s.port p).rx = some r →
    let q := p.partner
    let bytes := (r.bytes ++ more).take 9217
    (r.stage = .discarding ∨ (r.bytes ++ more).length ≤ 9216 → exec (.frameOversize p more) s = .next s) ∧
    (9216 < (r.bytes ++ more).length → r.stage = .storingL2 ∨ (∃ a b c, r.stage = .storingUdp a b c) →
      exec (.frameOversize p more) s = .next (s.setPort p { s.port p with
        rx := some { r with bytes := bytes, stage := .discarding }
        stats := { (s.port p).stats with malformed := min 4294967295 ((s.port p).stats.malformed + 1) } })) ∧
    (9216 < (r.bytes ++ more).length → r.stage = .forwarding true → (s.port p).ctx = none →
      exec (.frameOversize p more) s = .next (arbitrate q
        ((s.setPort p { s.port p with rx := some { r with bytes := bytes, stage := .discarding } }).setPort q
          (let v := onArriving (fun x => { x with
             bytes := bytes.take 9216, sinceHalf := 0, complete := true, ready := true, cut := true }) (s.port q)
           { v with stats := { v.stats with transitDrops := min 4294967295 (v.stats.transitDrops + 1) } })))) ∧
    (9216 < (r.bytes ++ more).length → r.stage = .forwarding false → (s.port p).ctx = none →
      exec (.frameOversize p more) s = .next (s.setPort p { s.port p with
        rx := some { r with bytes := bytes, stage := .discarding } })) ∧
    (∀ inLane, 9216 < (r.bytes ++ more).length → r.stage = .forwarding inLane → (s.port p).ctx ≠ none →
      ∃ t, exec (.frameOversize p more) s = .next t ∧ (t.port p).ctx = none ∧
        (t.port p).rx = some { r with bytes := bytes, stage := .discarding } ∧
        (t.port q).stats.transitDrops =
          (if inLane then min 4294967295 ((s.port q).stats.transitDrops + 1) else (s.port q).stats.transitDrops) ∧
        ∀ c, (s.port p).ctx = some c →
          let arrived := frameHeader bytes + c.stampOffset + 16 ≤ bytes.length
          (t.port p).stats.stamps =
            (if c.outcome = .pending ∧ arrived then min 4294967295 ((s.port p).stats.stamps + 1) else (s.port p).stats.stamps) ∧
          (c.logMode = .stampOnly → t.log = s.log) ∧
          (c.logMode ≠ .stampOnly → s.log.mem = .inService → s.log.gap = false → s.log.records.length + 2 ≤ 4096 →
            t.log.records = s.log.records ++
              [{ seq := s.log.nextSeq, port := some p, domain := c.domain, cls := c.stamp.cls, date := ⟨c.stamp.s, c.stamp.n⟩
                 body := .stamp
                   ((List.range 8).map (fun j => (bytes.take 9216).getD (frameHeader bytes + c.keyOffset + j) 0))
                   9216 p.lane (!p.isUplink) c.index
                   (decide (c.outcome = .unstamped ∨ (c.outcome = .pending ∧ ¬ arrived)))
                   (decide (9216 < frameHeader bytes + c.keyOffset + 8)) true c.stamp.doubt
                   (decide (c.stamp.cls = 6)) }] ∧
            t.log.nextSeq = (s.log.nextSeq + 1) % 4294967296))

/-- FRAME_END: a frame shorter than 64 bytes is discarded and counted as a transit drop of the lane's other port (R103); one
received whole with a bad FCS is discarded and counted UTX malformed (R109); one with a good FCS goes to its blocks (R109,
R110); one already discarded is forgotten; and a PASS frame's reception completes the frame in its buffer. One of more than 9,216
bytes that no FRAME_OVERSIZE told of is malformed where it was received whole, and cut where it was forwarded (R103, R136);
that such a FRAME_END is taken so, as FRAME_OVERSIZE and the end of a discarded frame, is the model's choice (log 37). A frame
that its buffer refused ends with nothing more, the arbiter of that port deciding. A frame of 64 bytes or more, within 9,216,
whose lookup is still to come (log 22) is not said here. -/
def Obligations.FrameEndDoes : Prop :=
  ∀ (p : Port) (more : List Byte) (s : State) (r : Rx),
    s.run ≠ .held → (s.port p).up = true → (s.port p).rx = some r →
    let q := p.partner
    let bytes := r.bytes ++ more
    let gone := s.setPort p { s.port p with rx := none }
    (r.stage = .parsing → bytes.length < 64 →
      exec (.frameEnd p more) s = .next (gone.setPort q { (s.port q) with stats := { (s.port q).stats with
        transitDrops := min 4294967295 ((s.port q).stats.transitDrops + 1) } })) ∧
    (r.stage = .discarding → exec (.frameEnd p more) s = .next gone) ∧
    (bytes.length ≤ 9216 → r.stage = .storingL2 ∨ (∃ a b c, r.stage = .storingUdp a b c) → fcsGood bytes = false →
      exec (.frameEnd p more) s = .next (s.setPort p { s.port p with
        rx := none
        stats := { (s.port p).stats with malformed := min 4294967295 ((s.port p).stats.malformed + 1) } })) ∧
    (bytes.length ≤ 9216 → r.stage = .storingL2 → fcsGood bytes = true →
      exec (.frameEnd p more) s = .next (dispatchL2 ⟨p, r.ingress, r.up, bytes, frameHeader bytes⟩ gone)) ∧
    (∀ mgmt utx privilege, bytes.length ≤ 9216 → r.stage = .storingUdp mgmt utx privilege → fcsGood bytes = true →
      exec (.frameEnd p more) s = .next
        (dispatchUdp ⟨p, r.ingress, r.up, bytes, frameHeader bytes + 28⟩ mgmt utx privilege gone)) ∧
    (9216 < bytes.length → r.stage = .storingL2 ∨ (∃ a b c, r.stage = .storingUdp a b c) →
      exec (.frameEnd p more) s = .next (s.setPort p { s.port p with
        rx := none
        stats := { (s.port p).stats with malformed := min 4294967295 ((s.port p).stats.malformed + 1) } })) ∧
    (9216 < bytes.length → r.stage = .forwarding true → ∃ t, exec (.frameEnd p more) s = .next t ∧
      (t.port p).rx = none ∧ (t.port p).ctx = none ∧
      (t.port q).stats.transitDrops = min 4294967295 ((s.port q).stats.transitDrops + 1)) ∧
    (9216 < bytes.length → r.stage ≠ .discarding → ∀ t, exec (.frameOversize p more) s = .next t →
      exec (.frameEnd p more) s = .next (t.setPort p { t.port p with rx := none })) ∧
    (bytes.length ≤ 9216 → r.stage = .forwarding false → (s.port p).ctx = none →
      exec (.frameEnd p more) s = .next (arbitrate q gone)) ∧
    (bytes.length ≤ 9216 → r.stage = .forwarding true → (s.port p).ctx = none →
      exec (.frameEnd p more) s = .next (arbitrate q (gone.setPort q
        (onArriving (fun x => { x with bytes := bytes, sinceHalf := 0, complete := true, ready := true }) (s.port q)))))

/-- A whole frame with a good FCS. Well formed is what passes the five checks of R213, the bytes available to a UDP frame being
its UDP length less 8; those of them that the frame does not hold read as log 24 says. A frame malformed or of a kind foreign to
its carriage or port is counted and passed on unchanged. Beacons, asks and answers go by destination, port and lane mode: to the
Source Table, to the answerer or the requester, on with residence or unchanged, or nowhere; a TRANSIT uplink's beacons are
thinned, and leave with residence and the P of their arrival added. A frame handed on whole is admitted with its length free. A
PEER_REPORT goes to the monitor; a CONTROL frame is held for the agent where its port's privilege, the manager prefix and an
empty holding place allow it, and else dropped. An address lies within the manager prefix when its leading bits, as many as the
prefix length, are those of the prefix; the held frame takes the port, the sender's MAC, tag, IPv4 address and UDP port, the
privilege of the lookup, and from the UTX bytes the request number, the count and the commands (R33, R40, R48, R86, R87, R92, R93, R95, R109, R110, R116, R197, R198, R213). -/
def Obligations.WholeFramesGoByTheirKind : Prop :=
  (∀ (utx : List Byte) (available : Nat),
    let kind := byteAt utx 1
    let body := natAt utx 2 2
    utxFits utx available = true ↔ 12 ≤ available ∧ byteAt utx 0 = 1 ∧ 12 + body ≤ available ∧
      ((kind = 1 ∧ body = 32) ∨ (kind = 2 ∧ body = 20) ∨ (kind = 3 ∧ body = 40) ∨
       (kind = 4 ∧ body = 26 ∧ byteAt utx 36 = 0) ∨ (kind = 4 ∧ body = 46 ∧ byteAt utx 36 = 1) ∨
       (kind = 5 ∧ 5 ≤ body ∧ 12 + body ≤ 1472))) ∧
  (∀ bytes : List Byte,
    let ip := frameHeader bytes
    let udp := natAt bytes (ip + 24) 2
    let total := natAt bytes (ip + 2) 2
    availableL2 bytes = bytes.length - 4 - ip ∧
    availableUdp bytes = if 8 ≤ udp ∧ 20 + udp ≤ total then udp - 8 else 0) ∧
  (∀ (w : Whole) (edit : Edit) (s : State),
    let q := w.port.partner
    let u := s.port q
    let room := u.up = true ∧ w.bytes.length + bufferOccupancy u ≤ 32768
    (room → forwardWhole w edit s = arbitrate q (s.setPort q { u with buffer := u.buffer ++
      [{ bytes := w.bytes, sinceHalf := 0, ingress := w.ingress, complete := true, ready := true, cut := false,
         edit := edit }] })) ∧
    (¬ room → forwardWhole w edit s = s.setPort q
      { u with stats := { u.stats with transitDrops := min 4294967295 (u.stats.transitDrops + 1) } })) ∧
  (∀ (w : Whole) (s : State),
    let p := w.port
    let l := p.lane
    let kind := byteAt w.utx 1
    let fits := utxFits w.utx (availableL2 w.bytes) = true
    let malformed := forwardWhole w .none (s.setPort p { s.port p with stats := { (s.port p).stats with
      malformed := min 4294967295 ((s.port p).stats.malformed + 1) } })
    let mode := (s.cfg.lanes.get l).mode
    let up := p.isUplink = true
    let own := w.dst = s.cfg.mac
    let group := w.dst = s.cfg.group
    (¬ fits ∨ kind = 4 ∨ kind = 5 → dispatchL2 w s = malformed) ∧
    (fits → kind = 1 →
      (¬ up → mode = .boundary → dispatchL2 w s = s) ∧
      (¬ up → mode = .transit → dispatchL2 w s = forwardWhole w .none s) ∧
      (up → mode = .boundary → dispatchL2 w s = beaconIntoTable w s) ∧
      (up → mode = .transit →
        let thin := (s.lane l).thin
        let moved := (beaconIntoTable w s).setLane l { s.lane l with
          thin := if thin + 1 < 2 ^ (s.cfg.lanes.get l).m then thin + 1 else 0 }
        dispatchL2 w s = if thin = 0 then forwardWhole w (.transit (w.header + 30) (s.echoOf p).p) moved else moved)) ∧
    (fits → kind = 2 →
      (own ∨ group → up ∨ mode = .boundary → dispatchL2 w s = answerAsk w s) ∧
      (group → ¬ own → ¬ up → mode = .transit → dispatchL2 w s = forwardWhole w (.transit (w.header + 24) 0) s) ∧
      (own → ¬ group → ¬ up → mode = .transit → dispatchL2 w s = s) ∧
      (¬ own → ¬ group → mode = .transit → dispatchL2 w s = forwardWhole w (.transit (w.header + 24) 0) s) ∧
      (¬ own → ¬ group → mode = .boundary → dispatchL2 w s = forwardWhole w .none s)) ∧
    (fits → kind = 3 →
      (own ∨ group → dispatchL2 w s = answerReceived w s) ∧
      (¬ own → ¬ group → mode = .transit → dispatchL2 w s = forwardWhole w (.transit (w.header + 44) 0) s) ∧
      (¬ own → ¬ group → mode = .boundary → dispatchL2 w s = forwardWhole w .none s))) ∧
  (∀ (s : State) (ip : BitVec 32), withinPrefix s ip = true ↔
    ∀ i, i < s.cfg.mgrLen → ip.getLsbD (31 - i) = s.cfg.mgrAddr.getLsbD (31 - i)) ∧
  (∀ (w : Whole) (privilege : Privilege),
    let c := controlOf w privilege
    let utx := (w.bytes.take (w.bytes.length - 4)).drop w.header
    c.port = w.port ∧ c.privilege = privilege ∧ c.srcMac.toNat = natAt w.bytes 6 6 ∧
    c.tag = (if natAt w.bytes 12 2 = 0x8100 then some (bitsAt 2 w.bytes 14) else none) ∧
    c.srcIp.toNat = natAt w.bytes (w.header - 16) 4 ∧ c.srcPort.toNat = natAt w.bytes (w.header - 8) 2 ∧
    c.body.length = natAt w.utx 2 2 - 5 ∧
    (17 ≤ utx.length → 12 + natAt utx 2 2 ≤ utx.length →
      c.request.toNat = natAt utx 12 4 ∧ c.count = byteAt utx 16 ∧ c.body = (utx.drop 17).take (natAt utx 2 2 - 5))) ∧
  (∀ (w : Whole) (mgmt utx : Bool) (privilege : Privilege) (s : State),
    let p := w.port
    let kind := byteAt w.utx 1
    let fits := utxFits w.utx (availableUdp w.bytes) = true
    let accepted := privilege ≠ .none ∧ withinPrefix s (bitsAt 4 w.bytes (w.header - 16)) = true ∧ s.run = .running ∧
      s.agent.reload = false ∧ (s.port p).held = none
    (¬ fits ∨ (kind ≠ 4 ∧ kind ≠ 5) ∨ (kind = 4 ∧ utx = false) ∨ (kind = 5 ∧ mgmt = false) →
      dispatchUdp w mgmt utx privilege s = forwardWhole w .none (s.setPort p { s.port p with stats :=
        { (s.port p).stats with malformed := min 4294967295 ((s.port p).stats.malformed + 1) } })) ∧
    (fits → kind = 4 → utx = true → dispatchUdp w mgmt utx privilege s = reportReceived w s) ∧
    (fits → kind = 5 → mgmt = true → accepted →
      dispatchUdp w mgmt utx privilege s = s.setPort p { s.port p with held := some (controlOf w privilege) }) ∧
    (fits → kind = 5 → mgmt = true → ¬ accepted → dispatchUdp w mgmt utx privilege s = s))

/-- The reception of a storage mark that is logged ends in its STAMP record, written with the next sequence where the log takes
it: the issued date, the class at the claim, the key as received with zeros beyond the payload, the length, and the flags; the
outcome is settled first (R132, R133, R135, R142, R144). Of every mark, one refused by its buffer and one that is STAMP_ONLY
too, the context closes, and stamps applied is counted where the outcome was PENDING and its stamp fits; in STAMP_ONLY the log
is left as it is (R132, R135, R137). -/
def Obligations.AStorageMarkEndsInItsRecord : Prop :=
  (∀ (p : Port) (more : List Byte) (s : State) (r : Rx) (c : DatingCtx) (inLane : Bool),
    s.run ≠ .held → (s.port p).up = true → (s.port p).rx = some r → (s.port p).ctx = some c →
    r.stage = .forwarding inLane → (r.bytes ++ more).length ≤ 9216 →
    let bytes := r.bytes ++ more
    let fits := frameHeader bytes + c.stampOffset + 16 ≤ bytes.length
    ∃ t, exec (.frameEnd p more) s = .next t ∧ (t.port p).ctx = none ∧ (t.port p).rx = none ∧
      (t.port p).stats.stamps =
        (if c.outcome = .pending ∧ fits then min 4294967295 ((s.port p).stats.stamps + 1) else (s.port p).stats.stamps) ∧
      (c.logMode = .stampOnly → t.log = s.log)) ∧
  ∀ (p : Port) (more : List Byte) (s : State) (r : Rx) (c : DatingCtx) (inLane : Bool),
    s.run ≠ .held → (s.port p).up = true → (s.port p).rx = some r → (s.port p).ctx = some c →
    r.stage = .forwarding inLane → (r.bytes ++ more).length ≤ 9216 → c.logMode ≠ .stampOnly →
    s.log.mem = .inService → s.log.gap = false → s.log.records.length + 2 ≤ 4096 →
    let bytes := r.bytes ++ more
    let payloadEnd := bytes.length - 4
    let fits := frameHeader bytes + c.stampOffset + 16 ≤ bytes.length
    ∃ t, exec (.frameEnd p more) s = .next t ∧ (t.port p).ctx = none ∧ (t.port p).rx = none ∧
      t.log.records = s.log.records ++
        [{ seq := s.log.nextSeq, port := some p, domain := c.domain, cls := c.stamp.cls, date := ⟨c.stamp.s, c.stamp.n⟩
           body := .stamp
             ((List.range 8).map (fun j =>
               if frameHeader bytes + c.keyOffset + j < payloadEnd then bytes.getD (frameHeader bytes + c.keyOffset + j) 0 else 0))
             bytes.length p.lane (!p.isUplink) c.index
             (decide (c.outcome = .unstamped ∨ (c.outcome = .pending ∧ ¬ fits)))
             (decide (payloadEnd < frameHeader bytes + c.keyOffset + 8)) (!fcsGood bytes) c.stamp.doubt
             (decide (c.stamp.cls = 6)) }] ∧
      t.log.nextSeq = (s.log.nextSeq + 1) % 4294967296

/-- FRAME_SENT: the whole frame has gone, so it is counted as passed unless it was cut, its place is free, and the arbiter
decides; the frame that carries the answer a RESET waits for is followed by the reset (R103, R122, R123, R209), which is taken
in place of the decision, as the model chooses (log 66). A frame whose last byte is not in hand cannot have been sent (log 2).
What a soft reset raises again comes in the order of log 33. The bytes of a forwarded frame: as received where it was not
edited; else with its stamp, or its transit sum grown by residence and P and saturated, in place and the FCS regenerated,
every bit inverted where the FCS received was bad; a cut frame's are those up to 9,216, its invalid FCS standing in its mark
(log 17). A stamp in a frame that carries UDP leaves the one's-complement sum of checksum and replaced bytes as it was, but
for the cases of R119 in which the checksum stands. The sign is that of R119's purpose, a checksum correct on arrival correct
when it leaves; the words of its step, taken of the checksum field, have the other sign, and this choice and the bytes taken
into it, those of the pseudo-header among them, are log 16 (R34, R93, R108, R118, R119, R132). -/
def Obligations.FrameSentFreesThePort : Prop :=
  (∀ (p : Port) (s : State) (x : Tx), s.run ≠ .held → (s.port p).up = true → (s.port p).tx = some x →
    let cut := match x.body with
      | .forwarded f => f.cut
      | .originated _ _ => false
    let bytes := match x.body with
      | .forwarded f => forwardedBytes f x.egress
      | .originated _ bs => bs
    let sent := s.setPort p { s.port p with
      tx := none
      lastSent := some ⟨bytes, cut⟩
      stats := { (s.port p).stats with
        passed := if cut then (s.port p).stats.passed else min 4294967295 ((s.port p).stats.passed + 1) } }
    (∀ f, x.body = .forwarded f → f.complete = false → exec (.frameSent p) s = .next s) ∧
    (∀ f, x.body = .forwarded f → f.complete = true → exec (.frameSent p) s = .next (arbitrate p sent)) ∧
    (∀ tag bs, x.body = .originated tag bs → tag ≠ .answer true → exec (.frameSent p) s = .next (arbitrate p sent)) ∧
    (∀ bs, x.body = .originated (.answer true) bs → s.agent.resetPending = none → exec (.frameSent p) s = .next sent) ∧
    (∀ bs, x.body = .originated (.answer true) bs → s.agent.resetPending = some .full →
      exec (.frameSent p) s = .next { State.reset with pending := s.pending }) ∧
    (∀ bs, x.body = .originated (.answer true) bs → s.agent.resetPending = some .softReload →
      exec (.frameSent p) s = .next (softResetNow true sent)) ∧
    (∀ bs, x.body = .originated (.answer true) bs → s.agent.resetPending = some .soft →
      exec (.frameSent p) s = .next
        (let soft := softResetNow false sent
         completeSoft soft.servo.expired soft))) ∧
  (∀ (f : FwdFrame) (egress : Date),
    let body := f.bytes.take (f.bytes.length - 4)
    let fcs := fun (edited : List Byte) => if fcsGood f.bytes then fcsOf edited else (fcsOf edited).map (fun b => ~~~ b)
    let residence : Int := ⌊(((egress.units : Int) - f.ingress.units : Int) : Rat) / 65536⌋
    (f.cut = false → f.edit = .none → forwardedBytes f egress = f.bytes) ∧
    (f.cut = true → f.edit = .none → forwardedBytes f egress = f.bytes.take 9216) ∧
    (∀ off stamp, f.edit = .stamp off stamp →
      (f.cut = false → forwardedBytes f egress = writeStamp body off stamp ++ fcs (writeStamp body off stamp)) ∧
      (f.cut = true → forwardedBytes f egress = writeStamp (f.bytes.take 9216) off stamp)) ∧
    (∀ off add, f.edit = .transit off add → f.cut = false → off + 8 ≤ body.length →
      let sum := max (-(2 ^ 63)) (min (2 ^ 63 - 1) (intAt body off 8 + residence + add))
      ∃ field, field.length = 8 ∧ intAt field 0 8 = sum ∧
        let edited := body.take off ++ field ++ body.drop (off + 8)
        forwardedBytes f egress = edited ++ fcs edited)) ∧
  (∀ (bs : List Byte) (start stop : Nat) (v4 : Bool),
    let ip := if natAt bs 12 2 = 0x8100 then 18 else 14
    let ethertype := natAt bs (ip - 2) 2
    udpSpan bs = some (start, stop, v4) ↔
      (v4 = true ∧ ethertype = 0x0800 ∧ byteAt bs ip / 16 = 4 ∧ natAt bs (ip + 6) 2 % 8192 = 0 ∧ byteAt bs (ip + 9) = 17 ∧
        start = ip + 4 * (byteAt bs ip % 16) ∧ stop = min (start + natAt bs (start + 4) 2) (ip + natAt bs (ip + 2) 2)) ∨
      (v4 = false ∧ ethertype = 0x86DD ∧ byteAt bs (ip + 6) = 17 ∧ start = ip + 40 ∧ stop = start + natAt bs (start + 4) 2)) ∧
  (∀ (bs stamp : List Byte) (off : Nat), stamp.length = 12 → off + 12 ≤ bs.length →
    let plain := bs.take off ++ stamp ++ bs.drop (off + 12)
    let sent := writeStamp bs off stamp
    (udpSpan bs = none → sent = plain) ∧
    (∀ start stop v4, udpSpan bs = some (start, stop, v4) →
      let field := start + 6
      let old := natAt bs field 2
      let new := natAt sent field 2
      let ip := if natAt bs 12 2 = 0x8100 then 18 else 14
      let place := fun (j : Nat) => if (off + j + start) % 2 = 0 then 256 else 1
      let within := fun (j lo hi : Nat) => if lo ≤ off + j ∧ off + j < hi then place j else 0
      let address := fun (j : Nat) => if v4 = true then within j (ip + 12) (ip + 20) else within j (ip + 8) (ip + 40)
      let protocol := fun (j : Nat) => if off + j = (if v4 = true then ip + 9 else ip + 6) then 1 else 0
      let weight := fun (j : Nat) => within j start stop + within j (start + 4) (start + 6) + address j + protocol j
      let sum := fun (x : List Byte) => ((List.range 12).map (fun j => byteAt x (off + j) * weight j)).sum
      (bs.length < start + 8 ∨ (off < field + 2 ∧ field < off + 12) ∨ (v4 = true ∧ old = 0) → sent = plain) ∧
      (start + 8 ≤ bs.length → field + 2 ≤ off ∨ off + 12 ≤ field → v4 = false ∨ old ≠ 0 →
        sent = plain.take field ++ be 2 new ++ plain.drop (field + 2) ∧ 1 ≤ new ∧
        (new + sum plain) % 65535 = (old + sum bs) % 65535)))

/-- A decision of the arbiter: the oldest timing frame; else the oldest general frame once it has waited 1 ms of uptime; else
the head of the elastic buffer if it is ready; else the oldest general frame; else nothing. A busy transmitter or a DOWN link
grants nothing (R122). A granted frame takes the egress capture, which with class, servo state, lineage and epoch of the moment
is written into it: a beacon's date, class, origin, hops and epoch, an ask's t1, an answer's t3, a report's t3, class, servo
state and origin. The ask the unit awaits is then in flight with its t1 and its timeout, and a report's t3 is a send date of its
entry where that is enabled as it was (R14, R24, R32, R89, R166, R214). A report whose entry was cleared or rewritten while it
waited records none (R163; where a rewriting takes the record is log 46). The FCS is that of log 6. -/
def Obligations.TheArbiterGrantsInItsOrder : Prop :=
  ∀ (p : Port) (s : State),
    let u := s.port p
    let put := fun (bs : List Byte) (off : Nat) (new : List Byte) => bs.take off ++ new ++ bs.drop (off + new.length)
    let now : SN := ⟨s.clock.date.s, s.clock.date.n⟩
    let date := beSat 6 now.s ++ beSat 4 now.n
    let origin := match s.selected with
      | some e => e.origin
      | none => s.cfg.engineId
    let hops := match s.selected with
      | some e => min 255 (e.hops + 1)
      | none => 0
    let written := fun (q : QFrame) =>
      match q.tag with
      | .beacon => put (put (put (put q.bytes (q.header + 12) (beBits 8 origin)) (q.header + 20) date)
          (q.header + 38) (beSat 1 s.engineClass ++ beSat 1 hops)) (q.header + 41) (beSat 2 s.clock.epoch)
      | .ask _ => put q.bytes (q.header + 14) date
      | .echoAnswer => put q.bytes (q.header + 34) date
      | .report _ _ _ | .voidReport => put q.bytes (q.header + 16)
          (date ++ beSat 1 s.engineClass ++ be 1 (servoCode s.servo.st) ++ beBits 8 origin)
      | .answer _ | .alert => q.bytes
    let recorded := fun (q : QFrame) (t : State) =>
      match q.tag with
      | .ask id =>
        if (s.echoOf p).st = .queued ∧ (id + 1) % 65536 = (s.echoOf p).nextId then
          t.setEcho p { s.echoOf p with
            st := .inFlight ⟨id, now, s.clock.up, (s.portRec p).timeoutMs * 250000⟩ }
        else t
      | .report i rack ip =>
        if (s.peerCfg i).enabled = true ∧ (s.peerCfg i).rack = rack ∧ (s.peerCfg i).ip = ip then
          t.setPeer i { s.peer i with newer := some now, older := (s.peer i).newer }
        else t
      | .beacon | .echoAnswer | .voidReport | .answer _ | .alert => t
    let leaves := fun (store : TxFrom) (q : QFrame) =>
      Tx.mk store (.originated q.tag (written q ++ fcsOf (written q))) s.clock.date 0
    (u.tx ≠ none ∨ u.up = false → arbitrate p s = s) ∧
    (u.tx = none → u.up = true →
      (∀ q rest, u.timing = q :: rest →
        arbitrate p s = recorded q (s.setPort p { u with timing := rest, tx := some (leaves .timing q) })) ∧
      (u.timing = [] → ∀ g gs, u.general = g :: gs →
        (g.joined + 250000 ≤ s.clock.up ∨ u.buffer = [] ∨ (∃ f fs, u.buffer = f :: fs ∧ f.ready = false)) →
        arbitrate p s = recorded g (s.setPort p { u with general := gs, tx := some (leaves .general g) })) ∧
      (u.timing = [] → ∀ f fs, u.buffer = f :: fs → f.ready = true →
        (u.general = [] ∨ ∃ g gs, u.general = g :: gs ∧ s.clock.up < g.joined + 250000) →
        arbitrate p s = s.setPort p { u with buffer := fs, tx := some ⟨.buffer, .forwarded f, s.clock.date, 0⟩ }) ∧
      (u.timing = [] → u.general = [] → (u.buffer = [] ∨ ∃ f fs, u.buffer = f :: fs ∧ f.ready = false) →
        arbitrate p s = s))

/-- CONTROL_FRAME_TAKE: the free agent takes the frame that waits on the port, whose place is then empty, and begins: it answers
a frame of no commands at once, and stands before the first command where that is one to be executed. An agent that is not free
does not take it (R198, R199, R209, R211); that a take on a port which holds no frame changes nothing is log 2. Where the first
command is answered without being executed, it and those behind it up to the next to be executed are answered in the step of
the take: that they share its step is the model's choice (log 12). -/
def Obligations.TheFreeAgentTakesAControlFrame : Prop :=
  ∀ (p : Port) (s : State),
    ((s.port p).held = none ∨ s.run ≠ .running ∨ s.agent.reload = true ∨ s.agent.resetPending ≠ none ∨ s.agent.exec ≠ none →
      exec (.controlFrameTake p) s = .next s) ∧
    (∀ c, (s.port p).held = some c → s.run = .running → s.agent.reload = false → s.agent.resetPending = none →
      s.agent.exec = none →
      let e : Exec := { frame := c, rest := c.body, left := c.count, results := [], ended := false }
      let taken := s.setPort p { s.port p with held := none }
      (c.count = 0 → exec (.controlFrameTake p) s = .next (finishFrame e taken)) ∧
      (nextCommand e ≠ none → exec (.controlFrameTake p) s = .next { taken with agent := { s.agent with exec := some e } }) ∧
      (0 < c.count → nextCommand e = none → exec (.controlFrameTake p) s = .next (advanceFrame e taken)))

/-! ### Events of elapsed time -/

/-- ECHO_INTERVAL_EXPIRY, due on an uplink whose schedule runs: in IDLE the next id is used, and the ask joins the timing
queue and the unit AWAITS, or with the queue full it is dropped and counted; in AWAITING nothing is built. The next interval
runs from it. The expiry taken at once when a schedule starts does the same. An expiry that is not due, and any on a downlink,
changes nothing (R21, R22, R23, log 2, log 20). The bytes of an ask as it is built, to the group MAC: t1 and transit sum zero,
and zero bytes up to 60 (R120, R214, section 12.1). -/
def Obligations.AnEchoIntervalBuildsOneAsk : Prop :=
  (∀ (s : State) (id : Nat),
    let built := [be 6 s.cfg.group.toNat, be 6 s.cfg.mac.toNat, be 2 s.cfg.utxEther.toNat, [1, 2], be 2 20,
      be 8 s.cfg.engineId.toNat, be 2 id, be 10 0, be 8 0].flatten
    built.length = 46 ∧ askFrame s id = built ++ be 14 0) ∧
  (∀ (p : Port) (s : State),
    let e := s.echoOf p
    let u := s.port p
    let due := p.isUplink = true ∧ s.run = .running ∧ s.agent.reload = false ∧ u.up = true ∧ (s.portRec p).echoOn = true ∧
      ∃ t, e.sched = some t ∧ t + intervalPeriods (s.portRec p).k ≤ s.clock.up
    (¬ due → exec (.echoIntervalExpiry p) s = .next s) ∧
    (due → e.st ≠ .idle →
      exec (.echoIntervalExpiry p) s = .next (s.setEcho p { e with sched := some s.clock.up })) ∧
    (due → e.st = .idle → timingHeld u < 8 → exec (.echoIntervalExpiry p) s = .next (arbitrate p
      ((s.setPort p { u with timing := u.timing ++ [⟨.ask e.nextId, 14, askFrame s e.nextId, s.clock.up⟩] }).setEcho p
        { e with st := .queued, nextId := (e.nextId + 1) % 65536, sched := some s.clock.up }))) ∧
    (due → e.st = .idle → 8 ≤ timingHeld u → exec (.echoIntervalExpiry p) s = .next
      ((s.setPort p { u with stats := { u.stats with timingDrops := min 4294967295 (u.stats.timingDrops + 1) } }).setEcho p
        { e with nextId := (e.nextId + 1) % 65536, sched := some s.clock.up }))) ∧
  (∀ (p : Port) (s : State),
    let e := s.echoOf p
    let u := s.port p
    let used := { e with nextId := (e.nextId + 1) % 65536 }
    (e.st ≠ .idle → takeInterval p s = s) ∧
    (e.st = .idle → u.up = true → timingHeld u < 8 → takeInterval p s = arbitrate p
      ((s.setPort p { u with timing := u.timing ++ [⟨.ask e.nextId, 14, askFrame s e.nextId, s.clock.up⟩] }).setEcho p
        { used with st := .queued })) ∧
    (e.st = .idle → u.up = false ∨ 8 ≤ timingHeld u → takeInterval p s =
      (s.setPort p { u with stats := { u.stats with timingDrops := min 4294967295 (u.stats.timingDrops + 1) } }).setEcho p
        used)) ∧
  (∀ k : Int, -4 ≤ k → k ≤ 3 → (intervalPeriods k : Rat) = 250000000 * (2 : Rat) ^ k)

/-- ECHO_TIMEOUT of the ask in flight: IDLE, one echo timeout counted, the run one longer up to 255, path-stale set from a run
of 8 on, window and P kept (R28). A timeout with no ask in flight, or before its end, changes nothing (log 2). -/
def Obligations.AnEchoTimeoutAbandonsTheExchange : Prop :=
  ∀ (p : Port) (s : State),
    let e := s.echoOf p
    let u := s.port p
    (∀ o, p.isUplink = true → e.st = .inFlight o → o.start + o.len ≤ s.clock.up →
      exec (.echoTimeout p) s = .next
        ((s.setEcho p { e with
            st := .idle, run := min 255 (e.run + 1), stale := e.stale || decide (8 ≤ min 255 (e.run + 1)) }).setPort p
          { u with stats := { u.stats with echoTimeouts := min 4294967295 (u.stats.echoTimeouts + 1) } })) ∧
    (p.isUplink = false ∨ (∀ o, e.st = .inFlight o → s.clock.up < o.start + o.len) → exec (.echoTimeout p) s = .next s)

/-- An ECHO_ANSWER to the engine: one that matches the ask in flight ends the exchange, with run 0 and the sample halved
toward minus infinity; a negative sample is counted, any other joins the window of 8, and P becomes the smallest of it. An
answer that does not match, or comes on a downlink, is counted late and changes nothing else (R25, R26, R27); that t1 matches
by its two fields is log 47. An ask to be answered: its answer, with its id, its t1, its transit sum and its tag, joins the timing
queue of the port it came on, or is counted as dropped (R32, R120, R121). -/
def Obligations.AMatchingAnswerGivesASample : Prop :=
  (∀ (w : Whole) (s : State),
    let p := w.port
    let e := s.echoOf p
    let u := s.port p
    let t1 := snAt w.utx 14
    let x : Int := ((((w.ingress.ns : Int) - t1.ns) - (((snAt w.utx 34).ns : Int) - (snAt w.utx 24).ns)) * 65536 -
      intAt w.utx 44 8) / 2
    let kept : Nat := (min x 281474976710655).toNat
    let window := (if e.window.length < 8 then e.window else e.window.drop 1) ++ [kept]
    let isMatch := p.isUplink = true ∧ ∃ o, e.st = .inFlight o ∧ natAt w.utx 12 2 = o.id ∧ t1 = o.t1
    (¬ isMatch → answerReceived w s =
      s.setPort p { u with stats := { u.stats with echoLate := min 4294967295 (u.stats.echoLate + 1) } }) ∧
    (isMatch → x < 0 → answerReceived w s =
      (s.setEcho p { e with st := .idle, run := 0 }).setPort p
        { u with stats := { u.stats with echoNegative := min 4294967295 (u.stats.echoNegative + 1) } }) ∧
    (isMatch → 0 ≤ x → ∃ least ∈ window, (∀ y ∈ window, least ≤ y) ∧ answerReceived w s =
      s.setEcho p { e with st := .idle, run := 0, window := window, p := least, stale := false })) ∧
  (∀ (w : Whole) (s : State),
    let p := w.port
    let u := s.port p
    let tag := tagOf w.bytes
    let frame := padFrame (ethHeader w.src s.cfg.mac tag s.cfg.utxEther ++ utxHeader 3 40 s.cfg.engineId ++
      slice w.utx 12 2 ++ slice w.utx 14 10 ++ snBytes w.ingress.sn ++ be 10 0 ++ slice w.utx 24 8)
    (u.up = true → timingHeld u < 8 → answerAsk w s = arbitrate p (s.setPort p { u with timing := u.timing ++
      [⟨.echoAnswer, if tag = none then 14 else 18, frame, s.clock.up⟩] })) ∧
    (u.up = false ∨ 8 ≤ timingHeld u → answerAsk w s = s.setPort p { u with stats := { u.stats with
      timingDrops := min 4294967295 (u.stats.timingDrops + 1) } }))

/-- A beacon of an uplink: one with the engine's own id as sender or origin is counted and goes to no entry; any other updates
the entry of its key, or makes one at the lowest index that holds nothing, or in the place of the longest-silent STALE entry, or
is counted where there is none. Then the selection is re-evaluated, and where the beacon's own entry is SELECTED the Servo takes
it as a sample with the P and asymmetry resolved for it and the epoch changed flag, which is then clear (R35, R40 to R43, R48).
SOURCE_STALE and SOURCE_REMOVAL: at 3 intervals of silence a CANDIDATE or SELECTED entry becomes STALE and the selection is
re-evaluated; at 8 a STALE entry is removed; at any other time, and for an entry that is BARRED, nothing changes (R44, log 2). -/
def Obligations.SilenceMakesASourceStaleAndRemovesIt : Prop :=
  (∀ (w : Whole) (s : State), w.port.isUplink = true →
    let p := w.port
    let sender := bitsAt 8 w.utx 4
    let origin := bitsAt 8 w.utx 12
    let cls := min (byteAt w.utx 38) 6
    let epoch := natAt w.utx 41 2
    let heard := min (w.up / 250000000) 4294967295
    let known := fun (i : Nat) => ∃ e, s.source i = some e ∧ e.sender = sender ∧ e.port = p
    let asym := match s.cfg.overrides.toList.find? (fun o => o.valid && o.port == p && o.sender == sender) with
      | some o => o.asym
      | none => (s.cfg.ports.get p).asym
    let place := fun (i : Nat) (e : SourceEntry) (t : State) =>
      let judged := reevaluate s.selectedPair .lost (some i) (s.setSource i (some e))
      let seen := if s.cfg.secLimit < judged.engineClass then
        { judged with clock := { judged.clock with secondEnd := none } } else judged
      ((∀ e', seen.source i = some e' → e'.st ≠ .selected) → t = seen) ∧
      (∀ e', seen.source i = some e' → e'.st = .selected →
        t = takeSample ⟨w.ingress, snAt w.utx 20, intAt w.utx 30 8, (s.echoOf p).p, asym, e'.k, e'.epochChanged⟩
          (seen.setSource i (some { e' with epochChanged := false })))
    let ignored := s.setPort p { s.port p with stats := { (s.port p).stats with
      beaconsIgnored := min 4294967295 ((s.port p).stats.beaconsIgnored + 1) } }
    let new : SourceEntry :=
      { sender := sender, port := p, origin := origin, cls := cls, hops := byteAt w.utx 39, k := intAt w.utx 40 1
        epoch := epoch, epochChanged := false, lastHeard := heard, heardAt := w.up, beacons := 1, st := .candidate, bar := 0 }
    let foreign := sender ≠ s.cfg.engineId ∧ origin ≠ s.cfg.engineId
    (¬ foreign → beaconIntoTable w s = ignored) ∧
    (∀ i e, foreign → s.source i = some e → e.sender = sender → e.port = p → (∀ j, j < i → ¬ known j) →
      place i { e with
        origin := origin, cls := cls, hops := byteAt w.utx 39, k := intAt w.utx 40 1, epoch := epoch
        epochChanged := e.epochChanged || decide (epoch ≠ e.epoch), lastHeard := heard, heardAt := w.up
        beacons := min 65535 (e.beacons + 1), st := if e.st = .stale then .candidate else e.st } (beaconIntoTable w s)) ∧
    (foreign → (∀ j, ¬ known j) →
      (∀ i, i < 8 → s.source i = none → (∀ j, j < i → s.source j ≠ none) → place i new (beaconIntoTable w s)) ∧
      (∀ i e, (∀ j, j < 8 → s.source j ≠ none) → s.source i = some e → e.st = .stale →
        (∀ j e', s.source j = some e' → e'.st = .stale → e.heardAt ≤ e'.heardAt ∧ (e'.heardAt = e.heardAt → i ≤ j)) →
        place i new (beaconIntoTable w s)) ∧
      ((∀ j, j < 8 → ∃ e, s.source j = some e ∧ e.st ≠ .stale) → beaconIntoTable w s = ignored))) ∧
  (∀ (i : Nat) (s : State),
    let interval := fun (e : SourceEntry) => intervalPeriods (max (-4) (min 3 e.k))
    let stale := ∃ e, s.source i = some e ∧ (e.st = .candidate ∨ e.st = .selected) ∧ e.heardAt + 3 * interval e ≤ s.clock.up
    let gone := ∃ e, s.source i = some e ∧ e.st = .stale ∧ e.heardAt + 8 * interval e ≤ s.clock.up
    (stale → ∃ e t, s.source i = some e ∧ exec (.sourceStale i) s = .next t ∧ t.source i = some { e with st := .stale } ∧
      t = reevaluate s.selectedPair .lost none (s.setSource i (some { e with st := .stale }))) ∧
    (¬ stale → exec (.sourceStale i) s = .next s) ∧
    (gone → exec (.sourceRemoval i) s = .next (s.setSource i none)) ∧
    (¬ gone → exec (.sourceRemoval i) s = .next s))

/-- BAR_SOURCE: RANGE beyond index 7, STATE for an index that holds nothing; a bar above 0 makes the entry BARRED for so many
seconds, or replaces the seconds of a BARRED one; a bar of 0 lifts a bar. BAR_EXPIRY of a bar that has counted to 0, as a bar
lifted, leaves the entry CANDIDATE, STALE or removed by its silence. A change of state is followed by a re-evaluation (R51,
R53). A BAR_EXPIRY of a bar that is not at 0 changes nothing (log 2). -/
def Obligations.BarsAreSetLiftedAndEnd : Prop :=
  let ended := fun (e : SourceEntry) (s : State) =>
    let interval := intervalPeriods (max (-4) (min 3 e.k))
    if e.heardAt + 8 * interval ≤ s.clock.up then none
    else if e.heardAt + 3 * interval ≤ s.clock.up then some { e with st := .stale, bar := 0 }
    else some { e with st := .candidate, bar := 0 }
  (∀ (index : Byte) (seconds : BitVec 16) (s : State), hasTurn 20 (.barSource index seconds) s = true →
    let i := index.toNat
    (7 < i → exec (.barSource index seconds) s = .next (deliver 20 (s, .range, []))) ∧
    (i ≤ 7 → s.source i = none → exec (.barSource index seconds) s = .next (deliver 20 (s, .state, []))) ∧
    (∀ e, i ≤ 7 → s.source i = some e →
      (seconds ≠ 0 → e.st ≠ .barred → exec (.barSource index seconds) s = .next (deliver 20
        (reevaluate s.selectedPair .barred none (s.setSource i (some { e with st := .barred, bar := seconds.toNat })),
          .done, []))) ∧
      (seconds ≠ 0 → e.st = .barred → exec (.barSource index seconds) s = .next (deliver 20
        (s.setSource i (some { e with bar := seconds.toNat }), .done, []))) ∧
      (seconds = 0 → e.st = .barred → exec (.barSource index seconds) s = .next (deliver 20
        (reevaluate s.selectedPair .barred none (s.setSource i (ended e s)), .done, []))) ∧
      (seconds = 0 → e.st ≠ .barred → exec (.barSource index seconds) s = .next (deliver 20 (s, .done, []))))) ∧
  (∀ (i : Nat) (s : State),
    (∀ e, s.source i = some e → e.st = .barred → e.bar = 0 →
      exec (.barExpiry i) s = .next (reevaluate s.selectedPair .barred none (s.setSource i (ended e s)))) ∧
    ((∀ e, s.source i = some e → e.st ≠ .barred ∨ e.bar ≠ 0) → exec (.barExpiry i) s = .next s))

/-- SECOND_PULSE_END drives the line low once the width has passed. HOLDOVER_EXPIRY at the limit, the responses within their
maxima as every step keeps them: the holdover is expired at class 4, HOLDOVER_EXPIRED is raised, the sources stay as they are,
and with room in the log its FAULT record and the STATE record HOLDOVER to HOLDOVER with class 4 follow each other. Neither
event does anything before its time (R12, R76, R185, R187, log 2). The order of the two records is log 51. -/
def Obligations.TheSecondPulseAndTheHoldoverRunOut : Prop :=
  (∀ (s : State) (t : Nat), s.clock.secondEnd = some t →
    (t ≤ s.clock.up → exec .secondPulseEnd s = .next { s with clock := { s.clock with secondEnd := none } }) ∧
    (s.clock.up < t → exec .secondPulseEnd s = .next s)) ∧
  (∀ s : State, s.clock.secondEnd = none → exec .secondPulseEnd s = .next s) ∧
  (∀ s : State,
    let due := s.servo.st = .holdover ∧ s.servo.expired = false ∧ s.cfg.servo.holdoverLimit ≤ s.servo.holdTimer
    (¬ due → exec .holdoverExpiry s = .next s) ∧
    (due → (∀ k : FaultKind, (s.response k).rank ≤ k.maxResponse.rank) → ∃ t, exec .holdoverExpiry s = .next t ∧
      t.servo = { s.servo with expired := true } ∧ t.engineClass = 4 ∧ t.sources = s.sources ∧
      (t.fault .holdoverExpired).active = true ∧
      (t.fault .holdoverExpired).count = min 255 ((s.fault .holdoverExpired).count + 1) ∧
      t.cfg = s.cfg ∧ t.clock.date = s.clock.date ∧ t.matchTab = s.matchTab ∧ t.frozen = s.frozen ∧
      ((s.fault .holdoverExpired).active = false → s.log.mem = .inService → s.log.gap = false →
        s.log.records.length + 3 ≤ 4096 →
        t.log.records = s.log.records ++
          [⟨s.log.nextSeq, none, 0, 4, s.clock.date.sn, .fault .holdoverExpired false (s.response .holdoverExpired)⟩,
           ⟨(s.log.nextSeq + 1) % 4294967296, none, 0, 4, s.clock.date.sn, .state .holdover .holdover 4⟩])))

/-- An alert event: held back and counted while the form's holdoff runs, not built and counted with no collector or no uplink;
else built and offered to U0, or U1 where U0 is DOWN: taken, the holdoff starts and the count returns to 0; refused, it is
counted on the port and in the form. ALERT_HOLDOFF_EXPIRY ends a holdoff that has run out and sends nothing (R191, R192);
before its time, or with no holdoff, it changes nothing (log 2). The bytes of a frame of the UDP carriage: the headers of R120
with a right IPv4 header checksum and a UDP checksum of zero, filled with zero bytes up to 60; and those of an alert, from the
UTX port to the collector: form, subject, presence bits, and each value that is present (R120, R193, section 12.1). The bits of
an unknown drift are log 60. -/
def Obligations.AlertsLeaveOncePerHoldoff : Prop :=
  (∀ (s : State) (mac : BitVec 48) (tag : Option (BitVec 16)) (ip : BitVec 32) (source target : BitVec 16) (utx : List Byte),
    ∃ sum, sum < 65535 ∧
      let words := 0x4500 + (28 + utx.length) % 65536 + 0x4000 + 0x4011 + sum + s.cfg.ip.toNat / 65536 +
        s.cfg.ip.toNat % 65536 + ip.toNat / 65536 + ip.toNat % 65536
      let built := [be 6 mac.toNat, be 6 s.cfg.mac.toNat, (match tag with | some t => [0x81, 0x00] ++ be 2 t.toNat | none => []),
        [0x08, 0x00], [0x45, 0], be 2 (28 + utx.length), be 2 0, [0x40, 0], [64, 17], be 2 sum, be 4 s.cfg.ip.toNat,
        be 4 ip.toNat, be 2 source.toNat, be 2 target.toNat, be 2 (8 + utx.length), be 2 0, utx].flatten
      words % 65535 = 0 ∧ udpFrame s mac tag ip source target utx = built ++ List.replicate (60 - built.length) 0) ∧
  (∀ (s : State) (gateway : BitVec 48) (a : AlertForm) (clear : Bool) (subject : Subject) (d : AlertData),
    let isFault := match a with
      | .fault _ => true
      | .logLevel => false
    let presence := (if d.offset.isSome then 1 else 0) +
      (match d.drift with | some (some _) => 2 | some none => 4 | none => 0) + (if isFault then 24 else 0)
    alertFrame s gateway a clear subject d = udpFrame s gateway none s.cfg.collIp s.cfg.utxPort s.cfg.collPort
      [[1, 7], be 2 36, be 8 s.cfg.engineId.toNat,
       be 1 (match a with
         | .fault .sourceLost => 0 | .fault .holdoverExpired => 1 | .fault .freqImplausible => 2 | .fault .selfDrift => 3
         | .fault .peerDrift => 4 | .fault .logFull => 5 | .fault .linkDown => 6 | .fault .settingsFault => 7
         | .fault .memoryFault => 8 | .logLevel => 9),
       be 1 (if clear then 1 else 0),
       (match subject with
         | .self => be 5 0
         | .port p => be 1 1 ++ be 4 (match p with | .u0 => 0 | .u1 => 1 | .d0 => 2 | .d1 => 3)
         | .peer rack => be 1 2 ++ be 4 rack.toNat),
       be 1 presence, beInt 8 (d.offset.getD 0), beInt 4 ((d.drift.getD none).getD 0),
       be 1 (match a with
         | .fault k => (match s.response k with | .note => 0 | .alert => 1 | .demote => 2 | .hold => 3)
         | .logLevel => 0),
       beSat 1 (match a with | .fault k => (s.fault k).count | .logLevel => 0),
       beSat 6 s.clock.date.s, beSat 4 s.clock.date.n, beSat 1 s.engineClass, beSat 2 (s.form a).suppressed, [0]].flatten) ∧
  (∀ (a : AlertForm) (clear : Bool) (subject : Subject) (d : AlertData) (s : State),
    let f := s.form a
    let more := { f with suppressed := min 65535 (f.suppressed + 1) }
    (f.holdoff ≠ none ∨ s.cfg.collIp = 0 ∨ ((s.port .u0).up = false ∧ (s.port .u1).up = false) →
      alertEvent a clear subject d s = s.setForm a more) ∧
    (f.holdoff = none → s.cfg.collIp ≠ 0 → ∀ p, (p = .u0 ∨ (p = .u1 ∧ (s.port .u0).up = false)) → (s.port p).up = true →
      let u := s.port p
      (generalHeld u < 16 → alertEvent a clear subject d s = arbitrate p
        ((s.setPort p { u with general := u.general ++
            [⟨.alert, 42, alertFrame s (s.portRec p).gateway a clear subject d, s.clock.up⟩] }).setForm a
          ⟨some (s.clock.up + s.cfg.alertHoldoff * 250000000), 0⟩)) ∧
      (16 ≤ generalHeld u → alertEvent a clear subject d s =
        (s.setPort p { u with stats := { u.stats with generalDrops := min 4294967295 (u.stats.generalDrops + 1) } }).setForm a
          more))) ∧
  (∀ (form : Nat) (s : State),
    (∀ a t, AlertForm.ofIndex form = some a → (s.form a).holdoff = some t → t ≤ s.clock.up →
      exec (.alertHoldoffExpiry form) s = .next (s.setForm a { s.form a with holdoff := none })) ∧
    ((∀ a t, AlertForm.ofIndex form = some a → (s.form a).holdoff = some t → s.clock.up < t) →
      exec (.alertHoldoffExpiry form) s = .next s)) ∧
  (∀ a : AlertForm, AlertForm.ofIndex a.ix.val = some a) ∧ (∀ form, 9 < form → AlertForm.ofIndex form = none)

/-- REPORT_SLOT of the slot that begins: the schedule moves on, a disabled entry gives nothing, an enabled one gives one report
to its preferred uplink or else the other, counted sent where the timing queue takes it and not sent where none is UP or the
queue refuses it. PEER_SILENCE at 4 report intervals: LEARNING and ACTIVE become SILENT and the verdict is re-evaluated.
Neither does anything before its time (log 2) (R164, R165, R172, R173). A report received: one of no enabled entry's address and
rack id is counted unknown; any other is accepted, its pair and what it reports kept, and its echo, if it equals a send date of
the entry in both fields (log 47), gives a sample, rejected beyond the round-trip limit, else the newest of the window of 8, from
which best offset and drift follow; the verdict is re-evaluated once where the entry's state or window changed (R167 to R172).
The bytes of a report as it is built, from the UTX port to the UTX port of the peer's address: the fields written at egress
are zero, and an entry with a pair echoes it, the sent date before the receipt date (R165, R214, section 12.1; the carriage
stands in the statement of alerts). -/
def Obligations.ReportsLeaveInTheirSlotsAndPeersFallSilent : Prop :=
  (∀ (s : State) (gateway : BitVec 48) (ip : BitVec 32) (pair : Option (SN × SN)),
    let echo := match pair with
      | some (sent, received) => [1, 0] ++ beSat 6 sent.s ++ beSat 4 sent.n ++ beSat 6 received.s ++ beSat 4 received.n
      | none => [0, 0]
    reportFrame s gateway ip pair = udpFrame s gateway none ip s.cfg.utxPort s.cfg.utxPort
      ([1, 4] ++ be 2 (if pair.isSome then 46 else 26) ++ be 8 s.cfg.engineId.toNat ++ be 4 s.cfg.rackId.toNat ++
        be 10 0 ++ [0, 0] ++ be 8 0 ++ echo)) ∧
  (∀ (i : Nat) (s : State),
    let interval := intervalPeriods s.cfg.drift.k
    let c := s.peerCfg i
    let d := s.peer i
    (∀ sch, s.drift.sched = some sch → s.run = .running → sch.next = i → sch.start + i * (interval / 32) ≤ s.clock.up →
      let base := { s with drift := { s.drift with
        sched := some (if i < 31 then ⟨sch.start, i + 1⟩ else ⟨sch.start + interval, 0⟩) } }
      let notSent := base.setPeer i { d with notSent := min 4294967295 (d.notSent + 1) }
      (c.enabled = false → exec (.reportSlot i) s = .next base) ∧
      (c.enabled = true → (s.port c.preferred).up = false → (s.port (otherUplink c.preferred)).up = false →
        exec (.reportSlot i) s = .next notSent) ∧
      (c.enabled = true → ∀ p, (p = c.preferred ∨ (p = otherUplink c.preferred ∧ (s.port c.preferred).up = false)) →
        (s.port p).up = true →
        let u := s.port p
        (timingHeld u < 8 → exec (.reportSlot i) s = .next (arbitrate p
          ((base.setPeer i { d with sent := min 4294967295 (d.sent + 1) }).setPort p { u with timing := u.timing ++
            [⟨.report i c.rack c.ip, 42, reportFrame s (s.portRec p).gateway c.ip d.pair, s.clock.up⟩] }))) ∧
        (8 ≤ timingHeld u → exec (.reportSlot i) s = .next (notSent.setPort p
          { u with stats := { u.stats with timingDrops := min 4294967295 (u.stats.timingDrops + 1) } })))) ∧
    ((∀ sch, s.drift.sched = some sch → s.run ≠ .running ∨ sch.next ≠ i ∨ s.clock.up < sch.start + i * (interval / 32)) →
      exec (.reportSlot i) s = .next s) ∧
    (∀ t, c.enabled = true → d.st = .learning ∨ d.st = .active → d.heardAt = some t → t + 4 * interval ≤ s.clock.up →
      exec (.peerSilence i) s = .next (judgeRack (s.setPeer i { d with st := .silent }))) ∧
    (c.enabled = false ∨ d.st = .unheard ∨ d.st = .silent ∨ (∀ t, d.heardAt = some t → s.clock.up < t + 4 * interval) →
      exec (.peerSilence i) s = .next s)) ∧
  (∀ (w : Whole) (s : State),
    let p := w.port
    let ip := bitsAt 4 w.bytes (w.header - 16)
    let rack := bitsAt 4 w.utx 12
    let known := fun (i : Nat) => (s.peerCfg i).enabled = true ∧ (s.peerCfg i).ip = ip ∧ (s.peerCfg i).rack = rack
    let t1 := snAt w.utx 38
    let t2 := snAt w.utx 48
    let t3 := snAt w.utx 16
    let t4 : SN := ⟨w.ingress.s, w.ingress.n⟩
    let delta : Int := max (-(2 ^ 63)) (min (2 ^ 63 - 1) (((t4.ns : Int) - t1.ns) - ((t3.ns : Int) - t2.ns)))
    let phi : Int := max (-2147483647) (min 2147483647 ⌊((((t2.ns : Int) - t1.ns) + ((t3.ns : Int) - t4.ns) : Int) : Rat) / 2⌋)
    ((∀ i, i < 32 → ¬ known i) → reportReceived w s = s.setPort p { s.port p with stats := { (s.port p).stats with
      reportsUnknown := min 4294967295 ((s.port p).stats.reportsUnknown + 1) } }) ∧
    (∀ i, i < 32 → known i → (∀ j, j < i → ¬ known j) →
      let d := s.peer i
      let heard : PeerDyn := { d with
        received := min 4294967295 (d.received + 1), pair := some (t3, t4)
        reported := some ⟨w.utx.getD 26 0, w.utx.getD 27 0, bitsAt 8 w.utx 28⟩, lastPort := some p
        lastHeard := some (min (w.up / 250000000) 4294967295), heardAt := some w.up
        st := if d.st ≠ .silent then d.st else if 3 ≤ d.window.length then .active else .learning }
      let kept := fun (x : PeerDyn) => if d.st = .silent then judgeRack (s.setPeer i x) else s.setPeer i x
      let echoes := byteAt w.utx 36 = 1
      let matching := d.newer = some t1 ∨ d.older = some t1
      let within := 0 ≤ delta ∧ delta ≤ s.cfg.drift.roundTrip
      (¬ echoes → reportReceived w s = kept heard) ∧
      (echoes → ¬ matching → reportReceived w s = kept { heard with unmatched := min 4294967295 (d.unmatched + 1) }) ∧
      (echoes → matching → ¬ within →
        reportReceived w s = kept { heard with rejected := min 4294967295 (d.rejected + 1) }) ∧
      (echoes → matching → within →
        let x : Sample := ⟨t4, phi, delta⟩
        let window := (if d.window.length < 8 then d.window else d.window.drop 1) ++ [x]
        let oldest := window.headD x
        let span : Int := (t4.ns : Int) - oldest.t4.ns
        let drift := if 3 ≤ window.length ∧ 4000000000 ≤ span then
            some (max (-1000000) (min 1000000 (((phi - oldest.phi) * 1000000000).tdiv span))) else none
        ∃ before best after, window = before ++ best :: after ∧ (∀ y ∈ before, best.delta ≤ y.delta) ∧
          (∀ y ∈ after, best.delta < y.delta) ∧
          reportReceived w s = judgeRack (s.setPeer i { heard with
            window := window, accepted := min 4294967295 (d.accepted + 1), best := some best.phi, drift := drift
            st := if heard.st = .active ∨ 3 ≤ window.length then .active else .learning }))))

/-- TEST_LOG_MEMORY is judged in its order: BUSY while TESTING, STATE while FROZEN, NOT_EMPTY with records held, else the test
starts (R151). LOG_MEMORY_TEST_END after 20 ms of uptime: a pass leaves the log empty and IN_SERVICE with the notice ARMED, gap
and missed count as they stand; a failure leaves it FAILED and raises MEMORY_FAULT (R152, R153). That the result is an operand is
log 45; before its time, or with no test, the event changes nothing (log 2). -/
def Obligations.TheMemoryTestRunsForTwentyMilliseconds : Prop :=
  (∀ s : State, hasTurn 23 .testLogMemory s = true →
    let testing := ∃ start, s.log.mem = .testing start
    (testing → exec .testLogMemory s = .next (deliver 23 (s, .busy, []))) ∧
    (¬ testing → s.frozen ≠ none → exec .testLogMemory s = .next (deliver 23 (s, .state, []))) ∧
    (¬ testing → s.frozen = none → s.log.records ≠ [] → exec .testLogMemory s = .next (deliver 23 (s, .notEmpty, []))) ∧
    (¬ testing → s.frozen = none → s.log.records = [] → exec .testLogMemory s = .next (deliver 23
      ({ s with log := { s.log with mem := .testing s.clock.up } }, .done, [])))) ∧
  (∀ (pass : Bool) (s : State),
    (∀ start, s.log.mem = .testing start → start + 5000000 ≤ s.clock.up →
      (pass = true → exec (.logMemoryTestEnd pass) s = .next
        { s with log := { s.log with records := [], mem := .inService, noticeSent := false } }) ∧
      (pass = false → ∃ t, exec (.logMemoryTestEnd pass) s = .next t ∧ t.log.mem = .failed ∧ t.log.records = [] ∧
        t.log.nextSeq = s.log.nextSeq ∧ (t.fault .memoryFault).active = true ∧
        (t.fault .memoryFault).count = min 255 ((s.fault .memoryFault).count + 1) ∧ t.cfg = s.cfg ∧
        t.clock.date = s.clock.date)) ∧
    ((∀ start, s.log.mem = .testing start → s.clock.up < start + 5000000) →
      exec (.logMemoryTestEnd pass) s = .next s))

/-! ### Commands of the Management Agent -/

/-- A command of a control frame is executed in its turn, while the engine is RUNNING with no reload and no reset that waits:
it is the next of the frame under execution, or none is under execution (log 11, log 12); out of its turn it changes nothing.
Its result goes into the answer of the frame, which then settles: every command of a frame gets exactly one result, in order,
those answered without execution up to the next that is executed, and all after an end of processing SKIPPED. Answered without
execution are a code that names no command, UNKNOWN, an argument length that is not the command's or a command that runs past
the body, LENGTH, both ending the processing, and a write-class command under READ, DENIED. The answer is offered to the general
queue of the port the frame came on, or dropped and counted, and a reset that waits takes effect where it is dropped (R198, R199,
R200, R209, section 11.2). The bytes of the arguments of each command are its operands in the order of R203 and R204, most
significant first, fill ignored; an answer is built from its request number, the count of results, and each result's code,
status, data length and data, to the frame's sender (R120, sections 12.1 and 12.1.1; the carriage stands in the statement of
alerts). The model's choices: that no command has its turn while a reset waits is log 44, and that SKIPPED
results take the codes found by walking on through the body, and a command that runs past the body keeps its code, is log 30. -/
def Obligations.ACommandIsTakenInItsTurnAndGetsOneResult : Prop :=
  (commandOf 1 [] = some .identify ∧ commandOf 2 [] = some .readClock ∧ commandOf 4 [] = some .logStatus ∧
   commandOf 7 [] = some .copyBank ∧ commandOf 21 [] = some .freeze ∧ commandOf 22 [] = some .release ∧
   commandOf 23 [] = some .testLogMemory ∧ commandOf 24 [] = some .saveSettings ∧
   (∀ n : Byte, commandOf 5 [n] = some (.logTake n) ∧ commandOf 8 [n] = some (.swapBanks n) ∧
     commandOf 13 [n] = some (.clearPeer n) ∧ commandOf 25 [n] = some (.reset n)) ∧
   (∀ (table : Byte) (first count : BitVec 16),
     commandOf 3 ([table] ++ be 2 first.toNat ++ be 2 count.toNat) = some (.readTable table first count)) ∧
   (∀ kind response : Byte, commandOf 16 [kind, response] = some (.writeFault kind response)) ∧
   (∀ (sec : BitVec 48) (nano : BitVec 32),
     commandOf 17 (be 6 sec.toNat ++ be 4 nano.toNat) = some (.setDate sec nano)) ∧
   (∀ w : BitVec 32, commandOf 18 (be 4 w.toNat) = some (.setTrim w) ∧ commandOf 19 (be 4 w.toNat) = some (.clearFlags w)) ∧
   (∀ (index : Byte) (seconds : BitVec 16),
     commandOf 20 ([index] ++ be 2 seconds.toNat) = some (.barSource index seconds)) ∧
   (∀ (index : Byte) (a : MatchArg) (fill : List Byte),
     commandOf 6 [[index, a.valid, a.action], be 2 a.ethertype.toNat, [a.vlanKind], be 2 a.vlanId.toNat,
       [a.ports, a.patPresent, a.patOffset], be 4 a.patValue.toNat, be 4 a.patMask.toNat, be 2 a.stampOffset.toNat,
       be 2 a.keyOffset.toNat, [a.domain, a.logMode, a.freeze], fill].flatten = some (.writeMatch index a)) ∧
   (∀ (a : PortArg) (fill : List Byte),
     commandOf 9 [[a.port, a.privilege, a.link, a.echoEnable, a.exponent], be 2 a.timeout.toNat, be 4 a.asym.toNat,
       be 6 a.gateway.toNat, fill].flatten = some (.writePort a)) ∧
   (∀ (a : LaneArg) (fill : List Byte),
     commandOf 10 ([a.lane, a.mode, a.exponent, a.thinning] ++ fill) = some (.writeLane a)) ∧
   (∀ (a : OverrideArg) (fill : List Byte),
     commandOf 11 [[a.index, a.port], be 8 a.sender.toNat, be 4 a.asym.toNat, [a.valid], fill].flatten =
       some (.writeOverride a)) ∧
   (∀ (a : PeerArg) (fill : List Byte),
     commandOf 12 [[a.index, a.enabled], be 4 a.rack.toNat, be 4 a.ip.toNat, [a.preferred], fill].flatten =
       some (.writePeer a)) ∧
   (∀ (a : ServoArg) (fill : List Byte),
     commandOf 14 [be 4 a.stepThreshold.toNat, be 4 a.lockWindow.toNat, [a.lockCount, a.unlockCount, a.sp, a.si],
       be 2 a.catchRate.toNat, be 2 a.plausibility.toNat, be 4 a.holdoverLimit.toNat, be 2 a.secWidth.toNat, [a.secLimit],
       fill].flatten = some (.writeServo a)) ∧
   (∀ (a : DriftArg) (fill : List Byte),
     commandOf 15 [be 4 a.barTime.toNat, [a.exponent], be 4 a.roundTrip.toNat, be 4 a.offsetThreshold.toNat,
       be 4 a.driftThreshold.toNat, [a.quorum, a.barOn], be 2 a.alertHoldoff.toNat, be 2 a.logThreshold.toNat,
       fill].flatten = some (.writeDrift a))) ∧
  (∀ (s : State) (c : CtlFrame) (results : List Result),
    let body := be 4 c.request.toNat ++ be 1 results.length ++ results.flatMap (fun r =>
      [r.code] ++ be 1 (match r.status with
        | .done => 0 | .clamped => 1 | .truncated => 2 | .unknown => 3 | .length => 4 | .denied => 5 | .range => 6
        | .state => 7 | .backward => 8 | .busy => 9 | .notEmpty => 10 | .skipped => 11) ++ be 2 r.data.length ++ r.data)
    answerFrame s c results = udpFrame s c.srcMac c.tag c.srcIp s.cfg.mgmtPort c.srcPort
      ([1, 6] ++ be 2 body.length ++ be 8 s.cfg.engineId.toNat ++ body)) ∧
  (∀ (code : Nat) (c : Instr) (s : State), hasTurn code c s = true ↔
    s.run = .running ∧ s.agent.reload = false ∧ s.agent.resetPending = none ∧
    ∀ e, s.agent.exec = some e → nextCommand e = some (code, c)) ∧
  (∀ (code : Nat) (args : List Byte) (c : Instr) (s : State), commandOf code args = some c → hasTurn code c s = false →
    exec c s = .next s) ∧
  (∀ (code : Nat) (t : State) (st : Status) (data : List Byte),
    let r : Result := ⟨BitVec.ofNat 8 code, st, data⟩
    let marked := { t with agent := { t.agent with lastResult := some r } }
    (t.agent.exec = none → t.agent.resetPending = none → deliver code (t, st, data) = marked) ∧
    (∀ e c, t.agent.exec = some e → parseNext e.rest = some c → deliver code (t, st, data) = advanceFrame
      { e with rest := c.rest, left := e.left - 1, results := e.results ++ [r], ended := t.agent.resetPending.isSome } marked)) ∧
  (∀ (e : Exec) (s : State),
    let d := settleExec e.left e
    advanceFrame e s = (if d.left = 0 then finishFrame d s else { s with agent := { s.agent with exec := some d } }) ∧
    d.results.length + d.left = e.results.length + e.left ∧ (∃ more, d.results = e.results ++ more) ∧ d.frame = e.frame ∧
    (d.left ≠ 0 → ∃ code c, nextCommand d = some (code, c)) ∧
    (e.ended = true → d.left = 0 ∧ ∃ more, d.results = e.results ++ more ∧ ∀ r ∈ more, r.status = .skipped ∧ r.data = [])) ∧
  (∀ code : Nat, commandLength code =
      [none, some 0, some 0, some 5, some 0, some 1, some 33, some 0, some 1, some 25, some 9, some 17, some 25, some 1,
        some 32, some 24, some 2, some 10, some 4, some 4, some 3, some 0, some 0, some 0, some 0, some 1].getD code none) ∧
  (∀ (privilege : Privilege) (c : Parsed),
    let code := c.code.toNat
    let denied := privilege = .read ∧ 5 ≤ code
    (commandLength code = none → judgeParsed privilege c = .answered .unknown true) ∧
    (∀ n, commandLength code = some n →
      ((∀ a, c.args = some a → a.length ≠ n) → judgeParsed privilege c = .answered .length true) ∧
      (∀ a, c.args = some a → a.length = n →
        (denied → judgeParsed privilege c = .answered .denied false) ∧
        (¬ denied → ∃ i, commandOf code a = some i ∧ judgeParsed privilege c = .execute code i)))) ∧
  (∀ (rest : List Byte),
    (rest = [] → parseNext rest = none) ∧
    (∀ code, rest = [code] → parseNext rest = some ⟨code, none, []⟩) ∧
    (∀ code n more, rest = code :: n :: more →
      parseNext rest = if n.toNat ≤ more.length then some ⟨code, some (more.take n.toNat), more.drop n.toNat⟩
        else some ⟨code, none, []⟩)) ∧
  (∀ (e : Exec) (n : Nat), e.left = n + 1 →
    let next := fun (r : Result) (rest : List Byte) (ended : Bool) =>
      settleExec n { e with rest := rest, left := n, results := e.results ++ [r], ended := ended }
    (parseNext e.rest = none →
      settleExec (n + 1) e = next ⟨0, if e.ended then .skipped else .length, []⟩ [] true) ∧
    (∀ c, parseNext e.rest = some c →
      (e.ended = true → settleExec (n + 1) e = next ⟨c.code, .skipped, []⟩ c.rest true) ∧
      (∀ st ends, e.ended = false → judgeParsed e.frame.privilege c = .answered st ends →
        settleExec (n + 1) e = next ⟨c.code, st, []⟩ c.rest ends) ∧
      (∀ code i, e.ended = false → judgeParsed e.frame.privilege c = .execute code i → settleExec (n + 1) e = e))) ∧
  (∀ (e : Exec) (s : State),
    let p := e.frame.port
    let u := s.port p
    let idle := { s with agent := { s.agent with exec := none } }
    let answer : QFrame :=
      { tag := .answer s.agent.resetPending.isSome, header := if e.frame.tag = none then 42 else 46
        bytes := answerFrame s e.frame e.results, joined := s.clock.up }
    let dropped := idle.setPort p { u with stats := { u.stats with
      generalDrops := min 4294967295 (u.stats.generalDrops + 1) } }
    (u.up = true → generalHeld u < 16 →
      finishFrame e s = arbitrate p (idle.setPort p { u with general := u.general ++ [answer] })) ∧
    (u.up = false ∨ 16 ≤ generalHeld u →
      (s.agent.resetPending = none → finishFrame e s = dropped) ∧
      (s.agent.resetPending = some .full → finishFrame e s = { State.reset with pending := s.pending }) ∧
      (s.agent.resetPending = some .softReload → finishFrame e s = softResetNow true dropped) ∧
      (s.agent.resetPending = some .soft → finishFrame e s =
        completeSoft (softResetNow false dropped).servo.expired (softResetNow false dropped))))

/-- The read commands and LOG_TAKE. IDENTIFY, READ_CLOCK and LOG_STATUS give their block whole, or TRUNCATED with no data.
READ_TABLE gives as many of the entries asked for as fit, after its header, with the statuses of R203; RANGE has the header
with no entries, a frozen code while LIVE is STATE and returns nothing (R157), and of the header's bytes the frozen mark is
that of an answer from the frozen view, and a swap state NONE is zero (R214). LOG_TAKE removes exactly the records it returns,
oldest first, as many as n, the log and the room allow, and re-arms the notice below half the threshold (R147, R148, R149,
R200, R202, R203). A READ_TABLE with no room for its header, 8 bytes, returns no data, nor does a LOG_TAKE in a room of 0 (log
18), nor one that is RANGE or BUSY, where one while FAILED gives the count 0 (log 67); an index beyond a frozen table is RANGE
in LIVE too; an n of 0 is judged before the memory state (log 57). The blocks of section 12.4, the 32 bytes of a record of
every kind (section 12.3), and the entries of every table are given field by field in order, each with its width and value,
most significant byte first, a value beyond its width saturated (R214); the frozen tables are those of the view at the trigger
(R19, R37, R56, R82, R97, R126, R127, R157, R182, R195). The order and widths that the chapters leave open are log 18, the
bytes of enumerated values without a stated code log 7, and the die's revision log 8. That the outstanding id and t1 are zero
bytes while no ask is in flight is log 29. The room for data is what 1,472 bytes leave beside header, request number and
count, 17 bytes, the 4 bytes of every result of the frame, and the data placed so far (R200); that of a command given alone is
log 11. Of the occupancies, the bytes counted as arrived of a frame still arriving are log 4, and those counted as gone of a
leaving one log 5; and that an index is judged before a frozen code and both before a count of 0 is log 53. -/
def Obligations.ReadsChangeNothingAndATakeRemovesWhatItReturns : Prop :=
  (∀ (code : Nat) (c : Instr) (block : State → List Byte),
    (code, c, block) ∈ [(1, Instr.identify, identifyBlock), (2, .readClock, clockStatus), (4, .logStatus, logStatusBlock)] →
    ∀ s : State, hasTurn code c s = true →
      ((block s).length ≤ dataRoom s → exec c s = .next (deliver code (s, .done, block s))) ∧
      (dataRoom s < (block s).length → exec c s = .next (deliver code (s, .truncated, [])))) ∧
  (∀ s : State,
    (∀ e, s.agent.exec = some e →
      dataRoom s = 1472 - (12 + 5 + 4 * e.frame.count + (e.results.map (fun x => x.data.length)).sum)) ∧
    (s.agent.exec = none → dataRoom s = 1472 - (12 + 5 + 4))) ∧
  (∀ (table : Byte) (first count : BitVec 16) (s : State), hasTurn 3 (.readTable table first count) s = true →
    let c : Instr := .readTable table first count
    let data := fun (entries : List (List Byte)) =>
      if 8 ≤ dataRoom s then tableHeader s table.toNat first.toNat entries.length ++ entries.flatten else []
    (tableSize table.toNat = none → exec c s = .next (deliver 3 (s, .range, data []))) ∧
    (∀ size, tableSize table.toNat = some size →
      (size ≤ first.toNat → exec c s = .next (deliver 3 (s, .range, data []))) ∧
      (first.toNat < size → 16 ≤ table.toNat → s.frozen = none → exec c s = .next (deliver 3 (s, .state, []))) ∧
      (first.toNat < size → table.toNat < 16 ∨ s.frozen ≠ none →
        ∃ entries, tableOf s table.toNat = some entries ∧ entries.length = size ∧
          (8 ≤ dataRoom s →
            let asked := (entries.drop first.toNat).take count.toNat
            ∃ n, n ≤ asked.length ∧ 8 + (asked.take n).flatten.length ≤ dataRoom s ∧
              (n < asked.length → dataRoom s < 8 + (asked.take (n + 1)).flatten.length) ∧
              exec c s = .next (deliver 3 (s, if n < count.toNat then .truncated else .done, data (asked.take n)))) ∧
          (dataRoom s < 8 → exec c s = .next (deliver 3 (s, if count = 0 then .done else .truncated, [])))))) ∧
  (∀ (s : State) (code first n : Nat),
    let frozen := 16 ≤ code ∧ code ≤ 20 ∧ s.frozen ≠ none
    let banks := code = 3 ∨ code = 4
    ∃ mark bank swap : Byte, tableHeader s code first n = be 1 code ++ beSat 2 first ++ beSat 2 n ++ [mark, bank, swap] ∧
      mark = (if frozen then 1 else 0) ∧
      bank = (if banks ∧ s.matchTab.active = true then 1 else 0) ∧
      (¬ (banks ∧ s.matchTab.armed = true) → swap = 0)) ∧
  (∀ n v : Nat, (be n v).length = n ∧ natAt (be n v) 0 n = v % 256 ^ n ∧ beSat n v = be n (min v (256 ^ n - 1))) ∧
  (∀ (n : Nat) (v : Int), 0 < n →
    beInt n v = be n (max (-(2 ^ (8 * n - 1))) (min (2 ^ (8 * n - 1) - 1) v) % 256 ^ n).toNat) ∧
  (let laid := fun (fields : List (List Byte)) => fields.flatten
   let num : Bool → Nat := fun b => if b then 1 else 0
   let bit : Bool → List Byte := fun b => be 1 (num b)
   let code : Config.OpenCode → List Byte := fun c => [Config.openCode c]
   let date : Option SN → List (List Byte) := fun t =>
     [beSat 6 ((t.map (fun x => x.s)).getD 0), beSat 4 ((t.map (fun x => x.n)).getD 0)]
   let seconds : Nat → List Byte := fun periods => beSat 4 (periods / 250000000)
   let ms : Nat → List Byte := fun periods => beSat 4 (periods / 250000)
   let port : Port → Nat := fun p => match p with | .u0 => 0 | .u1 => 1 | .d0 => 2 | .d1 => 3
   let servo : ServoState → Nat := fun st =>
     match st with | .unset => 0 | .freerun => 1 | .acquiring => 2 | .locked => 3 | .holdover => 4
   let trigger : Trigger → List (List Byte) := fun t =>
     match t with | .command => [be 1 0, be 1 255] | .matched i => [be 1 1, beSat 1 i]
   let subject : Option Subject → List (List Byte) := fun x =>
     match x with
     | none | some .self => [be 1 0, be 4 0]
     | some (.port p) => [be 1 1, be 4 (port p)]
     | some (.peer rack) => [be 1 2, be 4 rack.toNat]
   let stats : Stats → List Byte := fun t => laid
     [beSat 4 t.passed, beSat 4 t.transitDrops, beSat 4 t.malformed, beSat 4 t.beaconsIgnored, beSat 4 t.echoTimeouts,
      beSat 4 t.echoLate, beSat 4 t.echoNegative, beSat 4 t.timingDrops, beSat 4 t.generalDrops, beSat 4 t.stamps,
      beSat 4 t.reportsUnknown]
   let entry : MatchEntry → List Byte := fun e => laid
     [bit e.valid, be 1 (match e.action with | .pass => 0 | .storageMark => 1 | .utxL2 => 2 | .utxUdp => 3),
      be 2 e.ethertype.toNat, be 1 (match e.vlanKind with | .any => 0 | .none => 1 | .id => 2), beSat 2 e.vlanId,
      be 1 (num e.ports.u0 + 2 * num e.ports.u1 + 4 * num e.ports.d0 + 8 * num e.ports.d1), bit e.patPresent,
      beSat 1 e.patOffset, be 4 e.patValue.toNat, be 4 e.patMask.toNat, beSat 2 e.stampOffset, beSat 2 e.keyOffset,
      beSat 1 e.domain, be 1 (match e.logMode with | .stampAndLog => 0 | .stampOnly => 1 | .logOnly => 2), bit e.freeze, be 7 0]
   let source : Nat → Option SourceEntry → List Byte := fun up x =>
     match x with
     | none => laid [be 1 1]
     | some e => laid
       [be 1 0, be 8 e.sender.toNat, be 1 (port e.port), be 8 e.origin.toNat, beSat 1 e.cls, beSat 1 e.hops,
        beInt 1 e.k, beSat 2 e.epoch, bit e.epochChanged, beSat 4 e.lastHeard, ms (up - e.heardAt), beSat 2 e.beacons,
        code (match e.st with
          | .candidate => .srcCandidate | .selected => .srcSelected | .stale => .srcStale | .barred => .srcBarred),
        beSat 4 e.bar]
   let peer : Nat → PeerCfg → PeerDyn → List Byte := fun up c d =>
     let told := d.reported.getD ⟨0, 0, 0⟩
     laid ([bit c.enabled, be 4 c.rack.toNat, be 4 c.ip.toNat, be 1 (port c.preferred),
       code (match d.st with
         | .unheard => .peerUnheard | .learning => .peerLearning | .active => .peerActive | .silent => .peerSilent),
       bit d.warned.isSome] ++ date d.newer ++ date d.older ++
      date (d.pair.map (fun x => x.1)) ++ date (d.pair.map (fun x => x.2)) ++
      [[told.cls], [told.servo], be 8 told.origin.toNat, beSat 1 d.window.length] ++
      d.window.flatMap (fun x => date (some x.t4) ++ [beInt 4 x.phi, beInt 8 x.delta]) ++
      [beInt 4 (d.best.getD 0), beInt 4 (d.drift.getD 0), beSat 4 (d.lastHeard.getD 0),
       ms ((d.heardAt.map (fun t => up - t)).getD 0), be 1 ((d.lastPort.map port).getD 0), beSat 4 d.sent,
       beSat 4 d.notSent, beSat 4 d.received, beSat 4 d.accepted, beSat 4 d.rejected, beSat 4 d.unmatched])
   let fault : Nat → FaultRec → Response → FormState → List Byte := fun up r response f => laid
     ([bit r.active, beSat 1 r.count, beSat 4 (r.lastRaised.getD 0)] ++ subject r.lastSubject ++
      [be 1 response.rank, ms ((f.holdoff.map (fun t => t - up)).getD 0), beSat 2 f.suppressed])
   (∀ s : State,
     (identifyBlock s).length = 35 ∧ (clockStatus s).length = 72 ∧ (logStatusBlock s).length = 24 ∧
     identifyBlock s = laid
       [be 2 4420, [Config.siliconRevision], be 8 s.cfg.engineId.toNat, be 4 s.cfg.rackId.toNat, be 6 s.cfg.mac.toNat,
        be 4 s.cfg.ip.toNat, be 1 (match s.agent.loadSource with | .image => 0 | .retry => 1 | .defaults => 2),
        beSat 2 s.agent.imageVersion, seconds s.clock.up, be 1 1, bit s.agent.saving.isSome,
        be 1 (match s.agent.lastSave with | .none => 0 | .ok => 1 | .failed => 2 | .abandoned => 3)] ∧
     clockStatus s = laid
       ([beSat 6 s.clock.date.s, beSat 4 s.clock.date.n, beSat 4 s.clock.date.f, beSat 8 s.clock.inc, seconds s.clock.up,
         beSat 2 s.clock.epoch] ++ date s.clock.lastStamp ++
        [bit s.clock.lastStamp.isNone, bit s.clock.secondEnd.isSome, beSat 2 s.cfg.secWidth, beSat 1 s.cfg.secLimit,
         be 1 (servo s.servo.st), beSat 1 s.servoClass, be 1 s.floor, beSat 1 s.engineClass, bit s.servo.catchDown,
         beInt 4 s.servo.f, beInt 4 s.servo.r, beInt 4 ((s.servo.lastTheta.map (fun x => x.1)).getD 0),
         bit ((s.servo.lastTheta.map (fun x => x.2)).getD false), bit s.servo.lastTheta.isSome,
         be 1 (match s.servo.excSign with | .none => 0 | .behind => 1 | .ahead => 2), beSat 1 s.servo.excCount,
         beSat 1 s.servo.lockCtr, beSat 1 s.servo.unlockCtr, beSat 4 s.servo.holdTimer, bit s.servo.expired, bit s.servo.sat]) ∧
     logStatusBlock s = laid
       ([beSat 2 s.log.records.length, be 4 ((s.log.records.head?.map (fun r => r.seq)).getD s.log.nextSeq), be 4 s.log.nextSeq,
         bit s.log.gap, beSat 2 s.log.missed, be 1 (match s.log.mem with | .inService => 0 | .testing _ => 1 | .failed => 2),
         bit s.frozen.isSome] ++
        (match s.frozen with
         | some v => trigger v.trigger ++ [beSat 4 v.upSeconds]
         | none => [be 1 0, be 1 255, be 4 0]) ++
        [beSat 2 s.cfg.logThreshold, bit s.log.noticeSent])) ∧
   (∀ r : LogRecord,
     let form : Nat × Nat × List Byte :=
       match r.body with
       | .stamp key len lane up index unstamped shortKey badFcs doubt unset =>
         (0, 16 * num unstamped + 8 * num shortKey + 4 * num badFcs + 2 * num doubt + num unset,
          (List.range 8).map (fun i => key.getD i 0) ++
            laid [beSat 2 len, be 1 ((if lane = .b then 128 else 0) + num up), beSat 1 index, be 4 0])
       | .step amount epoch => (1, 0, laid [beInt 8 amount, beSat 2 epoch, be 6 0])
       | .state old new cls => (2, 0, laid [be 1 (servo old), be 1 (servo new), beSat 1 cls, be 13 0])
       | .source old new reason =>
         (3, (match reason with | .better => 0 | .lost => 1 | .barred => 2 | .hold => 3) +
            4 * num old.isNone + 8 * num new.isNone,
          laid [be 8 (old.getD 0).toNat, be 8 (new.getD 0).toNat])
       | .drift peer clear vote offset drift =>
         (4, 0, laid
           [be 1 (if peer.isSome then 2 else 0), be 4 (peer.getD 0).toNat, bit clear,
            be 1 (match vote with | .offset => 0 | .drift => 1), bit drift.isNone,
            beInt 4 (if offset < -2147483648 then -2147483647 else offset), beInt 4 (drift.getD 0)])
       | .fault kind clear response => (5, 0, laid [be 1 kind.ix.val, bit clear, be 1 response.rank, be 13 0])
       | .freeze released t => (6, 0, laid ([bit released] ++ trigger t ++ [be 13 0]))
       | .gap missed => (7, 0, laid [beSat 2 missed, be 14 0])
     (recordBytes r).length = 32 ∧
     recordBytes r = laid
       [be 1 (32 * form.1 + form.2.1), be 1 (32 * r.cls + 16 * num r.port.isNone + r.domain), be 4 r.seq, beSat 6 r.date.s,
        be 4 ((r.port.map port).getD 0 * 1073741824 + r.date.n)] ++ form.2.2) ∧
   (∀ s : State,
     let ports := [Port.u0, .u1, .d0, .d1]
     tableOf s 1 = some (ports.map (fun p =>
       let r := s.cfg.ports.get p
       let u := s.port p
       let arrived := fun (f : FwdFrame) => if f.complete then f.bytes.length else min 9216 (f.bytes.length + f.sinceHalf / 2)
       let held := fun (bytes frames : Nat) (o : TxFrom) =>
         let leaving : Nat × Nat := match u.tx with
           | some t =>
             if t.origin = o then
               ((match t.body with | .forwarded f => arrived f | .originated _ bs => bs.length) - t.sentHalf / 2, 1)
             else (0, 0)
           | none => (0, 0)
         [beSat 4 (bytes + leaving.1), beSat 1 (frames + leaving.2)]
       laid ([code (if u.up then .linkUp else .linkDown), be 1 (match r.privilege with | .none => 0 | .read => 1 | .full => 2),
          bit r.echoOn, beInt 1 r.k, beSat 2 r.timeoutMs, beInt 4 r.asym, be 6 r.gateway.toNat, bit u.seenUp] ++
         held (u.buffer.map arrived).sum u.buffer.length .buffer ++
         held (u.timing.map (fun f => f.bytes.length + 4)).sum u.timing.length .timing ++
         held (u.general.map (fun f => f.bytes.length + 4)).sum u.general.length .general))) ∧
     tableOf s 2 = some (ports.map (fun p => stats (s.port p).stats)) ∧
     tableOf s 3 = some (s.matchTab.activeBank.toList.map entry) ∧
     tableOf s 4 = some (s.matchTab.standbyBank.toList.map entry) ∧
     tableOf s 5 = some ([Lane.a, .b].map (fun l =>
       let r := s.cfg.lanes.get l
       let u := s.lane l
       laid ([be 1 (match r.mode with | .boundary => 0 | .transit => 1), beInt 1 r.k, beSat 1 r.m, beSat 1 u.thin] ++
         date u.lastInstant ++
         [match u.outcome with
          | none => be 1 0
          | some .sent => code .outcomeSent
          | some .cls => code .outcomeClass
          | some .link => code .outcomeLink
          | some .queue => code .outcomeQueue,
          beSat 4 u.built]))) ∧
     tableOf s 6 = some ([Lane.a, .b].map (fun l =>
       let e := s.echo.get l
       let asked : Option Outstanding := match e.st with | .inFlight o => some o | .idle | .queued => none
       laid ([code (if e.st = .idle then .echoIdle else .echoAwaiting), bit asked.isSome, beSat 2 e.nextId,
          beSat 2 ((asked.map (fun o => o.id)).getD 0)] ++ date (asked.map (fun o => o.t1)) ++
         [beSat 1 e.run, bit e.stale, beSat 1 e.window.length] ++ e.window.map (beSat 6) ++ [beSat 6 e.p]))) ∧
     tableOf s 7 = some (s.cfg.overrides.toList.map (fun o =>
       laid [be 1 (port o.port), be 8 o.sender.toNat, beInt 4 o.asym, bit o.valid])) ∧
     tableOf s 8 = some (s.sources.toList.map (source s.clock.up)) ∧
     tableOf s 9 = some ((List.range 32).map (fun i => peer s.clock.up (s.peerCfg i) (s.peer i))) ∧
     tableOf s 10 = some [
       let v := s.drift.verdict
       laid
         [bit s.drift.episode.isSome, bit ((s.drift.episode.map (fun e => e.barCalled)).getD false), beSat 1 v.n,
          beSat 1 v.behindOffset, beSat 4 v.offsetLimit, beSat 1 v.aheadOffset, beSat 4 v.offsetLimit, beSat 1 v.behindDrift,
          beSat 4 v.driftLimit, beSat 1 v.aheadDrift, beSat 4 v.driftLimit, beInt 4 (v.offsetFigure.getD 0),
          beInt 4 (v.driftFigure.getD 0)]] ∧
     tableOf s 11 = some (faultKinds.map (fun k => fault s.clock.up (s.fault k) (s.response k) (s.form (.fault k)))) ∧
     tableOf s 12 = some [laid
       [be 1 s.floor, bit s.hold, ms (((s.form .logLevel).holdoff.map (fun t => t - s.clock.up)).getD 0),
        beSat 2 (s.form .logLevel).suppressed, beSat 4 s.cfg.alertHoldoff, be 4 s.cfg.collIp.toNat,
        be 2 s.cfg.collPort.toNat]] ∧
     (∀ v, s.frozen = some v →
       tableOf s 16 = some [v.clockStatus] ∧
       tableOf s 17 = some (v.sources.toList.map (source v.up)) ∧
       tableOf s 18 = some ((List.finRange 32).map (fun i => peer v.up v.peerCfgs[i] v.peers[i])) ∧
       tableOf s 19 = some (ports.map (fun p => stats (v.stats.get p))) ∧
       tableOf s 20 = some (faultKinds.map (fun k =>
         fault v.up v.faults.recs[k.ix] v.responses[k.ix] v.faults.forms[k.ix.castSucc]))))) ∧
  (∀ (n : Byte) (s : State), hasTurn 5 (.logTake n) s = true →
    let want := min n.toNat 40
    let done : Status := if 40 < n.toNat then .clamped else .done
    let out := s.log.records.take (min want ((dataRoom s - 1) / 32))
    let left := s.log.records.drop out.length
    (n = 0 → exec (.logTake n) s = .next (deliver 5 (s, .range, []))) ∧
    (n ≠ 0 → (∃ start, s.log.mem = .testing start) → exec (.logTake n) s = .next (deliver 5 (s, .busy, []))) ∧
    (n ≠ 0 → s.log.mem = .failed → dataRoom s = 0 → exec (.logTake n) s = .next (deliver 5 (s, done, []))) ∧
    (n ≠ 0 → s.log.mem = .inService → dataRoom s = 0 → exec (.logTake n) s = .next (deliver 5 (s, .truncated, []))) ∧
    (n ≠ 0 → s.log.mem = .failed → 0 < dataRoom s → exec (.logTake n) s = .next (deliver 5 (s, done, [0]))) ∧
    (n ≠ 0 → s.log.mem = .inService → 0 < dataRoom s → exec (.logTake n) s = .next (deliver 5
      (if out = [] then s else { s with log := { s.log with
          records := left
          noticeSent := s.log.noticeSent && !decide (2 * left.length < s.cfg.logThreshold) } },
        if out.length < want then .truncated else done,
        BitVec.ofNat 8 out.length :: out.flatMap recordBytes))))

/-- WRITE_MATCH writes one entry of the standby bank, its numbers limited and CLAMPED, and is refused with STATE while a swap is
armed and with RANGE for an index or a name that does not exist (R112). COPY_BANK copies the active bank into the standby bank
(R113). SWAP_BANKS swaps at once or arms a swap (R114). That the armed swap is judged before an index or a name that does not
exist is log 61. -/
def Obligations.TheStandbyBankIsWrittenAndSwapped : Prop :=
  (∀ (index : Byte) (a : MatchArg) (s : State), hasTurn 6 (.writeMatch index a) s = true →
    let named := a.action.toNat ≤ 3 ∧ a.vlanKind.toNat ≤ 2 ∧ a.logMode.toNat ≤ 2
    (s.matchTab.armed = true → exec (.writeMatch index a) s = .next (deliver 6 (s, .state, []))) ∧
    (s.matchTab.armed = false → 63 < index.toNat ∨ ¬ named →
      exec (.writeMatch index a) s = .next (deliver 6 (s, .range, []))) ∧
    (s.matchTab.armed = false → (h : index.toNat < 64) → named →
      ∃ (action : Action) (vlan : VlanKind) (mode : LogMode) (tab : MatchTable),
        [Action.pass, .storageMark, .utxL2, .utxUdp][a.action.toNat]? = some action ∧
        [VlanKind.any, .none, .id][a.vlanKind.toNat]? = some vlan ∧
        [LogMode.stampAndLog, .stampOnly, .logOnly][a.logMode.toNat]? = some mode ∧
        let e : MatchEntry :=
          { valid := decide (a.valid ≠ 0), action := action, ethertype := a.ethertype, vlanKind := vlan
            vlanId := min a.vlanId.toNat 4094
            ports := ⟨a.ports.getLsbD 0, a.ports.getLsbD 1, a.ports.getLsbD 2, a.ports.getLsbD 3⟩
            patPresent := decide (a.patPresent ≠ 0), patOffset := min a.patOffset.toNat 127, patValue := a.patValue
            patMask := a.patMask, stampOffset := min a.stampOffset.toNat 9188, keyOffset := min a.keyOffset.toNat 9192
            domain := min a.domain.toNat 15, logMode := mode, freeze := decide (a.freeze ≠ 0) }
        tab.activeBank = s.matchTab.activeBank ∧ tab.standbyBank = s.matchTab.standbyBank.set index.toNat e h ∧
        tab.active = s.matchTab.active ∧ tab.armed = false ∧
        exec (.writeMatch index a) s = .next (deliver 6 ({ s with matchTab := tab },
          if a.vlanId.toNat ≤ 4094 ∧ a.patOffset.toNat ≤ 127 ∧ a.stampOffset.toNat ≤ 9188 ∧ a.keyOffset.toNat ≤ 9192 ∧
            a.domain.toNat ≤ 15 then .done else .clamped, [])))) ∧
  (∀ s : State, hasTurn 7 .copyBank s = true →
    (s.matchTab.armed = true → exec .copyBank s = .next (deliver 7 (s, .state, []))) ∧
    (s.matchTab.armed = false → ∃ tab : MatchTable,
      tab.activeBank = s.matchTab.activeBank ∧ tab.standbyBank = s.matchTab.activeBank ∧ tab.active = s.matchTab.active ∧
      tab.armed = false ∧ exec .copyBank s = .next (deliver 7 ({ s with matchTab := tab }, .done, [])))) ∧
  (∀ (arg : Byte) (s : State), hasTurn 8 (.swapBanks arg) s = true →
    (arg = 0 → exec (.swapBanks arg) s = .next (deliver 8
      ({ s with matchTab := { s.matchTab with active := !s.matchTab.active, armed := false } }, .done, []))) ∧
    (arg = 1 → exec (.swapBanks arg) s = .next (deliver 8
      ({ s with matchTab := { s.matchTab with armed := true } }, .done, []))) ∧
    (arg ≠ 0 → arg ≠ 1 → exec (.swapBanks arg) s = .next (deliver 8 (s, .range, []))))

/-- WRITE_PORT, WRITE_LANE and WRITE_OVERRIDE: RANGE for a port, privilege, lane, mode or index that names nothing; else the
whole record is written with its numbers limited, CLAMPED where one was. A port record acts on the requester of its uplink:
echo turned off ends the exchange and the schedule, a new k restarts the schedule, echo turned on starts it with an interval
expiry at once, also where k is new in the same write, which is the model's choice (log 64); a change of m sets the thinning
counter to 0 (R22, R31, R36, R85, R125). -/
def Obligations.PortLaneAndOverrideRecordsAreWrittenWhole : Prop :=
  (∀ (a : PortArg) (s : State), hasTurn 9 (.writePort a) s = true →
    (3 < a.port.toNat ∨ 2 < a.privilege.toNat → exec (.writePort a) s = .next (deliver 9 (s, .range, []))) ∧
    (∀ p level, [Port.u0, .u1, .d0, .d1][a.port.toNat]? = some p →
      [Privilege.none, .read, .full][a.privilege.toNat]? = some level →
      let old := s.cfg.ports.get p
      let new : PortRec :=
        { privilege := level, echoOn := decide (a.echoEnable ≠ 0), k := max (-4) (min 3 a.exponent.toInt)
          timeoutMs := max 1 (min 100 a.timeout.toNat), asym := max (-1000000) (min 1000000 a.asym.toInt)
          gateway := a.gateway }
      let st : Status := if new.k = a.exponent.toInt ∧ new.timeoutMs = a.timeout.toNat ∧ new.asym = a.asym.toInt then .done
        else .clamped
      let written := { s with cfg := { s.cfg with ports := s.cfg.ports.set p new } }
      let e := s.echoOf p
      (p.isUplink = false ∨ (old.echoOn = new.echoOn ∧ (old.k = new.k ∨ new.echoOn = false ∨ (s.port p).up = false)) ∨
          (old.echoOn = false ∧ new.echoOn = true ∧ (s.port p).up = false) →
        exec (.writePort a) s = .next (deliver 9 (written, st, []))) ∧
      (p.isUplink = true → old.echoOn = true → new.echoOn = false →
        exec (.writePort a) s = .next (deliver 9 (written.setEcho p { e with st := .idle, sched := none }, st, []))) ∧
      (p.isUplink = true → old.echoOn = true → new.echoOn = true → old.k ≠ new.k → (s.port p).up = true →
        exec (.writePort a) s = .next (deliver 9 (written.setEcho p { e with sched := some s.clock.up }, st, []))) ∧
      (p.isUplink = true → old.echoOn = false → new.echoOn = true → (s.port p).up = true →
        exec (.writePort a) s = .next (deliver 9
          (takeInterval p (written.setEcho p { e with sched := some s.clock.up }), st, []))))) ∧
  (∀ (a : LaneArg) (s : State), hasTurn 10 (.writeLane a) s = true →
    (1 < a.lane.toNat ∨ 1 < a.mode.toNat → exec (.writeLane a) s = .next (deliver 10 (s, .range, []))) ∧
    (∀ l mode, [Lane.a, .b][a.lane.toNat]? = some l → [Mode.boundary, .transit][a.mode.toNat]? = some mode →
      let new : LaneRec := ⟨mode, max (-4) (min 1 a.exponent.toInt), min 3 a.thinning.toNat⟩
      let written := { s with cfg := { s.cfg with lanes := s.cfg.lanes.set l new } }
      exec (.writeLane a) s = .next (deliver 10
        (if (s.cfg.lanes.get l).m = new.m then written else written.setLane l { s.lane l with thin := 0 },
          if new.k = a.exponent.toInt ∧ new.m = a.thinning.toNat then .done else .clamped, [])))) ∧
  (∀ (a : OverrideArg) (s : State), hasTurn 11 (.writeOverride a) s = true →
    (3 < a.index.toNat ∨ 3 < a.port.toNat → exec (.writeOverride a) s = .next (deliver 11 (s, .range, []))) ∧
    (∀ p, [Port.u0, .u1, .d0, .d1][a.port.toNat]? = some p → (h : a.index.toNat < 4) →
      let new : Override := ⟨p, a.sender, max (-1000000) (min 1000000 a.asym.toInt), decide (a.valid ≠ 0)⟩
      exec (.writeOverride a) s = .next (deliver 11
        ({ s with cfg := { s.cfg with overrides := s.cfg.overrides.set a.index.toNat new h } },
          if new.asym = a.asym.toInt then .done else .clamped, []))))

/-- WRITE_PEER and CLEAR_PEER: RANGE for an index above 31 or a preferred uplink that is none, STATE for a rack id in use by
another enabled entry; else the configuration is written, the dynamic part becomes clean, its counts 0, where rack, address or
enabling is new, clean with its counts kept where the entry is disabled, and kept otherwise; the first where both hold (log 54).
Where it became clean, the entry's waiting reports are to record no send date (R163, R166, log 46), and the verdict is
re-evaluated if the entry was ACTIVE (R162, R163). -/
def Obligations.PeerEntriesAreWrittenAndCleared : Prop :=
  let void := fun (i : Nat) (s : State) =>
    { s with ports := s.ports.map (fun u => { u with timing := u.timing.map (fun q =>
      match q.tag with
      | .report j _ _ => if j = i then { q with tag := .voidReport } else q
      | .beacon | .ask _ | .echoAnswer | .voidReport | .answer _ | .alert => q) }) }
  let put := fun (i : Nat) (c : PeerCfg) (d : PeerDyn) (s : State) =>
    { s with
      cfg := { s.cfg with peers := s.cfg.peers.setIfInBounds i c }
      drift := { s.drift with peers := s.drift.peers.setIfInBounds i d } }
  let renew := fun (i : Nat) (c : PeerCfg) (d : PeerDyn) (s : State) =>
    let t := void i (put i c d s)
    if (s.peer i).st = .active then judgeRack t else t
  (∀ (a : PeerArg) (s : State), hasTurn 12 (.writePeer a) s = true →
    let i := a.index.toNat
    let enabled := decide (a.enabled ≠ 0)
    let old := s.peerCfg i
    let d := s.peer i
    let inUse := enabled = true ∧ ∃ j, j < 32 ∧ j ≠ i ∧ (s.peerCfg j).enabled = true ∧ (s.peerCfg j).rack = a.rack
    (31 < i ∨ 1 < a.preferred.toNat → exec (.writePeer a) s = .next (deliver 12 (s, .range, []))) ∧
    (∀ p, i ≤ 31 → [Port.u0, .u1][a.preferred.toNat]? = some p →
      let c : PeerCfg := ⟨enabled, a.rack, a.ip, p⟩
      let anew := old.rack ≠ a.rack ∨ old.ip ≠ a.ip ∨ (old.enabled = false ∧ enabled = true)
      let clean := { PeerDyn.reset with
        sent := d.sent, notSent := d.notSent, received := d.received, accepted := d.accepted, rejected := d.rejected,
        unmatched := d.unmatched }
      (inUse → exec (.writePeer a) s = .next (deliver 12 (s, .state, []))) ∧
      (¬ inUse → anew → exec (.writePeer a) s = .next (deliver 12 (renew i c PeerDyn.reset s, .done, []))) ∧
      (¬ inUse → ¬ anew → old.enabled = true ∧ enabled = false → exec (.writePeer a) s = .next (deliver 12
        (renew i c clean s, .done, []))) ∧
      (¬ inUse → ¬ anew → ¬ (old.enabled = true ∧ enabled = false) → exec (.writePeer a) s = .next (deliver 12
        (put i c d s, .done, []))))) ∧
  (∀ (index : Byte) (s : State), hasTurn 13 (.clearPeer index) s = true →
    let i := index.toNat
    (31 < i → exec (.clearPeer index) s = .next (deliver 13 (s, .range, []))) ∧
    (i ≤ 31 → exec (.clearPeer index) s = .next (deliver 13 (renew i ⟨false, 0, 0, .u0⟩ PeerDyn.reset s, .done, []))))

/-- WRITE_SERVO puts its block in force, each value limited, in every Servo state (R80). It limits F to the new plausibility
limit, r following where it follows F; it sets the forced rate of a catch-down to a new catch-down rate (R64); and an r that
is set is handed to the clock, which forms its increment of it (R68). It ends a running SECOND pulse where the class is worse
than the new limit (R13), in every Servo state judged by the class that the write leaves, which is the model's choice (log
48); raises no FREQ_IMPLAUSIBLE; and lets a holdover expire, the responses within their maxima as every step keeps them, or be
within its limit again, with its FAULT record before its STATE record, an order that is the model's choice (log 51, R76).
Where it does neither, nothing else of the engine changes. WRITE_DRIFT puts its block in force, restarts the schedule where k
changed, and re-evaluates the verdict (R181). WRITE_FAULT limits the response to the kind's maximum, and for an active fault
the class and the HOLD indication follow at once (R186). -/
def Obligations.ParametersAreWrittenAndActAtOnce : Prop :=
  (∀ (a : ServoArg) (s : State), hasTurn 14 (.writeServo a) s = true →
    let step := max 1000 (min 999999999 a.stepThreshold.toNat)
    let p : ServoParams :=
      { stepThreshold := step, lockWindow := min (max 50 (min 100000 a.lockWindow.toNat)) (step - 1)
        lockCount := max 2 (min 32 a.lockCount.toNat), unlockCount := max 1 (min 16 a.unlockCount.toNat)
        sp := min 8 a.sp.toNat, si := min 12 a.si.toNat, catchRate := max 10 (min 500 a.catchRate.toNat)
        plausibility := max 10 (min 500 a.plausibility.toNat), holdoverLimit := max 10 (min 86400 a.holdoverLimit.toNat) }
    let width := max 1 (min 999 a.secWidth.toNat)
    let limit := min 6 a.secLimit.toNat
    let bound : Int := p.plausibility * 1024000
    let roomy := s.log.mem = .inService ∧ s.log.gap = false ∧ s.log.records.length + 3 ≤ 4096
    let asGiven := p.stepThreshold = a.stepThreshold.toNat ∧ p.lockWindow = a.lockWindow.toNat ∧
      p.lockCount = a.lockCount.toNat ∧ p.unlockCount = a.unlockCount.toNat ∧ p.sp = a.sp.toNat ∧ p.si = a.si.toNat ∧
      p.catchRate = a.catchRate.toNat ∧ p.plausibility = a.plausibility.toNat ∧ p.holdoverLimit = a.holdoverLimit.toNat ∧
      width = a.secWidth.toNat ∧ limit = a.secLimit.toNat
    ∃ t, exec (.writeServo a) s = .next (deliver 14 (t, if asGiven then .done else .clamped, [])) ∧
      t.cfg = { s.cfg with servo := p, secWidth := width, secLimit := limit } ∧ t.clock.date = s.clock.date ∧
      t.servo.f = max (-bound) (min bound s.servo.f) ∧
      (s.servo.catchDown = true → p.catchRate ≠ s.cfg.servo.catchRate → t.servo.r = -(p.catchRate * 1024000 : Int)) ∧
      (s.servo.catchDown = false ∨ p.catchRate = s.cfg.servo.catchRate →
        t.servo.r = if t.servo.f ≠ s.servo.f ∧ (s.servo.st = .unset ∨ s.servo.st = .freerun ∨ s.servo.st = .holdover) then
          t.servo.f else s.servo.r) ∧
      (s.servo.catchDown = true → p.catchRate ≠ s.cfg.servo.catchRate → t.clock.inc = incrementOf t.servo.r) ∧
      (s.servo.catchDown = false ∨ p.catchRate = s.cfg.servo.catchRate →
        t.clock.inc =
          if t.servo.f ≠ s.servo.f ∧ (s.servo.st = .unset ∨ s.servo.st = .freerun ∨ s.servo.st = .holdover) then
            incrementOf t.servo.r else s.clock.inc) ∧
      t.fault .freqImplausible = s.fault .freqImplausible ∧
      (t.clock.secondEnd = if limit < t.engineClass then none else s.clock.secondEnd) ∧
      (s.servo.st ≠ .holdover ∨ (s.servo.expired = true ↔ p.holdoverLimit ≤ s.servo.holdTimer) →
        t.servo.st = s.servo.st ∧ t.sources = s.sources ∧ t.log = s.log ∧ t.faults = s.faults ∧
        (t.clock.secondEnd = if limit < s.engineClass then none else s.clock.secondEnd) ∧
        t = { s with
          cfg := t.cfg
          servo := { s.servo with f := t.servo.f, r := t.servo.r }
          clock := { s.clock with inc := t.clock.inc, secondEnd := t.clock.secondEnd } }) ∧
      (s.servo.st = .holdover → s.servo.expired = false → p.holdoverLimit ≤ s.servo.holdTimer →
        (∀ k : FaultKind, (s.response k).rank ≤ k.maxResponse.rank) →
        t.servo = { s.servo with f := t.servo.f, r := t.servo.r, expired := true } ∧ t.sources = s.sources ∧
        (t.fault .holdoverExpired).active = true ∧ t.engineClass = 4 ∧
        ((s.fault .holdoverExpired).active = false → roomy → t.log.records = s.log.records ++
          [⟨s.log.nextSeq, none, 0, 4, s.clock.date.sn, .fault .holdoverExpired false (s.response .holdoverExpired)⟩,
           ⟨(s.log.nextSeq + 1) % 4294967296, none, 0, 4, s.clock.date.sn, .state .holdover .holdover 4⟩])) ∧
      (s.servo.st = .holdover → s.servo.expired = true → s.servo.holdTimer < p.holdoverLimit →
        t.servo.expired = false ∧ (t.fault .holdoverExpired).active = false ∧
        ((∀ k : FaultKind, (s.response k).rank ≤ k.maxResponse.rank) →
          t.servo = { s.servo with f := t.servo.f, r := t.servo.r, expired := false } ∧ t.sources = s.sources) ∧
        ((∀ k : FaultKind, (s.response k).rank ≤ k.maxResponse.rank) → (s.fault .holdoverExpired).active = true → roomy →
          let cls := max 3 (s.setFault .holdoverExpired { s.fault .holdoverExpired with active := false }).floor
          t.engineClass = cls ∧
          t.log.records = s.log.records ++
            [⟨s.log.nextSeq, none, 0, cls, s.clock.date.sn, .fault .holdoverExpired true (s.response .holdoverExpired)⟩,
             ⟨(s.log.nextSeq + 1) % 4294967296, none, 0, cls, s.clock.date.sn, .state .holdover .holdover cls⟩]))) ∧
  (∀ (a : DriftArg) (s : State), hasTurn 15 (.writeDrift a) s = true →
    let p : DriftParams :=
      { barTime := max 10 (min 86400 a.barTime.toNat), k := max (-2) (min 3 a.exponent.toInt)
        roundTrip := max 1000 (min 10000000 a.roundTrip.toNat)
        offsetThreshold := max 100 (min 100000000 a.offsetThreshold.toNat)
        driftThreshold := max 10 (min 100000 a.driftThreshold.toNat), quorum := max 3 (min 32 a.quorum.toNat)
        barOn := decide (a.barOn ≠ 0) }
    let holdoff := max 1 (min 3600 a.alertHoldoff.toNat)
    let threshold := max 1 (min 4095 a.logThreshold.toNat)
    let asGiven := p.barTime = a.barTime.toNat ∧ p.k = a.exponent.toInt ∧ p.roundTrip = a.roundTrip.toNat ∧
      p.offsetThreshold = a.offsetThreshold.toNat ∧ p.driftThreshold = a.driftThreshold.toNat ∧
      p.quorum = a.quorum.toNat ∧ holdoff = a.alertHoldoff.toNat ∧ threshold = a.logThreshold.toNat
    exec (.writeDrift a) s = .next (deliver 15
      (judgeRack { s with
        cfg := { s.cfg with drift := p, alertHoldoff := holdoff, logThreshold := threshold }
        drift := { s.drift with sched := if p.k = s.cfg.drift.k then s.drift.sched else some ⟨s.clock.up, 0⟩ } },
        if asGiven then .done else .clamped, []))) ∧
  (∀ (kind response : Byte) (s : State), hasTurn 16 (.writeFault kind response) s = true →
    (8 < kind.toNat ∨ 3 < response.toNat → exec (.writeFault kind response) s = .next (deliver 16 (s, .range, []))) ∧
    (∀ k r, FaultKind.ofIndex kind.toNat = some k → [Response.note, .alert, .demote, .hold][response.toNat]? = some r →
      let given := if r.rank ≤ k.maxResponse.rank then r else k.maxResponse
      let st : Status := if r.rank ≤ k.maxResponse.rank then .done else .clamped
      let written := { s with cfg := { s.cfg with responses := s.cfg.responses.set k.ix given } }
      ((s.fault k).active = false → exec (.writeFault kind response) s = .next (deliver 16 (written, st, []))) ∧
      ((s.fault k).active = true →
        let seen := if written.cfg.secLimit < written.engineClass then
          { written with clock := { written.clock with secondEnd := none } } else written
        (written.hold = s.hold → exec (.writeFault kind response) s = .next (deliver 16 (seen, st, []))) ∧
        (written.hold ≠ s.hold → exec (.writeFault kind response) s = .next (deliver 16
          (reevaluate seen.selectedPair .hold none seen, st, []))))))

/-- SET_DATE in UNSET loads the date, N limited, with f = 0, and the Servo enters FREERUN with its STATE record of class 5; in
FREERUN a later date is a forward step with its STEP record, the same date changes nothing, an earlier one is BACKWARD; in the
other states it is refused with STATE. SET_TRIM in UNSET and FREERUN sets F, r, the increment and the trim to its value
limited to the plausibility limit, and is refused with STATE in the others (R10, R11, R78, R79). -/
def Obligations.SetDateAndSetTrimByTheServoState : Prop :=
  (∀ (sec : BitVec 48) (nano : BitVec 32) (s : State), hasTurn 17 (.setDate sec nano) s = true →
    let n := min nano.toNat 999999999
    let wanted := sec.toNat * 1000000000 + n
    let st : Status := if nano.toNat ≤ 999999999 then .done else .clamped
    (s.servo.st = .unset → exec (.setDate sec nano) s = .next (deliver 17
      (offerRecord (.plain none (.state .unset .freerun 5)) { s with
        clock := { s.clock with
          date := ⟨sec.toNat, n, 0⟩
          secondEnd := if s.cfg.secLimit < 5 then none else s.clock.secondEnd }
        servo := { s.servo with st := .freerun } }, st, []))) ∧
    (s.servo.st = .freerun → wanted < s.clock.date.ns →
      exec (.setDate sec nano) s = .next (deliver 17 (s, .backward, []))) ∧
    (s.servo.st = .freerun → wanted = s.clock.date.ns → exec (.setDate sec nano) s = .next (deliver 17 (s, st, []))) ∧
    (s.servo.st = .freerun → s.clock.date.ns < wanted → exec (.setDate sec nano) s = .next (deliver 17
      (offerRecord (.plain none (.step ((wanted - s.clock.date.ns : Nat) : Int) ((s.clock.epoch + 1) % 65536)))
        (forwardStep (wanted - s.clock.date.ns) s), st, []))) ∧
    (s.servo.st ≠ .unset → s.servo.st ≠ .freerun →
      exec (.setDate sec nano) s = .next (deliver 17 (s, .state, [])))) ∧
  (∀ (f : BitVec 32) (s : State), hasTurn 18 (.setTrim f) s = true →
    let bound : Int := s.cfg.servo.plausibility * 1024000
    let v := max (-bound) (min bound f.toInt)
    (s.servo.st = .unset ∨ s.servo.st = .freerun → exec (.setTrim f) s = .next (deliver 18
      (handRate v { s with cfg := { s.cfg with trim := v }, servo := { s.servo with f := v } },
        if v = f.toInt then .done else .clamped, []))) ∧
    (s.servo.st ≠ .unset → s.servo.st ≠ .freerun → exec (.setTrim f) s = .next (deliver 18 (s, .state, []))))

/-- FREEZE and a freeze-on-match in LIVE capture the frozen view, all of it at one moment, and offer a FREEZE record; in FROZEN
they change nothing. RELEASE in FROZEN discards the view, returns to LIVE and offers a FREEZE record, released; in LIVE it
changes nothing. Both are answered DONE (R155, R156, R158). -/
def Obligations.FreezeAndRelease : Prop :=
  (∀ (trigger : Trigger) (s : State),
    (s.frozen = none → freezeTrigger trigger s = offerRecord (.plain none (.freeze false trigger)) { s with
      frozen := some
        { trigger := trigger, up := s.clock.up, upSeconds := s.upSeconds, clockStatus := clockStatus s, sources := s.sources
          peerCfgs := s.cfg.peers, peers := s.drift.peers
          stats := ⟨(s.port .u0).stats, (s.port .u1).stats, (s.port .d0).stats, (s.port .d1).stats⟩
          faults := s.faults, responses := s.cfg.responses } }) ∧
    (s.frozen ≠ none → freezeTrigger trigger s = s)) ∧
  (∀ s : State, hasTurn 21 .freeze s = true →
    exec .freeze s = .next (deliver 21 (freezeTrigger .command s, .done, []))) ∧
  (∀ s : State, hasTurn 22 .release s = true →
    (s.frozen ≠ none → exec .release s = .next (deliver 22
      (offerRecord (.plain none (.freeze true .command)) { s with frozen := none }, .done, []))) ∧
    (s.frozen = none → exec .release s = .next (deliver 22 (s, .done, []))))

/-! ### The blocks' own rules -/

/-- A record offered to the log: written with the next sequence where the memory is IN_SERVICE and 2 slots are free, behind a
GAP record of the missed count where a gap is pending; else missed, counted, and a gap is pending. LOG_FULL stays active
exactly while a gap is pending (R142, R143, R144, R145). -/
def Obligations.ARecordIsWrittenOrMissed : Prop :=
  (∀ (o : Offer) (s : State),
    let t := (offerBare o s).1
    let room := s.log.mem = .inService ∧ s.log.records.length + 2 ≤ 4096
    let record := fun (seq : Nat) => match o.own with
      | some (domain, cls, date) => LogRecord.mk seq o.port domain cls date o.body
      | none => LogRecord.mk seq o.port 0 s.engineClass s.clock.date.sn o.body
    (room → s.log.gap = false →
      t.log.records = s.log.records ++ [record s.log.nextSeq] ∧ t.log.nextSeq = (s.log.nextSeq + 1) % 4294967296 ∧
      t.log.gap = false ∧ t.log.missed = s.log.missed) ∧
    (room → s.log.gap = true →
      t.log.records = s.log.records ++
        [⟨s.log.nextSeq, none, 0, s.engineClass, s.clock.date.sn, .gap s.log.missed⟩,
         record ((s.log.nextSeq + 1) % 4294967296)] ∧
      t.log.nextSeq = ((s.log.nextSeq + 1) % 4294967296 + 1) % 4294967296 ∧ t.log.gap = false ∧ t.log.missed = 0) ∧
    (room → s.log.noticeSent = false → (t.log.noticeSent = true ↔ s.cfg.logThreshold ≤ t.log.records.length)) ∧
    (¬ room → t = { s with log := { s.log with gap := true, missed := min 65535 (s.log.missed + 1) } })) ∧
  (∀ (o : Offer) (s : State), (s.fault .logFull).active = s.log.gap →
    ((offerRecord o s).fault .logFull).active = (offerRecord o s).log.gap)

/-- A raise of an inactive fault makes it active, counts it, and notes when and about what; of an active one it only counts. A
clear keeps all but active. With room in the log each writes its FAULT record, of the class after the change. CLEAR_FLAGS
clears the edge faults, SAT and path-stale flags of its mask and no level fault: with no edge fault of the mask active no fault
moves at all; with no HOLD of FREQ_IMPLAUSIBLE to end, the responses within their maxima as every step keeps them, none of
SOURCE_LOST, HOLDOVER_EXPIRED, SELF_DRIFT and LINK_DOWN moves; LOG_FULL follows the records offered (R29, R67, R187 to R190).
The port in the record of a clear is log 58, and the order of several flags of one mask log 59. In order, a raise sets the
record, the SECOND line sees the class, the FAULT record is offered, and at ALERT and above one alert event of the kind is
taken; a clear likewise; and where the HOLD indication has changed the sources are re-evaluated (R187, R188, R191). The floor is
4 while an active fault has response DEMOTE or HOLD and else 0, HOLD is in force while one has HOLD, and the engine's class is
the larger of the servo class of R81 and the floor (R81, R190). -/
def Obligations.FaultsAreRaisedAndCleared : Prop :=
  (∀ s : State,
    ((∃ k, (s.fault k).active = true ∧ (s.response k = .demote ∨ s.response k = .hold)) → s.floor = 4) ∧
    ((∀ k, (s.fault k).active = true → s.response k ≠ .demote ∧ s.response k ≠ .hold) → s.floor = 0) ∧
    (s.hold = true ↔ ∃ k, (s.fault k).active = true ∧ s.response k = .hold) ∧
    s.engineClass = max s.servoClass s.floor ∧
    (s.servo.st = .unset → s.servoClass = 6) ∧ (s.servo.st = .freerun → s.servoClass = 5) ∧
    (s.servo.st = .acquiring → s.servoClass = 3) ∧
    (s.servo.st = .holdover → s.servoClass = if s.servo.expired then 4 else 3) ∧
    (∀ i e, s.servo.st = .locked → s.source i = some e → e.st = .selected →
      (∀ j e', j < i → s.source j = some e' → e'.st ≠ .selected) →
      s.servoClass = if e.cls = 0 then 1 else if e.cls = 1 then 2 else e.cls)) ∧
  (∀ (k : FaultKind) (subject : Subject) (record : Bool) (d : AlertData) (s : State),
    let port := match subject with
      | .port p => some p
      | .self => none
      | .peer _ => none
    let old := s.fault k
    let seen := fun (t : State) =>
      if t.cfg.secLimit < t.engineClass then { t with clock := { t.clock with secondEnd := none } } else t
    let told := fun (clear : Bool) (t : State) =>
      let u := if record then offerRecord (.plain port (.fault k clear (s.response k))) t else t
      if s.response k = .note then u else alertEvent (.fault k) clear subject d u
    let onHold := fun (t : State) => if t.hold = s.hold then t else reevaluate t.selectedPair .hold none t
    (old.active = false → raiseFault k subject record d s = told false (seen (s.setFault k
      { active := true, count := min 255 (old.count + 1), lastRaised := some s.upSeconds, lastSubject := some subject }))) ∧
    (old.active = true → clearFault k subject record d s = told true (s.setFault k { old with active := false })) ∧
    raiseWithHold k subject record d s = onHold (raiseFault k subject record d s) ∧
    clearWithHold k subject record d s = onHold (clearFault k subject record d s)) ∧
  (∀ (k : FaultKind) (subject : Subject) (record : Bool) (d : AlertData) (s : State), k ≠ .logFull →
    let old := s.fault k
    let t := raiseFault k subject record d s
    let c := clearFault k subject record d s
    let roomy := s.log.mem = .inService ∧ s.log.gap = false ∧ s.log.records.length + 2 ≤ 4096
    let port := match subject with
      | .port p => some p
      | .self => none
      | .peer _ => none
    (old.active = true → t = s.setFault k { old with count := min 255 (old.count + 1) }) ∧
    (old.active = false →
      t.fault k = { active := true, count := min 255 (old.count + 1), lastRaised := some s.upSeconds,
                    lastSubject := some subject } ∧
      (∀ k', k' ≠ k → k' ≠ .logFull → t.fault k' = s.fault k') ∧ t.cfg = s.cfg ∧ t.servo = s.servo ∧ t.sources = s.sources ∧
      (2 ≤ (s.response k).rank → t.floor = 4) ∧
      (roomy → record = true → t.log.records = s.log.records ++
        [⟨s.log.nextSeq, port, 0, t.engineClass, s.clock.date.sn, .fault k false (s.response k)⟩])) ∧
    (old.active = false → c = s) ∧
    (old.active = true →
      c.fault k = { old with active := false } ∧
      (∀ k', k' ≠ k → k' ≠ .logFull → c.fault k' = s.fault k') ∧ c.cfg = s.cfg ∧ c.servo = s.servo ∧ c.sources = s.sources ∧
      (roomy → record = true → c.log.records = s.log.records ++
        [⟨s.log.nextSeq, port, 0, c.engineClass, s.clock.date.sn, .fault k true (s.response k)⟩]))) ∧
  (∀ (mask : BitVec 32) (s : State), hasTurn 19 (.clearFlags mask) s = true →
    ∃ t, exec (.clearFlags mask) s = .next (deliver 19 (t, .done, [])) ∧
      (∀ k, k.isEdge = true → t.fault k =
        if mask.getLsbD k.ix.val then { s.fault k with active := false } else s.fault k) ∧
      (∀ k, k = .selfDrift ∨ k = .linkDown → t.fault k = s.fault k) ∧
      ((∀ k, k.isEdge = true → mask.getLsbD k.ix.val = true → (s.fault k).active = false) →
        t.log = s.log ∧ ∀ k, t.fault k = s.fault k) ∧
      ((∀ k : FaultKind, (s.response k).rank ≤ k.maxResponse.rank) →
        (mask.getLsbD 2 = true → (s.fault .freqImplausible).active = true → s.response .freqImplausible ≠ .hold) →
        ∀ k, k.isEdge = false → k ≠ .logFull → t.fault k = s.fault k) ∧
      t.servo.sat = (s.servo.sat && !mask.getLsbD 9) ∧ t.servo.f = s.servo.f ∧ t.cfg = s.cfg ∧
      t.clock.date = s.clock.date ∧
      (∀ p, p = .u0 ∨ p = .u1 →
        let bit := if p = .u0 then mask.getLsbD 10 else mask.getLsbD 11
        (t.echoOf p).stale = ((s.echoOf p).stale && !bit) ∧ (t.echoOf p).run = (if bit then 0 else (s.echoOf p).run) ∧
        (t.echoOf p).window = (s.echoOf p).window ∧ (t.echoOf p).p = (s.echoOf p).p))

/-- The best selectable entry is ranked by class, hops, sender id and port; and a re-evaluation keeps a selected entry that is
still selectable against all of no lower class, puts the best entry in the place of another, of lower class or instead of one
no longer selectable, and ends the selection where nothing is selectable, with SOURCE_LOST (R45, R46, R47, R50, R75). An entry
that leaves the selection still SELECTED, by its class, its link or a HOLD, or by a better one, becomes CANDIDATE, and one
that is STALE or BARRED stays so; no other entry changes. Each change of selection gives one SOURCE record, the first of its
records, with room in the log: the old and the new sender or none, the reason, the port of the new entry or else of the old,
and the class when the Servo has followed (R47, R49, log 13); only where no entry was SELECTED, in UNSET, and the beacon under
way is the new entry's own, has it not (R48, R71, log 13).

What the Servo does on each change: where an entry follows another, F, r and catch-down are kept and the excursion record and
both counters start anew (R73); where one is selected after none, F and r are kept, excursion record and counters start anew,
catch-down is off and no holdover is expired, HOLDOVER_EXPIRED being cleared as the Servo leaves HOLDOVER (R71, R72), or the
Servo waits for the sample as said above; where the selection ends in ACQUIRING or LOCKED, catch-down is off, r becomes F and
is handed to the clock, the holdover timer starts at 0, not expired, and excursion record and counters start anew, and in the
other states nothing changes (R75). No other field of Servo or clock changes, but that a running SECOND pulse ends at a class
worse than its limit (R13). With room in the log the records of a change are, in the order of log 13, the SOURCE record, the
FAULT record of HOLDOVER_EXPIRED cleared, a STATE record where the state changed, none where a change of source finds
ACQUIRING, and the FAULT record of SOURCE_LOST raised or cleared (R49, R50, R69). The port of a clear's record is log 58. -/
def Obligations.TheSelectionFollowsTheRank : Prop :=
  let able := fun (s : State) (e : SourceEntry) =>
    (e.st = .candidate ∨ e.st = .selected) ∧ e.cls ≤ 4 ∧ (s.port e.port).up = true ∧ s.hold = false
  let told := fun (s t : State) (port : Port) (cls : Nat) (old new : Option (BitVec 64)) (why : Reason) =>
    s.log.mem = .inService → s.log.gap = false → s.log.records.length + 2 ≤ 4096 →
    ∃ later, t.log.records = s.log.records ++
      ⟨s.log.nextSeq, some port, 0, cls, s.clock.date.sn, .source old new why⟩ :: later
  (∀ s : State,
    let above := fun (x y : SourceEntry) =>
      x.cls < y.cls ∨ (x.cls = y.cls ∧ (x.hops < y.hops ∨ (x.hops = y.hops ∧
        (x.sender.toNat < y.sender.toNat ∨ (x.sender = y.sender ∧ x.port = .u0 ∧ y.port = .u1)))))
    SourcesOk s →
    (bestSource s = none ↔ ∀ i e, s.source i = some e → ¬ able s e) ∧
    (∀ i e, bestSource s = some (i, e) ↔
      s.source i = some e ∧ able s e ∧ ∀ j e', s.source j = some e' → able s e' → j ≠ i → above e e')) ∧
  (∀ (s : State) (e : SourceEntry), selectable s e = true ↔ able s e) ∧
  (∀ (s : State) (i : Nat) (e : SourceEntry) (why : Reason) (own : Option Nat),
    let t := reevaluate (some (i, e)) why own s
    let stays := ∃ now, s.source i = some now ∧ now.st = .selected ∧ selectable s now = true
    let left :=
      (∀ now, s.source i = some now → now.st = .selected → t.source i = some { now with st := .candidate }) ∧
      (∀ now, s.source i = some now → now.st = .stale ∨ now.st = .barred → t.source i = some now)
    (∀ now, s.source i = some now → now.st = .selected → selectable s now = true →
      (∀ j b, bestSource s = some (j, b) → now.cls ≤ b.cls) → t = s) ∧
    (∀ now j b, s.source i = some now → now.st = .selected → selectable s now = true → bestSource s = some (j, b) →
      b.cls < now.cls →
      t.source j = some { b with st := .selected } ∧ left ∧ (∀ m, m ≠ i → m ≠ j → t.source m = s.source m) ∧
      t.servo.st = .acquiring ∧ (t.fault .sourceLost).active = false ∧
      told s t b.port (max 3 s.floor) (some e.sender) (some b.sender) .better) ∧
    (∀ j b, ¬ stays → bestSource s = some (j, b) →
      t.source j = some { b with st := .selected } ∧ left ∧ (∀ m, m ≠ i → m ≠ j → t.source m = s.source m) ∧
      t.servo.st = .acquiring ∧ (t.fault .sourceLost).active = false ∧
      told s t b.port (max 3 s.floor) (some e.sender) (some b.sender) why) ∧
    (¬ stays → bestSource s = none →
      let following := s.servo.st = .acquiring ∨ s.servo.st = .locked
      left ∧ (∀ m, m ≠ i → t.source m = s.source m) ∧
      ((∀ j, j ≠ i → s.isSelected j = false) → ∀ j, t.isSelected j = false) ∧ (t.fault .sourceLost).active = true ∧
      t.servo.st = (if following then .holdover else s.servo.st) ∧
      told s t e.port (if following then max 3 s.floor else s.engineClass) (some e.sender) none why)) ∧
  (∀ (s : State) (why : Reason) (own : Option Nat),
    let t := reevaluate none why own s
    (bestSource s = none → t = s) ∧
    (∀ j b, bestSource s = some (j, b) →
      let waits := s.servo.st = .unset ∧ own = some j
      t.source j = some { b with st := .selected } ∧ (∀ m, m ≠ j → t.source m = s.source m) ∧
      t.servo.st = (if waits then .unset else .acquiring) ∧ (t.fault .sourceLost).active = false ∧
      told s t b.port (if waits then 6 else max 3 s.floor) none (some b.sender) .better)) ∧
  let afresh := fun (v : Servo) => { v with excSign := .none, excCount := 0, lockCtr := 0, unlockCtr := 0 }
  let keeps := fun (s t : State) (inc : Nat) => t.clock = { s.clock with inc := inc, secondEnd := t.clock.secondEnd }
  let pulse := fun (s t : State) =>
    (s.cfg.secLimit < max 3 s.floor → t.clock.secondEnd = none) ∧
    (4 ≤ s.cfg.secLimit → t.clock.secondEnd = s.clock.secondEnd)
  let calm := fun (k : FaultKind) (s : State) => s.setFault k { s.fault k with active := false }
  let state := fun (old new : ServoState) (cls : Nat) => ((none : Option Port), cls, RecBody.state old new cls)
  let cleared := fun (s : State) (k : FaultKind) (port : Option Port) (least : Nat) =>
    if (s.fault k).active = true then [(port, max least (calm k s).floor, RecBody.fault k true (s.response k))] else []
  let filed := fun (s t : State) (more : List (Option Port × Nat × RecBody)) =>
    s.log.mem = .inService → s.log.gap = false → s.log.records.length + 5 ≤ 4096 →
    t.log.records.map (fun r => { r with seq := 0 }) = s.log.records.map (fun r => { r with seq := 0 }) ++
      more.map (fun x => ⟨0, x.1, 0, x.2.1, s.clock.date.sn, x.2.2⟩)
  (∀ (s : State) (i : Nat) (e : SourceEntry) (why : Reason) (own : Option Nat),
    let t := reevaluate (some (i, e)) why own s
    let stays := ∃ now, s.source i = some now ∧ now.st = .selected ∧ selectable s now = true
    let beaten := fun (b : SourceEntry) =>
      ∃ now, s.source i = some now ∧ now.st = .selected ∧ selectable s now = true ∧ b.cls < now.cls
    let following := s.servo.st = .acquiring ∨ s.servo.st = .locked
    let cls := max 3 s.floor
    (∀ j b, bestSource s = some (j, b) → ¬ stays ∨ beaten b →
      t.servo = { afresh s.servo with st := .acquiring } ∧ keeps s t s.clock.inc ∧ pulse s t ∧
      (following → ∀ reason, (beaten b → reason = .better) → (¬ stays → reason = why) →
        filed s t ([(some b.port, cls, .source (some e.sender) (some b.sender) reason)] ++
          (if s.servo.st = .locked then [state .locked .acquiring cls] else []) ++
          cleared s .sourceLost (some b.port) 3))) ∧
    (¬ stays → bestSource s = none →
      let lost := s.setFault .sourceLost { s.fault .sourceLost with active := true }
      let raised := if (s.fault .sourceLost).active = true then [] else
        [(some e.port, max (if following then 3 else s.servoClass) lost.floor,
          RecBody.fault .sourceLost false (s.response .sourceLost))]
      (following →
        t.servo = { afresh s.servo with
          st := .holdover, r := s.servo.f, catchDown := false, holdTimer := 0, expired := false } ∧
        keeps s t (incrementOf s.servo.f) ∧ pulse s t ∧
        filed s t ([(some e.port, cls, .source (some e.sender) none why), state s.servo.st .holdover cls] ++ raised)) ∧
      (¬ following → t.servo = s.servo ∧ keeps s t s.clock.inc ∧
        filed s t ([(some e.port, s.engineClass, .source (some e.sender) none why)] ++ raised)))) ∧
  (∀ (s : State) (why : Reason) (own : Option Nat) (j : Nat) (b : SourceEntry), bestSource s = some (j, b) →
    let t := reevaluate none why own s
    let waits := s.servo.st = .unset ∧ own = some j
    let source := (some b.port, (if waits then 6 else max 3 s.floor), RecBody.source none (some b.sender) .better)
    (waits → t.servo = s.servo ∧ keeps s t s.clock.inc ∧
      filed s t ([source] ++ cleared s .sourceLost (some b.port) 6)) ∧
    (¬ waits →
      let held := s.servo.st = .holdover
      let left := if held then calm .holdoverExpired s else s
      let cls := max 3 left.floor
      t.servo = { afresh s.servo with st := .acquiring, catchDown := false, expired := false } ∧
      keeps s t s.clock.inc ∧ pulse s t ∧
      t.fault .holdoverExpired = left.fault .holdoverExpired ∧
      (s.servo.st = .unset ∨ s.servo.st = .freerun ∨ held →
        filed s t ([source] ++ (if held then cleared s .holdoverExpired none 3 else []) ++
          [state s.servo.st .acquiring cls] ++ cleared left .sourceLost (some b.port) 3))))

/-- A sample in ACQUIRING or LOCKED: its offset, rounded to the nearest ns with halves away from zero and saturated with the far
flag, is recorded; a second excursion behind, or one with a changed epoch, steps the date; a second one ahead starts
catch-down; catch-down lasts while the clock is ahead beyond the threshold; every other sample is filtered and counted toward
lock (R58 to R64). A step that ends catch-down hands r = F to the clock first (log 14), and a sample
ahead in catch-down whose record was not AHEAD makes it AHEAD, 1 (log 34). A step gives its STEP record and empties excursion
record and lock counter; catch-down starts with the forced rate; both move a LOCKED Servo to ACQUIRING, as the unlock count
does, with its STATE record, and the lock count moves it to LOCKED. A sample in UNSET loads the date less its offset, kept within
the range of dates, and moves the Servo to ACQUIRING (R13, R61, R63, R69, R70, R71, R74). That a load beyond the maximum date
gives all three parts of it, and one below (0, 0) keeps the fraction, is log 39. -/
def Obligations.ASampleIsJudgedByItsOffset : Prop :=
  (∀ (x : ServoSample) (s : State), s.servo.st = .acquiring ∨ s.servo.st = .locked →
    let exact : Int := (x.ingress.ns : Int) * 65536 + ((x.ingress.f / 65536 : Nat) : Int) -
      ((x.origin.ns : Int) * 65536 + x.sum + (x.p : Int) + x.asym * 65536)
    let rounded := thetaRounded x
    let theta := max (-999999999) (min 999999999 rounded)
    let bound : Int := s.cfg.servo.stepThreshold
    let noted := fun (sign : ExcSign) (count : Nat) =>
      { s with servo := { s.servo with
        lastTheta := some (theta, decide (theta ≠ rounded)), excSign := sign, excCount := count } }
    let k := max (-4) (min 1 x.k)
    let filtered := fun (t : State) => lockCounting theta (filterUpdate theta k t)
    let second := s.servo.excSign = .behind ∧ 1 ≤ s.servo.excCount
    let behind := noted .behind (if second then 2 else 1)
    let again := s.servo.excSign = .ahead ∧ 1 ≤ s.servo.excCount
    let ahead := noted .ahead (if again then 2 else 1)
    let released := fun (t : State) => { t with servo := { t.servo with catchDown := false } }
    2 * (rounded * 65536 - exact).natAbs ≤ 65536 ∧
    (2 * (rounded * 65536 - exact).natAbs = 65536 → exact.natAbs ≤ (rounded * 65536).natAbs) ∧
    (-bound ≤ theta → theta ≤ bound →
      takeSample x s = filtered (if s.servo.catchDown = true then released (noted .none 0) else noted .none 0)) ∧
    (theta < -bound → s.servo.catchDown = false →
      takeSample x s = if second ∨ x.epochChanged = true then servoStep (-rounded).toNat behind else filtered behind) ∧
    (theta < -bound → s.servo.catchDown = true →
      takeSample x s = if x.epochChanged = true then
        servoStep (-rounded).toNat (handRate s.servo.f (released behind)) else filtered (released behind)) ∧
    (bound < theta → s.servo.catchDown = false →
      takeSample x s = if again then startCatchDown ahead else filtered ahead) ∧
    (bound < theta → s.servo.catchDown = true →
      takeSample x s = { ahead with servo := { ahead.servo with lockCtr := 0 } })) ∧
  let seen := fun (t : State) =>
    if t.cfg.secLimit < t.engineClass then { t with clock := { t.clock with secondEnd := none } } else t
  let moved := fun (old new : ServoState) (t : State) =>
    let u := seen { t with servo := { t.servo with st := new } }
    offerRecord (.plain none (.state old new u.engineClass)) u
  let leave := fun (t : State) =>
    if t.servo.st = .locked then moved .locked .acquiring { t with servo := { t.servo with lockCtr := 0 } } else t
  (∀ (theta : Int) (s : State),
    let within := (theta.natAbs : Int) ≤ s.cfg.servo.lockWindow
    let locks := min 32 (s.servo.lockCtr + 1)
    let unlocks := min 32 (s.servo.unlockCtr + 1)
    let counting := fun (lock unlock : Nat) => { s with servo := { s.servo with lockCtr := lock, unlockCtr := unlock } }
    (s.servo.st = .acquiring →
      (¬ within → lockCounting theta s = counting 0 s.servo.unlockCtr) ∧
      (within → locks < s.cfg.servo.lockCount → lockCounting theta s = counting locks s.servo.unlockCtr) ∧
      (within → s.cfg.servo.lockCount ≤ locks → lockCounting theta s = moved .acquiring .locked (counting locks 0))) ∧
    (s.servo.st = .locked →
      (within → lockCounting theta s = counting s.servo.lockCtr 0) ∧
      (¬ within → unlocks < s.cfg.servo.unlockCount → lockCounting theta s = counting s.servo.lockCtr unlocks) ∧
      (¬ within → s.cfg.servo.unlockCount ≤ unlocks → lockCounting theta s = leave (counting s.servo.lockCtr unlocks)))) ∧
  (∀ (amount : Nat) (s : State),
    let stepped := forwardStep amount s
    let told := offerRecord (.plain none (.step amount stepped.clock.epoch)) stepped
    servoStep amount s = leave { told with servo := { told.servo with excSign := .none, excCount := 0, lockCtr := 0 } }) ∧
  (∀ s : State, startCatchDown s = leave (handRate (-(s.cfg.servo.catchRate * 1024000 : Int))
    { s with servo := { s.servo with catchDown := true, lockCtr := 0 } })) ∧
  (∀ (x : ServoSample) (s : State), s.servo.st = .unset → DateOk s.clock.date →
    let target : Int := s.clock.date.ns - thetaRounded x
    ∃ loaded : Date,
      (target < 0 → loaded = ⟨0, 0, s.clock.date.f⟩) ∧
      (0 ≤ target → target < 281474976710656 * 1000000000 →
        (loaded.ns : Int) = target ∧ loaded.n < 1000000000 ∧ loaded.f = s.clock.date.f) ∧
      (281474976710656 * 1000000000 ≤ target → loaded = ⟨281474976710655, 999999999, 4294967295⟩) ∧
      takeSample x s = moved .unset .acquiring { s with
        clock := { s.clock with date := loaded }
        servo := { s.servo with excSign := .none, excCount := 0, lockCtr := 0, unlockCtr := 0, catchDown := false } })

/-- The filter: e is θ × 1,024 over the interval, saturated; F moves by e over 2^si where that keeps it plausible, else it is
held and FREQ_IMPLAUSIBLE is raised; r is F less e over 2^sp, saturated with SAT set, and is handed to the clock. All shifts
round toward minus infinity (R65, R66, R67, R68). That the raise follows r is log 15. -/
def Obligations.TheFilterSetsIntegralAndRate : Prop :=
  ∀ (theta k : Int) (s : State), -4 ≤ k → k ≤ 1 →
    let e := max (-512000000) (min 512000000 ⌊((theta * 1024 : Int) : Rat) / (2 : Rat) ^ k⌋)
    let f := s.servo.f - ⌊(e : Rat) / (2 : Rat) ^ s.cfg.servo.si⌋
    let limit : Int := s.cfg.servo.plausibility * 1024000
    let update := fun (f : Int) =>
      let wanted := f - ⌊(e : Rat) / (2 : Rat) ^ s.cfg.servo.sp⌋
      let r := max (-512000000) (min 512000000 wanted)
      { s with
        servo := { s.servo with f := f, r := r, sat := s.servo.sat || decide (r ≠ wanted) }
        clock := { s.clock with inc := incrementOf r } }
    (-limit ≤ f ∧ f ≤ limit → filterUpdate theta k s = update f) ∧
    (¬ (-limit ≤ f ∧ f ≤ limit) →
      filterUpdate theta k s = raiseWithHold .freqImplausible .self true .nothing (update s.servo.f))

/-- A vote counts the counting peers, enabled and ACTIVE, whose best offset or known drift lies beyond its limit in its sign;
the rack figure of each is the lower median, the value at position ⌈m/2⌉ in ascending order; so where a vote over values that all
counting peers have shows a majority in a sign, the figure lies beyond the limit in that sign. Over fewer counting peers than
the quorum a re-evaluation neither sets nor clears SELF_DRIFT; over as many, a majority at the full thresholds sets it, and
no majority at the half thresholds clears it. Setting it offers its DRIFT record, of self, with the vote and the figures, then
begins the episode, bars the SELECTED entry for the bar time where the Servo is LOCKED and the bar is on, re-evaluating the
sources with reason BARRED, and then raises SELF_DRIFT; clearing it offers the record with the vote that set it and the figures
of the half thresholds, ends the episode and clears the fault (R52, R177). Stage 2 then judges each counting peer in turn: one not warned, with SELF_DRIFT
clear, is warned beyond a full threshold, with its DRIFT record and a raise of PEER_DRIFT; one warned is cleared within both half
thresholds, with its record (R173 to R176, R178, R179). -/
def Obligations.TheVerdictIsThatOfTheMajority : Prop :=
  (∀ xs : List Int, xs ≠ [] → ∃ v, lowerMedian xs = some v ∧ v ∈ xs ∧
    2 * (xs.filter (fun x => decide (x < v))).length < xs.length ∧
    xs.length ≤ 2 * (xs.filter (fun x => decide (x ≤ v))).length) ∧
  lowerMedian [] = none ∧
  (∀ (s : State) (t d : Nat),
    let v := votes s t d
    let counting := (List.range 32).filter (fun i => (s.peerCfg i).enabled && decide ((s.peer i).st = .active))
    let best := fun (i : Nat) => (s.peer i).best
    let drift := fun (i : Nat) => (s.peer i).drift
    let count := fun (value : Nat → Option Int) (beyond : Int → Bool) =>
      (counting.filter (fun i => (value i).any beyond)).length
    countingPeers s = counting ∧
    v = { n := counting.length
          behindOffset := count best (fun x => decide ((t : Int) < x))
          aheadOffset := count best (fun x => decide (x < -(t : Int)))
          behindDrift := count drift (fun x => decide ((d : Int) < x))
          aheadDrift := count drift (fun x => decide (x < -(d : Int)))
          offsetLimit := t, driftLimit := d
          offsetFigure := lowerMedian (counting.filterMap best), driftFigure := lowerMedian (counting.filterMap drift) } ∧
    ((∀ i, (s.peerCfg i).enabled = true → (s.peer i).st = .active → (s.peer i).best ≠ none) →
      (v.n < 2 * v.behindOffset → ∃ figure, v.offsetFigure = some figure ∧ (t : Int) < figure) ∧
      (v.n < 2 * v.aheadOffset → ∃ figure, v.offsetFigure = some figure ∧ figure < -(t : Int)))) ∧
  (∀ s : State,
    let p := s.cfg.drift
    let full := votes s p.offsetThreshold p.driftThreshold
    let half := votes s (p.offsetThreshold / 2) (p.driftThreshold / 2)
    let majority := fun (v : Verdict) =>
      v.n < 2 * v.behindOffset ∨ v.n < 2 * v.aheadOffset ∨ v.n < 2 * v.behindDrift ∨ v.n < 2 * v.aheadDrift
    (s.drift.episode = none → ¬ (p.quorum ≤ full.n ∧ majority full) →
      judgeSelf s = { s with drift := { s.drift with verdict := full } }) ∧
    (s.drift.episode = none → p.quorum ≤ full.n → majority full →
      ((judgeSelf s).fault .selfDrift).active = true ∧ ∃ e, (judgeSelf s).drift.episode = some e ∧
        e.barCalled = (decide (s.servo.st = .locked) && p.barOn) ∧
        (e.vote = .offset ↔ full.n < 2 * full.behindOffset ∨ full.n < 2 * full.aheadOffset)) ∧
    (s.drift.episode = none → p.quorum ≤ full.n → majority full → 0 < p.barTime →
      let vote : Vote := if full.n < 2 * full.behindOffset ∨ full.n < 2 * full.aheadOffset then .offset else .drift
      let called := decide (s.servo.st = .locked) && p.barOn
      let offset := full.offsetFigure.getD 0
      let told := offerRecord (.plain none (.drift none false vote offset full.driftFigure))
        { s with drift := { s.drift with verdict := full } }
      let begun := { told with drift := { told.drift with episode := some ⟨vote, called⟩ } }
      let barred := match begun.selectedPair with
        | some (i, e) =>
          reevaluate (some (i, e)) .barred none (begun.setSource i (some { e with st := .barred, bar := p.barTime }))
        | none => begun
      judgeSelf s = raiseWithHold .selfDrift .self false ⟨some offset, some full.driftFigure⟩ (if called then barred else begun)) ∧
    (s.drift.episode ≠ none → ¬ (p.quorum ≤ half.n ∧ ¬ majority half) →
      judgeSelf s = { s with drift := { s.drift with verdict := half } }) ∧
    (s.drift.episode ≠ none → p.quorum ≤ half.n → ¬ majority half →
      (judgeSelf s).drift.episode = none ∧ ((judgeSelf s).fault .selfDrift).active = false) ∧
    (∀ e, s.drift.episode = some e → p.quorum ≤ half.n → ¬ majority half →
      let offset := half.offsetFigure.getD 0
      let told := offerRecord (.plain none (.drift none true e.vote offset half.driftFigure))
        { s with drift := { s.drift with verdict := half } }
      judgeSelf s = clearWithHold .selfDrift .self false ⟨some offset, some half.driftFigure⟩
        { told with drift := { told.drift with episode := none } })) ∧
  (∀ (s : State) (i : Nat),
    let d := s.peer i
    let p := s.cfg.drift
    let rack := (s.peerCfg i).rack
    let offset := d.best.getD 0
    let beyond := fun (limit : Nat) => ∃ x, d.drift = some x ∧ limit < x.natAbs
    let record := fun (clear : Bool) (vote : Vote) => Offer.plain d.lastPort (.drift (some rack) clear vote offset d.drift)
    let warned := fun (vote : Vote) => raiseWithHold .peerDrift (.peer rack) false ⟨some offset, some d.drift⟩
      (offerRecord (record false vote) (s.setPeer i { d with warned := some vote }))
    (∀ vote, d.warned = some vote →
      (offset.natAbs ≤ p.offsetThreshold / 2 → ¬ beyond (p.driftThreshold / 2) →
        judgePeer s i = offerRecord (record true vote) (s.setPeer i { d with warned := none })) ∧
      (p.offsetThreshold / 2 < offset.natAbs ∨ beyond (p.driftThreshold / 2) → judgePeer s i = s)) ∧
    (d.warned = none →
      (s.drift.episode ≠ none → judgePeer s i = s) ∧
      (s.drift.episode = none → p.offsetThreshold < offset.natAbs → judgePeer s i = warned .offset) ∧
      (s.drift.episode = none → offset.natAbs ≤ p.offsetThreshold → beyond p.driftThreshold → judgePeer s i = warned .drift) ∧
      (s.drift.episode = none → offset.natAbs ≤ p.offsetThreshold → ¬ beyond p.driftThreshold → judgePeer s i = s))) ∧
  (∀ s : State, judgeRack s = (countingPeers (judgeSelf s)).foldl judgePeer (judgeSelf s))

end Statements
end

