-- ==== Sys2Proof/Laws/State.lean ====
section
/-! SUPPORT. One lemma for each field and each setter of the state, and for reading back what was set in a port, lane or
table. -/

namespace Sys2Proof.Machine

/-! ### Fields of the state under its setters -/

@[simp] theorem State.setPending_pending (s : State) (v : List Instr) : (s.setPending v).pending = v := (rfl)
@[simp] theorem State.setPending_run (s : State) (v : List Instr) : (s.setPending v).run = s.run := (rfl)
@[simp] theorem State.setPending_cfg (s : State) (v : List Instr) : (s.setPending v).cfg = s.cfg := (rfl)
@[simp] theorem State.setPending_clock (s : State) (v : List Instr) : (s.setPending v).clock = s.clock := (rfl)
@[simp] theorem State.setPending_echo (s : State) (v : List Instr) : (s.setPending v).echo = s.echo := (rfl)
@[simp] theorem State.setPending_sources (s : State) (v : List Instr) : (s.setPending v).sources = s.sources := (rfl)
@[simp] theorem State.setPending_servo (s : State) (v : List Instr) : (s.setPending v).servo = s.servo := (rfl)
@[simp] theorem State.setPending_lanes (s : State) (v : List Instr) : (s.setPending v).lanes = s.lanes := (rfl)
@[simp] theorem State.setPending_ports (s : State) (v : List Instr) : (s.setPending v).ports = s.ports := (rfl)
@[simp] theorem State.setPending_matchTab (s : State) (v : List Instr) : (s.setPending v).matchTab = s.matchTab := (rfl)
@[simp] theorem State.setPending_log (s : State) (v : List Instr) : (s.setPending v).log = s.log := (rfl)
@[simp] theorem State.setPending_frozen (s : State) (v : List Instr) : (s.setPending v).frozen = s.frozen := (rfl)
@[simp] theorem State.setPending_drift (s : State) (v : List Instr) : (s.setPending v).drift = s.drift := (rfl)
@[simp] theorem State.setPending_faults (s : State) (v : List Instr) : (s.setPending v).faults = s.faults := (rfl)
@[simp] theorem State.setPending_agent (s : State) (v : List Instr) : (s.setPending v).agent = s.agent := (rfl)

@[simp] theorem State.setRun_pending (s : State) (v : RunState) : (s.setRun v).pending = s.pending := (rfl)
@[simp] theorem State.setRun_run (s : State) (v : RunState) : (s.setRun v).run = v := (rfl)
@[simp] theorem State.setRun_cfg (s : State) (v : RunState) : (s.setRun v).cfg = s.cfg := (rfl)
@[simp] theorem State.setRun_clock (s : State) (v : RunState) : (s.setRun v).clock = s.clock := (rfl)
@[simp] theorem State.setRun_echo (s : State) (v : RunState) : (s.setRun v).echo = s.echo := (rfl)
@[simp] theorem State.setRun_sources (s : State) (v : RunState) : (s.setRun v).sources = s.sources := (rfl)
@[simp] theorem State.setRun_servo (s : State) (v : RunState) : (s.setRun v).servo = s.servo := (rfl)
@[simp] theorem State.setRun_lanes (s : State) (v : RunState) : (s.setRun v).lanes = s.lanes := (rfl)
@[simp] theorem State.setRun_ports (s : State) (v : RunState) : (s.setRun v).ports = s.ports := (rfl)
@[simp] theorem State.setRun_matchTab (s : State) (v : RunState) : (s.setRun v).matchTab = s.matchTab := (rfl)
@[simp] theorem State.setRun_log (s : State) (v : RunState) : (s.setRun v).log = s.log := (rfl)
@[simp] theorem State.setRun_frozen (s : State) (v : RunState) : (s.setRun v).frozen = s.frozen := (rfl)
@[simp] theorem State.setRun_drift (s : State) (v : RunState) : (s.setRun v).drift = s.drift := (rfl)
@[simp] theorem State.setRun_faults (s : State) (v : RunState) : (s.setRun v).faults = s.faults := (rfl)
@[simp] theorem State.setRun_agent (s : State) (v : RunState) : (s.setRun v).agent = s.agent := (rfl)

@[simp] theorem State.setCfg_pending (s : State) (v : Settings) : (s.setCfg v).pending = s.pending := (rfl)
@[simp] theorem State.setCfg_run (s : State) (v : Settings) : (s.setCfg v).run = s.run := (rfl)
@[simp] theorem State.setCfg_cfg (s : State) (v : Settings) : (s.setCfg v).cfg = v := (rfl)
@[simp] theorem State.setCfg_clock (s : State) (v : Settings) : (s.setCfg v).clock = s.clock := (rfl)
@[simp] theorem State.setCfg_echo (s : State) (v : Settings) : (s.setCfg v).echo = s.echo := (rfl)
@[simp] theorem State.setCfg_sources (s : State) (v : Settings) : (s.setCfg v).sources = s.sources := (rfl)
@[simp] theorem State.setCfg_servo (s : State) (v : Settings) : (s.setCfg v).servo = s.servo := (rfl)
@[simp] theorem State.setCfg_lanes (s : State) (v : Settings) : (s.setCfg v).lanes = s.lanes := (rfl)
@[simp] theorem State.setCfg_ports (s : State) (v : Settings) : (s.setCfg v).ports = s.ports := (rfl)
@[simp] theorem State.setCfg_matchTab (s : State) (v : Settings) : (s.setCfg v).matchTab = s.matchTab := (rfl)
@[simp] theorem State.setCfg_log (s : State) (v : Settings) : (s.setCfg v).log = s.log := (rfl)
@[simp] theorem State.setCfg_frozen (s : State) (v : Settings) : (s.setCfg v).frozen = s.frozen := (rfl)
@[simp] theorem State.setCfg_drift (s : State) (v : Settings) : (s.setCfg v).drift = s.drift := (rfl)
@[simp] theorem State.setCfg_faults (s : State) (v : Settings) : (s.setCfg v).faults = s.faults := (rfl)
@[simp] theorem State.setCfg_agent (s : State) (v : Settings) : (s.setCfg v).agent = s.agent := (rfl)

@[simp] theorem State.setClock_pending (s : State) (v : Clock) : (s.setClock v).pending = s.pending := (rfl)
@[simp] theorem State.setClock_run (s : State) (v : Clock) : (s.setClock v).run = s.run := (rfl)
@[simp] theorem State.setClock_cfg (s : State) (v : Clock) : (s.setClock v).cfg = s.cfg := (rfl)
@[simp] theorem State.setClock_clock (s : State) (v : Clock) : (s.setClock v).clock = v := (rfl)
@[simp] theorem State.setClock_echo (s : State) (v : Clock) : (s.setClock v).echo = s.echo := (rfl)
@[simp] theorem State.setClock_sources (s : State) (v : Clock) : (s.setClock v).sources = s.sources := (rfl)
@[simp] theorem State.setClock_servo (s : State) (v : Clock) : (s.setClock v).servo = s.servo := (rfl)
@[simp] theorem State.setClock_lanes (s : State) (v : Clock) : (s.setClock v).lanes = s.lanes := (rfl)
@[simp] theorem State.setClock_ports (s : State) (v : Clock) : (s.setClock v).ports = s.ports := (rfl)
@[simp] theorem State.setClock_matchTab (s : State) (v : Clock) : (s.setClock v).matchTab = s.matchTab := (rfl)
@[simp] theorem State.setClock_log (s : State) (v : Clock) : (s.setClock v).log = s.log := (rfl)
@[simp] theorem State.setClock_frozen (s : State) (v : Clock) : (s.setClock v).frozen = s.frozen := (rfl)
@[simp] theorem State.setClock_drift (s : State) (v : Clock) : (s.setClock v).drift = s.drift := (rfl)
@[simp] theorem State.setClock_faults (s : State) (v : Clock) : (s.setClock v).faults = s.faults := (rfl)
@[simp] theorem State.setClock_agent (s : State) (v : Clock) : (s.setClock v).agent = s.agent := (rfl)

@[simp] theorem State.setEchos_pending (s : State) (v : Pair Echo) : (s.setEchos v).pending = s.pending := (rfl)
@[simp] theorem State.setEchos_run (s : State) (v : Pair Echo) : (s.setEchos v).run = s.run := (rfl)
@[simp] theorem State.setEchos_cfg (s : State) (v : Pair Echo) : (s.setEchos v).cfg = s.cfg := (rfl)
@[simp] theorem State.setEchos_clock (s : State) (v : Pair Echo) : (s.setEchos v).clock = s.clock := (rfl)
@[simp] theorem State.setEchos_echo (s : State) (v : Pair Echo) : (s.setEchos v).echo = v := (rfl)
@[simp] theorem State.setEchos_sources (s : State) (v : Pair Echo) : (s.setEchos v).sources = s.sources := (rfl)
@[simp] theorem State.setEchos_servo (s : State) (v : Pair Echo) : (s.setEchos v).servo = s.servo := (rfl)
@[simp] theorem State.setEchos_lanes (s : State) (v : Pair Echo) : (s.setEchos v).lanes = s.lanes := (rfl)
@[simp] theorem State.setEchos_ports (s : State) (v : Pair Echo) : (s.setEchos v).ports = s.ports := (rfl)
@[simp] theorem State.setEchos_matchTab (s : State) (v : Pair Echo) : (s.setEchos v).matchTab = s.matchTab := (rfl)
@[simp] theorem State.setEchos_log (s : State) (v : Pair Echo) : (s.setEchos v).log = s.log := (rfl)
@[simp] theorem State.setEchos_frozen (s : State) (v : Pair Echo) : (s.setEchos v).frozen = s.frozen := (rfl)
@[simp] theorem State.setEchos_drift (s : State) (v : Pair Echo) : (s.setEchos v).drift = s.drift := (rfl)
@[simp] theorem State.setEchos_faults (s : State) (v : Pair Echo) : (s.setEchos v).faults = s.faults := (rfl)
@[simp] theorem State.setEchos_agent (s : State) (v : Pair Echo) : (s.setEchos v).agent = s.agent := (rfl)

@[simp] theorem State.setSources_pending (s : State) (v : Vector (Option SourceEntry) 8) : (s.setSources v).pending = s.pending := (rfl)
@[simp] theorem State.setSources_run (s : State) (v : Vector (Option SourceEntry) 8) : (s.setSources v).run = s.run := (rfl)
@[simp] theorem State.setSources_cfg (s : State) (v : Vector (Option SourceEntry) 8) : (s.setSources v).cfg = s.cfg := (rfl)
@[simp] theorem State.setSources_clock (s : State) (v : Vector (Option SourceEntry) 8) : (s.setSources v).clock = s.clock := (rfl)
@[simp] theorem State.setSources_echo (s : State) (v : Vector (Option SourceEntry) 8) : (s.setSources v).echo = s.echo := (rfl)
@[simp] theorem State.setSources_sources (s : State) (v : Vector (Option SourceEntry) 8) : (s.setSources v).sources = v := (rfl)
@[simp] theorem State.setSources_servo (s : State) (v : Vector (Option SourceEntry) 8) : (s.setSources v).servo = s.servo := (rfl)
@[simp] theorem State.setSources_lanes (s : State) (v : Vector (Option SourceEntry) 8) : (s.setSources v).lanes = s.lanes := (rfl)
@[simp] theorem State.setSources_ports (s : State) (v : Vector (Option SourceEntry) 8) : (s.setSources v).ports = s.ports := (rfl)
@[simp] theorem State.setSources_matchTab (s : State) (v : Vector (Option SourceEntry) 8) : (s.setSources v).matchTab = s.matchTab := (rfl)
@[simp] theorem State.setSources_log (s : State) (v : Vector (Option SourceEntry) 8) : (s.setSources v).log = s.log := (rfl)
@[simp] theorem State.setSources_frozen (s : State) (v : Vector (Option SourceEntry) 8) : (s.setSources v).frozen = s.frozen := (rfl)
@[simp] theorem State.setSources_drift (s : State) (v : Vector (Option SourceEntry) 8) : (s.setSources v).drift = s.drift := (rfl)
@[simp] theorem State.setSources_faults (s : State) (v : Vector (Option SourceEntry) 8) : (s.setSources v).faults = s.faults := (rfl)
@[simp] theorem State.setSources_agent (s : State) (v : Vector (Option SourceEntry) 8) : (s.setSources v).agent = s.agent := (rfl)

@[simp] theorem State.setServo_pending (s : State) (v : Servo) : (s.setServo v).pending = s.pending := (rfl)
@[simp] theorem State.setServo_run (s : State) (v : Servo) : (s.setServo v).run = s.run := (rfl)
@[simp] theorem State.setServo_cfg (s : State) (v : Servo) : (s.setServo v).cfg = s.cfg := (rfl)
@[simp] theorem State.setServo_clock (s : State) (v : Servo) : (s.setServo v).clock = s.clock := (rfl)
@[simp] theorem State.setServo_echo (s : State) (v : Servo) : (s.setServo v).echo = s.echo := (rfl)
@[simp] theorem State.setServo_sources (s : State) (v : Servo) : (s.setServo v).sources = s.sources := (rfl)
@[simp] theorem State.setServo_servo (s : State) (v : Servo) : (s.setServo v).servo = v := (rfl)
@[simp] theorem State.setServo_lanes (s : State) (v : Servo) : (s.setServo v).lanes = s.lanes := (rfl)
@[simp] theorem State.setServo_ports (s : State) (v : Servo) : (s.setServo v).ports = s.ports := (rfl)
@[simp] theorem State.setServo_matchTab (s : State) (v : Servo) : (s.setServo v).matchTab = s.matchTab := (rfl)
@[simp] theorem State.setServo_log (s : State) (v : Servo) : (s.setServo v).log = s.log := (rfl)
@[simp] theorem State.setServo_frozen (s : State) (v : Servo) : (s.setServo v).frozen = s.frozen := (rfl)
@[simp] theorem State.setServo_drift (s : State) (v : Servo) : (s.setServo v).drift = s.drift := (rfl)
@[simp] theorem State.setServo_faults (s : State) (v : Servo) : (s.setServo v).faults = s.faults := (rfl)
@[simp] theorem State.setServo_agent (s : State) (v : Servo) : (s.setServo v).agent = s.agent := (rfl)

@[simp] theorem State.setLanes_pending (s : State) (v : Pair LaneUnit) : (s.setLanes v).pending = s.pending := (rfl)
@[simp] theorem State.setLanes_run (s : State) (v : Pair LaneUnit) : (s.setLanes v).run = s.run := (rfl)
@[simp] theorem State.setLanes_cfg (s : State) (v : Pair LaneUnit) : (s.setLanes v).cfg = s.cfg := (rfl)
@[simp] theorem State.setLanes_clock (s : State) (v : Pair LaneUnit) : (s.setLanes v).clock = s.clock := (rfl)
@[simp] theorem State.setLanes_echo (s : State) (v : Pair LaneUnit) : (s.setLanes v).echo = s.echo := (rfl)
@[simp] theorem State.setLanes_sources (s : State) (v : Pair LaneUnit) : (s.setLanes v).sources = s.sources := (rfl)
@[simp] theorem State.setLanes_servo (s : State) (v : Pair LaneUnit) : (s.setLanes v).servo = s.servo := (rfl)
@[simp] theorem State.setLanes_lanes (s : State) (v : Pair LaneUnit) : (s.setLanes v).lanes = v := (rfl)
@[simp] theorem State.setLanes_ports (s : State) (v : Pair LaneUnit) : (s.setLanes v).ports = s.ports := (rfl)
@[simp] theorem State.setLanes_matchTab (s : State) (v : Pair LaneUnit) : (s.setLanes v).matchTab = s.matchTab := (rfl)
@[simp] theorem State.setLanes_log (s : State) (v : Pair LaneUnit) : (s.setLanes v).log = s.log := (rfl)
@[simp] theorem State.setLanes_frozen (s : State) (v : Pair LaneUnit) : (s.setLanes v).frozen = s.frozen := (rfl)
@[simp] theorem State.setLanes_drift (s : State) (v : Pair LaneUnit) : (s.setLanes v).drift = s.drift := (rfl)
@[simp] theorem State.setLanes_faults (s : State) (v : Pair LaneUnit) : (s.setLanes v).faults = s.faults := (rfl)
@[simp] theorem State.setLanes_agent (s : State) (v : Pair LaneUnit) : (s.setLanes v).agent = s.agent := (rfl)

@[simp] theorem State.setPorts_pending (s : State) (v : Quad PortUnit) : (s.setPorts v).pending = s.pending := (rfl)
@[simp] theorem State.setPorts_run (s : State) (v : Quad PortUnit) : (s.setPorts v).run = s.run := (rfl)
@[simp] theorem State.setPorts_cfg (s : State) (v : Quad PortUnit) : (s.setPorts v).cfg = s.cfg := (rfl)
@[simp] theorem State.setPorts_clock (s : State) (v : Quad PortUnit) : (s.setPorts v).clock = s.clock := (rfl)
@[simp] theorem State.setPorts_echo (s : State) (v : Quad PortUnit) : (s.setPorts v).echo = s.echo := (rfl)
@[simp] theorem State.setPorts_sources (s : State) (v : Quad PortUnit) : (s.setPorts v).sources = s.sources := (rfl)
@[simp] theorem State.setPorts_servo (s : State) (v : Quad PortUnit) : (s.setPorts v).servo = s.servo := (rfl)
@[simp] theorem State.setPorts_lanes (s : State) (v : Quad PortUnit) : (s.setPorts v).lanes = s.lanes := (rfl)
@[simp] theorem State.setPorts_ports (s : State) (v : Quad PortUnit) : (s.setPorts v).ports = v := (rfl)
@[simp] theorem State.setPorts_matchTab (s : State) (v : Quad PortUnit) : (s.setPorts v).matchTab = s.matchTab := (rfl)
@[simp] theorem State.setPorts_log (s : State) (v : Quad PortUnit) : (s.setPorts v).log = s.log := (rfl)
@[simp] theorem State.setPorts_frozen (s : State) (v : Quad PortUnit) : (s.setPorts v).frozen = s.frozen := (rfl)
@[simp] theorem State.setPorts_drift (s : State) (v : Quad PortUnit) : (s.setPorts v).drift = s.drift := (rfl)
@[simp] theorem State.setPorts_faults (s : State) (v : Quad PortUnit) : (s.setPorts v).faults = s.faults := (rfl)
@[simp] theorem State.setPorts_agent (s : State) (v : Quad PortUnit) : (s.setPorts v).agent = s.agent := (rfl)

@[simp] theorem State.setMatchTab_pending (s : State) (v : MatchTable) : (s.setMatchTab v).pending = s.pending := (rfl)
@[simp] theorem State.setMatchTab_run (s : State) (v : MatchTable) : (s.setMatchTab v).run = s.run := (rfl)
@[simp] theorem State.setMatchTab_cfg (s : State) (v : MatchTable) : (s.setMatchTab v).cfg = s.cfg := (rfl)
@[simp] theorem State.setMatchTab_clock (s : State) (v : MatchTable) : (s.setMatchTab v).clock = s.clock := (rfl)
@[simp] theorem State.setMatchTab_echo (s : State) (v : MatchTable) : (s.setMatchTab v).echo = s.echo := (rfl)
@[simp] theorem State.setMatchTab_sources (s : State) (v : MatchTable) : (s.setMatchTab v).sources = s.sources := (rfl)
@[simp] theorem State.setMatchTab_servo (s : State) (v : MatchTable) : (s.setMatchTab v).servo = s.servo := (rfl)
@[simp] theorem State.setMatchTab_lanes (s : State) (v : MatchTable) : (s.setMatchTab v).lanes = s.lanes := (rfl)
@[simp] theorem State.setMatchTab_ports (s : State) (v : MatchTable) : (s.setMatchTab v).ports = s.ports := (rfl)
@[simp] theorem State.setMatchTab_matchTab (s : State) (v : MatchTable) : (s.setMatchTab v).matchTab = v := (rfl)
@[simp] theorem State.setMatchTab_log (s : State) (v : MatchTable) : (s.setMatchTab v).log = s.log := (rfl)
@[simp] theorem State.setMatchTab_frozen (s : State) (v : MatchTable) : (s.setMatchTab v).frozen = s.frozen := (rfl)
@[simp] theorem State.setMatchTab_drift (s : State) (v : MatchTable) : (s.setMatchTab v).drift = s.drift := (rfl)
@[simp] theorem State.setMatchTab_faults (s : State) (v : MatchTable) : (s.setMatchTab v).faults = s.faults := (rfl)
@[simp] theorem State.setMatchTab_agent (s : State) (v : MatchTable) : (s.setMatchTab v).agent = s.agent := (rfl)

@[simp] theorem State.setLog_pending (s : State) (v : EventLog) : (s.setLog v).pending = s.pending := (rfl)
@[simp] theorem State.setLog_run (s : State) (v : EventLog) : (s.setLog v).run = s.run := (rfl)
@[simp] theorem State.setLog_cfg (s : State) (v : EventLog) : (s.setLog v).cfg = s.cfg := (rfl)
@[simp] theorem State.setLog_clock (s : State) (v : EventLog) : (s.setLog v).clock = s.clock := (rfl)
@[simp] theorem State.setLog_echo (s : State) (v : EventLog) : (s.setLog v).echo = s.echo := (rfl)
@[simp] theorem State.setLog_sources (s : State) (v : EventLog) : (s.setLog v).sources = s.sources := (rfl)
@[simp] theorem State.setLog_servo (s : State) (v : EventLog) : (s.setLog v).servo = s.servo := (rfl)
@[simp] theorem State.setLog_lanes (s : State) (v : EventLog) : (s.setLog v).lanes = s.lanes := (rfl)
@[simp] theorem State.setLog_ports (s : State) (v : EventLog) : (s.setLog v).ports = s.ports := (rfl)
@[simp] theorem State.setLog_matchTab (s : State) (v : EventLog) : (s.setLog v).matchTab = s.matchTab := (rfl)
@[simp] theorem State.setLog_log (s : State) (v : EventLog) : (s.setLog v).log = v := (rfl)
@[simp] theorem State.setLog_frozen (s : State) (v : EventLog) : (s.setLog v).frozen = s.frozen := (rfl)
@[simp] theorem State.setLog_drift (s : State) (v : EventLog) : (s.setLog v).drift = s.drift := (rfl)
@[simp] theorem State.setLog_faults (s : State) (v : EventLog) : (s.setLog v).faults = s.faults := (rfl)
@[simp] theorem State.setLog_agent (s : State) (v : EventLog) : (s.setLog v).agent = s.agent := (rfl)

@[simp] theorem State.setFrozen_pending (s : State) (v : Option Frozen) : (s.setFrozen v).pending = s.pending := (rfl)
@[simp] theorem State.setFrozen_run (s : State) (v : Option Frozen) : (s.setFrozen v).run = s.run := (rfl)
@[simp] theorem State.setFrozen_cfg (s : State) (v : Option Frozen) : (s.setFrozen v).cfg = s.cfg := (rfl)
@[simp] theorem State.setFrozen_clock (s : State) (v : Option Frozen) : (s.setFrozen v).clock = s.clock := (rfl)
@[simp] theorem State.setFrozen_echo (s : State) (v : Option Frozen) : (s.setFrozen v).echo = s.echo := (rfl)
@[simp] theorem State.setFrozen_sources (s : State) (v : Option Frozen) : (s.setFrozen v).sources = s.sources := (rfl)
@[simp] theorem State.setFrozen_servo (s : State) (v : Option Frozen) : (s.setFrozen v).servo = s.servo := (rfl)
@[simp] theorem State.setFrozen_lanes (s : State) (v : Option Frozen) : (s.setFrozen v).lanes = s.lanes := (rfl)
@[simp] theorem State.setFrozen_ports (s : State) (v : Option Frozen) : (s.setFrozen v).ports = s.ports := (rfl)
@[simp] theorem State.setFrozen_matchTab (s : State) (v : Option Frozen) : (s.setFrozen v).matchTab = s.matchTab := (rfl)
@[simp] theorem State.setFrozen_log (s : State) (v : Option Frozen) : (s.setFrozen v).log = s.log := (rfl)
@[simp] theorem State.setFrozen_frozen (s : State) (v : Option Frozen) : (s.setFrozen v).frozen = v := (rfl)
@[simp] theorem State.setFrozen_drift (s : State) (v : Option Frozen) : (s.setFrozen v).drift = s.drift := (rfl)
@[simp] theorem State.setFrozen_faults (s : State) (v : Option Frozen) : (s.setFrozen v).faults = s.faults := (rfl)
@[simp] theorem State.setFrozen_agent (s : State) (v : Option Frozen) : (s.setFrozen v).agent = s.agent := (rfl)

@[simp] theorem State.setDrift_pending (s : State) (v : DriftMonitor) : (s.setDrift v).pending = s.pending := (rfl)
@[simp] theorem State.setDrift_run (s : State) (v : DriftMonitor) : (s.setDrift v).run = s.run := (rfl)
@[simp] theorem State.setDrift_cfg (s : State) (v : DriftMonitor) : (s.setDrift v).cfg = s.cfg := (rfl)
@[simp] theorem State.setDrift_clock (s : State) (v : DriftMonitor) : (s.setDrift v).clock = s.clock := (rfl)
@[simp] theorem State.setDrift_echo (s : State) (v : DriftMonitor) : (s.setDrift v).echo = s.echo := (rfl)
@[simp] theorem State.setDrift_sources (s : State) (v : DriftMonitor) : (s.setDrift v).sources = s.sources := (rfl)
@[simp] theorem State.setDrift_servo (s : State) (v : DriftMonitor) : (s.setDrift v).servo = s.servo := (rfl)
@[simp] theorem State.setDrift_lanes (s : State) (v : DriftMonitor) : (s.setDrift v).lanes = s.lanes := (rfl)
@[simp] theorem State.setDrift_ports (s : State) (v : DriftMonitor) : (s.setDrift v).ports = s.ports := (rfl)
@[simp] theorem State.setDrift_matchTab (s : State) (v : DriftMonitor) : (s.setDrift v).matchTab = s.matchTab := (rfl)
@[simp] theorem State.setDrift_log (s : State) (v : DriftMonitor) : (s.setDrift v).log = s.log := (rfl)
@[simp] theorem State.setDrift_frozen (s : State) (v : DriftMonitor) : (s.setDrift v).frozen = s.frozen := (rfl)
@[simp] theorem State.setDrift_drift (s : State) (v : DriftMonitor) : (s.setDrift v).drift = v := (rfl)
@[simp] theorem State.setDrift_faults (s : State) (v : DriftMonitor) : (s.setDrift v).faults = s.faults := (rfl)
@[simp] theorem State.setDrift_agent (s : State) (v : DriftMonitor) : (s.setDrift v).agent = s.agent := (rfl)

@[simp] theorem State.setFaults_pending (s : State) (v : FaultUnit) : (s.setFaults v).pending = s.pending := (rfl)
@[simp] theorem State.setFaults_run (s : State) (v : FaultUnit) : (s.setFaults v).run = s.run := (rfl)
@[simp] theorem State.setFaults_cfg (s : State) (v : FaultUnit) : (s.setFaults v).cfg = s.cfg := (rfl)
@[simp] theorem State.setFaults_clock (s : State) (v : FaultUnit) : (s.setFaults v).clock = s.clock := (rfl)
@[simp] theorem State.setFaults_echo (s : State) (v : FaultUnit) : (s.setFaults v).echo = s.echo := (rfl)
@[simp] theorem State.setFaults_sources (s : State) (v : FaultUnit) : (s.setFaults v).sources = s.sources := (rfl)
@[simp] theorem State.setFaults_servo (s : State) (v : FaultUnit) : (s.setFaults v).servo = s.servo := (rfl)
@[simp] theorem State.setFaults_lanes (s : State) (v : FaultUnit) : (s.setFaults v).lanes = s.lanes := (rfl)
@[simp] theorem State.setFaults_ports (s : State) (v : FaultUnit) : (s.setFaults v).ports = s.ports := (rfl)
@[simp] theorem State.setFaults_matchTab (s : State) (v : FaultUnit) : (s.setFaults v).matchTab = s.matchTab := (rfl)
@[simp] theorem State.setFaults_log (s : State) (v : FaultUnit) : (s.setFaults v).log = s.log := (rfl)
@[simp] theorem State.setFaults_frozen (s : State) (v : FaultUnit) : (s.setFaults v).frozen = s.frozen := (rfl)
@[simp] theorem State.setFaults_drift (s : State) (v : FaultUnit) : (s.setFaults v).drift = s.drift := (rfl)
@[simp] theorem State.setFaults_faults (s : State) (v : FaultUnit) : (s.setFaults v).faults = v := (rfl)
@[simp] theorem State.setFaults_agent (s : State) (v : FaultUnit) : (s.setFaults v).agent = s.agent := (rfl)

@[simp] theorem State.setAgent_pending (s : State) (v : Agent) : (s.setAgent v).pending = s.pending := (rfl)
@[simp] theorem State.setAgent_run (s : State) (v : Agent) : (s.setAgent v).run = s.run := (rfl)
@[simp] theorem State.setAgent_cfg (s : State) (v : Agent) : (s.setAgent v).cfg = s.cfg := (rfl)
@[simp] theorem State.setAgent_clock (s : State) (v : Agent) : (s.setAgent v).clock = s.clock := (rfl)
@[simp] theorem State.setAgent_echo (s : State) (v : Agent) : (s.setAgent v).echo = s.echo := (rfl)
@[simp] theorem State.setAgent_sources (s : State) (v : Agent) : (s.setAgent v).sources = s.sources := (rfl)
@[simp] theorem State.setAgent_servo (s : State) (v : Agent) : (s.setAgent v).servo = s.servo := (rfl)
@[simp] theorem State.setAgent_lanes (s : State) (v : Agent) : (s.setAgent v).lanes = s.lanes := (rfl)
@[simp] theorem State.setAgent_ports (s : State) (v : Agent) : (s.setAgent v).ports = s.ports := (rfl)
@[simp] theorem State.setAgent_matchTab (s : State) (v : Agent) : (s.setAgent v).matchTab = s.matchTab := (rfl)
@[simp] theorem State.setAgent_log (s : State) (v : Agent) : (s.setAgent v).log = s.log := (rfl)
@[simp] theorem State.setAgent_frozen (s : State) (v : Agent) : (s.setAgent v).frozen = s.frozen := (rfl)
@[simp] theorem State.setAgent_drift (s : State) (v : Agent) : (s.setAgent v).drift = s.drift := (rfl)
@[simp] theorem State.setAgent_faults (s : State) (v : Agent) : (s.setAgent v).faults = s.faults := (rfl)
@[simp] theorem State.setAgent_agent (s : State) (v : Agent) : (s.setAgent v).agent = v := (rfl)

/-! ### Ports, lanes and pairs -/

@[simp] theorem Quad.get_set_same {α : Type} (q : Quad α) (p : Port) (v : α) : (q.set p v).get p = v := by cases p <;> rfl

theorem Quad.get_set_other {α : Type} (q : Quad α) (p r : Port) (v : α) (h : r ≠ p) : (q.set p v).get r = q.get r := by
  cases p <;> cases r <;> first | rfl | exact absurd rfl h

@[simp] theorem Quad.get_all {α : Type} (v : α) (p : Port) : (Quad.all v).get p = v := by cases p <;> rfl

@[simp] theorem Quad.get_map {α β : Type} (q : Quad α) (f : α → β) (p : Port) : (q.map f).get p = f (q.get p) := by
  cases p <;> rfl

@[simp] theorem Pair.get_set_same {α : Type} (q : Pair α) (l : Lane) (v : α) : (q.set l v).get l = v := by cases l <;> rfl

theorem Pair.get_set_other {α : Type} (q : Pair α) (l m : Lane) (v : α) (h : m ≠ l) : (q.set l v).get m = q.get m := by
  cases l <;> cases m <;> first | rfl | exact absurd rfl h

@[simp] theorem State.port_setPort_same (s : State) (p : Port) (u : PortUnit) : (s.setPort p u).port p = u := by
  simp [State.port, State.setPort]

theorem State.port_setPort_other (s : State) (p r : Port) (u : PortUnit) (h : r ≠ p) : (s.setPort p u).port r = s.port r := by
  simp [State.port, State.setPort, Quad.get_set_other _ _ _ _ h]

@[simp] theorem State.echoOf_setEcho_same (s : State) (p : Port) (e : Echo) : (s.setEcho p e).echoOf p = e := by
  simp [State.echoOf, State.setEcho]

@[simp] theorem State.lane_setLane_same (s : State) (l : Lane) (u : LaneUnit) : (s.setLane l u).lane l = u := by
  simp [State.lane, State.setLane]

@[simp] theorem Port.partner_partner (p : Port) : p.partner.partner = p := by cases p <;> rfl

theorem Port.partner_ne (p : Port) : p.partner ≠ p := by cases p <;> decide

/-! ### Fields of the state under the setters of one port, echo record, lane, source, peer, fault or form -/

@[simp] theorem State.setPort_pending (s : State) (p : Port) (u : PortUnit) : (s.setPort p u).pending = s.pending := (rfl)
@[simp] theorem State.setPort_run (s : State) (p : Port) (u : PortUnit) : (s.setPort p u).run = s.run := (rfl)
@[simp] theorem State.setPort_cfg (s : State) (p : Port) (u : PortUnit) : (s.setPort p u).cfg = s.cfg := (rfl)
@[simp] theorem State.setPort_clock (s : State) (p : Port) (u : PortUnit) : (s.setPort p u).clock = s.clock := (rfl)
@[simp] theorem State.setPort_echo (s : State) (p : Port) (u : PortUnit) : (s.setPort p u).echo = s.echo := (rfl)
@[simp] theorem State.setPort_sources (s : State) (p : Port) (u : PortUnit) : (s.setPort p u).sources = s.sources := (rfl)
@[simp] theorem State.setPort_servo (s : State) (p : Port) (u : PortUnit) : (s.setPort p u).servo = s.servo := (rfl)
@[simp] theorem State.setPort_lanes (s : State) (p : Port) (u : PortUnit) : (s.setPort p u).lanes = s.lanes := (rfl)
@[simp] theorem State.setPort_matchTab (s : State) (p : Port) (u : PortUnit) : (s.setPort p u).matchTab = s.matchTab := (rfl)
@[simp] theorem State.setPort_log (s : State) (p : Port) (u : PortUnit) : (s.setPort p u).log = s.log := (rfl)
@[simp] theorem State.setPort_frozen (s : State) (p : Port) (u : PortUnit) : (s.setPort p u).frozen = s.frozen := (rfl)
@[simp] theorem State.setPort_drift (s : State) (p : Port) (u : PortUnit) : (s.setPort p u).drift = s.drift := (rfl)
@[simp] theorem State.setPort_faults (s : State) (p : Port) (u : PortUnit) : (s.setPort p u).faults = s.faults := (rfl)
@[simp] theorem State.setPort_agent (s : State) (p : Port) (u : PortUnit) : (s.setPort p u).agent = s.agent := (rfl)

@[simp] theorem State.count_pending (s : State) (p : Port) (f : Stats → Stats) : (s.count p f).pending = s.pending := (rfl)
@[simp] theorem State.count_run (s : State) (p : Port) (f : Stats → Stats) : (s.count p f).run = s.run := (rfl)
@[simp] theorem State.count_cfg (s : State) (p : Port) (f : Stats → Stats) : (s.count p f).cfg = s.cfg := (rfl)
@[simp] theorem State.count_clock (s : State) (p : Port) (f : Stats → Stats) : (s.count p f).clock = s.clock := (rfl)
@[simp] theorem State.count_echo (s : State) (p : Port) (f : Stats → Stats) : (s.count p f).echo = s.echo := (rfl)
@[simp] theorem State.count_sources (s : State) (p : Port) (f : Stats → Stats) : (s.count p f).sources = s.sources := (rfl)
@[simp] theorem State.count_servo (s : State) (p : Port) (f : Stats → Stats) : (s.count p f).servo = s.servo := (rfl)
@[simp] theorem State.count_lanes (s : State) (p : Port) (f : Stats → Stats) : (s.count p f).lanes = s.lanes := (rfl)
@[simp] theorem State.count_matchTab (s : State) (p : Port) (f : Stats → Stats) : (s.count p f).matchTab = s.matchTab := (rfl)
@[simp] theorem State.count_log (s : State) (p : Port) (f : Stats → Stats) : (s.count p f).log = s.log := (rfl)
@[simp] theorem State.count_frozen (s : State) (p : Port) (f : Stats → Stats) : (s.count p f).frozen = s.frozen := (rfl)
@[simp] theorem State.count_drift (s : State) (p : Port) (f : Stats → Stats) : (s.count p f).drift = s.drift := (rfl)
@[simp] theorem State.count_faults (s : State) (p : Port) (f : Stats → Stats) : (s.count p f).faults = s.faults := (rfl)
@[simp] theorem State.count_agent (s : State) (p : Port) (f : Stats → Stats) : (s.count p f).agent = s.agent := (rfl)

@[simp] theorem State.setEcho_pending (s : State) (p : Port) (e : Echo) : (s.setEcho p e).pending = s.pending := (rfl)
@[simp] theorem State.setEcho_run (s : State) (p : Port) (e : Echo) : (s.setEcho p e).run = s.run := (rfl)
@[simp] theorem State.setEcho_cfg (s : State) (p : Port) (e : Echo) : (s.setEcho p e).cfg = s.cfg := (rfl)
@[simp] theorem State.setEcho_clock (s : State) (p : Port) (e : Echo) : (s.setEcho p e).clock = s.clock := (rfl)
@[simp] theorem State.setEcho_sources (s : State) (p : Port) (e : Echo) : (s.setEcho p e).sources = s.sources := (rfl)
@[simp] theorem State.setEcho_servo (s : State) (p : Port) (e : Echo) : (s.setEcho p e).servo = s.servo := (rfl)
@[simp] theorem State.setEcho_lanes (s : State) (p : Port) (e : Echo) : (s.setEcho p e).lanes = s.lanes := (rfl)
@[simp] theorem State.setEcho_ports (s : State) (p : Port) (e : Echo) : (s.setEcho p e).ports = s.ports := (rfl)
@[simp] theorem State.setEcho_matchTab (s : State) (p : Port) (e : Echo) : (s.setEcho p e).matchTab = s.matchTab := (rfl)
@[simp] theorem State.setEcho_log (s : State) (p : Port) (e : Echo) : (s.setEcho p e).log = s.log := (rfl)
@[simp] theorem State.setEcho_frozen (s : State) (p : Port) (e : Echo) : (s.setEcho p e).frozen = s.frozen := (rfl)
@[simp] theorem State.setEcho_drift (s : State) (p : Port) (e : Echo) : (s.setEcho p e).drift = s.drift := (rfl)
@[simp] theorem State.setEcho_faults (s : State) (p : Port) (e : Echo) : (s.setEcho p e).faults = s.faults := (rfl)
@[simp] theorem State.setEcho_agent (s : State) (p : Port) (e : Echo) : (s.setEcho p e).agent = s.agent := (rfl)

@[simp] theorem State.setLane_pending (s : State) (l : Lane) (u : LaneUnit) : (s.setLane l u).pending = s.pending := (rfl)
@[simp] theorem State.setLane_run (s : State) (l : Lane) (u : LaneUnit) : (s.setLane l u).run = s.run := (rfl)
@[simp] theorem State.setLane_cfg (s : State) (l : Lane) (u : LaneUnit) : (s.setLane l u).cfg = s.cfg := (rfl)
@[simp] theorem State.setLane_clock (s : State) (l : Lane) (u : LaneUnit) : (s.setLane l u).clock = s.clock := (rfl)
@[simp] theorem State.setLane_echo (s : State) (l : Lane) (u : LaneUnit) : (s.setLane l u).echo = s.echo := (rfl)
@[simp] theorem State.setLane_sources (s : State) (l : Lane) (u : LaneUnit) : (s.setLane l u).sources = s.sources := (rfl)
@[simp] theorem State.setLane_servo (s : State) (l : Lane) (u : LaneUnit) : (s.setLane l u).servo = s.servo := (rfl)
@[simp] theorem State.setLane_ports (s : State) (l : Lane) (u : LaneUnit) : (s.setLane l u).ports = s.ports := (rfl)
@[simp] theorem State.setLane_matchTab (s : State) (l : Lane) (u : LaneUnit) : (s.setLane l u).matchTab = s.matchTab := (rfl)
@[simp] theorem State.setLane_log (s : State) (l : Lane) (u : LaneUnit) : (s.setLane l u).log = s.log := (rfl)
@[simp] theorem State.setLane_frozen (s : State) (l : Lane) (u : LaneUnit) : (s.setLane l u).frozen = s.frozen := (rfl)
@[simp] theorem State.setLane_drift (s : State) (l : Lane) (u : LaneUnit) : (s.setLane l u).drift = s.drift := (rfl)
@[simp] theorem State.setLane_faults (s : State) (l : Lane) (u : LaneUnit) : (s.setLane l u).faults = s.faults := (rfl)
@[simp] theorem State.setLane_agent (s : State) (l : Lane) (u : LaneUnit) : (s.setLane l u).agent = s.agent := (rfl)

@[simp] theorem State.setSource_pending (s : State) (i : Nat) (e : Option SourceEntry) : (s.setSource i e).pending = s.pending := (rfl)
@[simp] theorem State.setSource_run (s : State) (i : Nat) (e : Option SourceEntry) : (s.setSource i e).run = s.run := (rfl)
@[simp] theorem State.setSource_cfg (s : State) (i : Nat) (e : Option SourceEntry) : (s.setSource i e).cfg = s.cfg := (rfl)
@[simp] theorem State.setSource_clock (s : State) (i : Nat) (e : Option SourceEntry) : (s.setSource i e).clock = s.clock := (rfl)
@[simp] theorem State.setSource_echo (s : State) (i : Nat) (e : Option SourceEntry) : (s.setSource i e).echo = s.echo := (rfl)
@[simp] theorem State.setSource_servo (s : State) (i : Nat) (e : Option SourceEntry) : (s.setSource i e).servo = s.servo := (rfl)
@[simp] theorem State.setSource_lanes (s : State) (i : Nat) (e : Option SourceEntry) : (s.setSource i e).lanes = s.lanes := (rfl)
@[simp] theorem State.setSource_ports (s : State) (i : Nat) (e : Option SourceEntry) : (s.setSource i e).ports = s.ports := (rfl)
@[simp] theorem State.setSource_matchTab (s : State) (i : Nat) (e : Option SourceEntry) : (s.setSource i e).matchTab = s.matchTab := (rfl)
@[simp] theorem State.setSource_log (s : State) (i : Nat) (e : Option SourceEntry) : (s.setSource i e).log = s.log := (rfl)
@[simp] theorem State.setSource_frozen (s : State) (i : Nat) (e : Option SourceEntry) : (s.setSource i e).frozen = s.frozen := (rfl)
@[simp] theorem State.setSource_drift (s : State) (i : Nat) (e : Option SourceEntry) : (s.setSource i e).drift = s.drift := (rfl)
@[simp] theorem State.setSource_faults (s : State) (i : Nat) (e : Option SourceEntry) : (s.setSource i e).faults = s.faults := (rfl)
@[simp] theorem State.setSource_agent (s : State) (i : Nat) (e : Option SourceEntry) : (s.setSource i e).agent = s.agent := (rfl)

@[simp] theorem State.setPeer_pending (s : State) (i : Nat) (e : PeerDyn) : (s.setPeer i e).pending = s.pending := (rfl)
@[simp] theorem State.setPeer_run (s : State) (i : Nat) (e : PeerDyn) : (s.setPeer i e).run = s.run := (rfl)
@[simp] theorem State.setPeer_cfg (s : State) (i : Nat) (e : PeerDyn) : (s.setPeer i e).cfg = s.cfg := (rfl)
@[simp] theorem State.setPeer_clock (s : State) (i : Nat) (e : PeerDyn) : (s.setPeer i e).clock = s.clock := (rfl)
@[simp] theorem State.setPeer_echo (s : State) (i : Nat) (e : PeerDyn) : (s.setPeer i e).echo = s.echo := (rfl)
@[simp] theorem State.setPeer_sources (s : State) (i : Nat) (e : PeerDyn) : (s.setPeer i e).sources = s.sources := (rfl)
@[simp] theorem State.setPeer_servo (s : State) (i : Nat) (e : PeerDyn) : (s.setPeer i e).servo = s.servo := (rfl)
@[simp] theorem State.setPeer_lanes (s : State) (i : Nat) (e : PeerDyn) : (s.setPeer i e).lanes = s.lanes := (rfl)
@[simp] theorem State.setPeer_ports (s : State) (i : Nat) (e : PeerDyn) : (s.setPeer i e).ports = s.ports := (rfl)
@[simp] theorem State.setPeer_matchTab (s : State) (i : Nat) (e : PeerDyn) : (s.setPeer i e).matchTab = s.matchTab := (rfl)
@[simp] theorem State.setPeer_log (s : State) (i : Nat) (e : PeerDyn) : (s.setPeer i e).log = s.log := (rfl)
@[simp] theorem State.setPeer_frozen (s : State) (i : Nat) (e : PeerDyn) : (s.setPeer i e).frozen = s.frozen := (rfl)
@[simp] theorem State.setPeer_faults (s : State) (i : Nat) (e : PeerDyn) : (s.setPeer i e).faults = s.faults := (rfl)
@[simp] theorem State.setPeer_agent (s : State) (i : Nat) (e : PeerDyn) : (s.setPeer i e).agent = s.agent := (rfl)

@[simp] theorem State.setFault_pending (s : State) (k : FaultKind) (r : FaultRec) : (s.setFault k r).pending = s.pending := (rfl)
@[simp] theorem State.setFault_run (s : State) (k : FaultKind) (r : FaultRec) : (s.setFault k r).run = s.run := (rfl)
@[simp] theorem State.setFault_cfg (s : State) (k : FaultKind) (r : FaultRec) : (s.setFault k r).cfg = s.cfg := (rfl)
@[simp] theorem State.setFault_clock (s : State) (k : FaultKind) (r : FaultRec) : (s.setFault k r).clock = s.clock := (rfl)
@[simp] theorem State.setFault_echo (s : State) (k : FaultKind) (r : FaultRec) : (s.setFault k r).echo = s.echo := (rfl)
@[simp] theorem State.setFault_sources (s : State) (k : FaultKind) (r : FaultRec) : (s.setFault k r).sources = s.sources := (rfl)
@[simp] theorem State.setFault_servo (s : State) (k : FaultKind) (r : FaultRec) : (s.setFault k r).servo = s.servo := (rfl)
@[simp] theorem State.setFault_lanes (s : State) (k : FaultKind) (r : FaultRec) : (s.setFault k r).lanes = s.lanes := (rfl)
@[simp] theorem State.setFault_ports (s : State) (k : FaultKind) (r : FaultRec) : (s.setFault k r).ports = s.ports := (rfl)
@[simp] theorem State.setFault_matchTab (s : State) (k : FaultKind) (r : FaultRec) : (s.setFault k r).matchTab = s.matchTab := (rfl)
@[simp] theorem State.setFault_log (s : State) (k : FaultKind) (r : FaultRec) : (s.setFault k r).log = s.log := (rfl)
@[simp] theorem State.setFault_frozen (s : State) (k : FaultKind) (r : FaultRec) : (s.setFault k r).frozen = s.frozen := (rfl)
@[simp] theorem State.setFault_drift (s : State) (k : FaultKind) (r : FaultRec) : (s.setFault k r).drift = s.drift := (rfl)
@[simp] theorem State.setFault_agent (s : State) (k : FaultKind) (r : FaultRec) : (s.setFault k r).agent = s.agent := (rfl)

@[simp] theorem State.setForm_pending (s : State) (a : AlertForm) (v : FormState) : (s.setForm a v).pending = s.pending := (rfl)
@[simp] theorem State.setForm_run (s : State) (a : AlertForm) (v : FormState) : (s.setForm a v).run = s.run := (rfl)
@[simp] theorem State.setForm_cfg (s : State) (a : AlertForm) (v : FormState) : (s.setForm a v).cfg = s.cfg := (rfl)
@[simp] theorem State.setForm_clock (s : State) (a : AlertForm) (v : FormState) : (s.setForm a v).clock = s.clock := (rfl)
@[simp] theorem State.setForm_echo (s : State) (a : AlertForm) (v : FormState) : (s.setForm a v).echo = s.echo := (rfl)
@[simp] theorem State.setForm_sources (s : State) (a : AlertForm) (v : FormState) : (s.setForm a v).sources = s.sources := (rfl)
@[simp] theorem State.setForm_servo (s : State) (a : AlertForm) (v : FormState) : (s.setForm a v).servo = s.servo := (rfl)
@[simp] theorem State.setForm_lanes (s : State) (a : AlertForm) (v : FormState) : (s.setForm a v).lanes = s.lanes := (rfl)
@[simp] theorem State.setForm_ports (s : State) (a : AlertForm) (v : FormState) : (s.setForm a v).ports = s.ports := (rfl)
@[simp] theorem State.setForm_matchTab (s : State) (a : AlertForm) (v : FormState) : (s.setForm a v).matchTab = s.matchTab := (rfl)
@[simp] theorem State.setForm_log (s : State) (a : AlertForm) (v : FormState) : (s.setForm a v).log = s.log := (rfl)
@[simp] theorem State.setForm_frozen (s : State) (a : AlertForm) (v : FormState) : (s.setForm a v).frozen = s.frozen := (rfl)
@[simp] theorem State.setForm_drift (s : State) (a : AlertForm) (v : FormState) : (s.setForm a v).drift = s.drift := (rfl)
@[simp] theorem State.setForm_agent (s : State) (a : AlertForm) (v : FormState) : (s.setForm a v).agent = s.agent := (rfl)

/-! ### Waiting reports that lose their record -/

@[simp] theorem voidReports_pending (i : Nat) (s : State) : (voidReports i s).pending = s.pending := (rfl)
@[simp] theorem voidReports_run (i : Nat) (s : State) : (voidReports i s).run = s.run := (rfl)
@[simp] theorem voidReports_cfg (i : Nat) (s : State) : (voidReports i s).cfg = s.cfg := (rfl)
@[simp] theorem voidReports_clock (i : Nat) (s : State) : (voidReports i s).clock = s.clock := (rfl)
@[simp] theorem voidReports_echo (i : Nat) (s : State) : (voidReports i s).echo = s.echo := (rfl)
@[simp] theorem voidReports_sources (i : Nat) (s : State) : (voidReports i s).sources = s.sources := (rfl)
@[simp] theorem voidReports_servo (i : Nat) (s : State) : (voidReports i s).servo = s.servo := (rfl)
@[simp] theorem voidReports_lanes (i : Nat) (s : State) : (voidReports i s).lanes = s.lanes := (rfl)
@[simp] theorem voidReports_matchTab (i : Nat) (s : State) : (voidReports i s).matchTab = s.matchTab := (rfl)
@[simp] theorem voidReports_log (i : Nat) (s : State) : (voidReports i s).log = s.log := (rfl)
@[simp] theorem voidReports_frozen (i : Nat) (s : State) : (voidReports i s).frozen = s.frozen := (rfl)
@[simp] theorem voidReports_drift (i : Nat) (s : State) : (voidReports i s).drift = s.drift := (rfl)
@[simp] theorem voidReports_faults (i : Nat) (s : State) : (voidReports i s).faults = s.faults := (rfl)
@[simp] theorem voidReports_agent (i : Nat) (s : State) : (voidReports i s).agent = s.agent := (rfl)

/-- A waiting report that loses its record keeps its bytes and its place. -/
theorem voidTag_header (i : Nat) (q : QFrame) :
    (voidTag i q).header = q.header ∧ (voidTag i q).bytes = q.bytes ∧ (voidTag i q).joined = q.joined := by
  unfold voidTag
  (repeat' split) <;> exact ⟨rfl, rfl, rfl⟩

end Sys2Proof.Machine
end

