-- ==== Sys2Proof/Laws/Frames.lean ====
section
/-! SUPPORT. Frames of the shared operations: what a block's work leaves unchanged. The anchor of a state is its queue, run
state, date, uptime, step epoch and last stamp. -/

namespace Sys2Proof.Machine

/-- The queue, the run state, and the clock's date, uptime, epoch and last stamp. -/
structure Anchor where
  pending : List Instr
  run : RunState
  date : Date
  up : Nat
  epoch : Nat
  lastStamp : Option SN
  deriving DecidableEq, Repr

def State.anchor (s : State) : Anchor := ⟨s.pending, s.run, s.clock.date, s.clock.up, s.clock.epoch, s.clock.lastStamp⟩

theorem anchor_pending {s t : State} (h : t.anchor = s.anchor) : t.pending = s.pending := congrArg Anchor.pending h
theorem anchor_run {s t : State} (h : t.anchor = s.anchor) : t.run = s.run := congrArg Anchor.run h
theorem anchor_date {s t : State} (h : t.anchor = s.anchor) : t.clock.date = s.clock.date := congrArg Anchor.date h
theorem anchor_up {s t : State} (h : t.anchor = s.anchor) : t.clock.up = s.clock.up := congrArg Anchor.up h
theorem anchor_epoch {s t : State} (h : t.anchor = s.anchor) : t.clock.epoch = s.clock.epoch := congrArg Anchor.epoch h
theorem anchor_lastStamp {s t : State} (h : t.anchor = s.anchor) : t.clock.lastStamp = s.clock.lastStamp :=
  congrArg Anchor.lastStamp h

/-- A fold of steps that each keep the anchor keeps it. -/
theorem foldl_anchor {α : Type} (f : State → α → State) (h : ∀ t a, (f t a).anchor = t.anchor) (s : State) (l : List α) :
    (l.foldl f s).anchor = s.anchor := by
  induction l generalizing s with
  | nil => rfl
  | cons a rest ih => rw [List.foldl_cons, ih, h]

@[simp] theorem anchor_setCfg (s : State) (v : Settings) : (s.setCfg v).anchor = s.anchor := (rfl)
@[simp] theorem anchor_setEchos (s : State) (v : Pair Echo) : (s.setEchos v).anchor = s.anchor := (rfl)
@[simp] theorem anchor_setSources (s : State) (v : Vector (Option SourceEntry) 8) : (s.setSources v).anchor = s.anchor := (rfl)
@[simp] theorem anchor_setServo (s : State) (v : Servo) : (s.setServo v).anchor = s.anchor := (rfl)
@[simp] theorem anchor_setLanes (s : State) (v : Pair LaneUnit) : (s.setLanes v).anchor = s.anchor := (rfl)
@[simp] theorem anchor_setPorts (s : State) (v : Quad PortUnit) : (s.setPorts v).anchor = s.anchor := (rfl)
@[simp] theorem anchor_setMatchTab (s : State) (v : MatchTable) : (s.setMatchTab v).anchor = s.anchor := (rfl)
@[simp] theorem anchor_setLog (s : State) (v : EventLog) : (s.setLog v).anchor = s.anchor := (rfl)
@[simp] theorem anchor_setFrozen (s : State) (v : Option Frozen) : (s.setFrozen v).anchor = s.anchor := (rfl)
@[simp] theorem anchor_setDrift (s : State) (v : DriftMonitor) : (s.setDrift v).anchor = s.anchor := (rfl)
@[simp] theorem anchor_setFaults (s : State) (v : FaultUnit) : (s.setFaults v).anchor = s.anchor := (rfl)
@[simp] theorem anchor_setAgent (s : State) (v : Agent) : (s.setAgent v).anchor = s.anchor := (rfl)
@[simp] theorem anchor_setPort (s : State) (p : Port) (u : PortUnit) : (s.setPort p u).anchor = s.anchor := (rfl)
@[simp] theorem anchor_count (s : State) (p : Port) (f : Stats → Stats) : (s.count p f).anchor = s.anchor := (rfl)
@[simp] theorem anchor_setEcho (s : State) (p : Port) (e : Echo) : (s.setEcho p e).anchor = s.anchor := (rfl)
@[simp] theorem anchor_setLane (s : State) (l : Lane) (u : LaneUnit) : (s.setLane l u).anchor = s.anchor := (rfl)
@[simp] theorem anchor_setSource (s : State) (i : Nat) (e : Option SourceEntry) : (s.setSource i e).anchor = s.anchor := (rfl)
@[simp] theorem anchor_setPeer (s : State) (i : Nat) (e : PeerDyn) : (s.setPeer i e).anchor = s.anchor := (rfl)
@[simp] theorem anchor_setFault (s : State) (k : FaultKind) (r : FaultRec) : (s.setFault k r).anchor = s.anchor := (rfl)
@[simp] theorem anchor_setForm (s : State) (a : AlertForm) (v : FormState) : (s.setForm a v).anchor = s.anchor := (rfl)

@[simp] theorem anchor_watchSecond (s : State) :
    (watchSecond s).anchor = s.anchor := by
  simp only [watchSecond]
  (repeat' split) <;> simp [State.anchor]

@[simp] theorem anchor_judgePulse (d : Option Nat) (s : State) :
    (judgePulse d s).anchor = s.anchor := by rw [judgePulse, anchor_watchSecond]; rfl

@[simp] theorem anchor_admitFrame (p : Port) (need : Nat) (f : FwdFrame) (s : State) :
    (admitFrame p need f s).1.anchor = s.anchor := by
  simp only [admitFrame]
  (repeat' split) <;> simp

@[simp] theorem anchor_offerTiming (p : Port) (tag : OrigTag) (header : Nat) (bytes : List Byte) (s : State) :
    (offerTiming p tag header bytes s).1.anchor = s.anchor := by
  simp only [offerTiming]
  (repeat' split) <;> simp

@[simp] theorem anchor_offerGeneral (p : Port) (tag : OrigTag) (header : Nat) (bytes : List Byte) (s : State) :
    (offerGeneral p tag header bytes s).1.anchor = s.anchor := by
  simp only [offerGeneral]
  (repeat' split) <;> simp

@[simp] theorem anchor_askPassesEgress (p : Port) (id : Nat) (s : State) :
    (askPassesEgress p id s).anchor = s.anchor := by
  simp only [askPassesEgress]
  (repeat' split) <;> simp

@[simp] theorem anchor_reportPassesEgress (i : Nat) (rack ip : BitVec 32) (s : State) :
    (reportPassesEgress i rack ip s).anchor = s.anchor := by
  simp only [reportPassesEgress]
  (repeat' split) <;> simp

@[simp] theorem anchor_recordEgress (p : Port) (tag : OrigTag) (s : State) :
    (recordEgress p tag s).anchor = s.anchor := by
  simp only [recordEgress]
  (repeat' split) <;> simp

@[simp] theorem anchor_grantQueued (p : Port) (o : TxFrom) (q : QFrame) (s : State) :
    (grantQueued p o q s).anchor = s.anchor := by simp [grantQueued]

@[simp] theorem anchor_grantForwarded (p : Port) (f : FwdFrame) (s : State) :
    (grantForwarded p f s).anchor = s.anchor := by simp [grantForwarded]

@[simp] theorem anchor_arbitrate (p : Port) (s : State) :
    (arbitrate p s).anchor = s.anchor := by
  simp only [arbitrate]
  (repeat' split) <;> simp

@[simp] theorem anchor_finishTx (p : Port) (t : Tx) (s : State) :
    (finishTx p t s).anchor = s.anchor := by
  simp only [finishTx]
  (repeat' split) <;> simp

@[simp] theorem anchor_suppressAlert (a : AlertForm) (s : State) :
    (suppressAlert a s).anchor = s.anchor := by simp [suppressAlert]

@[simp] theorem anchor_alertEvent (a : AlertForm) (clear : Bool) (subject : Subject) (d : AlertData) (s : State) :
    (alertEvent a clear subject d s).anchor = s.anchor := by
  simp only [alertEvent]
  (repeat' split) <;> simp

@[simp] theorem anchor_levelNotice (s : State) :
    (levelNotice s).anchor = s.anchor := by
  simp only [levelNotice]
  (repeat' split) <;> simp

@[simp] theorem anchor_offerBare (o : Offer) (s : State) :
    (offerBare o s).1.anchor = s.anchor := by
  simp only [offerBare]
  (repeat' split) <;> simp

@[simp] theorem anchor_activate (k : FaultKind) (subject : Subject) (s : State) :
    (activate k subject s).anchor = s.anchor := by simp [activate]

@[simp] theorem anchor_countRaise (k : FaultKind) (s : State) :
    (countRaise k s).anchor = s.anchor := by simp [countRaise]

@[simp] theorem anchor_deactivate (k : FaultKind) (s : State) :
    (deactivate k s).anchor = s.anchor := by simp [deactivate]

@[simp] theorem anchor_faultAlert (k : FaultKind) (clear : Bool) (subject : Subject) (d : AlertData) (s : State) :
    (faultAlert k clear subject d s).anchor = s.anchor := by
  simp only [faultAlert]
  (repeat' split) <;> simp

@[simp] theorem anchor_raiseLogFull (s : State) :
    (raiseLogFull s).anchor = s.anchor := by
  simp only [raiseLogFull]
  (repeat' split) <;> simp

@[simp] theorem anchor_clearLogFull (s : State) :
    (clearLogFull s).anchor = s.anchor := by
  simp only [clearLogFull]
  (repeat' split) <;> simp

@[simp] theorem anchor_offerRecord (o : Offer) (s : State) :
    (offerRecord o s).anchor = s.anchor := by
  simp only [offerRecord]
  (repeat' split) <;> simp

@[simp] theorem anchor_raiseLogFullAgain (s : State) :
    (raiseLogFullAgain s).anchor = s.anchor := by
  simp only [raiseLogFullAgain]
  (repeat' split) <;> simp

@[simp] theorem anchor_raiseFault (k : FaultKind) (subject : Subject) (record : Bool) (d : AlertData) (s : State) :
    (raiseFault k subject record d s).anchor = s.anchor := by
  simp only [raiseFault]
  (repeat' split) <;> simp

@[simp] theorem anchor_clearFault (k : FaultKind) (subject : Subject) (record : Bool) (d : AlertData) (s : State) :
    (clearFault k subject record d s).anchor = s.anchor := by
  simp only [clearFault]
  (repeat' split) <;> simp

@[simp] theorem anchor_handRate (r : Int) (s : State) :
    (handRate r s).anchor = s.anchor := by simp [handRate, State.anchor]

@[simp] theorem anchor_setServoState (st : ServoState) (s : State) :
    (setServoState st s).anchor = s.anchor := by simp [setServoState]

@[simp] theorem anchor_offerState (old : ServoState) (s : State) :
    (offerState old s).anchor = s.anchor := by simp [offerState]

@[simp] theorem anchor_servoFollows (s : State) :
    (servoFollows s).anchor = s.anchor := by simp [servoFollows]

@[simp] theorem anchor_servoSwitches (s : State) :
    (servoSwitches s).anchor = s.anchor := by simp [servoSwitches]

@[simp] theorem anchor_servoHolds (s : State) :
    (servoHolds s).anchor = s.anchor := by simp [servoHolds]

@[simp] theorem anchor_setSourceState (i : Nat) (st : SourceState) (s : State) :
    (setSourceState i st s).anchor = s.anchor := by
  simp only [setSourceState]
  (repeat' split) <;> simp

@[simp] theorem anchor_unselect (i : Nat) (s : State) :
    (unselect i s).anchor = s.anchor := by
  simp only [unselect]
  (repeat' split) <;> simp

@[simp] theorem anchor_clearHoldoverExpired (s : State) :
    (clearHoldoverExpired s).anchor = s.anchor := by simp [clearHoldoverExpired]

@[simp] theorem anchor_offerStateIfChanged (before : ServoState) (s : State) :
    (offerStateIfChanged before s).anchor = s.anchor := by
  simp only [offerStateIfChanged]
  (repeat' split) <;> simp

@[simp] theorem anchor_select (old : Option (Nat × SourceEntry)) (new : Nat × SourceEntry) (reason : Reason) (sampled : Bool) (s : State) :
    (select old new reason sampled s).anchor = s.anchor := by
  simp only [select]
  (repeat' split) <;> simp

@[simp] theorem anchor_endSelection (old : Nat × SourceEntry) (reason : Reason) (s : State) :
    (endSelection old reason s).anchor = s.anchor := by
  simp only [endSelection]
  (repeat' split) <;> simp

@[simp] theorem anchor_reevaluate (old : Option (Nat × SourceEntry)) (why : Reason) (own : Option Nat) (s : State) :
    (reevaluate old why own s).anchor = s.anchor := by
  simp only [reevaluate]
  (repeat' split) <;> simp

@[simp] theorem anchor_reevaluateOnHold (before : Bool) (s : State) :
    (reevaluateOnHold before s).anchor = s.anchor := by
  simp only [reevaluateOnHold]
  (repeat' split) <;> simp

@[simp] theorem anchor_raiseWithHold (k : FaultKind) (subject : Subject) (record : Bool) (d : AlertData) (s : State) :
    (raiseWithHold k subject record d s).anchor = s.anchor := by simp [raiseWithHold]

@[simp] theorem anchor_clearWithHold (k : FaultKind) (subject : Subject) (record : Bool) (d : AlertData) (s : State) :
    (clearWithHold k subject record d s).anchor = s.anchor := by simp [clearWithHold]

@[simp] theorem anchor_secondPulse (s : State) :
    (secondPulse s).anchor = s.anchor := by simp [secondPulse, State.anchor]

@[simp] theorem anchor_performSwap (s : State) :
    (performSwap s).anchor = s.anchor := by simp [performSwap]

@[simp] theorem anchor_armedSwap (s : State) :
    (armedSwap s).anchor = s.anchor := by
  simp only [armedSwap]
  (repeat' split) <;> simp

@[simp] theorem anchor_secondBoundary (s : State) :
    (secondBoundary s).anchor = s.anchor := by simp [secondBoundary]

@[simp] theorem anchor_uptimeSecond (s : State) :
    (uptimeSecond s).anchor = s.anchor := by
  simp only [uptimeSecond]
  (repeat' split) <;> simp

@[simp] theorem anchor_leaveLocked (s : State) :
    (leaveLocked s).anchor = s.anchor := by
  simp only [leaveLocked]
  (repeat' split) <;> simp

@[simp] theorem anchor_afterStep (amount : Nat) (s : State) :
    (afterStep amount s).anchor = s.anchor := by simp [afterStep]

@[simp] theorem anchor_startCatchDown (s : State) :
    (startCatchDown s).anchor = s.anchor := by simp [startCatchDown]

@[simp] theorem anchor_filterUpdate (theta k : Int) (s : State) :
    (filterUpdate theta k s).anchor = s.anchor := by
  simp only [filterUpdate]
  (repeat' split) <;> simp

@[simp] theorem anchor_lockCounting (theta : Int) (s : State) :
    (lockCounting theta s).anchor = s.anchor := by
  simp only [lockCounting]
  (repeat' split) <;> simp

@[simp] theorem anchor_filterAndLock (x : ServoSample) (s : State) :
    (filterAndLock x s).anchor = s.anchor := by simp [filterAndLock]

@[simp] theorem anchor_expireHoldover (s : State) :
    (expireHoldover s).anchor = s.anchor := by simp [expireHoldover]

@[simp] theorem anchor_unexpireHoldover (s : State) :
    (unexpireHoldover s).anchor = s.anchor := by simp [unexpireHoldover]

@[simp] theorem anchor_judgeHoldover (s : State) :
    (judgeHoldover s).anchor = s.anchor := by
  simp only [judgeHoldover]
  (repeat' split) <;> simp

@[simp] theorem anchor_clampF (s : State) :
    (clampF s).anchor = s.anchor := by
  simp only [clampF]
  (repeat' split) <;> simp

@[simp] theorem anchor_applyServo (p : ServoParams) (width limit : Nat) (s : State) :
    (applyServo p width limit s).anchor = s.anchor := by
  simp only [applyServo]
  (repeat' split) <;> simp

@[simp] theorem anchor_setTrimTo (f : Int) (s : State) :
    (setTrimTo f s).1.anchor = s.anchor := by
  simp only [setTrimTo]
  (repeat' split) <;> simp

@[simp] theorem anchor_loadTrim (s : State) :
    (loadTrim s).anchor = s.anchor := by simp [loadTrim]

@[simp] theorem anchor_servoSoftReset (s : State) :
    (servoSoftReset s).anchor = s.anchor := by
  simp only [servoSoftReset]
  (repeat' split) <;> simp

@[simp] theorem anchor_forwardWhole (w : Whole) (edit : Edit) (s : State) :
    (forwardWhole w edit s).anchor = s.anchor := by
  simp only [forwardWhole]
  (repeat' split) <;> simp

@[simp] theorem anchor_takeInterval (p : Port) (s : State) :
    (takeInterval p s).anchor = s.anchor := by
  simp only [takeInterval]
  (repeat' split) <;> simp

@[simp] theorem anchor_restartInterval (p : Port) (s : State) :
    (restartInterval p s).anchor = s.anchor := by simp [restartInterval]

@[simp] theorem anchor_startEcho (p : Port) (s : State) :
    (startEcho p s).anchor = s.anchor := by
  simp only [startEcho]
  (repeat' split) <;> simp

@[simp] theorem anchor_takeDelay (p : Port) (x : Nat) (s : State) :
    (takeDelay p x s).anchor = s.anchor := by simp [takeDelay]

@[simp] theorem anchor_endExchange (w : Whole) (s : State) :
    (endExchange w s).anchor = s.anchor := by
  simp only [endExchange]
  (repeat' split) <;> simp

@[simp] theorem anchor_answerReceived (w : Whole) (s : State) :
    (answerReceived w s).anchor = s.anchor := by
  simp only [answerReceived]
  (repeat' split) <;> simp

@[simp] theorem anchor_echoTimesOut (p : Port) (s : State) :
    (echoTimesOut p s).anchor = s.anchor := by simp [echoTimesOut]

@[simp] theorem anchor_echoLinkDown (p : Port) (s : State) :
    (echoLinkDown p s).anchor = s.anchor := by
  simp only [echoLinkDown]
  (repeat' split) <;> simp

@[simp] theorem anchor_echoLinkUp (p : Port) (s : State) :
    (echoLinkUp p s).anchor = s.anchor := by
  simp only [echoLinkUp]
  (repeat' split) <;> simp

@[simp] theorem anchor_echoRewritten (p : Port) (old : PortRec) (s : State) :
    (echoRewritten p old s).anchor = s.anchor := by
  simp only [echoRewritten]
  (repeat' split) <;> simp

@[simp] theorem anchor_clearStale (p : Port) (s : State) :
    (clearStale p s).anchor = s.anchor := by simp [clearStale]

@[simp] theorem anchor_answerAsk (w : Whole) (s : State) :
    (answerAsk w s).anchor = s.anchor := by
  simp only [answerAsk]
  (repeat' split) <;> simp

@[simp] theorem anchor_handleAsk (w : Whole) (s : State) :
    (handleAsk w s).anchor = s.anchor := by
  simp only [handleAsk]
  (repeat' split) <;> simp

@[simp] theorem anchor_handleAnswer (w : Whole) (s : State) :
    (handleAnswer w s).anchor = s.anchor := by
  simp only [handleAnswer]
  (repeat' split) <;> simp

@[simp] theorem anchor_goStale (i : Nat) (s : State) :
    (goStale i s).anchor = s.anchor := by simp [goStale]

@[simp] theorem anchor_afterBar (old : Option (Nat × SourceEntry)) (s : State) :
    (afterBar old s).anchor = s.anchor := by simp [afterBar]

@[simp] theorem anchor_endBar (i : Nat) (e : SourceEntry) (s : State) :
    (endBar i e s).anchor = s.anchor := by
  simp only [endBar]
  (repeat' split) <;> simp

@[simp] theorem anchor_setBar (i : Nat) (e : SourceEntry) (seconds : Nat) (s : State) :
    (setBar i e seconds s).anchor = s.anchor := by
  simp only [setBar]
  (repeat' split) <;> simp

@[simp] theorem anchor_barEntry (i : Nat) (e : SourceEntry) (seconds : Nat) (s : State) :
    (barEntry i e seconds s).anchor = s.anchor := by
  simp only [barEntry]
  (repeat' split) <;> simp

@[simp] theorem anchor_barSelected (seconds : Nat) (s : State) :
    (barSelected seconds s).anchor = s.anchor := by
  simp only [barSelected]
  (repeat' split) <;> simp

@[simp] theorem anchor_transitBeacon (w : Whole) (p : Nat) (s : State) :
    (transitBeacon w p s).anchor = s.anchor := by
  simp only [transitBeacon]
  (repeat' split) <;> simp

@[simp] theorem anchor_beaconUnit (w : Whole) (p : Nat) (s : State) :
    (beaconUnit w p s).anchor = s.anchor := by
  simp only [beaconUnit]
  (repeat' split) <;> simp

@[simp] theorem anchor_recordEmission (l : Lane) (instant : SN) (e : Emission) (s : State) :
    (recordEmission l instant e s).anchor = s.anchor := by simp [recordEmission]

@[simp] theorem anchor_originate (l : Lane) (instant : SN) (s : State) :
    (originate l instant s).anchor = s.anchor := by
  simp only [originate]
  (repeat' split) <;> simp

@[simp] theorem anchor_laneInstant (l : Lane) (old new : Date) (s : State) :
    (laneInstant l old new s).anchor = s.anchor := by
  simp only [laneInstant]
  (repeat' split) <;> simp

@[simp] theorem anchor_startReports (s : State) :
    (startReports s).anchor = s.anchor := by simp [startReports]

@[simp] theorem anchor_nextSlot (s : State) :
    (nextSlot s).anchor = s.anchor := by
  simp only [nextSlot]
  (repeat' split) <;> simp

@[simp] theorem anchor_reportNotSent (i : Nat) (s : State) :
    (reportNotSent i s).anchor = s.anchor := by simp [reportNotSent]

@[simp] theorem anchor_reportSent (i : Nat) (s : State) :
    (reportSent i s).anchor = s.anchor := by simp [reportSent]

@[simp] theorem anchor_sendReport (i : Nat) (s : State) :
    (sendReport i s).anchor = s.anchor := by
  simp only [sendReport]
  (repeat' split) <;> simp

@[simp] theorem anchor_setSelfDrift (v : Verdict) (s : State) :
    (setSelfDrift v s).anchor = s.anchor := by
  simp only [setSelfDrift]
  (repeat' split) <;> simp

@[simp] theorem anchor_clearSelfDrift (v : Verdict) (e : Episode) (s : State) :
    (clearSelfDrift v e s).anchor = s.anchor := by simp [clearSelfDrift]

@[simp] theorem anchor_judgeSelf (s : State) :
    (judgeSelf s).anchor = s.anchor := by
  simp only [judgeSelf]
  (repeat' split) <;> simp

@[simp] theorem anchor_warnPeer (i : Nat) (vote : Vote) (s : State) :
    (warnPeer i vote s).anchor = s.anchor := by simp [warnPeer]

@[simp] theorem anchor_unwarnPeer (i : Nat) (vote : Vote) (s : State) :
    (unwarnPeer i vote s).anchor = s.anchor := by simp [unwarnPeer]

@[simp] theorem anchor_judgePeer (s : State) (i : Nat) :
    (judgePeer s i).anchor = s.anchor := by
  simp only [judgePeer]
  (repeat' split) <;> simp

@[simp] theorem anchor_judgeRack (s : State) :
    (judgeRack s).anchor = s.anchor := by
  unfold judgeRack
  rw [foldl_anchor]
  · simp
  · intro t i; simp

@[simp] theorem anchor_reportReceived (w : Whole) (s : State) :
    (reportReceived w s).anchor = s.anchor := by
  simp only [reportReceived]
  (repeat' split) <;> simp

@[simp] theorem anchor_setPeerCfg (i : Nat) (c : PeerCfg) (s : State) :
    (setPeerCfg i c s).anchor = s.anchor := by simp [setPeerCfg]

@[simp] theorem anchor_voidReports (i : Nat) (s : State) : (voidReports i s).anchor = s.anchor := (rfl)

@[simp] theorem anchor_writePeerAt (i : Nat) (c : PeerCfg) (s : State) :
    (writePeerAt i c s).anchor = s.anchor := by
  simp only [writePeerAt]
  (repeat' split) <;> simp

@[simp] theorem anchor_clearPeerAt (i : Nat) (s : State) :
    (clearPeerAt i s).anchor = s.anchor := by
  simp only [clearPeerAt]
  (repeat' split) <;> simp

@[simp] theorem anchor_applyDrift (p : DriftParams) (holdoff threshold : Nat) (s : State) :
    (applyDrift p holdoff threshold s).anchor = s.anchor := by
  simp only [applyDrift]
  (repeat' split) <;> simp

@[simp] theorem anchor_driftSoftReset (s : State) :
    (driftSoftReset s).anchor = s.anchor := by simp [driftSoftReset]

@[simp] theorem anchor_freezeTrigger (t : Trigger) (s : State) :
    (freezeTrigger t s).anchor = s.anchor := by
  simp only [freezeTrigger]
  (repeat' split) <;> simp

@[simp] theorem anchor_releaseFreeze (s : State) :
    (releaseFreeze s).anchor = s.anchor := by
  simp only [releaseFreeze]
  (repeat' split) <;> simp

@[simp] theorem anchor_settleStamp (p : Port) (written : Bool) (s : State) :
    (settleStamp p written s).anchor = s.anchor := by
  simp only [settleStamp]
  (repeat' split) <;> simp

@[simp] theorem anchor_loseStamp (p : Port) (s : State) :
    (loseStamp p s).anchor = s.anchor := by simp [loseStamp]

@[simp] theorem anchor_readyArriving (p : Port) (edit : Edit) (s : State) :
    (readyArriving p edit s).anchor = s.anchor := by simp [readyArriving]

@[simp] theorem anchor_writeStampNow (p : Port) (c : DatingCtx) (bytes : List Byte) (s : State) :
    (writeStampNow p c bytes s).anchor = s.anchor := by simp [writeStampNow]

@[simp] theorem anchor_closeMark (p : Port) (bytes : List Byte) (stop len : Nat) (badFcs : Bool) (s : State) :
    (closeMark p bytes stop len badFcs s).anchor = s.anchor := by
  simp only [closeMark]
  (repeat' split) <;> simp

@[simp] theorem anchor_cutMark (p : Port) (bytes : List Byte) (len : Nat) (s : State) :
    (cutMark p bytes len s).anchor = s.anchor := by
  simp only [cutMark]
  (repeat' split) <;> simp

@[simp] theorem anchor_setRx (p : Port) (r : Option Rx) (s : State) :
    (setRx p r s).anchor = s.anchor := by simp [setRx]

@[simp] theorem anchor_forwardArriving (p : Port) (r : Rx) (ready : Bool) (s : State) :
    (forwardArriving p r ready s).1.anchor = s.anchor := by simp [forwardArriving]

@[simp] theorem anchor_passFrame (p : Port) (r : Rx) (s : State) :
    (passFrame p r s).anchor = s.anchor := by simp [passFrame]

@[simp] theorem anchor_settleArrived (p : Port) (bytes : List Byte) (s : State) :
    (settleArrived p bytes s).anchor = s.anchor := by
  simp only [settleArrived]
  (repeat' split) <;> simp

@[simp] theorem anchor_growArriving (p : Port) (bytes : List Byte) (s : State) :
    (growArriving p bytes s).anchor = s.anchor := by simp [growArriving]

@[simp] theorem anchor_overrun (p : Port) (r : Rx) (s : State) :
    (overrun p r s).anchor = s.anchor := by
  simp only [overrun]
  (repeat' split) <;> simp

@[simp] theorem anchor_malformedFrame (w : Whole) (s : State) :
    (malformedFrame w s).anchor = s.anchor := by simp [malformedFrame]

@[simp] theorem anchor_acceptControl (w : Whole) (privilege : Privilege) (s : State) :
    (acceptControl w privilege s).anchor = s.anchor := by
  simp only [acceptControl]
  (repeat' split) <;> simp

@[simp] theorem anchor_dispatchUdp (w : Whole) (mgmt utx : Bool) (privilege : Privilege) (s : State) :
    (dispatchUdp w mgmt utx privilege s).anchor = s.anchor := by
  simp only [dispatchUdp]
  (repeat' split) <;> simp

@[simp] theorem anchor_endForwarded (p : Port) (r : Rx) (inLane : Bool) (s : State) :
    (endForwarded p r inLane s).anchor = s.anchor := by
  simp only [endForwarded]
  (repeat' split) <;> simp

@[simp] theorem anchor_applyFull (c : Settings) (bank : Vector MatchEntry 64) (source : LoadSource) (version : Nat) (s : State) :
    (applyFull c bank source version s).anchor = s.anchor := by simp [applyFull]

@[simp] theorem anchor_applyReload (c : Settings) (bank : Vector MatchEntry 64) (s : State) :
    (applyReload c bank s).anchor = s.anchor := by simp [applyReload]

@[simp] theorem anchor_softResetNow (reload : Bool) (s : State) :
    (softResetNow reload s).anchor = s.anchor := by simp [softResetNow]

@[simp] theorem anchor_raiseAgain (expired : Bool) (s : State) :
    (raiseAgain expired s).anchor = s.anchor := by
  simp only [raiseAgain]
  (repeat' split) <;> simp

@[simp] theorem anchor_completeSoft (expired : Bool) (s : State) :
    (completeSoft expired s).anchor = s.anchor := by simp [completeSoft]

@[simp] theorem anchor_finishReload (first second : List Byte) (s : State) :
    (finishReload first second s).anchor = s.anchor := by
  simp only [finishReload]
  (repeat' split) <;> simp

@[simp] theorem anchor_loseReception (p : Port) (more : List Byte) (s : State) :
    (loseReception p more s).anchor = s.anchor := by
  simp only [loseReception]
  (repeat' split) <;> simp

@[simp] theorem anchor_flushEgress (p : Port) (s : State) :
    (flushEgress p s).anchor = s.anchor := by
  simp only [flushEgress]
  (repeat' split) <;> simp

@[simp] theorem anchor_linkBackUp (p : Port) (s : State) :
    (linkBackUp p s).anchor = s.anchor := by
  simp only [linkBackUp]
  (repeat' split) <;> simp

@[simp] theorem anchor_linkComesUp (p : Port) (s : State) :
    (linkComesUp p s).anchor = s.anchor := by
  simp only [linkComesUp]
  (repeat' split) <;> simp

@[simp] theorem anchor_finishSave (written readBack : List Byte) (s : State) :
    (finishSave written readBack s).anchor = s.anchor := by
  simp only [finishSave]
  (repeat' split) <;> simp

@[simp] theorem anchor_endMemoryTest (pass : Bool) (s : State) :
    (endMemoryTest pass s).anchor = s.anchor := by
  simp only [endMemoryTest]
  (repeat' split) <;> simp

@[simp] theorem anchor_removeRecords (k : Nat) (s : State) :
    (removeRecords k s).anchor = s.anchor := by
  simp only [removeRecords]
  (repeat' split) <;> simp

@[simp] theorem anchor_testLog (s : State) :
    (testLog s).1.anchor = s.anchor := by
  simp only [testLog]
  (repeat' split) <;> simp

@[simp] theorem anchor_writeMatch (index : Byte) (a : MatchArg) (s : State) :
    (writeMatch index a s).1.anchor = s.anchor := by
  simp only [writeMatch]
  (repeat' split) <;> simp

@[simp] theorem anchor_copyActive (s : State) :
    (copyActive s).1.anchor = s.anchor := by
  simp only [copyActive]
  (repeat' split) <;> simp

@[simp] theorem anchor_swapCommand (arg : Byte) (s : State) :
    (swapCommand arg s).1.anchor = s.anchor := by
  simp only [swapCommand]
  (repeat' split) <;> simp

@[simp] theorem anchor_writePort (a : PortArg) (s : State) :
    (writePort a s).1.anchor = s.anchor := by
  simp only [writePort]
  (repeat' split) <;> simp

@[simp] theorem anchor_writeLane (a : LaneArg) (s : State) :
    (writeLane a s).1.anchor = s.anchor := by
  simp only [writeLane]
  (repeat' split) <;> simp

@[simp] theorem anchor_writeOverride (a : OverrideArg) (s : State) :
    (writeOverride a s).1.anchor = s.anchor := by
  simp only [writeOverride]
  (repeat' split) <;> simp

@[simp] theorem anchor_writePeer (a : PeerArg) (s : State) :
    (writePeer a s).1.anchor = s.anchor := by
  simp only [writePeer]
  (repeat' split) <;> simp

@[simp] theorem anchor_clearPeer (index : Byte) (s : State) :
    (clearPeer index s).1.anchor = s.anchor := by
  simp only [clearPeer]
  (repeat' split) <;> simp

@[simp] theorem anchor_writeServo (a : ServoArg) (s : State) :
    (writeServo a s).1.anchor = s.anchor := by simp [writeServo]

@[simp] theorem anchor_writeDrift (a : DriftArg) (s : State) :
    (writeDrift a s).1.anchor = s.anchor := by simp [writeDrift]

@[simp] theorem anchor_applyResponse (k : FaultKind) (r : Response) (s : State) :
    (applyResponse k r s).anchor = s.anchor := by
  simp only [applyResponse]
  (repeat' split) <;> simp

@[simp] theorem anchor_writeFault (kind response : Byte) (s : State) :
    (writeFault kind response s).1.anchor = s.anchor := by
  simp only [writeFault]
  (repeat' split) <;> simp

@[simp] theorem anchor_clearPosition (mask : BitVec 32) (s : State) (k : FaultKind) :
    (clearPosition mask s k).anchor = s.anchor := by
  simp only [clearPosition]
  (repeat' split) <;> simp

@[simp] theorem anchor_clearFlags (mask : BitVec 32) (s : State) :
    (clearFlags mask s).1.anchor = s.anchor := by
  simp only [clearFlags]
  (repeat' split) <;> simp [foldl_anchor, anchor_clearPosition]

@[simp] theorem anchor_barSource (index : Byte) (seconds : BitVec 16) (s : State) :
    (barSource index seconds s).1.anchor = s.anchor := by
  simp only [barSource]
  (repeat' split) <;> simp

@[simp] theorem anchor_saveSettings (s : State) :
    (saveSettings s).1.anchor = s.anchor := by
  simp only [saveSettings]
  (repeat' split) <;> simp

@[simp] theorem anchor_resetCommand (arg : Byte) (s : State) :
    (resetCommand arg s).1.anchor = s.anchor := by
  simp only [resetCommand]
  (repeat' split) <;> simp

end Sys2Proof.Machine
end

