-- ==== Sys2Proof/Laws/Fields.lean ====
section
/-! SUPPORT. Fields of the state that a shared operation leaves as they are: one lemma for each field and operation. -/

namespace Sys2Proof.Machine

/-! ### cfg -/

theorem foldl_cfg {α : Type} (f : State → α → State) (h : ∀ t a, (f t a).cfg = t.cfg) (s : State) (l : List α) :
    (l.foldl f s).cfg = s.cfg := by
  induction l generalizing s with
  | nil => rfl
  | cons a rest ih => rw [List.foldl_cons, ih, h]

@[simp] theorem cfg_watchSecond (s : State) :
    (watchSecond s).cfg = s.cfg := by
  simp only [watchSecond]
  (repeat' split) <;> simp

@[simp] theorem cfg_judgePulse (d : Option Nat) (s : State) :
    (judgePulse d s).cfg = s.cfg := by simp [judgePulse]

@[simp] theorem cfg_setPort (s : State) (p : Port) (u : PortUnit) : (s.setPort p u).cfg = s.cfg := (rfl)
@[simp] theorem cfg_count (s : State) (p : Port) (f : Stats → Stats) : (s.count p f).cfg = s.cfg := (rfl)
@[simp] theorem cfg_setEcho (s : State) (p : Port) (e : Echo) : (s.setEcho p e).cfg = s.cfg := (rfl)
@[simp] theorem cfg_setLane (s : State) (l : Lane) (u : LaneUnit) : (s.setLane l u).cfg = s.cfg := (rfl)
@[simp] theorem cfg_setSource (s : State) (i : Nat) (e : Option SourceEntry) : (s.setSource i e).cfg = s.cfg := (rfl)
@[simp] theorem cfg_setPeer (s : State) (i : Nat) (e : PeerDyn) : (s.setPeer i e).cfg = s.cfg := (rfl)
@[simp] theorem cfg_setFault (s : State) (k : FaultKind) (r : FaultRec) : (s.setFault k r).cfg = s.cfg := (rfl)
@[simp] theorem cfg_setForm (s : State) (a : AlertForm) (v : FormState) : (s.setForm a v).cfg = s.cfg := (rfl)
@[simp] theorem cfg_admitFrame (p : Port) (need : Nat) (f : FwdFrame) (s : State) :
    (admitFrame p need f s).1.cfg = s.cfg := by
  simp only [admitFrame]
  (repeat' split) <;> simp

@[simp] theorem cfg_offerTiming (p : Port) (tag : OrigTag) (header : Nat) (bytes : List Byte) (s : State) :
    (offerTiming p tag header bytes s).1.cfg = s.cfg := by
  simp only [offerTiming]
  (repeat' split) <;> simp

@[simp] theorem cfg_offerGeneral (p : Port) (tag : OrigTag) (header : Nat) (bytes : List Byte) (s : State) :
    (offerGeneral p tag header bytes s).1.cfg = s.cfg := by
  simp only [offerGeneral]
  (repeat' split) <;> simp

@[simp] theorem cfg_askPassesEgress (p : Port) (id : Nat) (s : State) :
    (askPassesEgress p id s).cfg = s.cfg := by
  simp only [askPassesEgress]
  (repeat' split) <;> simp

@[simp] theorem cfg_reportPassesEgress (i : Nat) (rack ip : BitVec 32) (s : State) :
    (reportPassesEgress i rack ip s).cfg = s.cfg := by
  simp only [reportPassesEgress]
  (repeat' split) <;> simp

@[simp] theorem cfg_recordEgress (p : Port) (tag : OrigTag) (s : State) :
    (recordEgress p tag s).cfg = s.cfg := by
  simp only [recordEgress]
  (repeat' split) <;> simp

@[simp] theorem cfg_grantQueued (p : Port) (o : TxFrom) (q : QFrame) (s : State) :
    (grantQueued p o q s).cfg = s.cfg := by simp [grantQueued]

@[simp] theorem cfg_grantForwarded (p : Port) (f : FwdFrame) (s : State) :
    (grantForwarded p f s).cfg = s.cfg := by simp [grantForwarded]

@[simp] theorem cfg_arbitrate (p : Port) (s : State) :
    (arbitrate p s).cfg = s.cfg := by
  simp only [arbitrate]
  (repeat' split) <;> simp

@[simp] theorem cfg_finishTx (p : Port) (t : Tx) (s : State) :
    (finishTx p t s).cfg = s.cfg := by
  simp only [finishTx]
  (repeat' split) <;> simp

@[simp] theorem cfg_suppressAlert (a : AlertForm) (s : State) :
    (suppressAlert a s).cfg = s.cfg := by simp [suppressAlert]

@[simp] theorem cfg_alertEvent (a : AlertForm) (clear : Bool) (subject : Subject) (d : AlertData) (s : State) :
    (alertEvent a clear subject d s).cfg = s.cfg := by
  simp only [alertEvent]
  (repeat' split) <;> simp

@[simp] theorem cfg_levelNotice (s : State) :
    (levelNotice s).cfg = s.cfg := by
  simp only [levelNotice]
  (repeat' split) <;> simp

@[simp] theorem cfg_offerBare (o : Offer) (s : State) :
    (offerBare o s).1.cfg = s.cfg := by
  simp only [offerBare]
  (repeat' split) <;> simp

@[simp] theorem cfg_activate (k : FaultKind) (subject : Subject) (s : State) :
    (activate k subject s).cfg = s.cfg := by simp [activate]

@[simp] theorem cfg_countRaise (k : FaultKind) (s : State) :
    (countRaise k s).cfg = s.cfg := by simp [countRaise]

@[simp] theorem cfg_deactivate (k : FaultKind) (s : State) :
    (deactivate k s).cfg = s.cfg := by simp [deactivate]

@[simp] theorem cfg_faultAlert (k : FaultKind) (clear : Bool) (subject : Subject) (d : AlertData) (s : State) :
    (faultAlert k clear subject d s).cfg = s.cfg := by
  simp only [faultAlert]
  (repeat' split) <;> simp

@[simp] theorem cfg_raiseLogFull (s : State) :
    (raiseLogFull s).cfg = s.cfg := by
  simp only [raiseLogFull]
  (repeat' split) <;> simp

@[simp] theorem cfg_clearLogFull (s : State) :
    (clearLogFull s).cfg = s.cfg := by
  simp only [clearLogFull]
  (repeat' split) <;> simp

@[simp] theorem cfg_offerRecord (o : Offer) (s : State) :
    (offerRecord o s).cfg = s.cfg := by
  simp only [offerRecord]
  (repeat' split) <;> simp

@[simp] theorem cfg_raiseLogFullAgain (s : State) :
    (raiseLogFullAgain s).cfg = s.cfg := by
  simp only [raiseLogFullAgain]
  (repeat' split) <;> simp

@[simp] theorem cfg_raiseFault (k : FaultKind) (subject : Subject) (record : Bool) (d : AlertData) (s : State) :
    (raiseFault k subject record d s).cfg = s.cfg := by
  simp only [raiseFault]
  (repeat' split) <;> simp

@[simp] theorem cfg_clearFault (k : FaultKind) (subject : Subject) (record : Bool) (d : AlertData) (s : State) :
    (clearFault k subject record d s).cfg = s.cfg := by
  simp only [clearFault]
  (repeat' split) <;> simp

@[simp] theorem cfg_handRate (r : Int) (s : State) :
    (handRate r s).cfg = s.cfg := by simp [handRate]

@[simp] theorem cfg_setServoState (st : ServoState) (s : State) :
    (setServoState st s).cfg = s.cfg := by simp [setServoState]

@[simp] theorem cfg_offerState (old : ServoState) (s : State) :
    (offerState old s).cfg = s.cfg := by simp [offerState]

@[simp] theorem cfg_servoFollows (s : State) :
    (servoFollows s).cfg = s.cfg := by simp [servoFollows]

@[simp] theorem cfg_servoSwitches (s : State) :
    (servoSwitches s).cfg = s.cfg := by simp [servoSwitches]

@[simp] theorem cfg_servoHolds (s : State) :
    (servoHolds s).cfg = s.cfg := by simp [servoHolds]

@[simp] theorem cfg_setSourceState (i : Nat) (st : SourceState) (s : State) :
    (setSourceState i st s).cfg = s.cfg := by
  simp only [setSourceState]
  (repeat' split) <;> simp

@[simp] theorem cfg_unselect (i : Nat) (s : State) :
    (unselect i s).cfg = s.cfg := by
  simp only [unselect]
  (repeat' split) <;> simp

@[simp] theorem cfg_clearHoldoverExpired (s : State) :
    (clearHoldoverExpired s).cfg = s.cfg := by simp [clearHoldoverExpired]

@[simp] theorem cfg_offerStateIfChanged (before : ServoState) (s : State) :
    (offerStateIfChanged before s).cfg = s.cfg := by
  simp only [offerStateIfChanged]
  (repeat' split) <;> simp

@[simp] theorem cfg_select (old : Option (Nat × SourceEntry)) (new : Nat × SourceEntry) (reason : Reason) (sampled : Bool) (s : State) :
    (select old new reason sampled s).cfg = s.cfg := by
  simp only [select]
  (repeat' split) <;> simp

@[simp] theorem cfg_endSelection (old : Nat × SourceEntry) (reason : Reason) (s : State) :
    (endSelection old reason s).cfg = s.cfg := by
  simp only [endSelection]
  (repeat' split) <;> simp

@[simp] theorem cfg_reevaluate (old : Option (Nat × SourceEntry)) (why : Reason) (own : Option Nat) (s : State) :
    (reevaluate old why own s).cfg = s.cfg := by
  simp only [reevaluate]
  (repeat' split) <;> simp

@[simp] theorem cfg_reevaluateOnHold (before : Bool) (s : State) :
    (reevaluateOnHold before s).cfg = s.cfg := by
  simp only [reevaluateOnHold]
  (repeat' split) <;> simp

@[simp] theorem cfg_raiseWithHold (k : FaultKind) (subject : Subject) (record : Bool) (d : AlertData) (s : State) :
    (raiseWithHold k subject record d s).cfg = s.cfg := by simp [raiseWithHold]

@[simp] theorem cfg_clearWithHold (k : FaultKind) (subject : Subject) (record : Bool) (d : AlertData) (s : State) :
    (clearWithHold k subject record d s).cfg = s.cfg := by simp [clearWithHold]

@[simp] theorem cfg_secondPulse (s : State) :
    (secondPulse s).cfg = s.cfg := by
  simp only [secondPulse]
  (repeat' split) <;> simp

@[simp] theorem cfg_performSwap (s : State) :
    (performSwap s).cfg = s.cfg := by simp [performSwap]

@[simp] theorem cfg_armedSwap (s : State) :
    (armedSwap s).cfg = s.cfg := by
  simp only [armedSwap]
  (repeat' split) <;> simp

@[simp] theorem cfg_secondBoundary (s : State) :
    (secondBoundary s).cfg = s.cfg := by simp [secondBoundary]

@[simp] theorem cfg_stepTo (moved : Date × Bool) (s : State) :
    (stepTo moved s).cfg = s.cfg := by
  simp only [stepTo]
  (repeat' split) <;> simp

@[simp] theorem cfg_forwardStep (amount : Nat) (s : State) :
    (forwardStep amount s).cfg = s.cfg := by simp [forwardStep]

@[simp] theorem cfg_load (d : Date) (s : State) :
    (load d s).cfg = s.cfg := by
  simp only [load]
  (repeat' split) <;> simp

@[simp] theorem cfg_uptimeSecond (s : State) :
    (uptimeSecond s).cfg = s.cfg := by
  simp only [uptimeSecond]
  (repeat' split) <;> simp

@[simp] theorem cfg_rememberStamp (d : SN) (s : State) :
    (rememberStamp d s).cfg = s.cfg := by simp [rememberStamp]

@[simp] theorem cfg_leaveLocked (s : State) :
    (leaveLocked s).cfg = s.cfg := by
  simp only [leaveLocked]
  (repeat' split) <;> simp

@[simp] theorem cfg_afterStep (amount : Nat) (s : State) :
    (afterStep amount s).cfg = s.cfg := by simp [afterStep]

@[simp] theorem cfg_servoStep (amount : Nat) (s : State) :
    (servoStep amount s).cfg = s.cfg := by simp [servoStep]

@[simp] theorem cfg_startCatchDown (s : State) :
    (startCatchDown s).cfg = s.cfg := by simp [startCatchDown]

@[simp] theorem cfg_filterUpdate (theta k : Int) (s : State) :
    (filterUpdate theta k s).cfg = s.cfg := by
  simp only [filterUpdate]
  (repeat' split) <;> simp

@[simp] theorem cfg_lockCounting (theta : Int) (s : State) :
    (lockCounting theta s).cfg = s.cfg := by
  simp only [lockCounting]
  (repeat' split) <;> simp

@[simp] theorem cfg_sampleInUnset (x : ServoSample) (s : State) :
    (sampleInUnset x s).cfg = s.cfg := by simp [sampleInUnset]

@[simp] theorem cfg_filterAndLock (x : ServoSample) (s : State) :
    (filterAndLock x s).cfg = s.cfg := by simp [filterAndLock]

@[simp] theorem cfg_sampleInCatchDown (x : ServoSample) (s : State) :
    (sampleInCatchDown x s).cfg = s.cfg := by
  simp only [sampleInCatchDown]
  (repeat' split) <;> simp

@[simp] theorem cfg_sampleOutside (x : ServoSample) (s : State) :
    (sampleOutside x s).cfg = s.cfg := by
  simp only [sampleOutside]
  (repeat' split) <;> simp

@[simp] theorem cfg_sampleInFollow (x : ServoSample) (s : State) :
    (sampleInFollow x s).cfg = s.cfg := by
  simp only [sampleInFollow]
  (repeat' split) <;> simp

@[simp] theorem cfg_takeSample (x : ServoSample) (s : State) :
    (takeSample x s).cfg = s.cfg := by
  simp only [takeSample]
  (repeat' split) <;> simp

@[simp] theorem cfg_expireHoldover (s : State) :
    (expireHoldover s).cfg = s.cfg := by simp [expireHoldover]

@[simp] theorem cfg_unexpireHoldover (s : State) :
    (unexpireHoldover s).cfg = s.cfg := by simp [unexpireHoldover]

@[simp] theorem cfg_judgeHoldover (s : State) :
    (judgeHoldover s).cfg = s.cfg := by
  simp only [judgeHoldover]
  (repeat' split) <;> simp

@[simp] theorem cfg_clampF (s : State) :
    (clampF s).cfg = s.cfg := by
  simp only [clampF]
  (repeat' split) <;> simp

@[simp] theorem cfg_setDateTo (d : SN) (s : State) :
    (setDateTo d s).1.cfg = s.cfg := by
  simp only [setDateTo]
  (repeat' split) <;> simp

@[simp] theorem cfg_servoSoftReset (s : State) :
    (servoSoftReset s).cfg = s.cfg := by
  simp only [servoSoftReset]
  (repeat' split) <;> simp

@[simp] theorem cfg_forwardWhole (w : Whole) (edit : Edit) (s : State) :
    (forwardWhole w edit s).cfg = s.cfg := by
  simp only [forwardWhole]
  (repeat' split) <;> simp

@[simp] theorem cfg_takeInterval (p : Port) (s : State) :
    (takeInterval p s).cfg = s.cfg := by
  simp only [takeInterval]
  (repeat' split) <;> simp

@[simp] theorem cfg_restartInterval (p : Port) (s : State) :
    (restartInterval p s).cfg = s.cfg := by simp [restartInterval]

@[simp] theorem cfg_startEcho (p : Port) (s : State) :
    (startEcho p s).cfg = s.cfg := by
  simp only [startEcho]
  (repeat' split) <;> simp

@[simp] theorem cfg_takeDelay (p : Port) (x : Nat) (s : State) :
    (takeDelay p x s).cfg = s.cfg := by simp [takeDelay]

@[simp] theorem cfg_endExchange (w : Whole) (s : State) :
    (endExchange w s).cfg = s.cfg := by
  simp only [endExchange]
  (repeat' split) <;> simp

@[simp] theorem cfg_answerReceived (w : Whole) (s : State) :
    (answerReceived w s).cfg = s.cfg := by
  simp only [answerReceived]
  (repeat' split) <;> simp

@[simp] theorem cfg_echoTimesOut (p : Port) (s : State) :
    (echoTimesOut p s).cfg = s.cfg := by simp [echoTimesOut]

@[simp] theorem cfg_echoLinkDown (p : Port) (s : State) :
    (echoLinkDown p s).cfg = s.cfg := by
  simp only [echoLinkDown]
  (repeat' split) <;> simp

@[simp] theorem cfg_echoLinkUp (p : Port) (s : State) :
    (echoLinkUp p s).cfg = s.cfg := by
  simp only [echoLinkUp]
  (repeat' split) <;> simp

@[simp] theorem cfg_echoRewritten (p : Port) (old : PortRec) (s : State) :
    (echoRewritten p old s).cfg = s.cfg := by
  simp only [echoRewritten]
  (repeat' split) <;> simp

@[simp] theorem cfg_clearStale (p : Port) (s : State) :
    (clearStale p s).cfg = s.cfg := by simp [clearStale]

@[simp] theorem cfg_answerAsk (w : Whole) (s : State) :
    (answerAsk w s).cfg = s.cfg := by
  simp only [answerAsk]
  (repeat' split) <;> simp

@[simp] theorem cfg_handleAsk (w : Whole) (s : State) :
    (handleAsk w s).cfg = s.cfg := by
  simp only [handleAsk]
  (repeat' split) <;> simp

@[simp] theorem cfg_handleAnswer (w : Whole) (s : State) :
    (handleAnswer w s).cfg = s.cfg := by
  simp only [handleAnswer]
  (repeat' split) <;> simp

@[simp] theorem cfg_afterBeacon (w : Whole) (i p : Nat) (a : Int) (old : Option (Nat × SourceEntry)) (s : State) :
    (afterBeacon w i p a old s).cfg = s.cfg := by
  simp only [afterBeacon]
  (repeat' split) <;> simp

@[simp] theorem cfg_beaconIntoTable (w : Whole) (s : State) :
    (beaconIntoTable w s).cfg = s.cfg := by
  simp only [beaconIntoTable]
  (repeat' split) <;> simp

@[simp] theorem cfg_goStale (i : Nat) (s : State) :
    (goStale i s).cfg = s.cfg := by simp [goStale]

@[simp] theorem cfg_afterBar (old : Option (Nat × SourceEntry)) (s : State) :
    (afterBar old s).cfg = s.cfg := by simp [afterBar]

@[simp] theorem cfg_endBar (i : Nat) (e : SourceEntry) (s : State) :
    (endBar i e s).cfg = s.cfg := by
  simp only [endBar]
  (repeat' split) <;> simp

@[simp] theorem cfg_setBar (i : Nat) (e : SourceEntry) (seconds : Nat) (s : State) :
    (setBar i e seconds s).cfg = s.cfg := by
  simp only [setBar]
  (repeat' split) <;> simp

@[simp] theorem cfg_barEntry (i : Nat) (e : SourceEntry) (seconds : Nat) (s : State) :
    (barEntry i e seconds s).cfg = s.cfg := by
  simp only [barEntry]
  (repeat' split) <;> simp

@[simp] theorem cfg_barSelected (seconds : Nat) (s : State) :
    (barSelected seconds s).cfg = s.cfg := by
  simp only [barSelected]
  (repeat' split) <;> simp

@[simp] theorem cfg_transitBeacon (w : Whole) (p : Nat) (s : State) :
    (transitBeacon w p s).cfg = s.cfg := by
  simp only [transitBeacon]
  (repeat' split) <;> simp

@[simp] theorem cfg_beaconUnit (w : Whole) (p : Nat) (s : State) :
    (beaconUnit w p s).cfg = s.cfg := by
  simp only [beaconUnit]
  (repeat' split) <;> simp

@[simp] theorem cfg_handleBeacon (w : Whole) (s : State) :
    (handleBeacon w s).cfg = s.cfg := by
  simp only [handleBeacon]
  (repeat' split) <;> simp

@[simp] theorem cfg_recordEmission (l : Lane) (instant : SN) (e : Emission) (s : State) :
    (recordEmission l instant e s).cfg = s.cfg := by simp [recordEmission]

@[simp] theorem cfg_originate (l : Lane) (instant : SN) (s : State) :
    (originate l instant s).cfg = s.cfg := by
  simp only [originate]
  (repeat' split) <;> simp

@[simp] theorem cfg_laneInstant (l : Lane) (old new : Date) (s : State) :
    (laneInstant l old new s).cfg = s.cfg := by
  simp only [laneInstant]
  (repeat' split) <;> simp

@[simp] theorem cfg_startReports (s : State) :
    (startReports s).cfg = s.cfg := by simp [startReports]

@[simp] theorem cfg_nextSlot (s : State) :
    (nextSlot s).cfg = s.cfg := by
  simp only [nextSlot]
  (repeat' split) <;> simp

@[simp] theorem cfg_reportNotSent (i : Nat) (s : State) :
    (reportNotSent i s).cfg = s.cfg := by simp [reportNotSent]

@[simp] theorem cfg_reportSent (i : Nat) (s : State) :
    (reportSent i s).cfg = s.cfg := by simp [reportSent]

@[simp] theorem cfg_sendReport (i : Nat) (s : State) :
    (sendReport i s).cfg = s.cfg := by
  simp only [sendReport]
  (repeat' split) <;> simp

@[simp] theorem cfg_setSelfDrift (v : Verdict) (s : State) :
    (setSelfDrift v s).cfg = s.cfg := by
  simp only [setSelfDrift]
  (repeat' split) <;> simp

@[simp] theorem cfg_clearSelfDrift (v : Verdict) (e : Episode) (s : State) :
    (clearSelfDrift v e s).cfg = s.cfg := by simp [clearSelfDrift]

@[simp] theorem cfg_judgeSelf (s : State) :
    (judgeSelf s).cfg = s.cfg := by
  simp only [judgeSelf]
  (repeat' split) <;> simp

@[simp] theorem cfg_warnPeer (i : Nat) (vote : Vote) (s : State) :
    (warnPeer i vote s).cfg = s.cfg := by simp [warnPeer]

@[simp] theorem cfg_unwarnPeer (i : Nat) (vote : Vote) (s : State) :
    (unwarnPeer i vote s).cfg = s.cfg := by simp [unwarnPeer]

@[simp] theorem cfg_judgePeer (s : State) (i : Nat) :
    (judgePeer s i).cfg = s.cfg := by
  simp only [judgePeer]
  (repeat' split) <;> simp

@[simp] theorem cfg_judgeRack (s : State) :
    (judgeRack s).cfg = s.cfg := by
  simp only [judgeRack]
  (repeat' split) <;> simp [foldl_cfg]

@[simp] theorem cfg_reportReceived (w : Whole) (s : State) :
    (reportReceived w s).cfg = s.cfg := by
  simp only [reportReceived]
  (repeat' split) <;> simp

@[simp] theorem cfg_driftSoftReset (s : State) :
    (driftSoftReset s).cfg = s.cfg := by simp [driftSoftReset]

@[simp] theorem cfg_freezeTrigger (t : Trigger) (s : State) :
    (freezeTrigger t s).cfg = s.cfg := by
  simp only [freezeTrigger]
  (repeat' split) <;> simp

@[simp] theorem cfg_releaseFreeze (s : State) :
    (releaseFreeze s).cfg = s.cfg := by
  simp only [releaseFreeze]
  (repeat' split) <;> simp

@[simp] theorem cfg_openMark (p : Port) (index : Nat) (e : MatchEntry) (ingress : Date) (s : State) :
    (openMark p index e ingress s).cfg = s.cfg := by
  simp only [openMark]
  (repeat' split) <;> simp

@[simp] theorem cfg_settleStamp (p : Port) (written : Bool) (s : State) :
    (settleStamp p written s).cfg = s.cfg := by
  simp only [settleStamp]
  (repeat' split) <;> simp

@[simp] theorem cfg_loseStamp (p : Port) (s : State) :
    (loseStamp p s).cfg = s.cfg := by simp [loseStamp]

@[simp] theorem cfg_readyArriving (p : Port) (edit : Edit) (s : State) :
    (readyArriving p edit s).cfg = s.cfg := by simp [readyArriving]

@[simp] theorem cfg_writeStampNow (p : Port) (c : DatingCtx) (bytes : List Byte) (s : State) :
    (writeStampNow p c bytes s).cfg = s.cfg := by simp [writeStampNow]

@[simp] theorem cfg_closeMark (p : Port) (bytes : List Byte) (stop len : Nat) (badFcs : Bool) (s : State) :
    (closeMark p bytes stop len badFcs s).cfg = s.cfg := by
  simp only [closeMark]
  (repeat' split) <;> simp

@[simp] theorem cfg_cutMark (p : Port) (bytes : List Byte) (len : Nat) (s : State) :
    (cutMark p bytes len s).cfg = s.cfg := by
  simp only [cutMark]
  (repeat' split) <;> simp

@[simp] theorem cfg_setRx (p : Port) (r : Option Rx) (s : State) :
    (setRx p r s).cfg = s.cfg := by simp [setRx]

@[simp] theorem cfg_forwardArriving (p : Port) (r : Rx) (ready : Bool) (s : State) :
    (forwardArriving p r ready s).1.cfg = s.cfg := by simp [forwardArriving]

@[simp] theorem cfg_passFrame (p : Port) (r : Rx) (s : State) :
    (passFrame p r s).cfg = s.cfg := by simp [passFrame]

@[simp] theorem cfg_settleArrived (p : Port) (bytes : List Byte) (s : State) :
    (settleArrived p bytes s).cfg = s.cfg := by
  simp only [settleArrived]
  (repeat' split) <;> simp

@[simp] theorem cfg_markFrame (p : Port) (r : Rx) (index : Nat) (e : MatchEntry) (s : State) :
    (markFrame p r index e s).cfg = s.cfg := by
  simp only [markFrame]
  (repeat' split) <;> simp

@[simp] theorem cfg_lookupFrame (p : Port) (r : Rx) (ended : Bool) (s : State) :
    (lookupFrame p r ended s).cfg = s.cfg := by
  simp only [lookupFrame]
  (repeat' split) <;> simp

@[simp] theorem cfg_growArriving (p : Port) (bytes : List Byte) (s : State) :
    (growArriving p bytes s).cfg = s.cfg := by simp [growArriving]

@[simp] theorem cfg_overrun (p : Port) (r : Rx) (s : State) :
    (overrun p r s).cfg = s.cfg := by
  simp only [overrun]
  (repeat' split) <;> simp

@[simp] theorem cfg_malformedFrame (w : Whole) (s : State) :
    (malformedFrame w s).cfg = s.cfg := by simp [malformedFrame]

@[simp] theorem cfg_dispatchL2 (w : Whole) (s : State) :
    (dispatchL2 w s).cfg = s.cfg := by
  simp only [dispatchL2]
  (repeat' split) <;> simp

@[simp] theorem cfg_acceptControl (w : Whole) (privilege : Privilege) (s : State) :
    (acceptControl w privilege s).cfg = s.cfg := by
  simp only [acceptControl]
  (repeat' split) <;> simp

@[simp] theorem cfg_dispatchUdp (w : Whole) (mgmt utx : Bool) (privilege : Privilege) (s : State) :
    (dispatchUdp w mgmt utx privilege s).cfg = s.cfg := by
  simp only [dispatchUdp]
  (repeat' split) <;> simp

@[simp] theorem cfg_endForwarded (p : Port) (r : Rx) (inLane : Bool) (s : State) :
    (endForwarded p r inLane s).cfg = s.cfg := by
  simp only [endForwarded]
  (repeat' split) <;> simp

@[simp] theorem cfg_endFrame (p : Port) (r : Rx) (s : State) :
    (endFrame p r s).cfg = s.cfg := by
  simp only [endFrame]
  (repeat' split) <;> simp

@[simp] theorem cfg_receiveEnd (p : Port) (r : Rx) (s : State) :
    (receiveEnd p r s).cfg = s.cfg := by
  simp only [receiveEnd]
  (repeat' split) <;> simp

@[simp] theorem cfg_oversizeArrives (p : Port) (more : List Byte) (s : State) :
    (oversizeArrives p more s).cfg = s.cfg := by
  simp only [oversizeArrives]
  (repeat' split) <;> simp

@[simp] theorem cfg_softResetNow (reload : Bool) (s : State) :
    (softResetNow reload s).cfg = s.cfg := by simp [softResetNow]

@[simp] theorem cfg_raiseAgain (expired : Bool) (s : State) :
    (raiseAgain expired s).cfg = s.cfg := by
  simp only [raiseAgain]
  (repeat' split) <;> simp

@[simp] theorem cfg_completeSoft (expired : Bool) (s : State) :
    (completeSoft expired s).cfg = s.cfg := by simp [completeSoft]

@[simp] theorem cfg_loseReception (p : Port) (more : List Byte) (s : State) :
    (loseReception p more s).cfg = s.cfg := by
  simp only [loseReception]
  (repeat' split) <;> simp

@[simp] theorem cfg_flushEgress (p : Port) (s : State) :
    (flushEgress p s).cfg = s.cfg := by
  simp only [flushEgress]
  (repeat' split) <;> simp

@[simp] theorem cfg_linkBackUp (p : Port) (s : State) :
    (linkBackUp p s).cfg = s.cfg := by
  simp only [linkBackUp]
  (repeat' split) <;> simp

@[simp] theorem cfg_linkComesUp (p : Port) (s : State) :
    (linkComesUp p s).cfg = s.cfg := by
  simp only [linkComesUp]
  (repeat' split) <;> simp

@[simp] theorem cfg_periodTo (moved : Date × Bool) (second : Bool) (s : State) :
    (periodTo moved second s).cfg = s.cfg := by
  simp only [periodTo]
  (repeat' split) <;> simp

@[simp] theorem cfg_clockPeriod (s : State) :
    (clockPeriod s).cfg = s.cfg := by simp [clockPeriod]

@[simp] theorem cfg_finishSave (written readBack : List Byte) (s : State) :
    (finishSave written readBack s).cfg = s.cfg := by
  simp only [finishSave]
  (repeat' split) <;> simp

@[simp] theorem cfg_endMemoryTest (pass : Bool) (s : State) :
    (endMemoryTest pass s).cfg = s.cfg := by
  simp only [endMemoryTest]
  (repeat' split) <;> simp

@[simp] theorem cfg_removeRecords (k : Nat) (s : State) :
    (removeRecords k s).cfg = s.cfg := by
  simp only [removeRecords]
  (repeat' split) <;> simp

@[simp] theorem cfg_testLog (s : State) :
    (testLog s).1.cfg = s.cfg := by
  simp only [testLog]
  (repeat' split) <;> simp

@[simp] theorem cfg_writeMatch (index : Byte) (a : MatchArg) (s : State) :
    (writeMatch index a s).1.cfg = s.cfg := by
  simp only [writeMatch]
  (repeat' split) <;> simp

@[simp] theorem cfg_copyActive (s : State) :
    (copyActive s).1.cfg = s.cfg := by
  simp only [copyActive]
  (repeat' split) <;> simp

@[simp] theorem cfg_swapCommand (arg : Byte) (s : State) :
    (swapCommand arg s).1.cfg = s.cfg := by
  simp only [swapCommand]
  (repeat' split) <;> simp

@[simp] theorem cfg_clearPosition (mask : BitVec 32) (s : State) (k : FaultKind) :
    (clearPosition mask s k).cfg = s.cfg := by
  simp only [clearPosition]
  (repeat' split) <;> simp

@[simp] theorem cfg_clearFlags (mask : BitVec 32) (s : State) :
    (clearFlags mask s).1.cfg = s.cfg := by
  simp only [clearFlags]
  (repeat' split) <;> simp [foldl_cfg]

@[simp] theorem cfg_barSource (index : Byte) (seconds : BitVec 16) (s : State) :
    (barSource index seconds s).1.cfg = s.cfg := by
  simp only [barSource]
  (repeat' split) <;> simp

@[simp] theorem cfg_saveSettings (s : State) :
    (saveSettings s).1.cfg = s.cfg := by
  simp only [saveSettings]
  (repeat' split) <;> simp

@[simp] theorem cfg_resetCommand (arg : Byte) (s : State) :
    (resetCommand arg s).1.cfg = s.cfg := by
  simp only [resetCommand]
  (repeat' split) <;> simp

/-! ### agent -/

theorem foldl_agent {α : Type} (f : State → α → State) (h : ∀ t a, (f t a).agent = t.agent) (s : State) (l : List α) :
    (l.foldl f s).agent = s.agent := by
  induction l generalizing s with
  | nil => rfl
  | cons a rest ih => rw [List.foldl_cons, ih, h]

@[simp] theorem agent_watchSecond (s : State) :
    (watchSecond s).agent = s.agent := by
  simp only [watchSecond]
  (repeat' split) <;> simp

@[simp] theorem agent_judgePulse (d : Option Nat) (s : State) :
    (judgePulse d s).agent = s.agent := by simp [judgePulse]

@[simp] theorem agent_setPort (s : State) (p : Port) (u : PortUnit) : (s.setPort p u).agent = s.agent := (rfl)
@[simp] theorem agent_count (s : State) (p : Port) (f : Stats → Stats) : (s.count p f).agent = s.agent := (rfl)
@[simp] theorem agent_setEcho (s : State) (p : Port) (e : Echo) : (s.setEcho p e).agent = s.agent := (rfl)
@[simp] theorem agent_setLane (s : State) (l : Lane) (u : LaneUnit) : (s.setLane l u).agent = s.agent := (rfl)
@[simp] theorem agent_setSource (s : State) (i : Nat) (e : Option SourceEntry) : (s.setSource i e).agent = s.agent := (rfl)
@[simp] theorem agent_setPeer (s : State) (i : Nat) (e : PeerDyn) : (s.setPeer i e).agent = s.agent := (rfl)
@[simp] theorem agent_setFault (s : State) (k : FaultKind) (r : FaultRec) : (s.setFault k r).agent = s.agent := (rfl)
@[simp] theorem agent_setForm (s : State) (a : AlertForm) (v : FormState) : (s.setForm a v).agent = s.agent := (rfl)
@[simp] theorem agent_admitFrame (p : Port) (need : Nat) (f : FwdFrame) (s : State) :
    (admitFrame p need f s).1.agent = s.agent := by
  simp only [admitFrame]
  (repeat' split) <;> simp

@[simp] theorem agent_offerTiming (p : Port) (tag : OrigTag) (header : Nat) (bytes : List Byte) (s : State) :
    (offerTiming p tag header bytes s).1.agent = s.agent := by
  simp only [offerTiming]
  (repeat' split) <;> simp

@[simp] theorem agent_offerGeneral (p : Port) (tag : OrigTag) (header : Nat) (bytes : List Byte) (s : State) :
    (offerGeneral p tag header bytes s).1.agent = s.agent := by
  simp only [offerGeneral]
  (repeat' split) <;> simp

@[simp] theorem agent_askPassesEgress (p : Port) (id : Nat) (s : State) :
    (askPassesEgress p id s).agent = s.agent := by
  simp only [askPassesEgress]
  (repeat' split) <;> simp

@[simp] theorem agent_reportPassesEgress (i : Nat) (rack ip : BitVec 32) (s : State) :
    (reportPassesEgress i rack ip s).agent = s.agent := by
  simp only [reportPassesEgress]
  (repeat' split) <;> simp

@[simp] theorem agent_recordEgress (p : Port) (tag : OrigTag) (s : State) :
    (recordEgress p tag s).agent = s.agent := by
  simp only [recordEgress]
  (repeat' split) <;> simp

@[simp] theorem agent_grantQueued (p : Port) (o : TxFrom) (q : QFrame) (s : State) :
    (grantQueued p o q s).agent = s.agent := by simp [grantQueued]

@[simp] theorem agent_grantForwarded (p : Port) (f : FwdFrame) (s : State) :
    (grantForwarded p f s).agent = s.agent := by simp [grantForwarded]

@[simp] theorem agent_arbitrate (p : Port) (s : State) :
    (arbitrate p s).agent = s.agent := by
  simp only [arbitrate]
  (repeat' split) <;> simp

@[simp] theorem agent_finishTx (p : Port) (t : Tx) (s : State) :
    (finishTx p t s).agent = s.agent := by
  simp only [finishTx]
  (repeat' split) <;> simp

@[simp] theorem agent_suppressAlert (a : AlertForm) (s : State) :
    (suppressAlert a s).agent = s.agent := by simp [suppressAlert]

@[simp] theorem agent_alertEvent (a : AlertForm) (clear : Bool) (subject : Subject) (d : AlertData) (s : State) :
    (alertEvent a clear subject d s).agent = s.agent := by
  simp only [alertEvent]
  (repeat' split) <;> simp

@[simp] theorem agent_levelNotice (s : State) :
    (levelNotice s).agent = s.agent := by
  simp only [levelNotice]
  (repeat' split) <;> simp

@[simp] theorem agent_offerBare (o : Offer) (s : State) :
    (offerBare o s).1.agent = s.agent := by
  simp only [offerBare]
  (repeat' split) <;> simp

@[simp] theorem agent_activate (k : FaultKind) (subject : Subject) (s : State) :
    (activate k subject s).agent = s.agent := by simp [activate]

@[simp] theorem agent_countRaise (k : FaultKind) (s : State) :
    (countRaise k s).agent = s.agent := by simp [countRaise]

@[simp] theorem agent_deactivate (k : FaultKind) (s : State) :
    (deactivate k s).agent = s.agent := by simp [deactivate]

@[simp] theorem agent_faultAlert (k : FaultKind) (clear : Bool) (subject : Subject) (d : AlertData) (s : State) :
    (faultAlert k clear subject d s).agent = s.agent := by
  simp only [faultAlert]
  (repeat' split) <;> simp

@[simp] theorem agent_raiseLogFull (s : State) :
    (raiseLogFull s).agent = s.agent := by
  simp only [raiseLogFull]
  (repeat' split) <;> simp

@[simp] theorem agent_clearLogFull (s : State) :
    (clearLogFull s).agent = s.agent := by
  simp only [clearLogFull]
  (repeat' split) <;> simp

@[simp] theorem agent_offerRecord (o : Offer) (s : State) :
    (offerRecord o s).agent = s.agent := by
  simp only [offerRecord]
  (repeat' split) <;> simp

@[simp] theorem agent_raiseLogFullAgain (s : State) :
    (raiseLogFullAgain s).agent = s.agent := by
  simp only [raiseLogFullAgain]
  (repeat' split) <;> simp

@[simp] theorem agent_raiseFault (k : FaultKind) (subject : Subject) (record : Bool) (d : AlertData) (s : State) :
    (raiseFault k subject record d s).agent = s.agent := by
  simp only [raiseFault]
  (repeat' split) <;> simp

@[simp] theorem agent_clearFault (k : FaultKind) (subject : Subject) (record : Bool) (d : AlertData) (s : State) :
    (clearFault k subject record d s).agent = s.agent := by
  simp only [clearFault]
  (repeat' split) <;> simp

@[simp] theorem agent_handRate (r : Int) (s : State) :
    (handRate r s).agent = s.agent := by simp [handRate]

@[simp] theorem agent_setServoState (st : ServoState) (s : State) :
    (setServoState st s).agent = s.agent := by simp [setServoState]

@[simp] theorem agent_offerState (old : ServoState) (s : State) :
    (offerState old s).agent = s.agent := by simp [offerState]

@[simp] theorem agent_servoFollows (s : State) :
    (servoFollows s).agent = s.agent := by simp [servoFollows]

@[simp] theorem agent_servoSwitches (s : State) :
    (servoSwitches s).agent = s.agent := by simp [servoSwitches]

@[simp] theorem agent_servoHolds (s : State) :
    (servoHolds s).agent = s.agent := by simp [servoHolds]

@[simp] theorem agent_setSourceState (i : Nat) (st : SourceState) (s : State) :
    (setSourceState i st s).agent = s.agent := by
  simp only [setSourceState]
  (repeat' split) <;> simp

@[simp] theorem agent_unselect (i : Nat) (s : State) :
    (unselect i s).agent = s.agent := by
  simp only [unselect]
  (repeat' split) <;> simp

@[simp] theorem agent_clearHoldoverExpired (s : State) :
    (clearHoldoverExpired s).agent = s.agent := by simp [clearHoldoverExpired]

@[simp] theorem agent_offerStateIfChanged (before : ServoState) (s : State) :
    (offerStateIfChanged before s).agent = s.agent := by
  simp only [offerStateIfChanged]
  (repeat' split) <;> simp

@[simp] theorem agent_select (old : Option (Nat × SourceEntry)) (new : Nat × SourceEntry) (reason : Reason) (sampled : Bool) (s : State) :
    (select old new reason sampled s).agent = s.agent := by
  simp only [select]
  (repeat' split) <;> simp

@[simp] theorem agent_endSelection (old : Nat × SourceEntry) (reason : Reason) (s : State) :
    (endSelection old reason s).agent = s.agent := by
  simp only [endSelection]
  (repeat' split) <;> simp

@[simp] theorem agent_reevaluate (old : Option (Nat × SourceEntry)) (why : Reason) (own : Option Nat) (s : State) :
    (reevaluate old why own s).agent = s.agent := by
  simp only [reevaluate]
  (repeat' split) <;> simp

@[simp] theorem agent_reevaluateOnHold (before : Bool) (s : State) :
    (reevaluateOnHold before s).agent = s.agent := by
  simp only [reevaluateOnHold]
  (repeat' split) <;> simp

@[simp] theorem agent_raiseWithHold (k : FaultKind) (subject : Subject) (record : Bool) (d : AlertData) (s : State) :
    (raiseWithHold k subject record d s).agent = s.agent := by simp [raiseWithHold]

@[simp] theorem agent_clearWithHold (k : FaultKind) (subject : Subject) (record : Bool) (d : AlertData) (s : State) :
    (clearWithHold k subject record d s).agent = s.agent := by simp [clearWithHold]

@[simp] theorem agent_secondPulse (s : State) :
    (secondPulse s).agent = s.agent := by
  simp only [secondPulse]
  (repeat' split) <;> simp

@[simp] theorem agent_performSwap (s : State) :
    (performSwap s).agent = s.agent := by simp [performSwap]

@[simp] theorem agent_armedSwap (s : State) :
    (armedSwap s).agent = s.agent := by
  simp only [armedSwap]
  (repeat' split) <;> simp

@[simp] theorem agent_secondBoundary (s : State) :
    (secondBoundary s).agent = s.agent := by simp [secondBoundary]

@[simp] theorem agent_stepTo (moved : Date × Bool) (s : State) :
    (stepTo moved s).agent = s.agent := by
  simp only [stepTo]
  (repeat' split) <;> simp

@[simp] theorem agent_forwardStep (amount : Nat) (s : State) :
    (forwardStep amount s).agent = s.agent := by simp [forwardStep]

@[simp] theorem agent_load (d : Date) (s : State) :
    (load d s).agent = s.agent := by
  simp only [load]
  (repeat' split) <;> simp

@[simp] theorem agent_uptimeSecond (s : State) :
    (uptimeSecond s).agent = s.agent := by
  simp only [uptimeSecond]
  (repeat' split) <;> simp

@[simp] theorem agent_rememberStamp (d : SN) (s : State) :
    (rememberStamp d s).agent = s.agent := by simp [rememberStamp]

@[simp] theorem agent_leaveLocked (s : State) :
    (leaveLocked s).agent = s.agent := by
  simp only [leaveLocked]
  (repeat' split) <;> simp

@[simp] theorem agent_afterStep (amount : Nat) (s : State) :
    (afterStep amount s).agent = s.agent := by simp [afterStep]

@[simp] theorem agent_servoStep (amount : Nat) (s : State) :
    (servoStep amount s).agent = s.agent := by simp [servoStep]

@[simp] theorem agent_startCatchDown (s : State) :
    (startCatchDown s).agent = s.agent := by simp [startCatchDown]

@[simp] theorem agent_filterUpdate (theta k : Int) (s : State) :
    (filterUpdate theta k s).agent = s.agent := by
  simp only [filterUpdate]
  (repeat' split) <;> simp

@[simp] theorem agent_lockCounting (theta : Int) (s : State) :
    (lockCounting theta s).agent = s.agent := by
  simp only [lockCounting]
  (repeat' split) <;> simp

@[simp] theorem agent_sampleInUnset (x : ServoSample) (s : State) :
    (sampleInUnset x s).agent = s.agent := by simp [sampleInUnset]

@[simp] theorem agent_filterAndLock (x : ServoSample) (s : State) :
    (filterAndLock x s).agent = s.agent := by simp [filterAndLock]

@[simp] theorem agent_sampleInCatchDown (x : ServoSample) (s : State) :
    (sampleInCatchDown x s).agent = s.agent := by
  simp only [sampleInCatchDown]
  (repeat' split) <;> simp

@[simp] theorem agent_sampleOutside (x : ServoSample) (s : State) :
    (sampleOutside x s).agent = s.agent := by
  simp only [sampleOutside]
  (repeat' split) <;> simp

@[simp] theorem agent_sampleInFollow (x : ServoSample) (s : State) :
    (sampleInFollow x s).agent = s.agent := by
  simp only [sampleInFollow]
  (repeat' split) <;> simp

@[simp] theorem agent_takeSample (x : ServoSample) (s : State) :
    (takeSample x s).agent = s.agent := by
  simp only [takeSample]
  (repeat' split) <;> simp

@[simp] theorem agent_expireHoldover (s : State) :
    (expireHoldover s).agent = s.agent := by simp [expireHoldover]

@[simp] theorem agent_unexpireHoldover (s : State) :
    (unexpireHoldover s).agent = s.agent := by simp [unexpireHoldover]

@[simp] theorem agent_judgeHoldover (s : State) :
    (judgeHoldover s).agent = s.agent := by
  simp only [judgeHoldover]
  (repeat' split) <;> simp

@[simp] theorem agent_clampF (s : State) :
    (clampF s).agent = s.agent := by
  simp only [clampF]
  (repeat' split) <;> simp

@[simp] theorem agent_applyServo (p : ServoParams) (width limit : Nat) (s : State) :
    (applyServo p width limit s).agent = s.agent := by
  simp only [applyServo]
  (repeat' split) <;> simp

@[simp] theorem agent_setDateTo (d : SN) (s : State) :
    (setDateTo d s).1.agent = s.agent := by
  simp only [setDateTo]
  (repeat' split) <;> simp

@[simp] theorem agent_setTrimTo (f : Int) (s : State) :
    (setTrimTo f s).1.agent = s.agent := by
  simp only [setTrimTo]
  (repeat' split) <;> simp

@[simp] theorem agent_loadTrim (s : State) :
    (loadTrim s).agent = s.agent := by simp [loadTrim]

@[simp] theorem agent_servoSoftReset (s : State) :
    (servoSoftReset s).agent = s.agent := by
  simp only [servoSoftReset]
  (repeat' split) <;> simp

@[simp] theorem agent_forwardWhole (w : Whole) (edit : Edit) (s : State) :
    (forwardWhole w edit s).agent = s.agent := by
  simp only [forwardWhole]
  (repeat' split) <;> simp

@[simp] theorem agent_takeInterval (p : Port) (s : State) :
    (takeInterval p s).agent = s.agent := by
  simp only [takeInterval]
  (repeat' split) <;> simp

@[simp] theorem agent_restartInterval (p : Port) (s : State) :
    (restartInterval p s).agent = s.agent := by simp [restartInterval]

@[simp] theorem agent_startEcho (p : Port) (s : State) :
    (startEcho p s).agent = s.agent := by
  simp only [startEcho]
  (repeat' split) <;> simp

@[simp] theorem agent_takeDelay (p : Port) (x : Nat) (s : State) :
    (takeDelay p x s).agent = s.agent := by simp [takeDelay]

@[simp] theorem agent_endExchange (w : Whole) (s : State) :
    (endExchange w s).agent = s.agent := by
  simp only [endExchange]
  (repeat' split) <;> simp

@[simp] theorem agent_answerReceived (w : Whole) (s : State) :
    (answerReceived w s).agent = s.agent := by
  simp only [answerReceived]
  (repeat' split) <;> simp

@[simp] theorem agent_echoTimesOut (p : Port) (s : State) :
    (echoTimesOut p s).agent = s.agent := by simp [echoTimesOut]

@[simp] theorem agent_echoLinkDown (p : Port) (s : State) :
    (echoLinkDown p s).agent = s.agent := by
  simp only [echoLinkDown]
  (repeat' split) <;> simp

@[simp] theorem agent_echoLinkUp (p : Port) (s : State) :
    (echoLinkUp p s).agent = s.agent := by
  simp only [echoLinkUp]
  (repeat' split) <;> simp

@[simp] theorem agent_echoRewritten (p : Port) (old : PortRec) (s : State) :
    (echoRewritten p old s).agent = s.agent := by
  simp only [echoRewritten]
  (repeat' split) <;> simp

@[simp] theorem agent_clearStale (p : Port) (s : State) :
    (clearStale p s).agent = s.agent := by simp [clearStale]

@[simp] theorem agent_answerAsk (w : Whole) (s : State) :
    (answerAsk w s).agent = s.agent := by
  simp only [answerAsk]
  (repeat' split) <;> simp

@[simp] theorem agent_handleAsk (w : Whole) (s : State) :
    (handleAsk w s).agent = s.agent := by
  simp only [handleAsk]
  (repeat' split) <;> simp

@[simp] theorem agent_handleAnswer (w : Whole) (s : State) :
    (handleAnswer w s).agent = s.agent := by
  simp only [handleAnswer]
  (repeat' split) <;> simp

@[simp] theorem agent_afterBeacon (w : Whole) (i p : Nat) (a : Int) (old : Option (Nat × SourceEntry)) (s : State) :
    (afterBeacon w i p a old s).agent = s.agent := by
  simp only [afterBeacon]
  (repeat' split) <;> simp

@[simp] theorem agent_beaconIntoTable (w : Whole) (s : State) :
    (beaconIntoTable w s).agent = s.agent := by
  simp only [beaconIntoTable]
  (repeat' split) <;> simp

@[simp] theorem agent_goStale (i : Nat) (s : State) :
    (goStale i s).agent = s.agent := by simp [goStale]

@[simp] theorem agent_afterBar (old : Option (Nat × SourceEntry)) (s : State) :
    (afterBar old s).agent = s.agent := by simp [afterBar]

@[simp] theorem agent_endBar (i : Nat) (e : SourceEntry) (s : State) :
    (endBar i e s).agent = s.agent := by
  simp only [endBar]
  (repeat' split) <;> simp

@[simp] theorem agent_setBar (i : Nat) (e : SourceEntry) (seconds : Nat) (s : State) :
    (setBar i e seconds s).agent = s.agent := by
  simp only [setBar]
  (repeat' split) <;> simp

@[simp] theorem agent_barEntry (i : Nat) (e : SourceEntry) (seconds : Nat) (s : State) :
    (barEntry i e seconds s).agent = s.agent := by
  simp only [barEntry]
  (repeat' split) <;> simp

@[simp] theorem agent_barSelected (seconds : Nat) (s : State) :
    (barSelected seconds s).agent = s.agent := by
  simp only [barSelected]
  (repeat' split) <;> simp

@[simp] theorem agent_transitBeacon (w : Whole) (p : Nat) (s : State) :
    (transitBeacon w p s).agent = s.agent := by
  simp only [transitBeacon]
  (repeat' split) <;> simp

@[simp] theorem agent_beaconUnit (w : Whole) (p : Nat) (s : State) :
    (beaconUnit w p s).agent = s.agent := by
  simp only [beaconUnit]
  (repeat' split) <;> simp

@[simp] theorem agent_handleBeacon (w : Whole) (s : State) :
    (handleBeacon w s).agent = s.agent := by
  simp only [handleBeacon]
  (repeat' split) <;> simp

@[simp] theorem agent_recordEmission (l : Lane) (instant : SN) (e : Emission) (s : State) :
    (recordEmission l instant e s).agent = s.agent := by simp [recordEmission]

@[simp] theorem agent_originate (l : Lane) (instant : SN) (s : State) :
    (originate l instant s).agent = s.agent := by
  simp only [originate]
  (repeat' split) <;> simp

@[simp] theorem agent_laneInstant (l : Lane) (old new : Date) (s : State) :
    (laneInstant l old new s).agent = s.agent := by
  simp only [laneInstant]
  (repeat' split) <;> simp

@[simp] theorem agent_startReports (s : State) :
    (startReports s).agent = s.agent := by simp [startReports]

@[simp] theorem agent_nextSlot (s : State) :
    (nextSlot s).agent = s.agent := by
  simp only [nextSlot]
  (repeat' split) <;> simp

@[simp] theorem agent_reportNotSent (i : Nat) (s : State) :
    (reportNotSent i s).agent = s.agent := by simp [reportNotSent]

@[simp] theorem agent_reportSent (i : Nat) (s : State) :
    (reportSent i s).agent = s.agent := by simp [reportSent]

@[simp] theorem agent_sendReport (i : Nat) (s : State) :
    (sendReport i s).agent = s.agent := by
  simp only [sendReport]
  (repeat' split) <;> simp

@[simp] theorem agent_setSelfDrift (v : Verdict) (s : State) :
    (setSelfDrift v s).agent = s.agent := by
  simp only [setSelfDrift]
  (repeat' split) <;> simp

@[simp] theorem agent_clearSelfDrift (v : Verdict) (e : Episode) (s : State) :
    (clearSelfDrift v e s).agent = s.agent := by simp [clearSelfDrift]

@[simp] theorem agent_judgeSelf (s : State) :
    (judgeSelf s).agent = s.agent := by
  simp only [judgeSelf]
  (repeat' split) <;> simp

@[simp] theorem agent_warnPeer (i : Nat) (vote : Vote) (s : State) :
    (warnPeer i vote s).agent = s.agent := by simp [warnPeer]

@[simp] theorem agent_unwarnPeer (i : Nat) (vote : Vote) (s : State) :
    (unwarnPeer i vote s).agent = s.agent := by simp [unwarnPeer]

@[simp] theorem agent_judgePeer (s : State) (i : Nat) :
    (judgePeer s i).agent = s.agent := by
  simp only [judgePeer]
  (repeat' split) <;> simp

@[simp] theorem agent_judgeRack (s : State) :
    (judgeRack s).agent = s.agent := by
  simp only [judgeRack]
  (repeat' split) <;> simp [foldl_agent]

@[simp] theorem agent_reportReceived (w : Whole) (s : State) :
    (reportReceived w s).agent = s.agent := by
  simp only [reportReceived]
  (repeat' split) <;> simp

@[simp] theorem agent_setPeerCfg (i : Nat) (c : PeerCfg) (s : State) :
    (setPeerCfg i c s).agent = s.agent := by simp [setPeerCfg]

@[simp] theorem agent_writePeerAt (i : Nat) (c : PeerCfg) (s : State) :
    (writePeerAt i c s).agent = s.agent := by
  simp only [writePeerAt]
  (repeat' split) <;> simp

@[simp] theorem agent_clearPeerAt (i : Nat) (s : State) :
    (clearPeerAt i s).agent = s.agent := by
  simp only [clearPeerAt]
  (repeat' split) <;> simp

@[simp] theorem agent_applyDrift (p : DriftParams) (holdoff threshold : Nat) (s : State) :
    (applyDrift p holdoff threshold s).agent = s.agent := by
  simp only [applyDrift]
  (repeat' split) <;> simp

@[simp] theorem agent_driftSoftReset (s : State) :
    (driftSoftReset s).agent = s.agent := by simp [driftSoftReset]

@[simp] theorem agent_freezeTrigger (t : Trigger) (s : State) :
    (freezeTrigger t s).agent = s.agent := by
  simp only [freezeTrigger]
  (repeat' split) <;> simp

@[simp] theorem agent_releaseFreeze (s : State) :
    (releaseFreeze s).agent = s.agent := by
  simp only [releaseFreeze]
  (repeat' split) <;> simp

@[simp] theorem agent_openMark (p : Port) (index : Nat) (e : MatchEntry) (ingress : Date) (s : State) :
    (openMark p index e ingress s).agent = s.agent := by
  simp only [openMark]
  (repeat' split) <;> simp

@[simp] theorem agent_settleStamp (p : Port) (written : Bool) (s : State) :
    (settleStamp p written s).agent = s.agent := by
  simp only [settleStamp]
  (repeat' split) <;> simp

@[simp] theorem agent_loseStamp (p : Port) (s : State) :
    (loseStamp p s).agent = s.agent := by simp [loseStamp]

@[simp] theorem agent_readyArriving (p : Port) (edit : Edit) (s : State) :
    (readyArriving p edit s).agent = s.agent := by simp [readyArriving]

@[simp] theorem agent_writeStampNow (p : Port) (c : DatingCtx) (bytes : List Byte) (s : State) :
    (writeStampNow p c bytes s).agent = s.agent := by simp [writeStampNow]

@[simp] theorem agent_closeMark (p : Port) (bytes : List Byte) (stop len : Nat) (badFcs : Bool) (s : State) :
    (closeMark p bytes stop len badFcs s).agent = s.agent := by
  simp only [closeMark]
  (repeat' split) <;> simp

@[simp] theorem agent_cutMark (p : Port) (bytes : List Byte) (len : Nat) (s : State) :
    (cutMark p bytes len s).agent = s.agent := by
  simp only [cutMark]
  (repeat' split) <;> simp

@[simp] theorem agent_setRx (p : Port) (r : Option Rx) (s : State) :
    (setRx p r s).agent = s.agent := by simp [setRx]

@[simp] theorem agent_forwardArriving (p : Port) (r : Rx) (ready : Bool) (s : State) :
    (forwardArriving p r ready s).1.agent = s.agent := by simp [forwardArriving]

@[simp] theorem agent_passFrame (p : Port) (r : Rx) (s : State) :
    (passFrame p r s).agent = s.agent := by simp [passFrame]

@[simp] theorem agent_settleArrived (p : Port) (bytes : List Byte) (s : State) :
    (settleArrived p bytes s).agent = s.agent := by
  simp only [settleArrived]
  (repeat' split) <;> simp

@[simp] theorem agent_markFrame (p : Port) (r : Rx) (index : Nat) (e : MatchEntry) (s : State) :
    (markFrame p r index e s).agent = s.agent := by
  simp only [markFrame]
  (repeat' split) <;> simp

@[simp] theorem agent_lookupFrame (p : Port) (r : Rx) (ended : Bool) (s : State) :
    (lookupFrame p r ended s).agent = s.agent := by
  simp only [lookupFrame]
  (repeat' split) <;> simp

@[simp] theorem agent_growArriving (p : Port) (bytes : List Byte) (s : State) :
    (growArriving p bytes s).agent = s.agent := by simp [growArriving]

@[simp] theorem agent_overrun (p : Port) (r : Rx) (s : State) :
    (overrun p r s).agent = s.agent := by
  simp only [overrun]
  (repeat' split) <;> simp

@[simp] theorem agent_malformedFrame (w : Whole) (s : State) :
    (malformedFrame w s).agent = s.agent := by simp [malformedFrame]

@[simp] theorem agent_dispatchL2 (w : Whole) (s : State) :
    (dispatchL2 w s).agent = s.agent := by
  simp only [dispatchL2]
  (repeat' split) <;> simp

@[simp] theorem agent_acceptControl (w : Whole) (privilege : Privilege) (s : State) :
    (acceptControl w privilege s).agent = s.agent := by
  simp only [acceptControl]
  (repeat' split) <;> simp

@[simp] theorem agent_dispatchUdp (w : Whole) (mgmt utx : Bool) (privilege : Privilege) (s : State) :
    (dispatchUdp w mgmt utx privilege s).agent = s.agent := by
  simp only [dispatchUdp]
  (repeat' split) <;> simp

@[simp] theorem agent_endForwarded (p : Port) (r : Rx) (inLane : Bool) (s : State) :
    (endForwarded p r inLane s).agent = s.agent := by
  simp only [endForwarded]
  (repeat' split) <;> simp

@[simp] theorem agent_endFrame (p : Port) (r : Rx) (s : State) :
    (endFrame p r s).agent = s.agent := by
  simp only [endFrame]
  (repeat' split) <;> simp

@[simp] theorem agent_receiveEnd (p : Port) (r : Rx) (s : State) :
    (receiveEnd p r s).agent = s.agent := by
  simp only [receiveEnd]
  (repeat' split) <;> simp

@[simp] theorem agent_oversizeArrives (p : Port) (more : List Byte) (s : State) :
    (oversizeArrives p more s).agent = s.agent := by
  simp only [oversizeArrives]
  (repeat' split) <;> simp

@[simp] theorem agent_raiseAgain (expired : Bool) (s : State) :
    (raiseAgain expired s).agent = s.agent := by
  simp only [raiseAgain]
  (repeat' split) <;> simp

@[simp] theorem agent_completeSoft (expired : Bool) (s : State) :
    (completeSoft expired s).agent = s.agent := by simp [completeSoft]

@[simp] theorem agent_enterRunning (s : State) :
    (enterRunning s).agent = s.agent := by simp [enterRunning]

@[simp] theorem agent_loseReception (p : Port) (more : List Byte) (s : State) :
    (loseReception p more s).agent = s.agent := by
  simp only [loseReception]
  (repeat' split) <;> simp

@[simp] theorem agent_flushEgress (p : Port) (s : State) :
    (flushEgress p s).agent = s.agent := by
  simp only [flushEgress]
  (repeat' split) <;> simp

@[simp] theorem agent_linkBackUp (p : Port) (s : State) :
    (linkBackUp p s).agent = s.agent := by
  simp only [linkBackUp]
  (repeat' split) <;> simp

@[simp] theorem agent_linkComesUp (p : Port) (s : State) :
    (linkComesUp p s).agent = s.agent := by
  simp only [linkComesUp]
  (repeat' split) <;> simp

@[simp] theorem agent_periodTo (moved : Date × Bool) (second : Bool) (s : State) :
    (periodTo moved second s).agent = s.agent := by
  simp only [periodTo]
  (repeat' split) <;> simp

@[simp] theorem agent_clockPeriod (s : State) :
    (clockPeriod s).agent = s.agent := by simp [clockPeriod]

@[simp] theorem agent_endMemoryTest (pass : Bool) (s : State) :
    (endMemoryTest pass s).agent = s.agent := by
  simp only [endMemoryTest]
  (repeat' split) <;> simp

@[simp] theorem agent_removeRecords (k : Nat) (s : State) :
    (removeRecords k s).agent = s.agent := by
  simp only [removeRecords]
  (repeat' split) <;> simp

@[simp] theorem agent_testLog (s : State) :
    (testLog s).1.agent = s.agent := by
  simp only [testLog]
  (repeat' split) <;> simp

@[simp] theorem agent_writeMatch (index : Byte) (a : MatchArg) (s : State) :
    (writeMatch index a s).1.agent = s.agent := by
  simp only [writeMatch]
  (repeat' split) <;> simp

@[simp] theorem agent_copyActive (s : State) :
    (copyActive s).1.agent = s.agent := by
  simp only [copyActive]
  (repeat' split) <;> simp

@[simp] theorem agent_swapCommand (arg : Byte) (s : State) :
    (swapCommand arg s).1.agent = s.agent := by
  simp only [swapCommand]
  (repeat' split) <;> simp

@[simp] theorem agent_writePort (a : PortArg) (s : State) :
    (writePort a s).1.agent = s.agent := by
  simp only [writePort]
  (repeat' split) <;> simp

@[simp] theorem agent_writeLane (a : LaneArg) (s : State) :
    (writeLane a s).1.agent = s.agent := by
  simp only [writeLane]
  (repeat' split) <;> simp

@[simp] theorem agent_writeOverride (a : OverrideArg) (s : State) :
    (writeOverride a s).1.agent = s.agent := by
  simp only [writeOverride]
  (repeat' split) <;> simp

@[simp] theorem agent_writePeer (a : PeerArg) (s : State) :
    (writePeer a s).1.agent = s.agent := by
  simp only [writePeer]
  (repeat' split) <;> simp

@[simp] theorem agent_clearPeer (index : Byte) (s : State) :
    (clearPeer index s).1.agent = s.agent := by
  simp only [clearPeer]
  (repeat' split) <;> simp

@[simp] theorem agent_writeServo (a : ServoArg) (s : State) :
    (writeServo a s).1.agent = s.agent := by simp [writeServo]

@[simp] theorem agent_writeDrift (a : DriftArg) (s : State) :
    (writeDrift a s).1.agent = s.agent := by simp [writeDrift]

@[simp] theorem agent_applyResponse (k : FaultKind) (r : Response) (s : State) :
    (applyResponse k r s).agent = s.agent := by
  simp only [applyResponse]
  (repeat' split) <;> simp

@[simp] theorem agent_writeFault (kind response : Byte) (s : State) :
    (writeFault kind response s).1.agent = s.agent := by
  simp only [writeFault]
  (repeat' split) <;> simp

@[simp] theorem agent_clearPosition (mask : BitVec 32) (s : State) (k : FaultKind) :
    (clearPosition mask s k).agent = s.agent := by
  simp only [clearPosition]
  (repeat' split) <;> simp

@[simp] theorem agent_clearFlags (mask : BitVec 32) (s : State) :
    (clearFlags mask s).1.agent = s.agent := by
  simp only [clearFlags]
  (repeat' split) <;> simp [foldl_agent]

@[simp] theorem agent_barSource (index : Byte) (seconds : BitVec 16) (s : State) :
    (barSource index seconds s).1.agent = s.agent := by
  simp only [barSource]
  (repeat' split) <;> simp

/-! ### matchTab -/

theorem foldl_matchTab {α : Type} (f : State → α → State) (h : ∀ t a, (f t a).matchTab = t.matchTab) (s : State) (l : List α) :
    (l.foldl f s).matchTab = s.matchTab := by
  induction l generalizing s with
  | nil => rfl
  | cons a rest ih => rw [List.foldl_cons, ih, h]

@[simp] theorem matchTab_watchSecond (s : State) :
    (watchSecond s).matchTab = s.matchTab := by
  simp only [watchSecond]
  (repeat' split) <;> simp

@[simp] theorem matchTab_judgePulse (d : Option Nat) (s : State) :
    (judgePulse d s).matchTab = s.matchTab := by simp [judgePulse]

@[simp] theorem matchTab_setPort (s : State) (p : Port) (u : PortUnit) : (s.setPort p u).matchTab = s.matchTab := (rfl)
@[simp] theorem matchTab_count (s : State) (p : Port) (f : Stats → Stats) : (s.count p f).matchTab = s.matchTab := (rfl)
@[simp] theorem matchTab_setEcho (s : State) (p : Port) (e : Echo) : (s.setEcho p e).matchTab = s.matchTab := (rfl)
@[simp] theorem matchTab_setLane (s : State) (l : Lane) (u : LaneUnit) : (s.setLane l u).matchTab = s.matchTab := (rfl)
@[simp] theorem matchTab_setSource (s : State) (i : Nat) (e : Option SourceEntry) : (s.setSource i e).matchTab = s.matchTab := (rfl)
@[simp] theorem matchTab_setPeer (s : State) (i : Nat) (e : PeerDyn) : (s.setPeer i e).matchTab = s.matchTab := (rfl)
@[simp] theorem matchTab_setFault (s : State) (k : FaultKind) (r : FaultRec) : (s.setFault k r).matchTab = s.matchTab := (rfl)
@[simp] theorem matchTab_setForm (s : State) (a : AlertForm) (v : FormState) : (s.setForm a v).matchTab = s.matchTab := (rfl)
@[simp] theorem matchTab_admitFrame (p : Port) (need : Nat) (f : FwdFrame) (s : State) :
    (admitFrame p need f s).1.matchTab = s.matchTab := by
  simp only [admitFrame]
  (repeat' split) <;> simp

@[simp] theorem matchTab_offerTiming (p : Port) (tag : OrigTag) (header : Nat) (bytes : List Byte) (s : State) :
    (offerTiming p tag header bytes s).1.matchTab = s.matchTab := by
  simp only [offerTiming]
  (repeat' split) <;> simp

@[simp] theorem matchTab_offerGeneral (p : Port) (tag : OrigTag) (header : Nat) (bytes : List Byte) (s : State) :
    (offerGeneral p tag header bytes s).1.matchTab = s.matchTab := by
  simp only [offerGeneral]
  (repeat' split) <;> simp

@[simp] theorem matchTab_askPassesEgress (p : Port) (id : Nat) (s : State) :
    (askPassesEgress p id s).matchTab = s.matchTab := by
  simp only [askPassesEgress]
  (repeat' split) <;> simp

@[simp] theorem matchTab_reportPassesEgress (i : Nat) (rack ip : BitVec 32) (s : State) :
    (reportPassesEgress i rack ip s).matchTab = s.matchTab := by
  simp only [reportPassesEgress]
  (repeat' split) <;> simp

@[simp] theorem matchTab_recordEgress (p : Port) (tag : OrigTag) (s : State) :
    (recordEgress p tag s).matchTab = s.matchTab := by
  simp only [recordEgress]
  (repeat' split) <;> simp

@[simp] theorem matchTab_grantQueued (p : Port) (o : TxFrom) (q : QFrame) (s : State) :
    (grantQueued p o q s).matchTab = s.matchTab := by simp [grantQueued]

@[simp] theorem matchTab_grantForwarded (p : Port) (f : FwdFrame) (s : State) :
    (grantForwarded p f s).matchTab = s.matchTab := by simp [grantForwarded]

@[simp] theorem matchTab_arbitrate (p : Port) (s : State) :
    (arbitrate p s).matchTab = s.matchTab := by
  simp only [arbitrate]
  (repeat' split) <;> simp

@[simp] theorem matchTab_finishTx (p : Port) (t : Tx) (s : State) :
    (finishTx p t s).matchTab = s.matchTab := by
  simp only [finishTx]
  (repeat' split) <;> simp

@[simp] theorem matchTab_suppressAlert (a : AlertForm) (s : State) :
    (suppressAlert a s).matchTab = s.matchTab := by simp [suppressAlert]

@[simp] theorem matchTab_alertEvent (a : AlertForm) (clear : Bool) (subject : Subject) (d : AlertData) (s : State) :
    (alertEvent a clear subject d s).matchTab = s.matchTab := by
  simp only [alertEvent]
  (repeat' split) <;> simp

@[simp] theorem matchTab_levelNotice (s : State) :
    (levelNotice s).matchTab = s.matchTab := by
  simp only [levelNotice]
  (repeat' split) <;> simp

@[simp] theorem matchTab_offerBare (o : Offer) (s : State) :
    (offerBare o s).1.matchTab = s.matchTab := by
  simp only [offerBare]
  (repeat' split) <;> simp

@[simp] theorem matchTab_activate (k : FaultKind) (subject : Subject) (s : State) :
    (activate k subject s).matchTab = s.matchTab := by simp [activate]

@[simp] theorem matchTab_countRaise (k : FaultKind) (s : State) :
    (countRaise k s).matchTab = s.matchTab := by simp [countRaise]

@[simp] theorem matchTab_deactivate (k : FaultKind) (s : State) :
    (deactivate k s).matchTab = s.matchTab := by simp [deactivate]

@[simp] theorem matchTab_faultAlert (k : FaultKind) (clear : Bool) (subject : Subject) (d : AlertData) (s : State) :
    (faultAlert k clear subject d s).matchTab = s.matchTab := by
  simp only [faultAlert]
  (repeat' split) <;> simp

@[simp] theorem matchTab_raiseLogFull (s : State) :
    (raiseLogFull s).matchTab = s.matchTab := by
  simp only [raiseLogFull]
  (repeat' split) <;> simp

@[simp] theorem matchTab_clearLogFull (s : State) :
    (clearLogFull s).matchTab = s.matchTab := by
  simp only [clearLogFull]
  (repeat' split) <;> simp

@[simp] theorem matchTab_offerRecord (o : Offer) (s : State) :
    (offerRecord o s).matchTab = s.matchTab := by
  simp only [offerRecord]
  (repeat' split) <;> simp

@[simp] theorem matchTab_raiseLogFullAgain (s : State) :
    (raiseLogFullAgain s).matchTab = s.matchTab := by
  simp only [raiseLogFullAgain]
  (repeat' split) <;> simp

@[simp] theorem matchTab_raiseFault (k : FaultKind) (subject : Subject) (record : Bool) (d : AlertData) (s : State) :
    (raiseFault k subject record d s).matchTab = s.matchTab := by
  simp only [raiseFault]
  (repeat' split) <;> simp

@[simp] theorem matchTab_clearFault (k : FaultKind) (subject : Subject) (record : Bool) (d : AlertData) (s : State) :
    (clearFault k subject record d s).matchTab = s.matchTab := by
  simp only [clearFault]
  (repeat' split) <;> simp

@[simp] theorem matchTab_handRate (r : Int) (s : State) :
    (handRate r s).matchTab = s.matchTab := by simp [handRate]

@[simp] theorem matchTab_setServoState (st : ServoState) (s : State) :
    (setServoState st s).matchTab = s.matchTab := by simp [setServoState]

@[simp] theorem matchTab_offerState (old : ServoState) (s : State) :
    (offerState old s).matchTab = s.matchTab := by simp [offerState]

@[simp] theorem matchTab_servoFollows (s : State) :
    (servoFollows s).matchTab = s.matchTab := by simp [servoFollows]

@[simp] theorem matchTab_servoSwitches (s : State) :
    (servoSwitches s).matchTab = s.matchTab := by simp [servoSwitches]

@[simp] theorem matchTab_servoHolds (s : State) :
    (servoHolds s).matchTab = s.matchTab := by simp [servoHolds]

@[simp] theorem matchTab_setSourceState (i : Nat) (st : SourceState) (s : State) :
    (setSourceState i st s).matchTab = s.matchTab := by
  simp only [setSourceState]
  (repeat' split) <;> simp

@[simp] theorem matchTab_unselect (i : Nat) (s : State) :
    (unselect i s).matchTab = s.matchTab := by
  simp only [unselect]
  (repeat' split) <;> simp

@[simp] theorem matchTab_clearHoldoverExpired (s : State) :
    (clearHoldoverExpired s).matchTab = s.matchTab := by simp [clearHoldoverExpired]

@[simp] theorem matchTab_offerStateIfChanged (before : ServoState) (s : State) :
    (offerStateIfChanged before s).matchTab = s.matchTab := by
  simp only [offerStateIfChanged]
  (repeat' split) <;> simp

@[simp] theorem matchTab_select (old : Option (Nat × SourceEntry)) (new : Nat × SourceEntry) (reason : Reason) (sampled : Bool) (s : State) :
    (select old new reason sampled s).matchTab = s.matchTab := by
  simp only [select]
  (repeat' split) <;> simp

@[simp] theorem matchTab_endSelection (old : Nat × SourceEntry) (reason : Reason) (s : State) :
    (endSelection old reason s).matchTab = s.matchTab := by
  simp only [endSelection]
  (repeat' split) <;> simp

@[simp] theorem matchTab_reevaluate (old : Option (Nat × SourceEntry)) (why : Reason) (own : Option Nat) (s : State) :
    (reevaluate old why own s).matchTab = s.matchTab := by
  simp only [reevaluate]
  (repeat' split) <;> simp

@[simp] theorem matchTab_reevaluateOnHold (before : Bool) (s : State) :
    (reevaluateOnHold before s).matchTab = s.matchTab := by
  simp only [reevaluateOnHold]
  (repeat' split) <;> simp

@[simp] theorem matchTab_raiseWithHold (k : FaultKind) (subject : Subject) (record : Bool) (d : AlertData) (s : State) :
    (raiseWithHold k subject record d s).matchTab = s.matchTab := by simp [raiseWithHold]

@[simp] theorem matchTab_clearWithHold (k : FaultKind) (subject : Subject) (record : Bool) (d : AlertData) (s : State) :
    (clearWithHold k subject record d s).matchTab = s.matchTab := by simp [clearWithHold]

@[simp] theorem matchTab_secondPulse (s : State) :
    (secondPulse s).matchTab = s.matchTab := by
  simp only [secondPulse]
  (repeat' split) <;> simp

@[simp] theorem matchTab_load (d : Date) (s : State) :
    (load d s).matchTab = s.matchTab := by
  simp only [load]
  (repeat' split) <;> simp

@[simp] theorem matchTab_uptimeSecond (s : State) :
    (uptimeSecond s).matchTab = s.matchTab := by
  simp only [uptimeSecond]
  (repeat' split) <;> simp

@[simp] theorem matchTab_rememberStamp (d : SN) (s : State) :
    (rememberStamp d s).matchTab = s.matchTab := by simp [rememberStamp]

@[simp] theorem matchTab_leaveLocked (s : State) :
    (leaveLocked s).matchTab = s.matchTab := by
  simp only [leaveLocked]
  (repeat' split) <;> simp

@[simp] theorem matchTab_afterStep (amount : Nat) (s : State) :
    (afterStep amount s).matchTab = s.matchTab := by simp [afterStep]

@[simp] theorem matchTab_startCatchDown (s : State) :
    (startCatchDown s).matchTab = s.matchTab := by simp [startCatchDown]

@[simp] theorem matchTab_filterUpdate (theta k : Int) (s : State) :
    (filterUpdate theta k s).matchTab = s.matchTab := by
  simp only [filterUpdate]
  (repeat' split) <;> simp

@[simp] theorem matchTab_lockCounting (theta : Int) (s : State) :
    (lockCounting theta s).matchTab = s.matchTab := by
  simp only [lockCounting]
  (repeat' split) <;> simp

@[simp] theorem matchTab_sampleInUnset (x : ServoSample) (s : State) :
    (sampleInUnset x s).matchTab = s.matchTab := by simp [sampleInUnset]

@[simp] theorem matchTab_filterAndLock (x : ServoSample) (s : State) :
    (filterAndLock x s).matchTab = s.matchTab := by simp [filterAndLock]

@[simp] theorem matchTab_expireHoldover (s : State) :
    (expireHoldover s).matchTab = s.matchTab := by simp [expireHoldover]

@[simp] theorem matchTab_unexpireHoldover (s : State) :
    (unexpireHoldover s).matchTab = s.matchTab := by simp [unexpireHoldover]

@[simp] theorem matchTab_judgeHoldover (s : State) :
    (judgeHoldover s).matchTab = s.matchTab := by
  simp only [judgeHoldover]
  (repeat' split) <;> simp

@[simp] theorem matchTab_clampF (s : State) :
    (clampF s).matchTab = s.matchTab := by
  simp only [clampF]
  (repeat' split) <;> simp

@[simp] theorem matchTab_applyServo (p : ServoParams) (width limit : Nat) (s : State) :
    (applyServo p width limit s).matchTab = s.matchTab := by
  simp only [applyServo]
  (repeat' split) <;> simp

@[simp] theorem matchTab_setTrimTo (f : Int) (s : State) :
    (setTrimTo f s).1.matchTab = s.matchTab := by
  simp only [setTrimTo]
  (repeat' split) <;> simp

@[simp] theorem matchTab_loadTrim (s : State) :
    (loadTrim s).matchTab = s.matchTab := by simp [loadTrim]

@[simp] theorem matchTab_servoSoftReset (s : State) :
    (servoSoftReset s).matchTab = s.matchTab := by
  simp only [servoSoftReset]
  (repeat' split) <;> simp

@[simp] theorem matchTab_forwardWhole (w : Whole) (edit : Edit) (s : State) :
    (forwardWhole w edit s).matchTab = s.matchTab := by
  simp only [forwardWhole]
  (repeat' split) <;> simp

@[simp] theorem matchTab_takeInterval (p : Port) (s : State) :
    (takeInterval p s).matchTab = s.matchTab := by
  simp only [takeInterval]
  (repeat' split) <;> simp

@[simp] theorem matchTab_restartInterval (p : Port) (s : State) :
    (restartInterval p s).matchTab = s.matchTab := by simp [restartInterval]

@[simp] theorem matchTab_startEcho (p : Port) (s : State) :
    (startEcho p s).matchTab = s.matchTab := by
  simp only [startEcho]
  (repeat' split) <;> simp

@[simp] theorem matchTab_takeDelay (p : Port) (x : Nat) (s : State) :
    (takeDelay p x s).matchTab = s.matchTab := by simp [takeDelay]

@[simp] theorem matchTab_endExchange (w : Whole) (s : State) :
    (endExchange w s).matchTab = s.matchTab := by
  simp only [endExchange]
  (repeat' split) <;> simp

@[simp] theorem matchTab_answerReceived (w : Whole) (s : State) :
    (answerReceived w s).matchTab = s.matchTab := by
  simp only [answerReceived]
  (repeat' split) <;> simp

@[simp] theorem matchTab_echoTimesOut (p : Port) (s : State) :
    (echoTimesOut p s).matchTab = s.matchTab := by simp [echoTimesOut]

@[simp] theorem matchTab_echoLinkDown (p : Port) (s : State) :
    (echoLinkDown p s).matchTab = s.matchTab := by
  simp only [echoLinkDown]
  (repeat' split) <;> simp

@[simp] theorem matchTab_echoLinkUp (p : Port) (s : State) :
    (echoLinkUp p s).matchTab = s.matchTab := by
  simp only [echoLinkUp]
  (repeat' split) <;> simp

@[simp] theorem matchTab_echoRewritten (p : Port) (old : PortRec) (s : State) :
    (echoRewritten p old s).matchTab = s.matchTab := by
  simp only [echoRewritten]
  (repeat' split) <;> simp

@[simp] theorem matchTab_clearStale (p : Port) (s : State) :
    (clearStale p s).matchTab = s.matchTab := by simp [clearStale]

@[simp] theorem matchTab_answerAsk (w : Whole) (s : State) :
    (answerAsk w s).matchTab = s.matchTab := by
  simp only [answerAsk]
  (repeat' split) <;> simp

@[simp] theorem matchTab_handleAsk (w : Whole) (s : State) :
    (handleAsk w s).matchTab = s.matchTab := by
  simp only [handleAsk]
  (repeat' split) <;> simp

@[simp] theorem matchTab_handleAnswer (w : Whole) (s : State) :
    (handleAnswer w s).matchTab = s.matchTab := by
  simp only [handleAnswer]
  (repeat' split) <;> simp

@[simp] theorem matchTab_goStale (i : Nat) (s : State) :
    (goStale i s).matchTab = s.matchTab := by simp [goStale]

@[simp] theorem matchTab_afterBar (old : Option (Nat × SourceEntry)) (s : State) :
    (afterBar old s).matchTab = s.matchTab := by simp [afterBar]

@[simp] theorem matchTab_endBar (i : Nat) (e : SourceEntry) (s : State) :
    (endBar i e s).matchTab = s.matchTab := by
  simp only [endBar]
  (repeat' split) <;> simp

@[simp] theorem matchTab_setBar (i : Nat) (e : SourceEntry) (seconds : Nat) (s : State) :
    (setBar i e seconds s).matchTab = s.matchTab := by
  simp only [setBar]
  (repeat' split) <;> simp

@[simp] theorem matchTab_barEntry (i : Nat) (e : SourceEntry) (seconds : Nat) (s : State) :
    (barEntry i e seconds s).matchTab = s.matchTab := by
  simp only [barEntry]
  (repeat' split) <;> simp

@[simp] theorem matchTab_barSelected (seconds : Nat) (s : State) :
    (barSelected seconds s).matchTab = s.matchTab := by
  simp only [barSelected]
  (repeat' split) <;> simp

@[simp] theorem matchTab_transitBeacon (w : Whole) (p : Nat) (s : State) :
    (transitBeacon w p s).matchTab = s.matchTab := by
  simp only [transitBeacon]
  (repeat' split) <;> simp

@[simp] theorem matchTab_beaconUnit (w : Whole) (p : Nat) (s : State) :
    (beaconUnit w p s).matchTab = s.matchTab := by
  simp only [beaconUnit]
  (repeat' split) <;> simp

@[simp] theorem matchTab_recordEmission (l : Lane) (instant : SN) (e : Emission) (s : State) :
    (recordEmission l instant e s).matchTab = s.matchTab := by simp [recordEmission]

@[simp] theorem matchTab_originate (l : Lane) (instant : SN) (s : State) :
    (originate l instant s).matchTab = s.matchTab := by
  simp only [originate]
  (repeat' split) <;> simp

@[simp] theorem matchTab_laneInstant (l : Lane) (old new : Date) (s : State) :
    (laneInstant l old new s).matchTab = s.matchTab := by
  simp only [laneInstant]
  (repeat' split) <;> simp

@[simp] theorem matchTab_startReports (s : State) :
    (startReports s).matchTab = s.matchTab := by simp [startReports]

@[simp] theorem matchTab_nextSlot (s : State) :
    (nextSlot s).matchTab = s.matchTab := by
  simp only [nextSlot]
  (repeat' split) <;> simp

@[simp] theorem matchTab_reportNotSent (i : Nat) (s : State) :
    (reportNotSent i s).matchTab = s.matchTab := by simp [reportNotSent]

@[simp] theorem matchTab_reportSent (i : Nat) (s : State) :
    (reportSent i s).matchTab = s.matchTab := by simp [reportSent]

@[simp] theorem matchTab_sendReport (i : Nat) (s : State) :
    (sendReport i s).matchTab = s.matchTab := by
  simp only [sendReport]
  (repeat' split) <;> simp

@[simp] theorem matchTab_setSelfDrift (v : Verdict) (s : State) :
    (setSelfDrift v s).matchTab = s.matchTab := by
  simp only [setSelfDrift]
  (repeat' split) <;> simp

@[simp] theorem matchTab_clearSelfDrift (v : Verdict) (e : Episode) (s : State) :
    (clearSelfDrift v e s).matchTab = s.matchTab := by simp [clearSelfDrift]

@[simp] theorem matchTab_judgeSelf (s : State) :
    (judgeSelf s).matchTab = s.matchTab := by
  simp only [judgeSelf]
  (repeat' split) <;> simp

@[simp] theorem matchTab_warnPeer (i : Nat) (vote : Vote) (s : State) :
    (warnPeer i vote s).matchTab = s.matchTab := by simp [warnPeer]

@[simp] theorem matchTab_unwarnPeer (i : Nat) (vote : Vote) (s : State) :
    (unwarnPeer i vote s).matchTab = s.matchTab := by simp [unwarnPeer]

@[simp] theorem matchTab_judgePeer (s : State) (i : Nat) :
    (judgePeer s i).matchTab = s.matchTab := by
  simp only [judgePeer]
  (repeat' split) <;> simp

@[simp] theorem matchTab_judgeRack (s : State) :
    (judgeRack s).matchTab = s.matchTab := by
  simp only [judgeRack]
  (repeat' split) <;> simp [foldl_matchTab]

@[simp] theorem matchTab_reportReceived (w : Whole) (s : State) :
    (reportReceived w s).matchTab = s.matchTab := by
  simp only [reportReceived]
  (repeat' split) <;> simp

@[simp] theorem matchTab_setPeerCfg (i : Nat) (c : PeerCfg) (s : State) :
    (setPeerCfg i c s).matchTab = s.matchTab := by simp [setPeerCfg]

@[simp] theorem matchTab_writePeerAt (i : Nat) (c : PeerCfg) (s : State) :
    (writePeerAt i c s).matchTab = s.matchTab := by
  simp only [writePeerAt]
  (repeat' split) <;> simp

@[simp] theorem matchTab_clearPeerAt (i : Nat) (s : State) :
    (clearPeerAt i s).matchTab = s.matchTab := by
  simp only [clearPeerAt]
  (repeat' split) <;> simp

@[simp] theorem matchTab_applyDrift (p : DriftParams) (holdoff threshold : Nat) (s : State) :
    (applyDrift p holdoff threshold s).matchTab = s.matchTab := by
  simp only [applyDrift]
  (repeat' split) <;> simp

@[simp] theorem matchTab_driftSoftReset (s : State) :
    (driftSoftReset s).matchTab = s.matchTab := by simp [driftSoftReset]

@[simp] theorem matchTab_freezeTrigger (t : Trigger) (s : State) :
    (freezeTrigger t s).matchTab = s.matchTab := by
  simp only [freezeTrigger]
  (repeat' split) <;> simp

@[simp] theorem matchTab_releaseFreeze (s : State) :
    (releaseFreeze s).matchTab = s.matchTab := by
  simp only [releaseFreeze]
  (repeat' split) <;> simp

@[simp] theorem matchTab_openMark (p : Port) (index : Nat) (e : MatchEntry) (ingress : Date) (s : State) :
    (openMark p index e ingress s).matchTab = s.matchTab := by
  simp only [openMark]
  (repeat' split) <;> simp

@[simp] theorem matchTab_settleStamp (p : Port) (written : Bool) (s : State) :
    (settleStamp p written s).matchTab = s.matchTab := by
  simp only [settleStamp]
  (repeat' split) <;> simp

@[simp] theorem matchTab_loseStamp (p : Port) (s : State) :
    (loseStamp p s).matchTab = s.matchTab := by simp [loseStamp]

@[simp] theorem matchTab_readyArriving (p : Port) (edit : Edit) (s : State) :
    (readyArriving p edit s).matchTab = s.matchTab := by simp [readyArriving]

@[simp] theorem matchTab_writeStampNow (p : Port) (c : DatingCtx) (bytes : List Byte) (s : State) :
    (writeStampNow p c bytes s).matchTab = s.matchTab := by simp [writeStampNow]

@[simp] theorem matchTab_closeMark (p : Port) (bytes : List Byte) (stop len : Nat) (badFcs : Bool) (s : State) :
    (closeMark p bytes stop len badFcs s).matchTab = s.matchTab := by
  simp only [closeMark]
  (repeat' split) <;> simp

@[simp] theorem matchTab_cutMark (p : Port) (bytes : List Byte) (len : Nat) (s : State) :
    (cutMark p bytes len s).matchTab = s.matchTab := by
  simp only [cutMark]
  (repeat' split) <;> simp

@[simp] theorem matchTab_setRx (p : Port) (r : Option Rx) (s : State) :
    (setRx p r s).matchTab = s.matchTab := by simp [setRx]

@[simp] theorem matchTab_forwardArriving (p : Port) (r : Rx) (ready : Bool) (s : State) :
    (forwardArriving p r ready s).1.matchTab = s.matchTab := by simp [forwardArriving]

@[simp] theorem matchTab_passFrame (p : Port) (r : Rx) (s : State) :
    (passFrame p r s).matchTab = s.matchTab := by simp [passFrame]

@[simp] theorem matchTab_settleArrived (p : Port) (bytes : List Byte) (s : State) :
    (settleArrived p bytes s).matchTab = s.matchTab := by
  simp only [settleArrived]
  (repeat' split) <;> simp

@[simp] theorem matchTab_markFrame (p : Port) (r : Rx) (index : Nat) (e : MatchEntry) (s : State) :
    (markFrame p r index e s).matchTab = s.matchTab := by
  simp only [markFrame]
  (repeat' split) <;> simp

@[simp] theorem matchTab_lookupFrame (p : Port) (r : Rx) (ended : Bool) (s : State) :
    (lookupFrame p r ended s).matchTab = s.matchTab := by
  simp only [lookupFrame]
  (repeat' split) <;> simp

@[simp] theorem matchTab_growArriving (p : Port) (bytes : List Byte) (s : State) :
    (growArriving p bytes s).matchTab = s.matchTab := by simp [growArriving]

@[simp] theorem matchTab_overrun (p : Port) (r : Rx) (s : State) :
    (overrun p r s).matchTab = s.matchTab := by
  simp only [overrun]
  (repeat' split) <;> simp

@[simp] theorem matchTab_oversizeArrives (p : Port) (more : List Byte) (s : State) :
    (oversizeArrives p more s).matchTab = s.matchTab := by
  simp only [oversizeArrives]
  (repeat' split) <;> simp

@[simp] theorem matchTab_malformedFrame (w : Whole) (s : State) :
    (malformedFrame w s).matchTab = s.matchTab := by simp [malformedFrame]

@[simp] theorem matchTab_acceptControl (w : Whole) (privilege : Privilege) (s : State) :
    (acceptControl w privilege s).matchTab = s.matchTab := by
  simp only [acceptControl]
  (repeat' split) <;> simp

@[simp] theorem matchTab_dispatchUdp (w : Whole) (mgmt utx : Bool) (privilege : Privilege) (s : State) :
    (dispatchUdp w mgmt utx privilege s).matchTab = s.matchTab := by
  simp only [dispatchUdp]
  (repeat' split) <;> simp

@[simp] theorem matchTab_endForwarded (p : Port) (r : Rx) (inLane : Bool) (s : State) :
    (endForwarded p r inLane s).matchTab = s.matchTab := by
  simp only [endForwarded]
  (repeat' split) <;> simp

@[simp] theorem matchTab_raiseAgain (expired : Bool) (s : State) :
    (raiseAgain expired s).matchTab = s.matchTab := by
  simp only [raiseAgain]
  (repeat' split) <;> simp

@[simp] theorem matchTab_completeSoft (expired : Bool) (s : State) :
    (completeSoft expired s).matchTab = s.matchTab := by simp [completeSoft]

@[simp] theorem matchTab_enterRunning (s : State) :
    (enterRunning s).matchTab = s.matchTab := by simp [enterRunning]

@[simp] theorem matchTab_loseReception (p : Port) (more : List Byte) (s : State) :
    (loseReception p more s).matchTab = s.matchTab := by
  simp only [loseReception]
  (repeat' split) <;> simp

@[simp] theorem matchTab_flushEgress (p : Port) (s : State) :
    (flushEgress p s).matchTab = s.matchTab := by
  simp only [flushEgress]
  (repeat' split) <;> simp

@[simp] theorem matchTab_linkBackUp (p : Port) (s : State) :
    (linkBackUp p s).matchTab = s.matchTab := by
  simp only [linkBackUp]
  (repeat' split) <;> simp

@[simp] theorem matchTab_linkComesUp (p : Port) (s : State) :
    (linkComesUp p s).matchTab = s.matchTab := by
  simp only [linkComesUp]
  (repeat' split) <;> simp

@[simp] theorem matchTab_finishSave (written readBack : List Byte) (s : State) :
    (finishSave written readBack s).matchTab = s.matchTab := by
  simp only [finishSave]
  (repeat' split) <;> simp

@[simp] theorem matchTab_endMemoryTest (pass : Bool) (s : State) :
    (endMemoryTest pass s).matchTab = s.matchTab := by
  simp only [endMemoryTest]
  (repeat' split) <;> simp

@[simp] theorem matchTab_removeRecords (k : Nat) (s : State) :
    (removeRecords k s).matchTab = s.matchTab := by
  simp only [removeRecords]
  (repeat' split) <;> simp

@[simp] theorem matchTab_testLog (s : State) :
    (testLog s).1.matchTab = s.matchTab := by
  simp only [testLog]
  (repeat' split) <;> simp

@[simp] theorem matchTab_writePort (a : PortArg) (s : State) :
    (writePort a s).1.matchTab = s.matchTab := by
  simp only [writePort]
  (repeat' split) <;> simp

@[simp] theorem matchTab_writeLane (a : LaneArg) (s : State) :
    (writeLane a s).1.matchTab = s.matchTab := by
  simp only [writeLane]
  (repeat' split) <;> simp

@[simp] theorem matchTab_writeOverride (a : OverrideArg) (s : State) :
    (writeOverride a s).1.matchTab = s.matchTab := by
  simp only [writeOverride]
  (repeat' split) <;> simp

@[simp] theorem matchTab_writePeer (a : PeerArg) (s : State) :
    (writePeer a s).1.matchTab = s.matchTab := by
  simp only [writePeer]
  (repeat' split) <;> simp

@[simp] theorem matchTab_clearPeer (index : Byte) (s : State) :
    (clearPeer index s).1.matchTab = s.matchTab := by
  simp only [clearPeer]
  (repeat' split) <;> simp

@[simp] theorem matchTab_writeServo (a : ServoArg) (s : State) :
    (writeServo a s).1.matchTab = s.matchTab := by simp [writeServo]

@[simp] theorem matchTab_writeDrift (a : DriftArg) (s : State) :
    (writeDrift a s).1.matchTab = s.matchTab := by simp [writeDrift]

@[simp] theorem matchTab_applyResponse (k : FaultKind) (r : Response) (s : State) :
    (applyResponse k r s).matchTab = s.matchTab := by
  simp only [applyResponse]
  (repeat' split) <;> simp

@[simp] theorem matchTab_writeFault (kind response : Byte) (s : State) :
    (writeFault kind response s).1.matchTab = s.matchTab := by
  simp only [writeFault]
  (repeat' split) <;> simp

@[simp] theorem matchTab_clearPosition (mask : BitVec 32) (s : State) (k : FaultKind) :
    (clearPosition mask s k).matchTab = s.matchTab := by
  simp only [clearPosition]
  (repeat' split) <;> simp

@[simp] theorem matchTab_clearFlags (mask : BitVec 32) (s : State) :
    (clearFlags mask s).1.matchTab = s.matchTab := by
  simp only [clearFlags]
  (repeat' split) <;> simp [foldl_matchTab]

@[simp] theorem matchTab_barSource (index : Byte) (seconds : BitVec 16) (s : State) :
    (barSource index seconds s).1.matchTab = s.matchTab := by
  simp only [barSource]
  (repeat' split) <;> simp

@[simp] theorem matchTab_saveSettings (s : State) :
    (saveSettings s).1.matchTab = s.matchTab := by
  simp only [saveSettings]
  (repeat' split) <;> simp

@[simp] theorem matchTab_resetCommand (arg : Byte) (s : State) :
    (resetCommand arg s).1.matchTab = s.matchTab := by
  simp only [resetCommand]
  (repeat' split) <;> simp

/-! ### sources -/

theorem foldl_sources {α : Type} (f : State → α → State) (h : ∀ t a, (f t a).sources = t.sources) (s : State) (l : List α) :
    (l.foldl f s).sources = s.sources := by
  induction l generalizing s with
  | nil => rfl
  | cons a rest ih => rw [List.foldl_cons, ih, h]

@[simp] theorem sources_watchSecond (s : State) :
    (watchSecond s).sources = s.sources := by
  simp only [watchSecond]
  (repeat' split) <;> simp

@[simp] theorem sources_judgePulse (d : Option Nat) (s : State) :
    (judgePulse d s).sources = s.sources := by simp [judgePulse]

@[simp] theorem sources_setPort (s : State) (p : Port) (u : PortUnit) : (s.setPort p u).sources = s.sources := (rfl)
@[simp] theorem sources_count (s : State) (p : Port) (f : Stats → Stats) : (s.count p f).sources = s.sources := (rfl)
@[simp] theorem sources_setEcho (s : State) (p : Port) (e : Echo) : (s.setEcho p e).sources = s.sources := (rfl)
@[simp] theorem sources_setLane (s : State) (l : Lane) (u : LaneUnit) : (s.setLane l u).sources = s.sources := (rfl)
@[simp] theorem sources_setPeer (s : State) (i : Nat) (e : PeerDyn) : (s.setPeer i e).sources = s.sources := (rfl)
@[simp] theorem sources_setFault (s : State) (k : FaultKind) (r : FaultRec) : (s.setFault k r).sources = s.sources := (rfl)
@[simp] theorem sources_setForm (s : State) (a : AlertForm) (v : FormState) : (s.setForm a v).sources = s.sources := (rfl)
@[simp] theorem sources_admitFrame (p : Port) (need : Nat) (f : FwdFrame) (s : State) :
    (admitFrame p need f s).1.sources = s.sources := by
  simp only [admitFrame]
  (repeat' split) <;> simp

@[simp] theorem sources_offerTiming (p : Port) (tag : OrigTag) (header : Nat) (bytes : List Byte) (s : State) :
    (offerTiming p tag header bytes s).1.sources = s.sources := by
  simp only [offerTiming]
  (repeat' split) <;> simp

@[simp] theorem sources_offerGeneral (p : Port) (tag : OrigTag) (header : Nat) (bytes : List Byte) (s : State) :
    (offerGeneral p tag header bytes s).1.sources = s.sources := by
  simp only [offerGeneral]
  (repeat' split) <;> simp

@[simp] theorem sources_askPassesEgress (p : Port) (id : Nat) (s : State) :
    (askPassesEgress p id s).sources = s.sources := by
  simp only [askPassesEgress]
  (repeat' split) <;> simp

@[simp] theorem sources_reportPassesEgress (i : Nat) (rack ip : BitVec 32) (s : State) :
    (reportPassesEgress i rack ip s).sources = s.sources := by
  simp only [reportPassesEgress]
  (repeat' split) <;> simp

@[simp] theorem sources_recordEgress (p : Port) (tag : OrigTag) (s : State) :
    (recordEgress p tag s).sources = s.sources := by
  simp only [recordEgress]
  (repeat' split) <;> simp

@[simp] theorem sources_grantQueued (p : Port) (o : TxFrom) (q : QFrame) (s : State) :
    (grantQueued p o q s).sources = s.sources := by simp [grantQueued]

@[simp] theorem sources_grantForwarded (p : Port) (f : FwdFrame) (s : State) :
    (grantForwarded p f s).sources = s.sources := by simp [grantForwarded]

@[simp] theorem sources_arbitrate (p : Port) (s : State) :
    (arbitrate p s).sources = s.sources := by
  simp only [arbitrate]
  (repeat' split) <;> simp

@[simp] theorem sources_finishTx (p : Port) (t : Tx) (s : State) :
    (finishTx p t s).sources = s.sources := by
  simp only [finishTx]
  (repeat' split) <;> simp

@[simp] theorem sources_suppressAlert (a : AlertForm) (s : State) :
    (suppressAlert a s).sources = s.sources := by simp [suppressAlert]

@[simp] theorem sources_alertEvent (a : AlertForm) (clear : Bool) (subject : Subject) (d : AlertData) (s : State) :
    (alertEvent a clear subject d s).sources = s.sources := by
  simp only [alertEvent]
  (repeat' split) <;> simp

@[simp] theorem sources_levelNotice (s : State) :
    (levelNotice s).sources = s.sources := by
  simp only [levelNotice]
  (repeat' split) <;> simp

@[simp] theorem sources_offerBare (o : Offer) (s : State) :
    (offerBare o s).1.sources = s.sources := by
  simp only [offerBare]
  (repeat' split) <;> simp

@[simp] theorem sources_activate (k : FaultKind) (subject : Subject) (s : State) :
    (activate k subject s).sources = s.sources := by simp [activate]

@[simp] theorem sources_countRaise (k : FaultKind) (s : State) :
    (countRaise k s).sources = s.sources := by simp [countRaise]

@[simp] theorem sources_deactivate (k : FaultKind) (s : State) :
    (deactivate k s).sources = s.sources := by simp [deactivate]

@[simp] theorem sources_faultAlert (k : FaultKind) (clear : Bool) (subject : Subject) (d : AlertData) (s : State) :
    (faultAlert k clear subject d s).sources = s.sources := by
  simp only [faultAlert]
  (repeat' split) <;> simp

@[simp] theorem sources_raiseLogFull (s : State) :
    (raiseLogFull s).sources = s.sources := by
  simp only [raiseLogFull]
  (repeat' split) <;> simp

@[simp] theorem sources_clearLogFull (s : State) :
    (clearLogFull s).sources = s.sources := by
  simp only [clearLogFull]
  (repeat' split) <;> simp

@[simp] theorem sources_offerRecord (o : Offer) (s : State) :
    (offerRecord o s).sources = s.sources := by
  simp only [offerRecord]
  (repeat' split) <;> simp

@[simp] theorem sources_raiseLogFullAgain (s : State) :
    (raiseLogFullAgain s).sources = s.sources := by
  simp only [raiseLogFullAgain]
  (repeat' split) <;> simp

@[simp] theorem sources_raiseFault (k : FaultKind) (subject : Subject) (record : Bool) (d : AlertData) (s : State) :
    (raiseFault k subject record d s).sources = s.sources := by
  simp only [raiseFault]
  (repeat' split) <;> simp

@[simp] theorem sources_clearFault (k : FaultKind) (subject : Subject) (record : Bool) (d : AlertData) (s : State) :
    (clearFault k subject record d s).sources = s.sources := by
  simp only [clearFault]
  (repeat' split) <;> simp

@[simp] theorem sources_handRate (r : Int) (s : State) :
    (handRate r s).sources = s.sources := by simp [handRate]

@[simp] theorem sources_setServoState (st : ServoState) (s : State) :
    (setServoState st s).sources = s.sources := by simp [setServoState]

@[simp] theorem sources_offerState (old : ServoState) (s : State) :
    (offerState old s).sources = s.sources := by simp [offerState]

@[simp] theorem sources_servoFollows (s : State) :
    (servoFollows s).sources = s.sources := by simp [servoFollows]

@[simp] theorem sources_servoSwitches (s : State) :
    (servoSwitches s).sources = s.sources := by simp [servoSwitches]

@[simp] theorem sources_servoHolds (s : State) :
    (servoHolds s).sources = s.sources := by simp [servoHolds]

@[simp] theorem sources_clearHoldoverExpired (s : State) :
    (clearHoldoverExpired s).sources = s.sources := by simp [clearHoldoverExpired]

@[simp] theorem sources_offerStateIfChanged (before : ServoState) (s : State) :
    (offerStateIfChanged before s).sources = s.sources := by
  simp only [offerStateIfChanged]
  (repeat' split) <;> simp

@[simp] theorem sources_secondPulse (s : State) :
    (secondPulse s).sources = s.sources := by
  simp only [secondPulse]
  (repeat' split) <;> simp

@[simp] theorem sources_performSwap (s : State) :
    (performSwap s).sources = s.sources := by simp [performSwap]

@[simp] theorem sources_armedSwap (s : State) :
    (armedSwap s).sources = s.sources := by
  simp only [armedSwap]
  (repeat' split) <;> simp

@[simp] theorem sources_secondBoundary (s : State) :
    (secondBoundary s).sources = s.sources := by simp [secondBoundary]

@[simp] theorem sources_stepTo (moved : Date × Bool) (s : State) :
    (stepTo moved s).sources = s.sources := by
  simp only [stepTo]
  (repeat' split) <;> simp

@[simp] theorem sources_forwardStep (amount : Nat) (s : State) :
    (forwardStep amount s).sources = s.sources := by simp [forwardStep]

@[simp] theorem sources_load (d : Date) (s : State) :
    (load d s).sources = s.sources := by
  simp only [load]
  (repeat' split) <;> simp

@[simp] theorem sources_rememberStamp (d : SN) (s : State) :
    (rememberStamp d s).sources = s.sources := by simp [rememberStamp]

@[simp] theorem sources_leaveLocked (s : State) :
    (leaveLocked s).sources = s.sources := by
  simp only [leaveLocked]
  (repeat' split) <;> simp

@[simp] theorem sources_afterStep (amount : Nat) (s : State) :
    (afterStep amount s).sources = s.sources := by simp [afterStep]

@[simp] theorem sources_servoStep (amount : Nat) (s : State) :
    (servoStep amount s).sources = s.sources := by simp [servoStep]

@[simp] theorem sources_startCatchDown (s : State) :
    (startCatchDown s).sources = s.sources := by simp [startCatchDown]

@[simp] theorem sources_lockCounting (theta : Int) (s : State) :
    (lockCounting theta s).sources = s.sources := by
  simp only [lockCounting]
  (repeat' split) <;> simp

@[simp] theorem sources_sampleInUnset (x : ServoSample) (s : State) :
    (sampleInUnset x s).sources = s.sources := by simp [sampleInUnset]

@[simp] theorem sources_clampF (s : State) :
    (clampF s).sources = s.sources := by
  simp only [clampF]
  (repeat' split) <;> simp

@[simp] theorem sources_setDateTo (d : SN) (s : State) :
    (setDateTo d s).1.sources = s.sources := by
  simp only [setDateTo]
  (repeat' split) <;> simp

@[simp] theorem sources_setTrimTo (f : Int) (s : State) :
    (setTrimTo f s).1.sources = s.sources := by
  simp only [setTrimTo]
  (repeat' split) <;> simp

@[simp] theorem sources_loadTrim (s : State) :
    (loadTrim s).sources = s.sources := by simp [loadTrim]

@[simp] theorem sources_servoSoftReset (s : State) :
    (servoSoftReset s).sources = s.sources := by
  simp only [servoSoftReset]
  (repeat' split) <;> simp

@[simp] theorem sources_forwardWhole (w : Whole) (edit : Edit) (s : State) :
    (forwardWhole w edit s).sources = s.sources := by
  simp only [forwardWhole]
  (repeat' split) <;> simp

@[simp] theorem sources_takeInterval (p : Port) (s : State) :
    (takeInterval p s).sources = s.sources := by
  simp only [takeInterval]
  (repeat' split) <;> simp

@[simp] theorem sources_restartInterval (p : Port) (s : State) :
    (restartInterval p s).sources = s.sources := by simp [restartInterval]

@[simp] theorem sources_startEcho (p : Port) (s : State) :
    (startEcho p s).sources = s.sources := by
  simp only [startEcho]
  (repeat' split) <;> simp

@[simp] theorem sources_takeDelay (p : Port) (x : Nat) (s : State) :
    (takeDelay p x s).sources = s.sources := by simp [takeDelay]

@[simp] theorem sources_endExchange (w : Whole) (s : State) :
    (endExchange w s).sources = s.sources := by
  simp only [endExchange]
  (repeat' split) <;> simp

@[simp] theorem sources_answerReceived (w : Whole) (s : State) :
    (answerReceived w s).sources = s.sources := by
  simp only [answerReceived]
  (repeat' split) <;> simp

@[simp] theorem sources_echoTimesOut (p : Port) (s : State) :
    (echoTimesOut p s).sources = s.sources := by simp [echoTimesOut]

@[simp] theorem sources_echoLinkDown (p : Port) (s : State) :
    (echoLinkDown p s).sources = s.sources := by
  simp only [echoLinkDown]
  (repeat' split) <;> simp

@[simp] theorem sources_echoLinkUp (p : Port) (s : State) :
    (echoLinkUp p s).sources = s.sources := by
  simp only [echoLinkUp]
  (repeat' split) <;> simp

@[simp] theorem sources_echoRewritten (p : Port) (old : PortRec) (s : State) :
    (echoRewritten p old s).sources = s.sources := by
  simp only [echoRewritten]
  (repeat' split) <;> simp

@[simp] theorem sources_clearStale (p : Port) (s : State) :
    (clearStale p s).sources = s.sources := by simp [clearStale]

@[simp] theorem sources_answerAsk (w : Whole) (s : State) :
    (answerAsk w s).sources = s.sources := by
  simp only [answerAsk]
  (repeat' split) <;> simp

@[simp] theorem sources_handleAsk (w : Whole) (s : State) :
    (handleAsk w s).sources = s.sources := by
  simp only [handleAsk]
  (repeat' split) <;> simp

@[simp] theorem sources_handleAnswer (w : Whole) (s : State) :
    (handleAnswer w s).sources = s.sources := by
  simp only [handleAnswer]
  (repeat' split) <;> simp

@[simp] theorem sources_transitBeacon (w : Whole) (p : Nat) (s : State) :
    (transitBeacon w p s).sources = s.sources := by
  simp only [transitBeacon]
  (repeat' split) <;> simp

@[simp] theorem sources_beaconUnit (w : Whole) (p : Nat) (s : State) :
    (beaconUnit w p s).sources = s.sources := by
  simp only [beaconUnit]
  (repeat' split) <;> simp

@[simp] theorem sources_recordEmission (l : Lane) (instant : SN) (e : Emission) (s : State) :
    (recordEmission l instant e s).sources = s.sources := by simp [recordEmission]

@[simp] theorem sources_originate (l : Lane) (instant : SN) (s : State) :
    (originate l instant s).sources = s.sources := by
  simp only [originate]
  (repeat' split) <;> simp

@[simp] theorem sources_laneInstant (l : Lane) (old new : Date) (s : State) :
    (laneInstant l old new s).sources = s.sources := by
  simp only [laneInstant]
  (repeat' split) <;> simp

@[simp] theorem sources_startReports (s : State) :
    (startReports s).sources = s.sources := by simp [startReports]

@[simp] theorem sources_nextSlot (s : State) :
    (nextSlot s).sources = s.sources := by
  simp only [nextSlot]
  (repeat' split) <;> simp

@[simp] theorem sources_reportNotSent (i : Nat) (s : State) :
    (reportNotSent i s).sources = s.sources := by simp [reportNotSent]

@[simp] theorem sources_reportSent (i : Nat) (s : State) :
    (reportSent i s).sources = s.sources := by simp [reportSent]

@[simp] theorem sources_sendReport (i : Nat) (s : State) :
    (sendReport i s).sources = s.sources := by
  simp only [sendReport]
  (repeat' split) <;> simp

@[simp] theorem sources_unwarnPeer (i : Nat) (vote : Vote) (s : State) :
    (unwarnPeer i vote s).sources = s.sources := by simp [unwarnPeer]

@[simp] theorem sources_setPeerCfg (i : Nat) (c : PeerCfg) (s : State) :
    (setPeerCfg i c s).sources = s.sources := by simp [setPeerCfg]

@[simp] theorem sources_driftSoftReset (s : State) :
    (driftSoftReset s).sources = s.sources := by simp [driftSoftReset]

@[simp] theorem sources_freezeTrigger (t : Trigger) (s : State) :
    (freezeTrigger t s).sources = s.sources := by
  simp only [freezeTrigger]
  (repeat' split) <;> simp

@[simp] theorem sources_releaseFreeze (s : State) :
    (releaseFreeze s).sources = s.sources := by
  simp only [releaseFreeze]
  (repeat' split) <;> simp

@[simp] theorem sources_openMark (p : Port) (index : Nat) (e : MatchEntry) (ingress : Date) (s : State) :
    (openMark p index e ingress s).sources = s.sources := by
  simp only [openMark]
  (repeat' split) <;> simp

@[simp] theorem sources_settleStamp (p : Port) (written : Bool) (s : State) :
    (settleStamp p written s).sources = s.sources := by
  simp only [settleStamp]
  (repeat' split) <;> simp

@[simp] theorem sources_loseStamp (p : Port) (s : State) :
    (loseStamp p s).sources = s.sources := by simp [loseStamp]

@[simp] theorem sources_readyArriving (p : Port) (edit : Edit) (s : State) :
    (readyArriving p edit s).sources = s.sources := by simp [readyArriving]

@[simp] theorem sources_writeStampNow (p : Port) (c : DatingCtx) (bytes : List Byte) (s : State) :
    (writeStampNow p c bytes s).sources = s.sources := by simp [writeStampNow]

@[simp] theorem sources_closeMark (p : Port) (bytes : List Byte) (stop len : Nat) (badFcs : Bool) (s : State) :
    (closeMark p bytes stop len badFcs s).sources = s.sources := by
  simp only [closeMark]
  (repeat' split) <;> simp

@[simp] theorem sources_cutMark (p : Port) (bytes : List Byte) (len : Nat) (s : State) :
    (cutMark p bytes len s).sources = s.sources := by
  simp only [cutMark]
  (repeat' split) <;> simp

@[simp] theorem sources_setRx (p : Port) (r : Option Rx) (s : State) :
    (setRx p r s).sources = s.sources := by simp [setRx]

@[simp] theorem sources_forwardArriving (p : Port) (r : Rx) (ready : Bool) (s : State) :
    (forwardArriving p r ready s).1.sources = s.sources := by simp [forwardArriving]

@[simp] theorem sources_passFrame (p : Port) (r : Rx) (s : State) :
    (passFrame p r s).sources = s.sources := by simp [passFrame]

@[simp] theorem sources_settleArrived (p : Port) (bytes : List Byte) (s : State) :
    (settleArrived p bytes s).sources = s.sources := by
  simp only [settleArrived]
  (repeat' split) <;> simp

@[simp] theorem sources_markFrame (p : Port) (r : Rx) (index : Nat) (e : MatchEntry) (s : State) :
    (markFrame p r index e s).sources = s.sources := by
  simp only [markFrame]
  (repeat' split) <;> simp

@[simp] theorem sources_lookupFrame (p : Port) (r : Rx) (ended : Bool) (s : State) :
    (lookupFrame p r ended s).sources = s.sources := by
  simp only [lookupFrame]
  (repeat' split) <;> simp

@[simp] theorem sources_growArriving (p : Port) (bytes : List Byte) (s : State) :
    (growArriving p bytes s).sources = s.sources := by simp [growArriving]

@[simp] theorem sources_overrun (p : Port) (r : Rx) (s : State) :
    (overrun p r s).sources = s.sources := by
  simp only [overrun]
  (repeat' split) <;> simp

@[simp] theorem sources_oversizeArrives (p : Port) (more : List Byte) (s : State) :
    (oversizeArrives p more s).sources = s.sources := by
  simp only [oversizeArrives]
  (repeat' split) <;> simp

@[simp] theorem sources_malformedFrame (w : Whole) (s : State) :
    (malformedFrame w s).sources = s.sources := by simp [malformedFrame]

@[simp] theorem sources_acceptControl (w : Whole) (privilege : Privilege) (s : State) :
    (acceptControl w privilege s).sources = s.sources := by
  simp only [acceptControl]
  (repeat' split) <;> simp

@[simp] theorem sources_endForwarded (p : Port) (r : Rx) (inLane : Bool) (s : State) :
    (endForwarded p r inLane s).sources = s.sources := by
  simp only [endForwarded]
  (repeat' split) <;> simp

@[simp] theorem sources_applyFull (c : Settings) (bank : Vector MatchEntry 64) (source : LoadSource) (version : Nat) (s : State) :
    (applyFull c bank source version s).sources = s.sources := by simp [applyFull]

@[simp] theorem sources_enterRunning (s : State) :
    (enterRunning s).sources = s.sources := by simp [enterRunning]

@[simp] theorem sources_loseReception (p : Port) (more : List Byte) (s : State) :
    (loseReception p more s).sources = s.sources := by
  simp only [loseReception]
  (repeat' split) <;> simp

@[simp] theorem sources_flushEgress (p : Port) (s : State) :
    (flushEgress p s).sources = s.sources := by
  simp only [flushEgress]
  (repeat' split) <;> simp

@[simp] theorem sources_removeRecords (k : Nat) (s : State) :
    (removeRecords k s).sources = s.sources := by
  simp only [removeRecords]
  (repeat' split) <;> simp

@[simp] theorem sources_testLog (s : State) :
    (testLog s).1.sources = s.sources := by
  simp only [testLog]
  (repeat' split) <;> simp

@[simp] theorem sources_writeMatch (index : Byte) (a : MatchArg) (s : State) :
    (writeMatch index a s).1.sources = s.sources := by
  simp only [writeMatch]
  (repeat' split) <;> simp

@[simp] theorem sources_copyActive (s : State) :
    (copyActive s).1.sources = s.sources := by
  simp only [copyActive]
  (repeat' split) <;> simp

@[simp] theorem sources_swapCommand (arg : Byte) (s : State) :
    (swapCommand arg s).1.sources = s.sources := by
  simp only [swapCommand]
  (repeat' split) <;> simp

@[simp] theorem sources_writePort (a : PortArg) (s : State) :
    (writePort a s).1.sources = s.sources := by
  simp only [writePort]
  (repeat' split) <;> simp

@[simp] theorem sources_writeLane (a : LaneArg) (s : State) :
    (writeLane a s).1.sources = s.sources := by
  simp only [writeLane]
  (repeat' split) <;> simp

@[simp] theorem sources_writeOverride (a : OverrideArg) (s : State) :
    (writeOverride a s).1.sources = s.sources := by
  simp only [writeOverride]
  (repeat' split) <;> simp

@[simp] theorem sources_saveSettings (s : State) :
    (saveSettings s).1.sources = s.sources := by
  simp only [saveSettings]
  (repeat' split) <;> simp

@[simp] theorem sources_resetCommand (arg : Byte) (s : State) :
    (resetCommand arg s).1.sources = s.sources := by
  simp only [resetCommand]
  (repeat' split) <;> simp

/-! ### servo -/

theorem foldl_servo {α : Type} (f : State → α → State) (h : ∀ t a, (f t a).servo = t.servo) (s : State) (l : List α) :
    (l.foldl f s).servo = s.servo := by
  induction l generalizing s with
  | nil => rfl
  | cons a rest ih => rw [List.foldl_cons, ih, h]

@[simp] theorem servo_watchSecond (s : State) :
    (watchSecond s).servo = s.servo := by
  simp only [watchSecond]
  (repeat' split) <;> simp

@[simp] theorem servo_judgePulse (d : Option Nat) (s : State) :
    (judgePulse d s).servo = s.servo := by simp [judgePulse]

@[simp] theorem servo_setPort (s : State) (p : Port) (u : PortUnit) : (s.setPort p u).servo = s.servo := (rfl)
@[simp] theorem servo_count (s : State) (p : Port) (f : Stats → Stats) : (s.count p f).servo = s.servo := (rfl)
@[simp] theorem servo_setEcho (s : State) (p : Port) (e : Echo) : (s.setEcho p e).servo = s.servo := (rfl)
@[simp] theorem servo_setLane (s : State) (l : Lane) (u : LaneUnit) : (s.setLane l u).servo = s.servo := (rfl)
@[simp] theorem servo_setSource (s : State) (i : Nat) (e : Option SourceEntry) : (s.setSource i e).servo = s.servo := (rfl)
@[simp] theorem servo_setPeer (s : State) (i : Nat) (e : PeerDyn) : (s.setPeer i e).servo = s.servo := (rfl)
@[simp] theorem servo_setFault (s : State) (k : FaultKind) (r : FaultRec) : (s.setFault k r).servo = s.servo := (rfl)
@[simp] theorem servo_setForm (s : State) (a : AlertForm) (v : FormState) : (s.setForm a v).servo = s.servo := (rfl)
@[simp] theorem servo_admitFrame (p : Port) (need : Nat) (f : FwdFrame) (s : State) :
    (admitFrame p need f s).1.servo = s.servo := by
  simp only [admitFrame]
  (repeat' split) <;> simp

@[simp] theorem servo_offerTiming (p : Port) (tag : OrigTag) (header : Nat) (bytes : List Byte) (s : State) :
    (offerTiming p tag header bytes s).1.servo = s.servo := by
  simp only [offerTiming]
  (repeat' split) <;> simp

@[simp] theorem servo_offerGeneral (p : Port) (tag : OrigTag) (header : Nat) (bytes : List Byte) (s : State) :
    (offerGeneral p tag header bytes s).1.servo = s.servo := by
  simp only [offerGeneral]
  (repeat' split) <;> simp

@[simp] theorem servo_askPassesEgress (p : Port) (id : Nat) (s : State) :
    (askPassesEgress p id s).servo = s.servo := by
  simp only [askPassesEgress]
  (repeat' split) <;> simp

@[simp] theorem servo_reportPassesEgress (i : Nat) (rack ip : BitVec 32) (s : State) :
    (reportPassesEgress i rack ip s).servo = s.servo := by
  simp only [reportPassesEgress]
  (repeat' split) <;> simp

@[simp] theorem servo_recordEgress (p : Port) (tag : OrigTag) (s : State) :
    (recordEgress p tag s).servo = s.servo := by
  simp only [recordEgress]
  (repeat' split) <;> simp

@[simp] theorem servo_grantQueued (p : Port) (o : TxFrom) (q : QFrame) (s : State) :
    (grantQueued p o q s).servo = s.servo := by simp [grantQueued]

@[simp] theorem servo_grantForwarded (p : Port) (f : FwdFrame) (s : State) :
    (grantForwarded p f s).servo = s.servo := by simp [grantForwarded]

@[simp] theorem servo_arbitrate (p : Port) (s : State) :
    (arbitrate p s).servo = s.servo := by
  simp only [arbitrate]
  (repeat' split) <;> simp

@[simp] theorem servo_finishTx (p : Port) (t : Tx) (s : State) :
    (finishTx p t s).servo = s.servo := by
  simp only [finishTx]
  (repeat' split) <;> simp

@[simp] theorem servo_suppressAlert (a : AlertForm) (s : State) :
    (suppressAlert a s).servo = s.servo := by simp [suppressAlert]

@[simp] theorem servo_alertEvent (a : AlertForm) (clear : Bool) (subject : Subject) (d : AlertData) (s : State) :
    (alertEvent a clear subject d s).servo = s.servo := by
  simp only [alertEvent]
  (repeat' split) <;> simp

@[simp] theorem servo_levelNotice (s : State) :
    (levelNotice s).servo = s.servo := by
  simp only [levelNotice]
  (repeat' split) <;> simp

@[simp] theorem servo_offerBare (o : Offer) (s : State) :
    (offerBare o s).1.servo = s.servo := by
  simp only [offerBare]
  (repeat' split) <;> simp

@[simp] theorem servo_activate (k : FaultKind) (subject : Subject) (s : State) :
    (activate k subject s).servo = s.servo := by simp [activate]

@[simp] theorem servo_countRaise (k : FaultKind) (s : State) :
    (countRaise k s).servo = s.servo := by simp [countRaise]

@[simp] theorem servo_deactivate (k : FaultKind) (s : State) :
    (deactivate k s).servo = s.servo := by simp [deactivate]

@[simp] theorem servo_faultAlert (k : FaultKind) (clear : Bool) (subject : Subject) (d : AlertData) (s : State) :
    (faultAlert k clear subject d s).servo = s.servo := by
  simp only [faultAlert]
  (repeat' split) <;> simp

@[simp] theorem servo_raiseLogFull (s : State) :
    (raiseLogFull s).servo = s.servo := by
  simp only [raiseLogFull]
  (repeat' split) <;> simp

@[simp] theorem servo_clearLogFull (s : State) :
    (clearLogFull s).servo = s.servo := by
  simp only [clearLogFull]
  (repeat' split) <;> simp

@[simp] theorem servo_offerRecord (o : Offer) (s : State) :
    (offerRecord o s).servo = s.servo := by
  simp only [offerRecord]
  (repeat' split) <;> simp

@[simp] theorem servo_raiseLogFullAgain (s : State) :
    (raiseLogFullAgain s).servo = s.servo := by
  simp only [raiseLogFullAgain]
  (repeat' split) <;> simp

@[simp] theorem servo_raiseFault (k : FaultKind) (subject : Subject) (record : Bool) (d : AlertData) (s : State) :
    (raiseFault k subject record d s).servo = s.servo := by
  simp only [raiseFault]
  (repeat' split) <;> simp

@[simp] theorem servo_clearFault (k : FaultKind) (subject : Subject) (record : Bool) (d : AlertData) (s : State) :
    (clearFault k subject record d s).servo = s.servo := by
  simp only [clearFault]
  (repeat' split) <;> simp

@[simp] theorem servo_offerState (old : ServoState) (s : State) :
    (offerState old s).servo = s.servo := by simp [offerState]

@[simp] theorem servo_setSourceState (i : Nat) (st : SourceState) (s : State) :
    (setSourceState i st s).servo = s.servo := by
  simp only [setSourceState]
  (repeat' split) <;> simp

@[simp] theorem servo_unselect (i : Nat) (s : State) :
    (unselect i s).servo = s.servo := by
  simp only [unselect]
  (repeat' split) <;> simp

@[simp] theorem servo_clearHoldoverExpired (s : State) :
    (clearHoldoverExpired s).servo = s.servo := by simp [clearHoldoverExpired]

@[simp] theorem servo_offerStateIfChanged (before : ServoState) (s : State) :
    (offerStateIfChanged before s).servo = s.servo := by
  simp only [offerStateIfChanged]
  (repeat' split) <;> simp

@[simp] theorem servo_secondPulse (s : State) :
    (secondPulse s).servo = s.servo := by
  simp only [secondPulse]
  (repeat' split) <;> simp

@[simp] theorem servo_performSwap (s : State) :
    (performSwap s).servo = s.servo := by simp [performSwap]

@[simp] theorem servo_armedSwap (s : State) :
    (armedSwap s).servo = s.servo := by
  simp only [armedSwap]
  (repeat' split) <;> simp

@[simp] theorem servo_secondBoundary (s : State) :
    (secondBoundary s).servo = s.servo := by simp [secondBoundary]

@[simp] theorem servo_stepTo (moved : Date × Bool) (s : State) :
    (stepTo moved s).servo = s.servo := by
  simp only [stepTo]
  (repeat' split) <;> simp

@[simp] theorem servo_forwardStep (amount : Nat) (s : State) :
    (forwardStep amount s).servo = s.servo := by simp [forwardStep]

@[simp] theorem servo_load (d : Date) (s : State) :
    (load d s).servo = s.servo := by
  simp only [load]
  (repeat' split) <;> simp

@[simp] theorem servo_rememberStamp (d : SN) (s : State) :
    (rememberStamp d s).servo = s.servo := by simp [rememberStamp]

@[simp] theorem servo_forwardWhole (w : Whole) (edit : Edit) (s : State) :
    (forwardWhole w edit s).servo = s.servo := by
  simp only [forwardWhole]
  (repeat' split) <;> simp

@[simp] theorem servo_takeInterval (p : Port) (s : State) :
    (takeInterval p s).servo = s.servo := by
  simp only [takeInterval]
  (repeat' split) <;> simp

@[simp] theorem servo_restartInterval (p : Port) (s : State) :
    (restartInterval p s).servo = s.servo := by simp [restartInterval]

@[simp] theorem servo_startEcho (p : Port) (s : State) :
    (startEcho p s).servo = s.servo := by
  simp only [startEcho]
  (repeat' split) <;> simp

@[simp] theorem servo_takeDelay (p : Port) (x : Nat) (s : State) :
    (takeDelay p x s).servo = s.servo := by simp [takeDelay]

@[simp] theorem servo_endExchange (w : Whole) (s : State) :
    (endExchange w s).servo = s.servo := by
  simp only [endExchange]
  (repeat' split) <;> simp

@[simp] theorem servo_answerReceived (w : Whole) (s : State) :
    (answerReceived w s).servo = s.servo := by
  simp only [answerReceived]
  (repeat' split) <;> simp

@[simp] theorem servo_echoTimesOut (p : Port) (s : State) :
    (echoTimesOut p s).servo = s.servo := by simp [echoTimesOut]

@[simp] theorem servo_echoLinkDown (p : Port) (s : State) :
    (echoLinkDown p s).servo = s.servo := by
  simp only [echoLinkDown]
  (repeat' split) <;> simp

@[simp] theorem servo_echoLinkUp (p : Port) (s : State) :
    (echoLinkUp p s).servo = s.servo := by
  simp only [echoLinkUp]
  (repeat' split) <;> simp

@[simp] theorem servo_echoRewritten (p : Port) (old : PortRec) (s : State) :
    (echoRewritten p old s).servo = s.servo := by
  simp only [echoRewritten]
  (repeat' split) <;> simp

@[simp] theorem servo_clearStale (p : Port) (s : State) :
    (clearStale p s).servo = s.servo := by simp [clearStale]

@[simp] theorem servo_answerAsk (w : Whole) (s : State) :
    (answerAsk w s).servo = s.servo := by
  simp only [answerAsk]
  (repeat' split) <;> simp

@[simp] theorem servo_handleAsk (w : Whole) (s : State) :
    (handleAsk w s).servo = s.servo := by
  simp only [handleAsk]
  (repeat' split) <;> simp

@[simp] theorem servo_handleAnswer (w : Whole) (s : State) :
    (handleAnswer w s).servo = s.servo := by
  simp only [handleAnswer]
  (repeat' split) <;> simp

@[simp] theorem servo_transitBeacon (w : Whole) (p : Nat) (s : State) :
    (transitBeacon w p s).servo = s.servo := by
  simp only [transitBeacon]
  (repeat' split) <;> simp

@[simp] theorem servo_beaconUnit (w : Whole) (p : Nat) (s : State) :
    (beaconUnit w p s).servo = s.servo := by
  simp only [beaconUnit]
  (repeat' split) <;> simp

@[simp] theorem servo_recordEmission (l : Lane) (instant : SN) (e : Emission) (s : State) :
    (recordEmission l instant e s).servo = s.servo := by simp [recordEmission]

@[simp] theorem servo_originate (l : Lane) (instant : SN) (s : State) :
    (originate l instant s).servo = s.servo := by
  simp only [originate]
  (repeat' split) <;> simp

@[simp] theorem servo_laneInstant (l : Lane) (old new : Date) (s : State) :
    (laneInstant l old new s).servo = s.servo := by
  simp only [laneInstant]
  (repeat' split) <;> simp

@[simp] theorem servo_startReports (s : State) :
    (startReports s).servo = s.servo := by simp [startReports]

@[simp] theorem servo_nextSlot (s : State) :
    (nextSlot s).servo = s.servo := by
  simp only [nextSlot]
  (repeat' split) <;> simp

@[simp] theorem servo_reportNotSent (i : Nat) (s : State) :
    (reportNotSent i s).servo = s.servo := by simp [reportNotSent]

@[simp] theorem servo_reportSent (i : Nat) (s : State) :
    (reportSent i s).servo = s.servo := by simp [reportSent]

@[simp] theorem servo_sendReport (i : Nat) (s : State) :
    (sendReport i s).servo = s.servo := by
  simp only [sendReport]
  (repeat' split) <;> simp

@[simp] theorem servo_unwarnPeer (i : Nat) (vote : Vote) (s : State) :
    (unwarnPeer i vote s).servo = s.servo := by simp [unwarnPeer]

@[simp] theorem servo_setPeerCfg (i : Nat) (c : PeerCfg) (s : State) :
    (setPeerCfg i c s).servo = s.servo := by simp [setPeerCfg]

@[simp] theorem servo_driftSoftReset (s : State) :
    (driftSoftReset s).servo = s.servo := by simp [driftSoftReset]

@[simp] theorem servo_freezeTrigger (t : Trigger) (s : State) :
    (freezeTrigger t s).servo = s.servo := by
  simp only [freezeTrigger]
  (repeat' split) <;> simp

@[simp] theorem servo_releaseFreeze (s : State) :
    (releaseFreeze s).servo = s.servo := by
  simp only [releaseFreeze]
  (repeat' split) <;> simp

@[simp] theorem servo_openMark (p : Port) (index : Nat) (e : MatchEntry) (ingress : Date) (s : State) :
    (openMark p index e ingress s).servo = s.servo := by
  simp only [openMark]
  (repeat' split) <;> simp

@[simp] theorem servo_settleStamp (p : Port) (written : Bool) (s : State) :
    (settleStamp p written s).servo = s.servo := by
  simp only [settleStamp]
  (repeat' split) <;> simp

@[simp] theorem servo_loseStamp (p : Port) (s : State) :
    (loseStamp p s).servo = s.servo := by simp [loseStamp]

@[simp] theorem servo_readyArriving (p : Port) (edit : Edit) (s : State) :
    (readyArriving p edit s).servo = s.servo := by simp [readyArriving]

@[simp] theorem servo_writeStampNow (p : Port) (c : DatingCtx) (bytes : List Byte) (s : State) :
    (writeStampNow p c bytes s).servo = s.servo := by simp [writeStampNow]

@[simp] theorem servo_closeMark (p : Port) (bytes : List Byte) (stop len : Nat) (badFcs : Bool) (s : State) :
    (closeMark p bytes stop len badFcs s).servo = s.servo := by
  simp only [closeMark]
  (repeat' split) <;> simp

@[simp] theorem servo_cutMark (p : Port) (bytes : List Byte) (len : Nat) (s : State) :
    (cutMark p bytes len s).servo = s.servo := by
  simp only [cutMark]
  (repeat' split) <;> simp

@[simp] theorem servo_setRx (p : Port) (r : Option Rx) (s : State) :
    (setRx p r s).servo = s.servo := by simp [setRx]

@[simp] theorem servo_forwardArriving (p : Port) (r : Rx) (ready : Bool) (s : State) :
    (forwardArriving p r ready s).1.servo = s.servo := by simp [forwardArriving]

@[simp] theorem servo_passFrame (p : Port) (r : Rx) (s : State) :
    (passFrame p r s).servo = s.servo := by simp [passFrame]

@[simp] theorem servo_settleArrived (p : Port) (bytes : List Byte) (s : State) :
    (settleArrived p bytes s).servo = s.servo := by
  simp only [settleArrived]
  (repeat' split) <;> simp

@[simp] theorem servo_markFrame (p : Port) (r : Rx) (index : Nat) (e : MatchEntry) (s : State) :
    (markFrame p r index e s).servo = s.servo := by
  simp only [markFrame]
  (repeat' split) <;> simp

@[simp] theorem servo_lookupFrame (p : Port) (r : Rx) (ended : Bool) (s : State) :
    (lookupFrame p r ended s).servo = s.servo := by
  simp only [lookupFrame]
  (repeat' split) <;> simp

@[simp] theorem servo_growArriving (p : Port) (bytes : List Byte) (s : State) :
    (growArriving p bytes s).servo = s.servo := by simp [growArriving]

@[simp] theorem servo_overrun (p : Port) (r : Rx) (s : State) :
    (overrun p r s).servo = s.servo := by
  simp only [overrun]
  (repeat' split) <;> simp

@[simp] theorem servo_oversizeArrives (p : Port) (more : List Byte) (s : State) :
    (oversizeArrives p more s).servo = s.servo := by
  simp only [oversizeArrives]
  (repeat' split) <;> simp

@[simp] theorem servo_malformedFrame (w : Whole) (s : State) :
    (malformedFrame w s).servo = s.servo := by simp [malformedFrame]

@[simp] theorem servo_acceptControl (w : Whole) (privilege : Privilege) (s : State) :
    (acceptControl w privilege s).servo = s.servo := by
  simp only [acceptControl]
  (repeat' split) <;> simp

@[simp] theorem servo_endForwarded (p : Port) (r : Rx) (inLane : Bool) (s : State) :
    (endForwarded p r inLane s).servo = s.servo := by
  simp only [endForwarded]
  (repeat' split) <;> simp

@[simp] theorem servo_applyFull (c : Settings) (bank : Vector MatchEntry 64) (source : LoadSource) (version : Nat) (s : State) :
    (applyFull c bank source version s).servo = s.servo := by simp [applyFull]

@[simp] theorem servo_loseReception (p : Port) (more : List Byte) (s : State) :
    (loseReception p more s).servo = s.servo := by
  simp only [loseReception]
  (repeat' split) <;> simp

@[simp] theorem servo_flushEgress (p : Port) (s : State) :
    (flushEgress p s).servo = s.servo := by
  simp only [flushEgress]
  (repeat' split) <;> simp

@[simp] theorem servo_removeRecords (k : Nat) (s : State) :
    (removeRecords k s).servo = s.servo := by
  simp only [removeRecords]
  (repeat' split) <;> simp

@[simp] theorem servo_testLog (s : State) :
    (testLog s).1.servo = s.servo := by
  simp only [testLog]
  (repeat' split) <;> simp

@[simp] theorem servo_writeMatch (index : Byte) (a : MatchArg) (s : State) :
    (writeMatch index a s).1.servo = s.servo := by
  simp only [writeMatch]
  (repeat' split) <;> simp

@[simp] theorem servo_copyActive (s : State) :
    (copyActive s).1.servo = s.servo := by
  simp only [copyActive]
  (repeat' split) <;> simp

@[simp] theorem servo_swapCommand (arg : Byte) (s : State) :
    (swapCommand arg s).1.servo = s.servo := by
  simp only [swapCommand]
  (repeat' split) <;> simp

@[simp] theorem servo_writePort (a : PortArg) (s : State) :
    (writePort a s).1.servo = s.servo := by
  simp only [writePort]
  (repeat' split) <;> simp

@[simp] theorem servo_writeLane (a : LaneArg) (s : State) :
    (writeLane a s).1.servo = s.servo := by
  simp only [writeLane]
  (repeat' split) <;> simp

@[simp] theorem servo_writeOverride (a : OverrideArg) (s : State) :
    (writeOverride a s).1.servo = s.servo := by
  simp only [writeOverride]
  (repeat' split) <;> simp

@[simp] theorem servo_saveSettings (s : State) :
    (saveSettings s).1.servo = s.servo := by
  simp only [saveSettings]
  (repeat' split) <;> simp

@[simp] theorem servo_resetCommand (arg : Byte) (s : State) :
    (resetCommand arg s).1.servo = s.servo := by
  simp only [resetCommand]
  (repeat' split) <;> simp

/-! ### log -/

theorem foldl_log {α : Type} (f : State → α → State) (h : ∀ t a, (f t a).log = t.log) (s : State) (l : List α) :
    (l.foldl f s).log = s.log := by
  induction l generalizing s with
  | nil => rfl
  | cons a rest ih => rw [List.foldl_cons, ih, h]

@[simp] theorem log_watchSecond (s : State) :
    (watchSecond s).log = s.log := by
  simp only [watchSecond]
  (repeat' split) <;> simp

@[simp] theorem log_judgePulse (d : Option Nat) (s : State) :
    (judgePulse d s).log = s.log := by simp [judgePulse]

@[simp] theorem log_setPort (s : State) (p : Port) (u : PortUnit) : (s.setPort p u).log = s.log := (rfl)
@[simp] theorem log_count (s : State) (p : Port) (f : Stats → Stats) : (s.count p f).log = s.log := (rfl)
@[simp] theorem log_setEcho (s : State) (p : Port) (e : Echo) : (s.setEcho p e).log = s.log := (rfl)
@[simp] theorem log_setLane (s : State) (l : Lane) (u : LaneUnit) : (s.setLane l u).log = s.log := (rfl)
@[simp] theorem log_setSource (s : State) (i : Nat) (e : Option SourceEntry) : (s.setSource i e).log = s.log := (rfl)
@[simp] theorem log_setPeer (s : State) (i : Nat) (e : PeerDyn) : (s.setPeer i e).log = s.log := (rfl)
@[simp] theorem log_setFault (s : State) (k : FaultKind) (r : FaultRec) : (s.setFault k r).log = s.log := (rfl)
@[simp] theorem log_setForm (s : State) (a : AlertForm) (v : FormState) : (s.setForm a v).log = s.log := (rfl)
@[simp] theorem log_admitFrame (p : Port) (need : Nat) (f : FwdFrame) (s : State) :
    (admitFrame p need f s).1.log = s.log := by
  simp only [admitFrame]
  (repeat' split) <;> simp

@[simp] theorem log_offerTiming (p : Port) (tag : OrigTag) (header : Nat) (bytes : List Byte) (s : State) :
    (offerTiming p tag header bytes s).1.log = s.log := by
  simp only [offerTiming]
  (repeat' split) <;> simp

@[simp] theorem log_offerGeneral (p : Port) (tag : OrigTag) (header : Nat) (bytes : List Byte) (s : State) :
    (offerGeneral p tag header bytes s).1.log = s.log := by
  simp only [offerGeneral]
  (repeat' split) <;> simp

@[simp] theorem log_askPassesEgress (p : Port) (id : Nat) (s : State) :
    (askPassesEgress p id s).log = s.log := by
  simp only [askPassesEgress]
  (repeat' split) <;> simp

@[simp] theorem log_reportPassesEgress (i : Nat) (rack ip : BitVec 32) (s : State) :
    (reportPassesEgress i rack ip s).log = s.log := by
  simp only [reportPassesEgress]
  (repeat' split) <;> simp

@[simp] theorem log_recordEgress (p : Port) (tag : OrigTag) (s : State) :
    (recordEgress p tag s).log = s.log := by
  simp only [recordEgress]
  (repeat' split) <;> simp

@[simp] theorem log_grantQueued (p : Port) (o : TxFrom) (q : QFrame) (s : State) :
    (grantQueued p o q s).log = s.log := by simp [grantQueued]

@[simp] theorem log_grantForwarded (p : Port) (f : FwdFrame) (s : State) :
    (grantForwarded p f s).log = s.log := by simp [grantForwarded]

@[simp] theorem log_arbitrate (p : Port) (s : State) :
    (arbitrate p s).log = s.log := by
  simp only [arbitrate]
  (repeat' split) <;> simp

@[simp] theorem log_finishTx (p : Port) (t : Tx) (s : State) :
    (finishTx p t s).log = s.log := by
  simp only [finishTx]
  (repeat' split) <;> simp

@[simp] theorem log_suppressAlert (a : AlertForm) (s : State) :
    (suppressAlert a s).log = s.log := by simp [suppressAlert]

@[simp] theorem log_alertEvent (a : AlertForm) (clear : Bool) (subject : Subject) (d : AlertData) (s : State) :
    (alertEvent a clear subject d s).log = s.log := by
  simp only [alertEvent]
  (repeat' split) <;> simp

@[simp] theorem log_activate (k : FaultKind) (subject : Subject) (s : State) :
    (activate k subject s).log = s.log := by simp [activate]

@[simp] theorem log_countRaise (k : FaultKind) (s : State) :
    (countRaise k s).log = s.log := by simp [countRaise]

@[simp] theorem log_deactivate (k : FaultKind) (s : State) :
    (deactivate k s).log = s.log := by simp [deactivate]

@[simp] theorem log_faultAlert (k : FaultKind) (clear : Bool) (subject : Subject) (d : AlertData) (s : State) :
    (faultAlert k clear subject d s).log = s.log := by
  simp only [faultAlert]
  (repeat' split) <;> simp

@[simp] theorem log_handRate (r : Int) (s : State) :
    (handRate r s).log = s.log := by simp [handRate]

@[simp] theorem log_setServoState (st : ServoState) (s : State) :
    (setServoState st s).log = s.log := by simp [setServoState]

@[simp] theorem log_servoFollows (s : State) :
    (servoFollows s).log = s.log := by simp [servoFollows]

@[simp] theorem log_servoSwitches (s : State) :
    (servoSwitches s).log = s.log := by simp [servoSwitches]

@[simp] theorem log_servoHolds (s : State) :
    (servoHolds s).log = s.log := by simp [servoHolds]

@[simp] theorem log_setSourceState (i : Nat) (st : SourceState) (s : State) :
    (setSourceState i st s).log = s.log := by
  simp only [setSourceState]
  (repeat' split) <;> simp

@[simp] theorem log_unselect (i : Nat) (s : State) :
    (unselect i s).log = s.log := by
  simp only [unselect]
  (repeat' split) <;> simp

@[simp] theorem log_secondPulse (s : State) :
    (secondPulse s).log = s.log := by
  simp only [secondPulse]
  (repeat' split) <;> simp

@[simp] theorem log_performSwap (s : State) :
    (performSwap s).log = s.log := by simp [performSwap]

@[simp] theorem log_armedSwap (s : State) :
    (armedSwap s).log = s.log := by
  simp only [armedSwap]
  (repeat' split) <;> simp

@[simp] theorem log_secondBoundary (s : State) :
    (secondBoundary s).log = s.log := by simp [secondBoundary]

@[simp] theorem log_stepTo (moved : Date × Bool) (s : State) :
    (stepTo moved s).log = s.log := by
  simp only [stepTo]
  (repeat' split) <;> simp

@[simp] theorem log_forwardStep (amount : Nat) (s : State) :
    (forwardStep amount s).log = s.log := by simp [forwardStep]

@[simp] theorem log_load (d : Date) (s : State) :
    (load d s).log = s.log := by
  simp only [load]
  (repeat' split) <;> simp

@[simp] theorem log_uptimeSecond (s : State) :
    (uptimeSecond s).log = s.log := by
  simp only [uptimeSecond]
  (repeat' split) <;> simp

@[simp] theorem log_rememberStamp (d : SN) (s : State) :
    (rememberStamp d s).log = s.log := by simp [rememberStamp]

@[simp] theorem log_clampF (s : State) :
    (clampF s).log = s.log := by
  simp only [clampF]
  (repeat' split) <;> simp

@[simp] theorem log_setTrimTo (f : Int) (s : State) :
    (setTrimTo f s).1.log = s.log := by
  simp only [setTrimTo]
  (repeat' split) <;> simp

@[simp] theorem log_loadTrim (s : State) :
    (loadTrim s).log = s.log := by simp [loadTrim]

@[simp] theorem log_forwardWhole (w : Whole) (edit : Edit) (s : State) :
    (forwardWhole w edit s).log = s.log := by
  simp only [forwardWhole]
  (repeat' split) <;> simp

@[simp] theorem log_takeInterval (p : Port) (s : State) :
    (takeInterval p s).log = s.log := by
  simp only [takeInterval]
  (repeat' split) <;> simp

@[simp] theorem log_restartInterval (p : Port) (s : State) :
    (restartInterval p s).log = s.log := by simp [restartInterval]

@[simp] theorem log_startEcho (p : Port) (s : State) :
    (startEcho p s).log = s.log := by
  simp only [startEcho]
  (repeat' split) <;> simp

@[simp] theorem log_takeDelay (p : Port) (x : Nat) (s : State) :
    (takeDelay p x s).log = s.log := by simp [takeDelay]

@[simp] theorem log_endExchange (w : Whole) (s : State) :
    (endExchange w s).log = s.log := by
  simp only [endExchange]
  (repeat' split) <;> simp

@[simp] theorem log_answerReceived (w : Whole) (s : State) :
    (answerReceived w s).log = s.log := by
  simp only [answerReceived]
  (repeat' split) <;> simp

@[simp] theorem log_echoTimesOut (p : Port) (s : State) :
    (echoTimesOut p s).log = s.log := by simp [echoTimesOut]

@[simp] theorem log_echoLinkDown (p : Port) (s : State) :
    (echoLinkDown p s).log = s.log := by
  simp only [echoLinkDown]
  (repeat' split) <;> simp

@[simp] theorem log_echoLinkUp (p : Port) (s : State) :
    (echoLinkUp p s).log = s.log := by
  simp only [echoLinkUp]
  (repeat' split) <;> simp

@[simp] theorem log_echoRewritten (p : Port) (old : PortRec) (s : State) :
    (echoRewritten p old s).log = s.log := by
  simp only [echoRewritten]
  (repeat' split) <;> simp

@[simp] theorem log_clearStale (p : Port) (s : State) :
    (clearStale p s).log = s.log := by simp [clearStale]

@[simp] theorem log_answerAsk (w : Whole) (s : State) :
    (answerAsk w s).log = s.log := by
  simp only [answerAsk]
  (repeat' split) <;> simp

@[simp] theorem log_handleAsk (w : Whole) (s : State) :
    (handleAsk w s).log = s.log := by
  simp only [handleAsk]
  (repeat' split) <;> simp

@[simp] theorem log_handleAnswer (w : Whole) (s : State) :
    (handleAnswer w s).log = s.log := by
  simp only [handleAnswer]
  (repeat' split) <;> simp

@[simp] theorem log_transitBeacon (w : Whole) (p : Nat) (s : State) :
    (transitBeacon w p s).log = s.log := by
  simp only [transitBeacon]
  (repeat' split) <;> simp

@[simp] theorem log_beaconUnit (w : Whole) (p : Nat) (s : State) :
    (beaconUnit w p s).log = s.log := by
  simp only [beaconUnit]
  (repeat' split) <;> simp

@[simp] theorem log_recordEmission (l : Lane) (instant : SN) (e : Emission) (s : State) :
    (recordEmission l instant e s).log = s.log := by simp [recordEmission]

@[simp] theorem log_originate (l : Lane) (instant : SN) (s : State) :
    (originate l instant s).log = s.log := by
  simp only [originate]
  (repeat' split) <;> simp

@[simp] theorem log_laneInstant (l : Lane) (old new : Date) (s : State) :
    (laneInstant l old new s).log = s.log := by
  simp only [laneInstant]
  (repeat' split) <;> simp

@[simp] theorem log_startReports (s : State) :
    (startReports s).log = s.log := by simp [startReports]

@[simp] theorem log_nextSlot (s : State) :
    (nextSlot s).log = s.log := by
  simp only [nextSlot]
  (repeat' split) <;> simp

@[simp] theorem log_reportNotSent (i : Nat) (s : State) :
    (reportNotSent i s).log = s.log := by simp [reportNotSent]

@[simp] theorem log_reportSent (i : Nat) (s : State) :
    (reportSent i s).log = s.log := by simp [reportSent]

@[simp] theorem log_sendReport (i : Nat) (s : State) :
    (sendReport i s).log = s.log := by
  simp only [sendReport]
  (repeat' split) <;> simp

@[simp] theorem log_setPeerCfg (i : Nat) (c : PeerCfg) (s : State) :
    (setPeerCfg i c s).log = s.log := by simp [setPeerCfg]

@[simp] theorem log_driftSoftReset (s : State) :
    (driftSoftReset s).log = s.log := by simp [driftSoftReset]

@[simp] theorem log_settleStamp (p : Port) (written : Bool) (s : State) :
    (settleStamp p written s).log = s.log := by
  simp only [settleStamp]
  (repeat' split) <;> simp

@[simp] theorem log_loseStamp (p : Port) (s : State) :
    (loseStamp p s).log = s.log := by simp [loseStamp]

@[simp] theorem log_readyArriving (p : Port) (edit : Edit) (s : State) :
    (readyArriving p edit s).log = s.log := by simp [readyArriving]

@[simp] theorem log_writeStampNow (p : Port) (c : DatingCtx) (bytes : List Byte) (s : State) :
    (writeStampNow p c bytes s).log = s.log := by simp [writeStampNow]

@[simp] theorem log_setRx (p : Port) (r : Option Rx) (s : State) :
    (setRx p r s).log = s.log := by simp [setRx]

@[simp] theorem log_forwardArriving (p : Port) (r : Rx) (ready : Bool) (s : State) :
    (forwardArriving p r ready s).1.log = s.log := by simp [forwardArriving]

@[simp] theorem log_passFrame (p : Port) (r : Rx) (s : State) :
    (passFrame p r s).log = s.log := by simp [passFrame]

@[simp] theorem log_settleArrived (p : Port) (bytes : List Byte) (s : State) :
    (settleArrived p bytes s).log = s.log := by
  simp only [settleArrived]
  (repeat' split) <;> simp

@[simp] theorem log_growArriving (p : Port) (bytes : List Byte) (s : State) :
    (growArriving p bytes s).log = s.log := by simp [growArriving]

@[simp] theorem log_malformedFrame (w : Whole) (s : State) :
    (malformedFrame w s).log = s.log := by simp [malformedFrame]

@[simp] theorem log_acceptControl (w : Whole) (privilege : Privilege) (s : State) :
    (acceptControl w privilege s).log = s.log := by
  simp only [acceptControl]
  (repeat' split) <;> simp

@[simp] theorem log_applyFull (c : Settings) (bank : Vector MatchEntry 64) (source : LoadSource) (version : Nat) (s : State) :
    (applyFull c bank source version s).log = s.log := by simp [applyFull]

@[simp] theorem log_enterRunning (s : State) :
    (enterRunning s).log = s.log := by simp [enterRunning]

@[simp] theorem log_flushEgress (p : Port) (s : State) :
    (flushEgress p s).log = s.log := by
  simp only [flushEgress]
  (repeat' split) <;> simp

@[simp] theorem log_periodTo (moved : Date × Bool) (second : Bool) (s : State) :
    (periodTo moved second s).log = s.log := by
  simp only [periodTo]
  (repeat' split) <;> simp

@[simp] theorem log_clockPeriod (s : State) :
    (clockPeriod s).log = s.log := by simp [clockPeriod]

@[simp] theorem log_writeMatch (index : Byte) (a : MatchArg) (s : State) :
    (writeMatch index a s).1.log = s.log := by
  simp only [writeMatch]
  (repeat' split) <;> simp

@[simp] theorem log_copyActive (s : State) :
    (copyActive s).1.log = s.log := by
  simp only [copyActive]
  (repeat' split) <;> simp

@[simp] theorem log_swapCommand (arg : Byte) (s : State) :
    (swapCommand arg s).1.log = s.log := by
  simp only [swapCommand]
  (repeat' split) <;> simp

@[simp] theorem log_writePort (a : PortArg) (s : State) :
    (writePort a s).1.log = s.log := by
  simp only [writePort]
  (repeat' split) <;> simp

@[simp] theorem log_writeLane (a : LaneArg) (s : State) :
    (writeLane a s).1.log = s.log := by
  simp only [writeLane]
  (repeat' split) <;> simp

@[simp] theorem log_writeOverride (a : OverrideArg) (s : State) :
    (writeOverride a s).1.log = s.log := by
  simp only [writeOverride]
  (repeat' split) <;> simp

@[simp] theorem log_saveSettings (s : State) :
    (saveSettings s).1.log = s.log := by
  simp only [saveSettings]
  (repeat' split) <;> simp

@[simp] theorem log_resetCommand (arg : Byte) (s : State) :
    (resetCommand arg s).1.log = s.log := by
  simp only [resetCommand]
  (repeat' split) <;> simp

/-! ### faults -/

theorem foldl_faults {α : Type} (f : State → α → State) (h : ∀ t a, (f t a).faults = t.faults) (s : State) (l : List α) :
    (l.foldl f s).faults = s.faults := by
  induction l generalizing s with
  | nil => rfl
  | cons a rest ih => rw [List.foldl_cons, ih, h]

@[simp] theorem faults_watchSecond (s : State) :
    (watchSecond s).faults = s.faults := by
  simp only [watchSecond]
  (repeat' split) <;> simp

@[simp] theorem faults_judgePulse (d : Option Nat) (s : State) :
    (judgePulse d s).faults = s.faults := by simp [judgePulse]

@[simp] theorem faults_setPort (s : State) (p : Port) (u : PortUnit) : (s.setPort p u).faults = s.faults := (rfl)
@[simp] theorem faults_count (s : State) (p : Port) (f : Stats → Stats) : (s.count p f).faults = s.faults := (rfl)
@[simp] theorem faults_setEcho (s : State) (p : Port) (e : Echo) : (s.setEcho p e).faults = s.faults := (rfl)
@[simp] theorem faults_setLane (s : State) (l : Lane) (u : LaneUnit) : (s.setLane l u).faults = s.faults := (rfl)
@[simp] theorem faults_setSource (s : State) (i : Nat) (e : Option SourceEntry) : (s.setSource i e).faults = s.faults := (rfl)
@[simp] theorem faults_setPeer (s : State) (i : Nat) (e : PeerDyn) : (s.setPeer i e).faults = s.faults := (rfl)
@[simp] theorem faults_admitFrame (p : Port) (need : Nat) (f : FwdFrame) (s : State) :
    (admitFrame p need f s).1.faults = s.faults := by
  simp only [admitFrame]
  (repeat' split) <;> simp

@[simp] theorem faults_offerTiming (p : Port) (tag : OrigTag) (header : Nat) (bytes : List Byte) (s : State) :
    (offerTiming p tag header bytes s).1.faults = s.faults := by
  simp only [offerTiming]
  (repeat' split) <;> simp

@[simp] theorem faults_offerGeneral (p : Port) (tag : OrigTag) (header : Nat) (bytes : List Byte) (s : State) :
    (offerGeneral p tag header bytes s).1.faults = s.faults := by
  simp only [offerGeneral]
  (repeat' split) <;> simp

@[simp] theorem faults_askPassesEgress (p : Port) (id : Nat) (s : State) :
    (askPassesEgress p id s).faults = s.faults := by
  simp only [askPassesEgress]
  (repeat' split) <;> simp

@[simp] theorem faults_reportPassesEgress (i : Nat) (rack ip : BitVec 32) (s : State) :
    (reportPassesEgress i rack ip s).faults = s.faults := by
  simp only [reportPassesEgress]
  (repeat' split) <;> simp

@[simp] theorem faults_recordEgress (p : Port) (tag : OrigTag) (s : State) :
    (recordEgress p tag s).faults = s.faults := by
  simp only [recordEgress]
  (repeat' split) <;> simp

@[simp] theorem faults_grantQueued (p : Port) (o : TxFrom) (q : QFrame) (s : State) :
    (grantQueued p o q s).faults = s.faults := by simp [grantQueued]

@[simp] theorem faults_grantForwarded (p : Port) (f : FwdFrame) (s : State) :
    (grantForwarded p f s).faults = s.faults := by simp [grantForwarded]

@[simp] theorem faults_arbitrate (p : Port) (s : State) :
    (arbitrate p s).faults = s.faults := by
  simp only [arbitrate]
  (repeat' split) <;> simp

@[simp] theorem faults_finishTx (p : Port) (t : Tx) (s : State) :
    (finishTx p t s).faults = s.faults := by
  simp only [finishTx]
  (repeat' split) <;> simp

@[simp] theorem faults_handRate (r : Int) (s : State) :
    (handRate r s).faults = s.faults := by simp [handRate]

@[simp] theorem faults_setServoState (st : ServoState) (s : State) :
    (setServoState st s).faults = s.faults := by simp [setServoState]

@[simp] theorem faults_servoFollows (s : State) :
    (servoFollows s).faults = s.faults := by simp [servoFollows]

@[simp] theorem faults_servoSwitches (s : State) :
    (servoSwitches s).faults = s.faults := by simp [servoSwitches]

@[simp] theorem faults_servoHolds (s : State) :
    (servoHolds s).faults = s.faults := by simp [servoHolds]

@[simp] theorem faults_setSourceState (i : Nat) (st : SourceState) (s : State) :
    (setSourceState i st s).faults = s.faults := by
  simp only [setSourceState]
  (repeat' split) <;> simp

@[simp] theorem faults_unselect (i : Nat) (s : State) :
    (unselect i s).faults = s.faults := by
  simp only [unselect]
  (repeat' split) <;> simp

@[simp] theorem faults_secondPulse (s : State) :
    (secondPulse s).faults = s.faults := by
  simp only [secondPulse]
  (repeat' split) <;> simp

@[simp] theorem faults_performSwap (s : State) :
    (performSwap s).faults = s.faults := by simp [performSwap]

@[simp] theorem faults_armedSwap (s : State) :
    (armedSwap s).faults = s.faults := by
  simp only [armedSwap]
  (repeat' split) <;> simp

@[simp] theorem faults_secondBoundary (s : State) :
    (secondBoundary s).faults = s.faults := by simp [secondBoundary]

@[simp] theorem faults_stepTo (moved : Date × Bool) (s : State) :
    (stepTo moved s).faults = s.faults := by
  simp only [stepTo]
  (repeat' split) <;> simp

@[simp] theorem faults_forwardStep (amount : Nat) (s : State) :
    (forwardStep amount s).faults = s.faults := by simp [forwardStep]

@[simp] theorem faults_load (d : Date) (s : State) :
    (load d s).faults = s.faults := by
  simp only [load]
  (repeat' split) <;> simp

@[simp] theorem faults_uptimeSecond (s : State) :
    (uptimeSecond s).faults = s.faults := by
  simp only [uptimeSecond]
  (repeat' split) <;> simp

@[simp] theorem faults_rememberStamp (d : SN) (s : State) :
    (rememberStamp d s).faults = s.faults := by simp [rememberStamp]

@[simp] theorem faults_clampF (s : State) :
    (clampF s).faults = s.faults := by
  simp only [clampF]
  (repeat' split) <;> simp

@[simp] theorem faults_setTrimTo (f : Int) (s : State) :
    (setTrimTo f s).1.faults = s.faults := by
  simp only [setTrimTo]
  (repeat' split) <;> simp

@[simp] theorem faults_loadTrim (s : State) :
    (loadTrim s).faults = s.faults := by simp [loadTrim]

@[simp] theorem faults_forwardWhole (w : Whole) (edit : Edit) (s : State) :
    (forwardWhole w edit s).faults = s.faults := by
  simp only [forwardWhole]
  (repeat' split) <;> simp

@[simp] theorem faults_takeInterval (p : Port) (s : State) :
    (takeInterval p s).faults = s.faults := by
  simp only [takeInterval]
  (repeat' split) <;> simp

@[simp] theorem faults_restartInterval (p : Port) (s : State) :
    (restartInterval p s).faults = s.faults := by simp [restartInterval]

@[simp] theorem faults_startEcho (p : Port) (s : State) :
    (startEcho p s).faults = s.faults := by
  simp only [startEcho]
  (repeat' split) <;> simp

@[simp] theorem faults_takeDelay (p : Port) (x : Nat) (s : State) :
    (takeDelay p x s).faults = s.faults := by simp [takeDelay]

@[simp] theorem faults_endExchange (w : Whole) (s : State) :
    (endExchange w s).faults = s.faults := by
  simp only [endExchange]
  (repeat' split) <;> simp

@[simp] theorem faults_answerReceived (w : Whole) (s : State) :
    (answerReceived w s).faults = s.faults := by
  simp only [answerReceived]
  (repeat' split) <;> simp

@[simp] theorem faults_echoTimesOut (p : Port) (s : State) :
    (echoTimesOut p s).faults = s.faults := by simp [echoTimesOut]

@[simp] theorem faults_echoLinkDown (p : Port) (s : State) :
    (echoLinkDown p s).faults = s.faults := by
  simp only [echoLinkDown]
  (repeat' split) <;> simp

@[simp] theorem faults_echoLinkUp (p : Port) (s : State) :
    (echoLinkUp p s).faults = s.faults := by
  simp only [echoLinkUp]
  (repeat' split) <;> simp

@[simp] theorem faults_echoRewritten (p : Port) (old : PortRec) (s : State) :
    (echoRewritten p old s).faults = s.faults := by
  simp only [echoRewritten]
  (repeat' split) <;> simp

@[simp] theorem faults_clearStale (p : Port) (s : State) :
    (clearStale p s).faults = s.faults := by simp [clearStale]

@[simp] theorem faults_answerAsk (w : Whole) (s : State) :
    (answerAsk w s).faults = s.faults := by
  simp only [answerAsk]
  (repeat' split) <;> simp

@[simp] theorem faults_handleAsk (w : Whole) (s : State) :
    (handleAsk w s).faults = s.faults := by
  simp only [handleAsk]
  (repeat' split) <;> simp

@[simp] theorem faults_handleAnswer (w : Whole) (s : State) :
    (handleAnswer w s).faults = s.faults := by
  simp only [handleAnswer]
  (repeat' split) <;> simp

@[simp] theorem faults_transitBeacon (w : Whole) (p : Nat) (s : State) :
    (transitBeacon w p s).faults = s.faults := by
  simp only [transitBeacon]
  (repeat' split) <;> simp

@[simp] theorem faults_beaconUnit (w : Whole) (p : Nat) (s : State) :
    (beaconUnit w p s).faults = s.faults := by
  simp only [beaconUnit]
  (repeat' split) <;> simp

@[simp] theorem faults_recordEmission (l : Lane) (instant : SN) (e : Emission) (s : State) :
    (recordEmission l instant e s).faults = s.faults := by simp [recordEmission]

@[simp] theorem faults_originate (l : Lane) (instant : SN) (s : State) :
    (originate l instant s).faults = s.faults := by
  simp only [originate]
  (repeat' split) <;> simp

@[simp] theorem faults_laneInstant (l : Lane) (old new : Date) (s : State) :
    (laneInstant l old new s).faults = s.faults := by
  simp only [laneInstant]
  (repeat' split) <;> simp

@[simp] theorem faults_startReports (s : State) :
    (startReports s).faults = s.faults := by simp [startReports]

@[simp] theorem faults_nextSlot (s : State) :
    (nextSlot s).faults = s.faults := by
  simp only [nextSlot]
  (repeat' split) <;> simp

@[simp] theorem faults_reportNotSent (i : Nat) (s : State) :
    (reportNotSent i s).faults = s.faults := by simp [reportNotSent]

@[simp] theorem faults_reportSent (i : Nat) (s : State) :
    (reportSent i s).faults = s.faults := by simp [reportSent]

@[simp] theorem faults_sendReport (i : Nat) (s : State) :
    (sendReport i s).faults = s.faults := by
  simp only [sendReport]
  (repeat' split) <;> simp

@[simp] theorem faults_setPeerCfg (i : Nat) (c : PeerCfg) (s : State) :
    (setPeerCfg i c s).faults = s.faults := by simp [setPeerCfg]

@[simp] theorem faults_driftSoftReset (s : State) :
    (driftSoftReset s).faults = s.faults := by simp [driftSoftReset]

@[simp] theorem faults_settleStamp (p : Port) (written : Bool) (s : State) :
    (settleStamp p written s).faults = s.faults := by
  simp only [settleStamp]
  (repeat' split) <;> simp

@[simp] theorem faults_loseStamp (p : Port) (s : State) :
    (loseStamp p s).faults = s.faults := by simp [loseStamp]

@[simp] theorem faults_readyArriving (p : Port) (edit : Edit) (s : State) :
    (readyArriving p edit s).faults = s.faults := by simp [readyArriving]

@[simp] theorem faults_writeStampNow (p : Port) (c : DatingCtx) (bytes : List Byte) (s : State) :
    (writeStampNow p c bytes s).faults = s.faults := by simp [writeStampNow]

@[simp] theorem faults_setRx (p : Port) (r : Option Rx) (s : State) :
    (setRx p r s).faults = s.faults := by simp [setRx]

@[simp] theorem faults_forwardArriving (p : Port) (r : Rx) (ready : Bool) (s : State) :
    (forwardArriving p r ready s).1.faults = s.faults := by simp [forwardArriving]

@[simp] theorem faults_passFrame (p : Port) (r : Rx) (s : State) :
    (passFrame p r s).faults = s.faults := by simp [passFrame]

@[simp] theorem faults_settleArrived (p : Port) (bytes : List Byte) (s : State) :
    (settleArrived p bytes s).faults = s.faults := by
  simp only [settleArrived]
  (repeat' split) <;> simp

@[simp] theorem faults_growArriving (p : Port) (bytes : List Byte) (s : State) :
    (growArriving p bytes s).faults = s.faults := by simp [growArriving]

@[simp] theorem faults_malformedFrame (w : Whole) (s : State) :
    (malformedFrame w s).faults = s.faults := by simp [malformedFrame]

@[simp] theorem faults_acceptControl (w : Whole) (privilege : Privilege) (s : State) :
    (acceptControl w privilege s).faults = s.faults := by
  simp only [acceptControl]
  (repeat' split) <;> simp

@[simp] theorem faults_applyFull (c : Settings) (bank : Vector MatchEntry 64) (source : LoadSource) (version : Nat) (s : State) :
    (applyFull c bank source version s).faults = s.faults := by simp [applyFull]

@[simp] theorem faults_enterRunning (s : State) :
    (enterRunning s).faults = s.faults := by simp [enterRunning]

@[simp] theorem faults_flushEgress (p : Port) (s : State) :
    (flushEgress p s).faults = s.faults := by
  simp only [flushEgress]
  (repeat' split) <;> simp

@[simp] theorem faults_periodTo (moved : Date × Bool) (second : Bool) (s : State) :
    (periodTo moved second s).faults = s.faults := by
  simp only [periodTo]
  (repeat' split) <;> simp

@[simp] theorem faults_clockPeriod (s : State) :
    (clockPeriod s).faults = s.faults := by simp [clockPeriod]

@[simp] theorem faults_removeRecords (k : Nat) (s : State) :
    (removeRecords k s).faults = s.faults := by
  simp only [removeRecords]
  (repeat' split) <;> simp

@[simp] theorem faults_testLog (s : State) :
    (testLog s).1.faults = s.faults := by
  simp only [testLog]
  (repeat' split) <;> simp

@[simp] theorem faults_writeMatch (index : Byte) (a : MatchArg) (s : State) :
    (writeMatch index a s).1.faults = s.faults := by
  simp only [writeMatch]
  (repeat' split) <;> simp

@[simp] theorem faults_copyActive (s : State) :
    (copyActive s).1.faults = s.faults := by
  simp only [copyActive]
  (repeat' split) <;> simp

@[simp] theorem faults_swapCommand (arg : Byte) (s : State) :
    (swapCommand arg s).1.faults = s.faults := by
  simp only [swapCommand]
  (repeat' split) <;> simp

@[simp] theorem faults_writePort (a : PortArg) (s : State) :
    (writePort a s).1.faults = s.faults := by
  simp only [writePort]
  (repeat' split) <;> simp

@[simp] theorem faults_writeLane (a : LaneArg) (s : State) :
    (writeLane a s).1.faults = s.faults := by
  simp only [writeLane]
  (repeat' split) <;> simp

@[simp] theorem faults_writeOverride (a : OverrideArg) (s : State) :
    (writeOverride a s).1.faults = s.faults := by
  simp only [writeOverride]
  (repeat' split) <;> simp

@[simp] theorem faults_saveSettings (s : State) :
    (saveSettings s).1.faults = s.faults := by
  simp only [saveSettings]
  (repeat' split) <;> simp

@[simp] theorem faults_resetCommand (arg : Byte) (s : State) :
    (resetCommand arg s).1.faults = s.faults := by
  simp only [resetCommand]
  (repeat' split) <;> simp

/-! ### frozen -/

theorem foldl_frozen {α : Type} (f : State → α → State) (h : ∀ t a, (f t a).frozen = t.frozen) (s : State) (l : List α) :
    (l.foldl f s).frozen = s.frozen := by
  induction l generalizing s with
  | nil => rfl
  | cons a rest ih => rw [List.foldl_cons, ih, h]

@[simp] theorem frozen_watchSecond (s : State) :
    (watchSecond s).frozen = s.frozen := by
  simp only [watchSecond]
  (repeat' split) <;> simp

@[simp] theorem frozen_judgePulse (d : Option Nat) (s : State) :
    (judgePulse d s).frozen = s.frozen := by simp [judgePulse]

@[simp] theorem frozen_setPort (s : State) (p : Port) (u : PortUnit) : (s.setPort p u).frozen = s.frozen := (rfl)
@[simp] theorem frozen_count (s : State) (p : Port) (f : Stats → Stats) : (s.count p f).frozen = s.frozen := (rfl)
@[simp] theorem frozen_setEcho (s : State) (p : Port) (e : Echo) : (s.setEcho p e).frozen = s.frozen := (rfl)
@[simp] theorem frozen_setLane (s : State) (l : Lane) (u : LaneUnit) : (s.setLane l u).frozen = s.frozen := (rfl)
@[simp] theorem frozen_setSource (s : State) (i : Nat) (e : Option SourceEntry) : (s.setSource i e).frozen = s.frozen := (rfl)
@[simp] theorem frozen_setPeer (s : State) (i : Nat) (e : PeerDyn) : (s.setPeer i e).frozen = s.frozen := (rfl)
@[simp] theorem frozen_setFault (s : State) (k : FaultKind) (r : FaultRec) : (s.setFault k r).frozen = s.frozen := (rfl)
@[simp] theorem frozen_setForm (s : State) (a : AlertForm) (v : FormState) : (s.setForm a v).frozen = s.frozen := (rfl)
@[simp] theorem frozen_admitFrame (p : Port) (need : Nat) (f : FwdFrame) (s : State) :
    (admitFrame p need f s).1.frozen = s.frozen := by
  simp only [admitFrame]
  (repeat' split) <;> simp

@[simp] theorem frozen_offerTiming (p : Port) (tag : OrigTag) (header : Nat) (bytes : List Byte) (s : State) :
    (offerTiming p tag header bytes s).1.frozen = s.frozen := by
  simp only [offerTiming]
  (repeat' split) <;> simp

@[simp] theorem frozen_offerGeneral (p : Port) (tag : OrigTag) (header : Nat) (bytes : List Byte) (s : State) :
    (offerGeneral p tag header bytes s).1.frozen = s.frozen := by
  simp only [offerGeneral]
  (repeat' split) <;> simp

@[simp] theorem frozen_askPassesEgress (p : Port) (id : Nat) (s : State) :
    (askPassesEgress p id s).frozen = s.frozen := by
  simp only [askPassesEgress]
  (repeat' split) <;> simp

@[simp] theorem frozen_reportPassesEgress (i : Nat) (rack ip : BitVec 32) (s : State) :
    (reportPassesEgress i rack ip s).frozen = s.frozen := by
  simp only [reportPassesEgress]
  (repeat' split) <;> simp

@[simp] theorem frozen_recordEgress (p : Port) (tag : OrigTag) (s : State) :
    (recordEgress p tag s).frozen = s.frozen := by
  simp only [recordEgress]
  (repeat' split) <;> simp

@[simp] theorem frozen_grantQueued (p : Port) (o : TxFrom) (q : QFrame) (s : State) :
    (grantQueued p o q s).frozen = s.frozen := by simp [grantQueued]

@[simp] theorem frozen_grantForwarded (p : Port) (f : FwdFrame) (s : State) :
    (grantForwarded p f s).frozen = s.frozen := by simp [grantForwarded]

@[simp] theorem frozen_arbitrate (p : Port) (s : State) :
    (arbitrate p s).frozen = s.frozen := by
  simp only [arbitrate]
  (repeat' split) <;> simp

@[simp] theorem frozen_finishTx (p : Port) (t : Tx) (s : State) :
    (finishTx p t s).frozen = s.frozen := by
  simp only [finishTx]
  (repeat' split) <;> simp

@[simp] theorem frozen_suppressAlert (a : AlertForm) (s : State) :
    (suppressAlert a s).frozen = s.frozen := by simp [suppressAlert]

@[simp] theorem frozen_alertEvent (a : AlertForm) (clear : Bool) (subject : Subject) (d : AlertData) (s : State) :
    (alertEvent a clear subject d s).frozen = s.frozen := by
  simp only [alertEvent]
  (repeat' split) <;> simp

@[simp] theorem frozen_levelNotice (s : State) :
    (levelNotice s).frozen = s.frozen := by
  simp only [levelNotice]
  (repeat' split) <;> simp

@[simp] theorem frozen_offerBare (o : Offer) (s : State) :
    (offerBare o s).1.frozen = s.frozen := by
  simp only [offerBare]
  (repeat' split) <;> simp

@[simp] theorem frozen_activate (k : FaultKind) (subject : Subject) (s : State) :
    (activate k subject s).frozen = s.frozen := by simp [activate]

@[simp] theorem frozen_countRaise (k : FaultKind) (s : State) :
    (countRaise k s).frozen = s.frozen := by simp [countRaise]

@[simp] theorem frozen_deactivate (k : FaultKind) (s : State) :
    (deactivate k s).frozen = s.frozen := by simp [deactivate]

@[simp] theorem frozen_faultAlert (k : FaultKind) (clear : Bool) (subject : Subject) (d : AlertData) (s : State) :
    (faultAlert k clear subject d s).frozen = s.frozen := by
  simp only [faultAlert]
  (repeat' split) <;> simp

@[simp] theorem frozen_raiseLogFull (s : State) :
    (raiseLogFull s).frozen = s.frozen := by
  simp only [raiseLogFull]
  (repeat' split) <;> simp

@[simp] theorem frozen_clearLogFull (s : State) :
    (clearLogFull s).frozen = s.frozen := by
  simp only [clearLogFull]
  (repeat' split) <;> simp

@[simp] theorem frozen_offerRecord (o : Offer) (s : State) :
    (offerRecord o s).frozen = s.frozen := by
  simp only [offerRecord]
  (repeat' split) <;> simp

@[simp] theorem frozen_raiseLogFullAgain (s : State) :
    (raiseLogFullAgain s).frozen = s.frozen := by
  simp only [raiseLogFullAgain]
  (repeat' split) <;> simp

@[simp] theorem frozen_raiseFault (k : FaultKind) (subject : Subject) (record : Bool) (d : AlertData) (s : State) :
    (raiseFault k subject record d s).frozen = s.frozen := by
  simp only [raiseFault]
  (repeat' split) <;> simp

@[simp] theorem frozen_clearFault (k : FaultKind) (subject : Subject) (record : Bool) (d : AlertData) (s : State) :
    (clearFault k subject record d s).frozen = s.frozen := by
  simp only [clearFault]
  (repeat' split) <;> simp

@[simp] theorem frozen_handRate (r : Int) (s : State) :
    (handRate r s).frozen = s.frozen := by simp [handRate]

@[simp] theorem frozen_setServoState (st : ServoState) (s : State) :
    (setServoState st s).frozen = s.frozen := by simp [setServoState]

@[simp] theorem frozen_offerState (old : ServoState) (s : State) :
    (offerState old s).frozen = s.frozen := by simp [offerState]

@[simp] theorem frozen_servoFollows (s : State) :
    (servoFollows s).frozen = s.frozen := by simp [servoFollows]

@[simp] theorem frozen_servoSwitches (s : State) :
    (servoSwitches s).frozen = s.frozen := by simp [servoSwitches]

@[simp] theorem frozen_servoHolds (s : State) :
    (servoHolds s).frozen = s.frozen := by simp [servoHolds]

@[simp] theorem frozen_setSourceState (i : Nat) (st : SourceState) (s : State) :
    (setSourceState i st s).frozen = s.frozen := by
  simp only [setSourceState]
  (repeat' split) <;> simp

@[simp] theorem frozen_unselect (i : Nat) (s : State) :
    (unselect i s).frozen = s.frozen := by
  simp only [unselect]
  (repeat' split) <;> simp

@[simp] theorem frozen_clearHoldoverExpired (s : State) :
    (clearHoldoverExpired s).frozen = s.frozen := by simp [clearHoldoverExpired]

@[simp] theorem frozen_offerStateIfChanged (before : ServoState) (s : State) :
    (offerStateIfChanged before s).frozen = s.frozen := by
  simp only [offerStateIfChanged]
  (repeat' split) <;> simp

@[simp] theorem frozen_select (old : Option (Nat × SourceEntry)) (new : Nat × SourceEntry) (reason : Reason) (sampled : Bool) (s : State) :
    (select old new reason sampled s).frozen = s.frozen := by
  simp only [select]
  (repeat' split) <;> simp

@[simp] theorem frozen_endSelection (old : Nat × SourceEntry) (reason : Reason) (s : State) :
    (endSelection old reason s).frozen = s.frozen := by
  simp only [endSelection]
  (repeat' split) <;> simp

@[simp] theorem frozen_reevaluate (old : Option (Nat × SourceEntry)) (why : Reason) (own : Option Nat) (s : State) :
    (reevaluate old why own s).frozen = s.frozen := by
  simp only [reevaluate]
  (repeat' split) <;> simp

@[simp] theorem frozen_reevaluateOnHold (before : Bool) (s : State) :
    (reevaluateOnHold before s).frozen = s.frozen := by
  simp only [reevaluateOnHold]
  (repeat' split) <;> simp

@[simp] theorem frozen_raiseWithHold (k : FaultKind) (subject : Subject) (record : Bool) (d : AlertData) (s : State) :
    (raiseWithHold k subject record d s).frozen = s.frozen := by simp [raiseWithHold]

@[simp] theorem frozen_clearWithHold (k : FaultKind) (subject : Subject) (record : Bool) (d : AlertData) (s : State) :
    (clearWithHold k subject record d s).frozen = s.frozen := by simp [clearWithHold]

@[simp] theorem frozen_secondPulse (s : State) :
    (secondPulse s).frozen = s.frozen := by
  simp only [secondPulse]
  (repeat' split) <;> simp

@[simp] theorem frozen_performSwap (s : State) :
    (performSwap s).frozen = s.frozen := by simp [performSwap]

@[simp] theorem frozen_armedSwap (s : State) :
    (armedSwap s).frozen = s.frozen := by
  simp only [armedSwap]
  (repeat' split) <;> simp

@[simp] theorem frozen_secondBoundary (s : State) :
    (secondBoundary s).frozen = s.frozen := by simp [secondBoundary]

@[simp] theorem frozen_stepTo (moved : Date × Bool) (s : State) :
    (stepTo moved s).frozen = s.frozen := by
  simp only [stepTo]
  (repeat' split) <;> simp

@[simp] theorem frozen_forwardStep (amount : Nat) (s : State) :
    (forwardStep amount s).frozen = s.frozen := by simp [forwardStep]

@[simp] theorem frozen_load (d : Date) (s : State) :
    (load d s).frozen = s.frozen := by
  simp only [load]
  (repeat' split) <;> simp

@[simp] theorem frozen_uptimeSecond (s : State) :
    (uptimeSecond s).frozen = s.frozen := by
  simp only [uptimeSecond]
  (repeat' split) <;> simp

@[simp] theorem frozen_rememberStamp (d : SN) (s : State) :
    (rememberStamp d s).frozen = s.frozen := by simp [rememberStamp]

@[simp] theorem frozen_leaveLocked (s : State) :
    (leaveLocked s).frozen = s.frozen := by
  simp only [leaveLocked]
  (repeat' split) <;> simp

@[simp] theorem frozen_afterStep (amount : Nat) (s : State) :
    (afterStep amount s).frozen = s.frozen := by simp [afterStep]

@[simp] theorem frozen_servoStep (amount : Nat) (s : State) :
    (servoStep amount s).frozen = s.frozen := by simp [servoStep]

@[simp] theorem frozen_startCatchDown (s : State) :
    (startCatchDown s).frozen = s.frozen := by simp [startCatchDown]

@[simp] theorem frozen_filterUpdate (theta k : Int) (s : State) :
    (filterUpdate theta k s).frozen = s.frozen := by
  simp only [filterUpdate]
  (repeat' split) <;> simp

@[simp] theorem frozen_lockCounting (theta : Int) (s : State) :
    (lockCounting theta s).frozen = s.frozen := by
  simp only [lockCounting]
  (repeat' split) <;> simp

@[simp] theorem frozen_sampleInUnset (x : ServoSample) (s : State) :
    (sampleInUnset x s).frozen = s.frozen := by simp [sampleInUnset]

@[simp] theorem frozen_filterAndLock (x : ServoSample) (s : State) :
    (filterAndLock x s).frozen = s.frozen := by simp [filterAndLock]

@[simp] theorem frozen_sampleInCatchDown (x : ServoSample) (s : State) :
    (sampleInCatchDown x s).frozen = s.frozen := by
  simp only [sampleInCatchDown]
  (repeat' split) <;> simp

@[simp] theorem frozen_sampleOutside (x : ServoSample) (s : State) :
    (sampleOutside x s).frozen = s.frozen := by
  simp only [sampleOutside]
  (repeat' split) <;> simp

@[simp] theorem frozen_sampleInFollow (x : ServoSample) (s : State) :
    (sampleInFollow x s).frozen = s.frozen := by
  simp only [sampleInFollow]
  (repeat' split) <;> simp

@[simp] theorem frozen_takeSample (x : ServoSample) (s : State) :
    (takeSample x s).frozen = s.frozen := by
  simp only [takeSample]
  (repeat' split) <;> simp

@[simp] theorem frozen_expireHoldover (s : State) :
    (expireHoldover s).frozen = s.frozen := by simp [expireHoldover]

@[simp] theorem frozen_unexpireHoldover (s : State) :
    (unexpireHoldover s).frozen = s.frozen := by simp [unexpireHoldover]

@[simp] theorem frozen_judgeHoldover (s : State) :
    (judgeHoldover s).frozen = s.frozen := by
  simp only [judgeHoldover]
  (repeat' split) <;> simp

@[simp] theorem frozen_clampF (s : State) :
    (clampF s).frozen = s.frozen := by
  simp only [clampF]
  (repeat' split) <;> simp

@[simp] theorem frozen_applyServo (p : ServoParams) (width limit : Nat) (s : State) :
    (applyServo p width limit s).frozen = s.frozen := by
  simp only [applyServo]
  (repeat' split) <;> simp

@[simp] theorem frozen_setDateTo (d : SN) (s : State) :
    (setDateTo d s).1.frozen = s.frozen := by
  simp only [setDateTo]
  (repeat' split) <;> simp

@[simp] theorem frozen_setTrimTo (f : Int) (s : State) :
    (setTrimTo f s).1.frozen = s.frozen := by
  simp only [setTrimTo]
  (repeat' split) <;> simp

@[simp] theorem frozen_loadTrim (s : State) :
    (loadTrim s).frozen = s.frozen := by simp [loadTrim]

@[simp] theorem frozen_servoSoftReset (s : State) :
    (servoSoftReset s).frozen = s.frozen := by
  simp only [servoSoftReset]
  (repeat' split) <;> simp

@[simp] theorem frozen_forwardWhole (w : Whole) (edit : Edit) (s : State) :
    (forwardWhole w edit s).frozen = s.frozen := by
  simp only [forwardWhole]
  (repeat' split) <;> simp

@[simp] theorem frozen_takeInterval (p : Port) (s : State) :
    (takeInterval p s).frozen = s.frozen := by
  simp only [takeInterval]
  (repeat' split) <;> simp

@[simp] theorem frozen_restartInterval (p : Port) (s : State) :
    (restartInterval p s).frozen = s.frozen := by simp [restartInterval]

@[simp] theorem frozen_startEcho (p : Port) (s : State) :
    (startEcho p s).frozen = s.frozen := by
  simp only [startEcho]
  (repeat' split) <;> simp

@[simp] theorem frozen_takeDelay (p : Port) (x : Nat) (s : State) :
    (takeDelay p x s).frozen = s.frozen := by simp [takeDelay]

@[simp] theorem frozen_endExchange (w : Whole) (s : State) :
    (endExchange w s).frozen = s.frozen := by
  simp only [endExchange]
  (repeat' split) <;> simp

@[simp] theorem frozen_answerReceived (w : Whole) (s : State) :
    (answerReceived w s).frozen = s.frozen := by
  simp only [answerReceived]
  (repeat' split) <;> simp

@[simp] theorem frozen_echoTimesOut (p : Port) (s : State) :
    (echoTimesOut p s).frozen = s.frozen := by simp [echoTimesOut]

@[simp] theorem frozen_echoLinkDown (p : Port) (s : State) :
    (echoLinkDown p s).frozen = s.frozen := by
  simp only [echoLinkDown]
  (repeat' split) <;> simp

@[simp] theorem frozen_echoLinkUp (p : Port) (s : State) :
    (echoLinkUp p s).frozen = s.frozen := by
  simp only [echoLinkUp]
  (repeat' split) <;> simp

@[simp] theorem frozen_echoRewritten (p : Port) (old : PortRec) (s : State) :
    (echoRewritten p old s).frozen = s.frozen := by
  simp only [echoRewritten]
  (repeat' split) <;> simp

@[simp] theorem frozen_clearStale (p : Port) (s : State) :
    (clearStale p s).frozen = s.frozen := by simp [clearStale]

@[simp] theorem frozen_answerAsk (w : Whole) (s : State) :
    (answerAsk w s).frozen = s.frozen := by
  simp only [answerAsk]
  (repeat' split) <;> simp

@[simp] theorem frozen_handleAsk (w : Whole) (s : State) :
    (handleAsk w s).frozen = s.frozen := by
  simp only [handleAsk]
  (repeat' split) <;> simp

@[simp] theorem frozen_handleAnswer (w : Whole) (s : State) :
    (handleAnswer w s).frozen = s.frozen := by
  simp only [handleAnswer]
  (repeat' split) <;> simp

@[simp] theorem frozen_afterBeacon (w : Whole) (i p : Nat) (a : Int) (old : Option (Nat × SourceEntry)) (s : State) :
    (afterBeacon w i p a old s).frozen = s.frozen := by
  simp only [afterBeacon]
  (repeat' split) <;> simp

@[simp] theorem frozen_beaconIntoTable (w : Whole) (s : State) :
    (beaconIntoTable w s).frozen = s.frozen := by
  simp only [beaconIntoTable]
  (repeat' split) <;> simp

@[simp] theorem frozen_goStale (i : Nat) (s : State) :
    (goStale i s).frozen = s.frozen := by simp [goStale]

@[simp] theorem frozen_afterBar (old : Option (Nat × SourceEntry)) (s : State) :
    (afterBar old s).frozen = s.frozen := by simp [afterBar]

@[simp] theorem frozen_endBar (i : Nat) (e : SourceEntry) (s : State) :
    (endBar i e s).frozen = s.frozen := by
  simp only [endBar]
  (repeat' split) <;> simp

@[simp] theorem frozen_setBar (i : Nat) (e : SourceEntry) (seconds : Nat) (s : State) :
    (setBar i e seconds s).frozen = s.frozen := by
  simp only [setBar]
  (repeat' split) <;> simp

@[simp] theorem frozen_barEntry (i : Nat) (e : SourceEntry) (seconds : Nat) (s : State) :
    (barEntry i e seconds s).frozen = s.frozen := by
  simp only [barEntry]
  (repeat' split) <;> simp

@[simp] theorem frozen_barSelected (seconds : Nat) (s : State) :
    (barSelected seconds s).frozen = s.frozen := by
  simp only [barSelected]
  (repeat' split) <;> simp

@[simp] theorem frozen_transitBeacon (w : Whole) (p : Nat) (s : State) :
    (transitBeacon w p s).frozen = s.frozen := by
  simp only [transitBeacon]
  (repeat' split) <;> simp

@[simp] theorem frozen_beaconUnit (w : Whole) (p : Nat) (s : State) :
    (beaconUnit w p s).frozen = s.frozen := by
  simp only [beaconUnit]
  (repeat' split) <;> simp

@[simp] theorem frozen_handleBeacon (w : Whole) (s : State) :
    (handleBeacon w s).frozen = s.frozen := by
  simp only [handleBeacon]
  (repeat' split) <;> simp

@[simp] theorem frozen_recordEmission (l : Lane) (instant : SN) (e : Emission) (s : State) :
    (recordEmission l instant e s).frozen = s.frozen := by simp [recordEmission]

@[simp] theorem frozen_originate (l : Lane) (instant : SN) (s : State) :
    (originate l instant s).frozen = s.frozen := by
  simp only [originate]
  (repeat' split) <;> simp

@[simp] theorem frozen_laneInstant (l : Lane) (old new : Date) (s : State) :
    (laneInstant l old new s).frozen = s.frozen := by
  simp only [laneInstant]
  (repeat' split) <;> simp

@[simp] theorem frozen_startReports (s : State) :
    (startReports s).frozen = s.frozen := by simp [startReports]

@[simp] theorem frozen_nextSlot (s : State) :
    (nextSlot s).frozen = s.frozen := by
  simp only [nextSlot]
  (repeat' split) <;> simp

@[simp] theorem frozen_reportNotSent (i : Nat) (s : State) :
    (reportNotSent i s).frozen = s.frozen := by simp [reportNotSent]

@[simp] theorem frozen_reportSent (i : Nat) (s : State) :
    (reportSent i s).frozen = s.frozen := by simp [reportSent]

@[simp] theorem frozen_sendReport (i : Nat) (s : State) :
    (sendReport i s).frozen = s.frozen := by
  simp only [sendReport]
  (repeat' split) <;> simp

@[simp] theorem frozen_setSelfDrift (v : Verdict) (s : State) :
    (setSelfDrift v s).frozen = s.frozen := by
  simp only [setSelfDrift]
  (repeat' split) <;> simp

@[simp] theorem frozen_clearSelfDrift (v : Verdict) (e : Episode) (s : State) :
    (clearSelfDrift v e s).frozen = s.frozen := by simp [clearSelfDrift]

@[simp] theorem frozen_judgeSelf (s : State) :
    (judgeSelf s).frozen = s.frozen := by
  simp only [judgeSelf]
  (repeat' split) <;> simp

@[simp] theorem frozen_warnPeer (i : Nat) (vote : Vote) (s : State) :
    (warnPeer i vote s).frozen = s.frozen := by simp [warnPeer]

@[simp] theorem frozen_unwarnPeer (i : Nat) (vote : Vote) (s : State) :
    (unwarnPeer i vote s).frozen = s.frozen := by simp [unwarnPeer]

@[simp] theorem frozen_judgePeer (s : State) (i : Nat) :
    (judgePeer s i).frozen = s.frozen := by
  simp only [judgePeer]
  (repeat' split) <;> simp

@[simp] theorem frozen_judgeRack (s : State) :
    (judgeRack s).frozen = s.frozen := by
  simp only [judgeRack]
  (repeat' split) <;> simp [foldl_frozen]

@[simp] theorem frozen_reportReceived (w : Whole) (s : State) :
    (reportReceived w s).frozen = s.frozen := by
  simp only [reportReceived]
  (repeat' split) <;> simp

@[simp] theorem frozen_setPeerCfg (i : Nat) (c : PeerCfg) (s : State) :
    (setPeerCfg i c s).frozen = s.frozen := by simp [setPeerCfg]

@[simp] theorem frozen_writePeerAt (i : Nat) (c : PeerCfg) (s : State) :
    (writePeerAt i c s).frozen = s.frozen := by
  simp only [writePeerAt]
  (repeat' split) <;> simp

@[simp] theorem frozen_clearPeerAt (i : Nat) (s : State) :
    (clearPeerAt i s).frozen = s.frozen := by
  simp only [clearPeerAt]
  (repeat' split) <;> simp

@[simp] theorem frozen_applyDrift (p : DriftParams) (holdoff threshold : Nat) (s : State) :
    (applyDrift p holdoff threshold s).frozen = s.frozen := by
  simp only [applyDrift]
  (repeat' split) <;> simp

@[simp] theorem frozen_driftSoftReset (s : State) :
    (driftSoftReset s).frozen = s.frozen := by simp [driftSoftReset]

@[simp] theorem frozen_settleStamp (p : Port) (written : Bool) (s : State) :
    (settleStamp p written s).frozen = s.frozen := by
  simp only [settleStamp]
  (repeat' split) <;> simp

@[simp] theorem frozen_loseStamp (p : Port) (s : State) :
    (loseStamp p s).frozen = s.frozen := by simp [loseStamp]

@[simp] theorem frozen_readyArriving (p : Port) (edit : Edit) (s : State) :
    (readyArriving p edit s).frozen = s.frozen := by simp [readyArriving]

@[simp] theorem frozen_writeStampNow (p : Port) (c : DatingCtx) (bytes : List Byte) (s : State) :
    (writeStampNow p c bytes s).frozen = s.frozen := by simp [writeStampNow]

@[simp] theorem frozen_closeMark (p : Port) (bytes : List Byte) (stop len : Nat) (badFcs : Bool) (s : State) :
    (closeMark p bytes stop len badFcs s).frozen = s.frozen := by
  simp only [closeMark]
  (repeat' split) <;> simp

@[simp] theorem frozen_cutMark (p : Port) (bytes : List Byte) (len : Nat) (s : State) :
    (cutMark p bytes len s).frozen = s.frozen := by
  simp only [cutMark]
  (repeat' split) <;> simp

@[simp] theorem frozen_setRx (p : Port) (r : Option Rx) (s : State) :
    (setRx p r s).frozen = s.frozen := by simp [setRx]

@[simp] theorem frozen_forwardArriving (p : Port) (r : Rx) (ready : Bool) (s : State) :
    (forwardArriving p r ready s).1.frozen = s.frozen := by simp [forwardArriving]

@[simp] theorem frozen_passFrame (p : Port) (r : Rx) (s : State) :
    (passFrame p r s).frozen = s.frozen := by simp [passFrame]

@[simp] theorem frozen_settleArrived (p : Port) (bytes : List Byte) (s : State) :
    (settleArrived p bytes s).frozen = s.frozen := by
  simp only [settleArrived]
  (repeat' split) <;> simp

@[simp] theorem frozen_growArriving (p : Port) (bytes : List Byte) (s : State) :
    (growArriving p bytes s).frozen = s.frozen := by simp [growArriving]

@[simp] theorem frozen_overrun (p : Port) (r : Rx) (s : State) :
    (overrun p r s).frozen = s.frozen := by
  simp only [overrun]
  (repeat' split) <;> simp

@[simp] theorem frozen_malformedFrame (w : Whole) (s : State) :
    (malformedFrame w s).frozen = s.frozen := by simp [malformedFrame]

@[simp] theorem frozen_dispatchL2 (w : Whole) (s : State) :
    (dispatchL2 w s).frozen = s.frozen := by
  simp only [dispatchL2]
  (repeat' split) <;> simp

@[simp] theorem frozen_acceptControl (w : Whole) (privilege : Privilege) (s : State) :
    (acceptControl w privilege s).frozen = s.frozen := by
  simp only [acceptControl]
  (repeat' split) <;> simp

@[simp] theorem frozen_dispatchUdp (w : Whole) (mgmt utx : Bool) (privilege : Privilege) (s : State) :
    (dispatchUdp w mgmt utx privilege s).frozen = s.frozen := by
  simp only [dispatchUdp]
  (repeat' split) <;> simp

@[simp] theorem frozen_endForwarded (p : Port) (r : Rx) (inLane : Bool) (s : State) :
    (endForwarded p r inLane s).frozen = s.frozen := by
  simp only [endForwarded]
  (repeat' split) <;> simp

@[simp] theorem frozen_endFrame (p : Port) (r : Rx) (s : State) :
    (endFrame p r s).frozen = s.frozen := by
  simp only [endFrame]
  (repeat' split) <;> simp

@[simp] theorem frozen_applyFull (c : Settings) (bank : Vector MatchEntry 64) (source : LoadSource) (version : Nat) (s : State) :
    (applyFull c bank source version s).frozen = s.frozen := by simp [applyFull]

@[simp] theorem frozen_applyReload (c : Settings) (bank : Vector MatchEntry 64) (s : State) :
    (applyReload c bank s).frozen = s.frozen := by simp [applyReload]

@[simp] theorem frozen_raiseAgain (expired : Bool) (s : State) :
    (raiseAgain expired s).frozen = s.frozen := by
  simp only [raiseAgain]
  (repeat' split) <;> simp

@[simp] theorem frozen_completeSoft (expired : Bool) (s : State) :
    (completeSoft expired s).frozen = s.frozen := by simp [completeSoft]

@[simp] theorem frozen_enterRunning (s : State) :
    (enterRunning s).frozen = s.frozen := by simp [enterRunning]

@[simp] theorem frozen_finishLoad (first second : List Byte) (s : State) :
    (finishLoad first second s).frozen = s.frozen := by
  simp only [finishLoad]
  (repeat' split) <;> simp

@[simp] theorem frozen_finishReload (first second : List Byte) (s : State) :
    (finishReload first second s).frozen = s.frozen := by
  simp only [finishReload]
  (repeat' split) <;> simp

@[simp] theorem frozen_loseReception (p : Port) (more : List Byte) (s : State) :
    (loseReception p more s).frozen = s.frozen := by
  simp only [loseReception]
  (repeat' split) <;> simp

@[simp] theorem frozen_flushEgress (p : Port) (s : State) :
    (flushEgress p s).frozen = s.frozen := by
  simp only [flushEgress]
  (repeat' split) <;> simp

@[simp] theorem frozen_linkBackUp (p : Port) (s : State) :
    (linkBackUp p s).frozen = s.frozen := by
  simp only [linkBackUp]
  (repeat' split) <;> simp

@[simp] theorem frozen_linkComesUp (p : Port) (s : State) :
    (linkComesUp p s).frozen = s.frozen := by
  simp only [linkComesUp]
  (repeat' split) <;> simp

@[simp] theorem frozen_periodTo (moved : Date × Bool) (second : Bool) (s : State) :
    (periodTo moved second s).frozen = s.frozen := by
  simp only [periodTo]
  (repeat' split) <;> simp

@[simp] theorem frozen_clockPeriod (s : State) :
    (clockPeriod s).frozen = s.frozen := by simp [clockPeriod]

@[simp] theorem frozen_finishSave (written readBack : List Byte) (s : State) :
    (finishSave written readBack s).frozen = s.frozen := by
  simp only [finishSave]
  (repeat' split) <;> simp

@[simp] theorem frozen_endMemoryTest (pass : Bool) (s : State) :
    (endMemoryTest pass s).frozen = s.frozen := by
  simp only [endMemoryTest]
  (repeat' split) <;> simp

@[simp] theorem frozen_removeRecords (k : Nat) (s : State) :
    (removeRecords k s).frozen = s.frozen := by
  simp only [removeRecords]
  (repeat' split) <;> simp

@[simp] theorem frozen_testLog (s : State) :
    (testLog s).1.frozen = s.frozen := by
  simp only [testLog]
  (repeat' split) <;> simp

@[simp] theorem frozen_writeMatch (index : Byte) (a : MatchArg) (s : State) :
    (writeMatch index a s).1.frozen = s.frozen := by
  simp only [writeMatch]
  (repeat' split) <;> simp

@[simp] theorem frozen_copyActive (s : State) :
    (copyActive s).1.frozen = s.frozen := by
  simp only [copyActive]
  (repeat' split) <;> simp

@[simp] theorem frozen_swapCommand (arg : Byte) (s : State) :
    (swapCommand arg s).1.frozen = s.frozen := by
  simp only [swapCommand]
  (repeat' split) <;> simp

@[simp] theorem frozen_writePort (a : PortArg) (s : State) :
    (writePort a s).1.frozen = s.frozen := by
  simp only [writePort]
  (repeat' split) <;> simp

@[simp] theorem frozen_writeLane (a : LaneArg) (s : State) :
    (writeLane a s).1.frozen = s.frozen := by
  simp only [writeLane]
  (repeat' split) <;> simp

@[simp] theorem frozen_writeOverride (a : OverrideArg) (s : State) :
    (writeOverride a s).1.frozen = s.frozen := by
  simp only [writeOverride]
  (repeat' split) <;> simp

@[simp] theorem frozen_writePeer (a : PeerArg) (s : State) :
    (writePeer a s).1.frozen = s.frozen := by
  simp only [writePeer]
  (repeat' split) <;> simp

@[simp] theorem frozen_clearPeer (index : Byte) (s : State) :
    (clearPeer index s).1.frozen = s.frozen := by
  simp only [clearPeer]
  (repeat' split) <;> simp

@[simp] theorem frozen_writeServo (a : ServoArg) (s : State) :
    (writeServo a s).1.frozen = s.frozen := by simp [writeServo]

@[simp] theorem frozen_writeDrift (a : DriftArg) (s : State) :
    (writeDrift a s).1.frozen = s.frozen := by simp [writeDrift]

@[simp] theorem frozen_applyResponse (k : FaultKind) (r : Response) (s : State) :
    (applyResponse k r s).frozen = s.frozen := by
  simp only [applyResponse]
  (repeat' split) <;> simp

@[simp] theorem frozen_writeFault (kind response : Byte) (s : State) :
    (writeFault kind response s).1.frozen = s.frozen := by
  simp only [writeFault]
  (repeat' split) <;> simp

@[simp] theorem frozen_clearPosition (mask : BitVec 32) (s : State) (k : FaultKind) :
    (clearPosition mask s k).frozen = s.frozen := by
  simp only [clearPosition]
  (repeat' split) <;> simp

@[simp] theorem frozen_clearFlags (mask : BitVec 32) (s : State) :
    (clearFlags mask s).1.frozen = s.frozen := by
  simp only [clearFlags]
  (repeat' split) <;> simp [foldl_frozen]

@[simp] theorem frozen_barSource (index : Byte) (seconds : BitVec 16) (s : State) :
    (barSource index seconds s).1.frozen = s.frozen := by
  simp only [barSource]
  (repeat' split) <;> simp

@[simp] theorem frozen_saveSettings (s : State) :
    (saveSettings s).1.frozen = s.frozen := by
  simp only [saveSettings]
  (repeat' split) <;> simp

@[simp] theorem frozen_resetCommand (arg : Byte) (s : State) :
    (resetCommand arg s).1.frozen = s.frozen := by
  simp only [resetCommand]
  (repeat' split) <;> simp

/-! ### clock -/

theorem foldl_clock {α : Type} (f : State → α → State) (h : ∀ t a, (f t a).clock = t.clock) (s : State) (l : List α) :
    (l.foldl f s).clock = s.clock := by
  induction l generalizing s with
  | nil => rfl
  | cons a rest ih => rw [List.foldl_cons, ih, h]

@[simp] theorem clock_setPort (s : State) (p : Port) (u : PortUnit) : (s.setPort p u).clock = s.clock := (rfl)
@[simp] theorem clock_count (s : State) (p : Port) (f : Stats → Stats) : (s.count p f).clock = s.clock := (rfl)
@[simp] theorem clock_setEcho (s : State) (p : Port) (e : Echo) : (s.setEcho p e).clock = s.clock := (rfl)
@[simp] theorem clock_setLane (s : State) (l : Lane) (u : LaneUnit) : (s.setLane l u).clock = s.clock := (rfl)
@[simp] theorem clock_setSource (s : State) (i : Nat) (e : Option SourceEntry) : (s.setSource i e).clock = s.clock := (rfl)
@[simp] theorem clock_setPeer (s : State) (i : Nat) (e : PeerDyn) : (s.setPeer i e).clock = s.clock := (rfl)
@[simp] theorem clock_setFault (s : State) (k : FaultKind) (r : FaultRec) : (s.setFault k r).clock = s.clock := (rfl)
@[simp] theorem clock_setForm (s : State) (a : AlertForm) (v : FormState) : (s.setForm a v).clock = s.clock := (rfl)
@[simp] theorem clock_admitFrame (p : Port) (need : Nat) (f : FwdFrame) (s : State) :
    (admitFrame p need f s).1.clock = s.clock := by
  simp only [admitFrame]
  (repeat' split) <;> simp

@[simp] theorem clock_offerTiming (p : Port) (tag : OrigTag) (header : Nat) (bytes : List Byte) (s : State) :
    (offerTiming p tag header bytes s).1.clock = s.clock := by
  simp only [offerTiming]
  (repeat' split) <;> simp

@[simp] theorem clock_offerGeneral (p : Port) (tag : OrigTag) (header : Nat) (bytes : List Byte) (s : State) :
    (offerGeneral p tag header bytes s).1.clock = s.clock := by
  simp only [offerGeneral]
  (repeat' split) <;> simp

@[simp] theorem clock_askPassesEgress (p : Port) (id : Nat) (s : State) :
    (askPassesEgress p id s).clock = s.clock := by
  simp only [askPassesEgress]
  (repeat' split) <;> simp

@[simp] theorem clock_reportPassesEgress (i : Nat) (rack ip : BitVec 32) (s : State) :
    (reportPassesEgress i rack ip s).clock = s.clock := by
  simp only [reportPassesEgress]
  (repeat' split) <;> simp

@[simp] theorem clock_recordEgress (p : Port) (tag : OrigTag) (s : State) :
    (recordEgress p tag s).clock = s.clock := by
  simp only [recordEgress]
  (repeat' split) <;> simp

@[simp] theorem clock_grantQueued (p : Port) (o : TxFrom) (q : QFrame) (s : State) :
    (grantQueued p o q s).clock = s.clock := by simp [grantQueued]

@[simp] theorem clock_grantForwarded (p : Port) (f : FwdFrame) (s : State) :
    (grantForwarded p f s).clock = s.clock := by simp [grantForwarded]

@[simp] theorem clock_arbitrate (p : Port) (s : State) :
    (arbitrate p s).clock = s.clock := by
  simp only [arbitrate]
  (repeat' split) <;> simp

@[simp] theorem clock_finishTx (p : Port) (t : Tx) (s : State) :
    (finishTx p t s).clock = s.clock := by
  simp only [finishTx]
  (repeat' split) <;> simp

@[simp] theorem clock_suppressAlert (a : AlertForm) (s : State) :
    (suppressAlert a s).clock = s.clock := by simp [suppressAlert]

@[simp] theorem clock_alertEvent (a : AlertForm) (clear : Bool) (subject : Subject) (d : AlertData) (s : State) :
    (alertEvent a clear subject d s).clock = s.clock := by
  simp only [alertEvent]
  (repeat' split) <;> simp

@[simp] theorem clock_levelNotice (s : State) :
    (levelNotice s).clock = s.clock := by
  simp only [levelNotice]
  (repeat' split) <;> simp

@[simp] theorem clock_offerBare (o : Offer) (s : State) :
    (offerBare o s).1.clock = s.clock := by
  simp only [offerBare]
  (repeat' split) <;> simp

@[simp] theorem clock_activate (k : FaultKind) (subject : Subject) (s : State) :
    (activate k subject s).clock = s.clock := by simp [activate]

@[simp] theorem clock_countRaise (k : FaultKind) (s : State) :
    (countRaise k s).clock = s.clock := by simp [countRaise]

@[simp] theorem clock_deactivate (k : FaultKind) (s : State) :
    (deactivate k s).clock = s.clock := by simp [deactivate]

@[simp] theorem clock_faultAlert (k : FaultKind) (clear : Bool) (subject : Subject) (d : AlertData) (s : State) :
    (faultAlert k clear subject d s).clock = s.clock := by
  simp only [faultAlert]
  (repeat' split) <;> simp

@[simp] theorem clock_setSourceState (i : Nat) (st : SourceState) (s : State) :
    (setSourceState i st s).clock = s.clock := by
  simp only [setSourceState]
  (repeat' split) <;> simp

@[simp] theorem clock_unselect (i : Nat) (s : State) :
    (unselect i s).clock = s.clock := by
  simp only [unselect]
  (repeat' split) <;> simp

@[simp] theorem clock_performSwap (s : State) :
    (performSwap s).clock = s.clock := by simp [performSwap]

@[simp] theorem clock_armedSwap (s : State) :
    (armedSwap s).clock = s.clock := by
  simp only [armedSwap]
  (repeat' split) <;> simp

@[simp] theorem clock_uptimeSecond (s : State) :
    (uptimeSecond s).clock = s.clock := by
  simp only [uptimeSecond]
  (repeat' split) <;> simp

@[simp] theorem clock_forwardWhole (w : Whole) (edit : Edit) (s : State) :
    (forwardWhole w edit s).clock = s.clock := by
  simp only [forwardWhole]
  (repeat' split) <;> simp

@[simp] theorem clock_takeInterval (p : Port) (s : State) :
    (takeInterval p s).clock = s.clock := by
  simp only [takeInterval]
  (repeat' split) <;> simp

@[simp] theorem clock_restartInterval (p : Port) (s : State) :
    (restartInterval p s).clock = s.clock := by simp [restartInterval]

@[simp] theorem clock_startEcho (p : Port) (s : State) :
    (startEcho p s).clock = s.clock := by
  simp only [startEcho]
  (repeat' split) <;> simp

@[simp] theorem clock_takeDelay (p : Port) (x : Nat) (s : State) :
    (takeDelay p x s).clock = s.clock := by simp [takeDelay]

@[simp] theorem clock_endExchange (w : Whole) (s : State) :
    (endExchange w s).clock = s.clock := by
  simp only [endExchange]
  (repeat' split) <;> simp

@[simp] theorem clock_answerReceived (w : Whole) (s : State) :
    (answerReceived w s).clock = s.clock := by
  simp only [answerReceived]
  (repeat' split) <;> simp

@[simp] theorem clock_echoTimesOut (p : Port) (s : State) :
    (echoTimesOut p s).clock = s.clock := by simp [echoTimesOut]

@[simp] theorem clock_echoLinkDown (p : Port) (s : State) :
    (echoLinkDown p s).clock = s.clock := by
  simp only [echoLinkDown]
  (repeat' split) <;> simp

@[simp] theorem clock_echoLinkUp (p : Port) (s : State) :
    (echoLinkUp p s).clock = s.clock := by
  simp only [echoLinkUp]
  (repeat' split) <;> simp

@[simp] theorem clock_echoRewritten (p : Port) (old : PortRec) (s : State) :
    (echoRewritten p old s).clock = s.clock := by
  simp only [echoRewritten]
  (repeat' split) <;> simp

@[simp] theorem clock_clearStale (p : Port) (s : State) :
    (clearStale p s).clock = s.clock := by simp [clearStale]

@[simp] theorem clock_answerAsk (w : Whole) (s : State) :
    (answerAsk w s).clock = s.clock := by
  simp only [answerAsk]
  (repeat' split) <;> simp

@[simp] theorem clock_handleAsk (w : Whole) (s : State) :
    (handleAsk w s).clock = s.clock := by
  simp only [handleAsk]
  (repeat' split) <;> simp

@[simp] theorem clock_handleAnswer (w : Whole) (s : State) :
    (handleAnswer w s).clock = s.clock := by
  simp only [handleAnswer]
  (repeat' split) <;> simp

@[simp] theorem clock_transitBeacon (w : Whole) (p : Nat) (s : State) :
    (transitBeacon w p s).clock = s.clock := by
  simp only [transitBeacon]
  (repeat' split) <;> simp

@[simp] theorem clock_beaconUnit (w : Whole) (p : Nat) (s : State) :
    (beaconUnit w p s).clock = s.clock := by
  simp only [beaconUnit]
  (repeat' split) <;> simp

@[simp] theorem clock_recordEmission (l : Lane) (instant : SN) (e : Emission) (s : State) :
    (recordEmission l instant e s).clock = s.clock := by simp [recordEmission]

@[simp] theorem clock_originate (l : Lane) (instant : SN) (s : State) :
    (originate l instant s).clock = s.clock := by
  simp only [originate]
  (repeat' split) <;> simp

@[simp] theorem clock_laneInstant (l : Lane) (old new : Date) (s : State) :
    (laneInstant l old new s).clock = s.clock := by
  simp only [laneInstant]
  (repeat' split) <;> simp

@[simp] theorem clock_startReports (s : State) :
    (startReports s).clock = s.clock := by simp [startReports]

@[simp] theorem clock_nextSlot (s : State) :
    (nextSlot s).clock = s.clock := by
  simp only [nextSlot]
  (repeat' split) <;> simp

@[simp] theorem clock_reportNotSent (i : Nat) (s : State) :
    (reportNotSent i s).clock = s.clock := by simp [reportNotSent]

@[simp] theorem clock_reportSent (i : Nat) (s : State) :
    (reportSent i s).clock = s.clock := by simp [reportSent]

@[simp] theorem clock_sendReport (i : Nat) (s : State) :
    (sendReport i s).clock = s.clock := by
  simp only [sendReport]
  (repeat' split) <;> simp

@[simp] theorem clock_setPeerCfg (i : Nat) (c : PeerCfg) (s : State) :
    (setPeerCfg i c s).clock = s.clock := by simp [setPeerCfg]

@[simp] theorem clock_driftSoftReset (s : State) :
    (driftSoftReset s).clock = s.clock := by simp [driftSoftReset]

@[simp] theorem clock_settleStamp (p : Port) (written : Bool) (s : State) :
    (settleStamp p written s).clock = s.clock := by
  simp only [settleStamp]
  (repeat' split) <;> simp

@[simp] theorem clock_loseStamp (p : Port) (s : State) :
    (loseStamp p s).clock = s.clock := by simp [loseStamp]

@[simp] theorem clock_readyArriving (p : Port) (edit : Edit) (s : State) :
    (readyArriving p edit s).clock = s.clock := by simp [readyArriving]

@[simp] theorem clock_writeStampNow (p : Port) (c : DatingCtx) (bytes : List Byte) (s : State) :
    (writeStampNow p c bytes s).clock = s.clock := by simp [writeStampNow]

@[simp] theorem clock_setRx (p : Port) (r : Option Rx) (s : State) :
    (setRx p r s).clock = s.clock := by simp [setRx]

@[simp] theorem clock_forwardArriving (p : Port) (r : Rx) (ready : Bool) (s : State) :
    (forwardArriving p r ready s).1.clock = s.clock := by simp [forwardArriving]

@[simp] theorem clock_passFrame (p : Port) (r : Rx) (s : State) :
    (passFrame p r s).clock = s.clock := by simp [passFrame]

@[simp] theorem clock_settleArrived (p : Port) (bytes : List Byte) (s : State) :
    (settleArrived p bytes s).clock = s.clock := by
  simp only [settleArrived]
  (repeat' split) <;> simp

@[simp] theorem clock_growArriving (p : Port) (bytes : List Byte) (s : State) :
    (growArriving p bytes s).clock = s.clock := by simp [growArriving]

@[simp] theorem clock_malformedFrame (w : Whole) (s : State) :
    (malformedFrame w s).clock = s.clock := by simp [malformedFrame]

@[simp] theorem clock_acceptControl (w : Whole) (privilege : Privilege) (s : State) :
    (acceptControl w privilege s).clock = s.clock := by
  simp only [acceptControl]
  (repeat' split) <;> simp

@[simp] theorem clock_applyFull (c : Settings) (bank : Vector MatchEntry 64) (source : LoadSource) (version : Nat) (s : State) :
    (applyFull c bank source version s).clock = s.clock := by simp [applyFull]

@[simp] theorem clock_flushEgress (p : Port) (s : State) :
    (flushEgress p s).clock = s.clock := by
  simp only [flushEgress]
  (repeat' split) <;> simp

@[simp] theorem clock_removeRecords (k : Nat) (s : State) :
    (removeRecords k s).clock = s.clock := by
  simp only [removeRecords]
  (repeat' split) <;> simp

@[simp] theorem clock_testLog (s : State) :
    (testLog s).1.clock = s.clock := by
  simp only [testLog]
  (repeat' split) <;> simp

@[simp] theorem clock_writeMatch (index : Byte) (a : MatchArg) (s : State) :
    (writeMatch index a s).1.clock = s.clock := by
  simp only [writeMatch]
  (repeat' split) <;> simp

@[simp] theorem clock_copyActive (s : State) :
    (copyActive s).1.clock = s.clock := by
  simp only [copyActive]
  (repeat' split) <;> simp

@[simp] theorem clock_swapCommand (arg : Byte) (s : State) :
    (swapCommand arg s).1.clock = s.clock := by
  simp only [swapCommand]
  (repeat' split) <;> simp

@[simp] theorem clock_writePort (a : PortArg) (s : State) :
    (writePort a s).1.clock = s.clock := by
  simp only [writePort]
  (repeat' split) <;> simp

@[simp] theorem clock_writeLane (a : LaneArg) (s : State) :
    (writeLane a s).1.clock = s.clock := by
  simp only [writeLane]
  (repeat' split) <;> simp

@[simp] theorem clock_writeOverride (a : OverrideArg) (s : State) :
    (writeOverride a s).1.clock = s.clock := by
  simp only [writeOverride]
  (repeat' split) <;> simp

@[simp] theorem clock_saveSettings (s : State) :
    (saveSettings s).1.clock = s.clock := by
  simp only [saveSettings]
  (repeat' split) <;> simp

@[simp] theorem clock_resetCommand (arg : Byte) (s : State) :
    (resetCommand arg s).1.clock = s.clock := by
  simp only [resetCommand]
  (repeat' split) <;> simp

/-! ### ports -/

theorem foldl_ports {α : Type} (f : State → α → State) (h : ∀ t a, (f t a).ports = t.ports) (s : State) (l : List α) :
    (l.foldl f s).ports = s.ports := by
  induction l generalizing s with
  | nil => rfl
  | cons a rest ih => rw [List.foldl_cons, ih, h]

@[simp] theorem ports_watchSecond (s : State) :
    (watchSecond s).ports = s.ports := by
  simp only [watchSecond]
  (repeat' split) <;> simp

@[simp] theorem ports_judgePulse (d : Option Nat) (s : State) :
    (judgePulse d s).ports = s.ports := by simp [judgePulse]

@[simp] theorem ports_setEcho (s : State) (p : Port) (e : Echo) : (s.setEcho p e).ports = s.ports := (rfl)
@[simp] theorem ports_setLane (s : State) (l : Lane) (u : LaneUnit) : (s.setLane l u).ports = s.ports := (rfl)
@[simp] theorem ports_setSource (s : State) (i : Nat) (e : Option SourceEntry) : (s.setSource i e).ports = s.ports := (rfl)
@[simp] theorem ports_setPeer (s : State) (i : Nat) (e : PeerDyn) : (s.setPeer i e).ports = s.ports := (rfl)
@[simp] theorem ports_setFault (s : State) (k : FaultKind) (r : FaultRec) : (s.setFault k r).ports = s.ports := (rfl)
@[simp] theorem ports_setForm (s : State) (a : AlertForm) (v : FormState) : (s.setForm a v).ports = s.ports := (rfl)
@[simp] theorem ports_askPassesEgress (p : Port) (id : Nat) (s : State) :
    (askPassesEgress p id s).ports = s.ports := by
  simp only [askPassesEgress]
  (repeat' split) <;> simp

@[simp] theorem ports_reportPassesEgress (i : Nat) (rack ip : BitVec 32) (s : State) :
    (reportPassesEgress i rack ip s).ports = s.ports := by
  simp only [reportPassesEgress]
  (repeat' split) <;> simp

@[simp] theorem ports_recordEgress (p : Port) (tag : OrigTag) (s : State) :
    (recordEgress p tag s).ports = s.ports := by
  simp only [recordEgress]
  (repeat' split) <;> simp

@[simp] theorem ports_suppressAlert (a : AlertForm) (s : State) :
    (suppressAlert a s).ports = s.ports := by simp [suppressAlert]

@[simp] theorem ports_deactivate (k : FaultKind) (s : State) :
    (deactivate k s).ports = s.ports := by simp [deactivate]

@[simp] theorem ports_handRate (r : Int) (s : State) :
    (handRate r s).ports = s.ports := by simp [handRate]

@[simp] theorem ports_setServoState (st : ServoState) (s : State) :
    (setServoState st s).ports = s.ports := by simp [setServoState]

@[simp] theorem ports_servoFollows (s : State) :
    (servoFollows s).ports = s.ports := by simp [servoFollows]

@[simp] theorem ports_servoSwitches (s : State) :
    (servoSwitches s).ports = s.ports := by simp [servoSwitches]

@[simp] theorem ports_servoHolds (s : State) :
    (servoHolds s).ports = s.ports := by simp [servoHolds]

@[simp] theorem ports_setSourceState (i : Nat) (st : SourceState) (s : State) :
    (setSourceState i st s).ports = s.ports := by
  simp only [setSourceState]
  (repeat' split) <;> simp

@[simp] theorem ports_unselect (i : Nat) (s : State) :
    (unselect i s).ports = s.ports := by
  simp only [unselect]
  (repeat' split) <;> simp

@[simp] theorem ports_secondPulse (s : State) :
    (secondPulse s).ports = s.ports := by
  simp only [secondPulse]
  (repeat' split) <;> simp

@[simp] theorem ports_performSwap (s : State) :
    (performSwap s).ports = s.ports := by simp [performSwap]

@[simp] theorem ports_armedSwap (s : State) :
    (armedSwap s).ports = s.ports := by
  simp only [armedSwap]
  (repeat' split) <;> simp

@[simp] theorem ports_secondBoundary (s : State) :
    (secondBoundary s).ports = s.ports := by simp [secondBoundary]

@[simp] theorem ports_stepTo (moved : Date × Bool) (s : State) :
    (stepTo moved s).ports = s.ports := by
  simp only [stepTo]
  (repeat' split) <;> simp

@[simp] theorem ports_forwardStep (amount : Nat) (s : State) :
    (forwardStep amount s).ports = s.ports := by simp [forwardStep]

@[simp] theorem ports_load (d : Date) (s : State) :
    (load d s).ports = s.ports := by
  simp only [load]
  (repeat' split) <;> simp

@[simp] theorem ports_uptimeSecond (s : State) :
    (uptimeSecond s).ports = s.ports := by
  simp only [uptimeSecond]
  (repeat' split) <;> simp

@[simp] theorem ports_rememberStamp (d : SN) (s : State) :
    (rememberStamp d s).ports = s.ports := by simp [rememberStamp]

@[simp] theorem ports_clampF (s : State) :
    (clampF s).ports = s.ports := by
  simp only [clampF]
  (repeat' split) <;> simp

@[simp] theorem ports_setTrimTo (f : Int) (s : State) :
    (setTrimTo f s).1.ports = s.ports := by
  simp only [setTrimTo]
  (repeat' split) <;> simp

@[simp] theorem ports_loadTrim (s : State) :
    (loadTrim s).ports = s.ports := by simp [loadTrim]

@[simp] theorem ports_restartInterval (p : Port) (s : State) :
    (restartInterval p s).ports = s.ports := by simp [restartInterval]

@[simp] theorem ports_takeDelay (p : Port) (x : Nat) (s : State) :
    (takeDelay p x s).ports = s.ports := by simp [takeDelay]

@[simp] theorem ports_echoLinkDown (p : Port) (s : State) :
    (echoLinkDown p s).ports = s.ports := by
  simp only [echoLinkDown]
  (repeat' split) <;> simp

@[simp] theorem ports_clearStale (p : Port) (s : State) :
    (clearStale p s).ports = s.ports := by simp [clearStale]

@[simp] theorem ports_recordEmission (l : Lane) (instant : SN) (e : Emission) (s : State) :
    (recordEmission l instant e s).ports = s.ports := by simp [recordEmission]

@[simp] theorem ports_startReports (s : State) :
    (startReports s).ports = s.ports := by simp [startReports]

@[simp] theorem ports_nextSlot (s : State) :
    (nextSlot s).ports = s.ports := by
  simp only [nextSlot]
  (repeat' split) <;> simp

@[simp] theorem ports_reportNotSent (i : Nat) (s : State) :
    (reportNotSent i s).ports = s.ports := by simp [reportNotSent]

@[simp] theorem ports_reportSent (i : Nat) (s : State) :
    (reportSent i s).ports = s.ports := by simp [reportSent]

@[simp] theorem ports_setPeerCfg (i : Nat) (c : PeerCfg) (s : State) :
    (setPeerCfg i c s).ports = s.ports := by simp [setPeerCfg]

@[simp] theorem ports_driftSoftReset (s : State) :
    (driftSoftReset s).ports = s.ports := by simp [driftSoftReset]

@[simp] theorem ports_applyFull (c : Settings) (bank : Vector MatchEntry 64) (source : LoadSource) (version : Nat) (s : State) :
    (applyFull c bank source version s).ports = s.ports := by simp [applyFull]

@[simp] theorem ports_removeRecords (k : Nat) (s : State) :
    (removeRecords k s).ports = s.ports := by
  simp only [removeRecords]
  (repeat' split) <;> simp

@[simp] theorem ports_testLog (s : State) :
    (testLog s).1.ports = s.ports := by
  simp only [testLog]
  (repeat' split) <;> simp

@[simp] theorem ports_writeMatch (index : Byte) (a : MatchArg) (s : State) :
    (writeMatch index a s).1.ports = s.ports := by
  simp only [writeMatch]
  (repeat' split) <;> simp

@[simp] theorem ports_copyActive (s : State) :
    (copyActive s).1.ports = s.ports := by
  simp only [copyActive]
  (repeat' split) <;> simp

@[simp] theorem ports_swapCommand (arg : Byte) (s : State) :
    (swapCommand arg s).1.ports = s.ports := by
  simp only [swapCommand]
  (repeat' split) <;> simp

@[simp] theorem ports_writeLane (a : LaneArg) (s : State) :
    (writeLane a s).1.ports = s.ports := by
  simp only [writeLane]
  (repeat' split) <;> simp

@[simp] theorem ports_writeOverride (a : OverrideArg) (s : State) :
    (writeOverride a s).1.ports = s.ports := by
  simp only [writeOverride]
  (repeat' split) <;> simp

@[simp] theorem ports_saveSettings (s : State) :
    (saveSettings s).1.ports = s.ports := by
  simp only [saveSettings]
  (repeat' split) <;> simp

@[simp] theorem ports_resetCommand (arg : Byte) (s : State) :
    (resetCommand arg s).1.ports = s.ports := by
  simp only [resetCommand]
  (repeat' split) <;> simp

/-! ### lanes -/

theorem foldl_lanes {α : Type} (f : State → α → State) (h : ∀ t a, (f t a).lanes = t.lanes) (s : State) (l : List α) :
    (l.foldl f s).lanes = s.lanes := by
  induction l generalizing s with
  | nil => rfl
  | cons a rest ih => rw [List.foldl_cons, ih, h]

@[simp] theorem lanes_watchSecond (s : State) :
    (watchSecond s).lanes = s.lanes := by
  simp only [watchSecond]
  (repeat' split) <;> simp

@[simp] theorem lanes_judgePulse (d : Option Nat) (s : State) :
    (judgePulse d s).lanes = s.lanes := by simp [judgePulse]

@[simp] theorem lanes_setPort (s : State) (p : Port) (u : PortUnit) : (s.setPort p u).lanes = s.lanes := (rfl)
@[simp] theorem lanes_count (s : State) (p : Port) (f : Stats → Stats) : (s.count p f).lanes = s.lanes := (rfl)
@[simp] theorem lanes_setEcho (s : State) (p : Port) (e : Echo) : (s.setEcho p e).lanes = s.lanes := (rfl)
@[simp] theorem lanes_setSource (s : State) (i : Nat) (e : Option SourceEntry) : (s.setSource i e).lanes = s.lanes := (rfl)
@[simp] theorem lanes_setPeer (s : State) (i : Nat) (e : PeerDyn) : (s.setPeer i e).lanes = s.lanes := (rfl)
@[simp] theorem lanes_setFault (s : State) (k : FaultKind) (r : FaultRec) : (s.setFault k r).lanes = s.lanes := (rfl)
@[simp] theorem lanes_setForm (s : State) (a : AlertForm) (v : FormState) : (s.setForm a v).lanes = s.lanes := (rfl)
@[simp] theorem lanes_admitFrame (p : Port) (need : Nat) (f : FwdFrame) (s : State) :
    (admitFrame p need f s).1.lanes = s.lanes := by
  simp only [admitFrame]
  (repeat' split) <;> simp

@[simp] theorem lanes_offerTiming (p : Port) (tag : OrigTag) (header : Nat) (bytes : List Byte) (s : State) :
    (offerTiming p tag header bytes s).1.lanes = s.lanes := by
  simp only [offerTiming]
  (repeat' split) <;> simp

@[simp] theorem lanes_offerGeneral (p : Port) (tag : OrigTag) (header : Nat) (bytes : List Byte) (s : State) :
    (offerGeneral p tag header bytes s).1.lanes = s.lanes := by
  simp only [offerGeneral]
  (repeat' split) <;> simp

@[simp] theorem lanes_askPassesEgress (p : Port) (id : Nat) (s : State) :
    (askPassesEgress p id s).lanes = s.lanes := by
  simp only [askPassesEgress]
  (repeat' split) <;> simp

@[simp] theorem lanes_reportPassesEgress (i : Nat) (rack ip : BitVec 32) (s : State) :
    (reportPassesEgress i rack ip s).lanes = s.lanes := by
  simp only [reportPassesEgress]
  (repeat' split) <;> simp

@[simp] theorem lanes_recordEgress (p : Port) (tag : OrigTag) (s : State) :
    (recordEgress p tag s).lanes = s.lanes := by
  simp only [recordEgress]
  (repeat' split) <;> simp

@[simp] theorem lanes_grantQueued (p : Port) (o : TxFrom) (q : QFrame) (s : State) :
    (grantQueued p o q s).lanes = s.lanes := by simp [grantQueued]

@[simp] theorem lanes_grantForwarded (p : Port) (f : FwdFrame) (s : State) :
    (grantForwarded p f s).lanes = s.lanes := by simp [grantForwarded]

@[simp] theorem lanes_arbitrate (p : Port) (s : State) :
    (arbitrate p s).lanes = s.lanes := by
  simp only [arbitrate]
  (repeat' split) <;> simp

@[simp] theorem lanes_finishTx (p : Port) (t : Tx) (s : State) :
    (finishTx p t s).lanes = s.lanes := by
  simp only [finishTx]
  (repeat' split) <;> simp

@[simp] theorem lanes_suppressAlert (a : AlertForm) (s : State) :
    (suppressAlert a s).lanes = s.lanes := by simp [suppressAlert]

@[simp] theorem lanes_alertEvent (a : AlertForm) (clear : Bool) (subject : Subject) (d : AlertData) (s : State) :
    (alertEvent a clear subject d s).lanes = s.lanes := by
  simp only [alertEvent]
  (repeat' split) <;> simp

@[simp] theorem lanes_levelNotice (s : State) :
    (levelNotice s).lanes = s.lanes := by
  simp only [levelNotice]
  (repeat' split) <;> simp

@[simp] theorem lanes_offerBare (o : Offer) (s : State) :
    (offerBare o s).1.lanes = s.lanes := by
  simp only [offerBare]
  (repeat' split) <;> simp

@[simp] theorem lanes_activate (k : FaultKind) (subject : Subject) (s : State) :
    (activate k subject s).lanes = s.lanes := by simp [activate]

@[simp] theorem lanes_countRaise (k : FaultKind) (s : State) :
    (countRaise k s).lanes = s.lanes := by simp [countRaise]

@[simp] theorem lanes_deactivate (k : FaultKind) (s : State) :
    (deactivate k s).lanes = s.lanes := by simp [deactivate]

@[simp] theorem lanes_faultAlert (k : FaultKind) (clear : Bool) (subject : Subject) (d : AlertData) (s : State) :
    (faultAlert k clear subject d s).lanes = s.lanes := by
  simp only [faultAlert]
  (repeat' split) <;> simp

@[simp] theorem lanes_raiseLogFull (s : State) :
    (raiseLogFull s).lanes = s.lanes := by
  simp only [raiseLogFull]
  (repeat' split) <;> simp

@[simp] theorem lanes_clearLogFull (s : State) :
    (clearLogFull s).lanes = s.lanes := by
  simp only [clearLogFull]
  (repeat' split) <;> simp

@[simp] theorem lanes_offerRecord (o : Offer) (s : State) :
    (offerRecord o s).lanes = s.lanes := by
  simp only [offerRecord]
  (repeat' split) <;> simp

@[simp] theorem lanes_raiseLogFullAgain (s : State) :
    (raiseLogFullAgain s).lanes = s.lanes := by
  simp only [raiseLogFullAgain]
  (repeat' split) <;> simp

@[simp] theorem lanes_raiseFault (k : FaultKind) (subject : Subject) (record : Bool) (d : AlertData) (s : State) :
    (raiseFault k subject record d s).lanes = s.lanes := by
  simp only [raiseFault]
  (repeat' split) <;> simp

@[simp] theorem lanes_clearFault (k : FaultKind) (subject : Subject) (record : Bool) (d : AlertData) (s : State) :
    (clearFault k subject record d s).lanes = s.lanes := by
  simp only [clearFault]
  (repeat' split) <;> simp

@[simp] theorem lanes_handRate (r : Int) (s : State) :
    (handRate r s).lanes = s.lanes := by simp [handRate]

@[simp] theorem lanes_setServoState (st : ServoState) (s : State) :
    (setServoState st s).lanes = s.lanes := by simp [setServoState]

@[simp] theorem lanes_offerState (old : ServoState) (s : State) :
    (offerState old s).lanes = s.lanes := by simp [offerState]

@[simp] theorem lanes_servoFollows (s : State) :
    (servoFollows s).lanes = s.lanes := by simp [servoFollows]

@[simp] theorem lanes_servoSwitches (s : State) :
    (servoSwitches s).lanes = s.lanes := by simp [servoSwitches]

@[simp] theorem lanes_servoHolds (s : State) :
    (servoHolds s).lanes = s.lanes := by simp [servoHolds]

@[simp] theorem lanes_setSourceState (i : Nat) (st : SourceState) (s : State) :
    (setSourceState i st s).lanes = s.lanes := by
  simp only [setSourceState]
  (repeat' split) <;> simp

@[simp] theorem lanes_unselect (i : Nat) (s : State) :
    (unselect i s).lanes = s.lanes := by
  simp only [unselect]
  (repeat' split) <;> simp

@[simp] theorem lanes_clearHoldoverExpired (s : State) :
    (clearHoldoverExpired s).lanes = s.lanes := by simp [clearHoldoverExpired]

@[simp] theorem lanes_offerStateIfChanged (before : ServoState) (s : State) :
    (offerStateIfChanged before s).lanes = s.lanes := by
  simp only [offerStateIfChanged]
  (repeat' split) <;> simp

@[simp] theorem lanes_select (old : Option (Nat × SourceEntry)) (new : Nat × SourceEntry) (reason : Reason) (sampled : Bool) (s : State) :
    (select old new reason sampled s).lanes = s.lanes := by
  simp only [select]
  (repeat' split) <;> simp

@[simp] theorem lanes_endSelection (old : Nat × SourceEntry) (reason : Reason) (s : State) :
    (endSelection old reason s).lanes = s.lanes := by
  simp only [endSelection]
  (repeat' split) <;> simp

@[simp] theorem lanes_reevaluate (old : Option (Nat × SourceEntry)) (why : Reason) (own : Option Nat) (s : State) :
    (reevaluate old why own s).lanes = s.lanes := by
  simp only [reevaluate]
  (repeat' split) <;> simp

@[simp] theorem lanes_reevaluateOnHold (before : Bool) (s : State) :
    (reevaluateOnHold before s).lanes = s.lanes := by
  simp only [reevaluateOnHold]
  (repeat' split) <;> simp

@[simp] theorem lanes_raiseWithHold (k : FaultKind) (subject : Subject) (record : Bool) (d : AlertData) (s : State) :
    (raiseWithHold k subject record d s).lanes = s.lanes := by simp [raiseWithHold]

@[simp] theorem lanes_clearWithHold (k : FaultKind) (subject : Subject) (record : Bool) (d : AlertData) (s : State) :
    (clearWithHold k subject record d s).lanes = s.lanes := by simp [clearWithHold]

@[simp] theorem lanes_secondPulse (s : State) :
    (secondPulse s).lanes = s.lanes := by
  simp only [secondPulse]
  (repeat' split) <;> simp

@[simp] theorem lanes_performSwap (s : State) :
    (performSwap s).lanes = s.lanes := by simp [performSwap]

@[simp] theorem lanes_armedSwap (s : State) :
    (armedSwap s).lanes = s.lanes := by
  simp only [armedSwap]
  (repeat' split) <;> simp

@[simp] theorem lanes_secondBoundary (s : State) :
    (secondBoundary s).lanes = s.lanes := by simp [secondBoundary]

@[simp] theorem lanes_stepTo (moved : Date × Bool) (s : State) :
    (stepTo moved s).lanes = s.lanes := by
  simp only [stepTo]
  (repeat' split) <;> simp

@[simp] theorem lanes_forwardStep (amount : Nat) (s : State) :
    (forwardStep amount s).lanes = s.lanes := by simp [forwardStep]

@[simp] theorem lanes_load (d : Date) (s : State) :
    (load d s).lanes = s.lanes := by
  simp only [load]
  (repeat' split) <;> simp

@[simp] theorem lanes_uptimeSecond (s : State) :
    (uptimeSecond s).lanes = s.lanes := by
  simp only [uptimeSecond]
  (repeat' split) <;> simp

@[simp] theorem lanes_rememberStamp (d : SN) (s : State) :
    (rememberStamp d s).lanes = s.lanes := by simp [rememberStamp]

@[simp] theorem lanes_leaveLocked (s : State) :
    (leaveLocked s).lanes = s.lanes := by
  simp only [leaveLocked]
  (repeat' split) <;> simp

@[simp] theorem lanes_afterStep (amount : Nat) (s : State) :
    (afterStep amount s).lanes = s.lanes := by simp [afterStep]

@[simp] theorem lanes_servoStep (amount : Nat) (s : State) :
    (servoStep amount s).lanes = s.lanes := by simp [servoStep]

@[simp] theorem lanes_startCatchDown (s : State) :
    (startCatchDown s).lanes = s.lanes := by simp [startCatchDown]

@[simp] theorem lanes_filterUpdate (theta k : Int) (s : State) :
    (filterUpdate theta k s).lanes = s.lanes := by
  simp only [filterUpdate]
  (repeat' split) <;> simp

@[simp] theorem lanes_lockCounting (theta : Int) (s : State) :
    (lockCounting theta s).lanes = s.lanes := by
  simp only [lockCounting]
  (repeat' split) <;> simp

@[simp] theorem lanes_sampleInUnset (x : ServoSample) (s : State) :
    (sampleInUnset x s).lanes = s.lanes := by simp [sampleInUnset]

@[simp] theorem lanes_filterAndLock (x : ServoSample) (s : State) :
    (filterAndLock x s).lanes = s.lanes := by simp [filterAndLock]

@[simp] theorem lanes_sampleInCatchDown (x : ServoSample) (s : State) :
    (sampleInCatchDown x s).lanes = s.lanes := by
  simp only [sampleInCatchDown]
  (repeat' split) <;> simp

@[simp] theorem lanes_sampleOutside (x : ServoSample) (s : State) :
    (sampleOutside x s).lanes = s.lanes := by
  simp only [sampleOutside]
  (repeat' split) <;> simp

@[simp] theorem lanes_sampleInFollow (x : ServoSample) (s : State) :
    (sampleInFollow x s).lanes = s.lanes := by
  simp only [sampleInFollow]
  (repeat' split) <;> simp

@[simp] theorem lanes_takeSample (x : ServoSample) (s : State) :
    (takeSample x s).lanes = s.lanes := by
  simp only [takeSample]
  (repeat' split) <;> simp

@[simp] theorem lanes_expireHoldover (s : State) :
    (expireHoldover s).lanes = s.lanes := by simp [expireHoldover]

@[simp] theorem lanes_unexpireHoldover (s : State) :
    (unexpireHoldover s).lanes = s.lanes := by simp [unexpireHoldover]

@[simp] theorem lanes_judgeHoldover (s : State) :
    (judgeHoldover s).lanes = s.lanes := by
  simp only [judgeHoldover]
  (repeat' split) <;> simp

@[simp] theorem lanes_clampF (s : State) :
    (clampF s).lanes = s.lanes := by
  simp only [clampF]
  (repeat' split) <;> simp

@[simp] theorem lanes_applyServo (p : ServoParams) (width limit : Nat) (s : State) :
    (applyServo p width limit s).lanes = s.lanes := by
  simp only [applyServo]
  (repeat' split) <;> simp

@[simp] theorem lanes_setDateTo (d : SN) (s : State) :
    (setDateTo d s).1.lanes = s.lanes := by
  simp only [setDateTo]
  (repeat' split) <;> simp

@[simp] theorem lanes_setTrimTo (f : Int) (s : State) :
    (setTrimTo f s).1.lanes = s.lanes := by
  simp only [setTrimTo]
  (repeat' split) <;> simp

@[simp] theorem lanes_loadTrim (s : State) :
    (loadTrim s).lanes = s.lanes := by simp [loadTrim]

@[simp] theorem lanes_servoSoftReset (s : State) :
    (servoSoftReset s).lanes = s.lanes := by
  simp only [servoSoftReset]
  (repeat' split) <;> simp

@[simp] theorem lanes_forwardWhole (w : Whole) (edit : Edit) (s : State) :
    (forwardWhole w edit s).lanes = s.lanes := by
  simp only [forwardWhole]
  (repeat' split) <;> simp

@[simp] theorem lanes_takeInterval (p : Port) (s : State) :
    (takeInterval p s).lanes = s.lanes := by
  simp only [takeInterval]
  (repeat' split) <;> simp

@[simp] theorem lanes_restartInterval (p : Port) (s : State) :
    (restartInterval p s).lanes = s.lanes := by simp [restartInterval]

@[simp] theorem lanes_startEcho (p : Port) (s : State) :
    (startEcho p s).lanes = s.lanes := by
  simp only [startEcho]
  (repeat' split) <;> simp

@[simp] theorem lanes_takeDelay (p : Port) (x : Nat) (s : State) :
    (takeDelay p x s).lanes = s.lanes := by simp [takeDelay]

@[simp] theorem lanes_endExchange (w : Whole) (s : State) :
    (endExchange w s).lanes = s.lanes := by
  simp only [endExchange]
  (repeat' split) <;> simp

@[simp] theorem lanes_answerReceived (w : Whole) (s : State) :
    (answerReceived w s).lanes = s.lanes := by
  simp only [answerReceived]
  (repeat' split) <;> simp

@[simp] theorem lanes_echoTimesOut (p : Port) (s : State) :
    (echoTimesOut p s).lanes = s.lanes := by simp [echoTimesOut]

@[simp] theorem lanes_echoLinkDown (p : Port) (s : State) :
    (echoLinkDown p s).lanes = s.lanes := by
  simp only [echoLinkDown]
  (repeat' split) <;> simp

@[simp] theorem lanes_echoLinkUp (p : Port) (s : State) :
    (echoLinkUp p s).lanes = s.lanes := by
  simp only [echoLinkUp]
  (repeat' split) <;> simp

@[simp] theorem lanes_echoRewritten (p : Port) (old : PortRec) (s : State) :
    (echoRewritten p old s).lanes = s.lanes := by
  simp only [echoRewritten]
  (repeat' split) <;> simp

@[simp] theorem lanes_clearStale (p : Port) (s : State) :
    (clearStale p s).lanes = s.lanes := by simp [clearStale]

@[simp] theorem lanes_answerAsk (w : Whole) (s : State) :
    (answerAsk w s).lanes = s.lanes := by
  simp only [answerAsk]
  (repeat' split) <;> simp

@[simp] theorem lanes_handleAsk (w : Whole) (s : State) :
    (handleAsk w s).lanes = s.lanes := by
  simp only [handleAsk]
  (repeat' split) <;> simp

@[simp] theorem lanes_handleAnswer (w : Whole) (s : State) :
    (handleAnswer w s).lanes = s.lanes := by
  simp only [handleAnswer]
  (repeat' split) <;> simp

@[simp] theorem lanes_afterBeacon (w : Whole) (i p : Nat) (a : Int) (old : Option (Nat × SourceEntry)) (s : State) :
    (afterBeacon w i p a old s).lanes = s.lanes := by
  simp only [afterBeacon]
  (repeat' split) <;> simp

@[simp] theorem lanes_beaconIntoTable (w : Whole) (s : State) :
    (beaconIntoTable w s).lanes = s.lanes := by
  simp only [beaconIntoTable]
  (repeat' split) <;> simp

@[simp] theorem lanes_goStale (i : Nat) (s : State) :
    (goStale i s).lanes = s.lanes := by simp [goStale]

@[simp] theorem lanes_afterBar (old : Option (Nat × SourceEntry)) (s : State) :
    (afterBar old s).lanes = s.lanes := by simp [afterBar]

@[simp] theorem lanes_endBar (i : Nat) (e : SourceEntry) (s : State) :
    (endBar i e s).lanes = s.lanes := by
  simp only [endBar]
  (repeat' split) <;> simp

@[simp] theorem lanes_setBar (i : Nat) (e : SourceEntry) (seconds : Nat) (s : State) :
    (setBar i e seconds s).lanes = s.lanes := by
  simp only [setBar]
  (repeat' split) <;> simp

@[simp] theorem lanes_barEntry (i : Nat) (e : SourceEntry) (seconds : Nat) (s : State) :
    (barEntry i e seconds s).lanes = s.lanes := by
  simp only [barEntry]
  (repeat' split) <;> simp

@[simp] theorem lanes_barSelected (seconds : Nat) (s : State) :
    (barSelected seconds s).lanes = s.lanes := by
  simp only [barSelected]
  (repeat' split) <;> simp

@[simp] theorem lanes_startReports (s : State) :
    (startReports s).lanes = s.lanes := by simp [startReports]

@[simp] theorem lanes_nextSlot (s : State) :
    (nextSlot s).lanes = s.lanes := by
  simp only [nextSlot]
  (repeat' split) <;> simp

@[simp] theorem lanes_reportNotSent (i : Nat) (s : State) :
    (reportNotSent i s).lanes = s.lanes := by simp [reportNotSent]

@[simp] theorem lanes_reportSent (i : Nat) (s : State) :
    (reportSent i s).lanes = s.lanes := by simp [reportSent]

@[simp] theorem lanes_sendReport (i : Nat) (s : State) :
    (sendReport i s).lanes = s.lanes := by
  simp only [sendReport]
  (repeat' split) <;> simp

@[simp] theorem lanes_setSelfDrift (v : Verdict) (s : State) :
    (setSelfDrift v s).lanes = s.lanes := by
  simp only [setSelfDrift]
  (repeat' split) <;> simp

@[simp] theorem lanes_clearSelfDrift (v : Verdict) (e : Episode) (s : State) :
    (clearSelfDrift v e s).lanes = s.lanes := by simp [clearSelfDrift]

@[simp] theorem lanes_judgeSelf (s : State) :
    (judgeSelf s).lanes = s.lanes := by
  simp only [judgeSelf]
  (repeat' split) <;> simp

@[simp] theorem lanes_warnPeer (i : Nat) (vote : Vote) (s : State) :
    (warnPeer i vote s).lanes = s.lanes := by simp [warnPeer]

@[simp] theorem lanes_unwarnPeer (i : Nat) (vote : Vote) (s : State) :
    (unwarnPeer i vote s).lanes = s.lanes := by simp [unwarnPeer]

@[simp] theorem lanes_judgePeer (s : State) (i : Nat) :
    (judgePeer s i).lanes = s.lanes := by
  simp only [judgePeer]
  (repeat' split) <;> simp

@[simp] theorem lanes_judgeRack (s : State) :
    (judgeRack s).lanes = s.lanes := by
  simp only [judgeRack]
  (repeat' split) <;> simp [foldl_lanes]

@[simp] theorem lanes_reportReceived (w : Whole) (s : State) :
    (reportReceived w s).lanes = s.lanes := by
  simp only [reportReceived]
  (repeat' split) <;> simp

@[simp] theorem lanes_setPeerCfg (i : Nat) (c : PeerCfg) (s : State) :
    (setPeerCfg i c s).lanes = s.lanes := by simp [setPeerCfg]

@[simp] theorem lanes_writePeerAt (i : Nat) (c : PeerCfg) (s : State) :
    (writePeerAt i c s).lanes = s.lanes := by
  simp only [writePeerAt]
  (repeat' split) <;> simp

@[simp] theorem lanes_clearPeerAt (i : Nat) (s : State) :
    (clearPeerAt i s).lanes = s.lanes := by
  simp only [clearPeerAt]
  (repeat' split) <;> simp

@[simp] theorem lanes_applyDrift (p : DriftParams) (holdoff threshold : Nat) (s : State) :
    (applyDrift p holdoff threshold s).lanes = s.lanes := by
  simp only [applyDrift]
  (repeat' split) <;> simp

@[simp] theorem lanes_driftSoftReset (s : State) :
    (driftSoftReset s).lanes = s.lanes := by simp [driftSoftReset]

@[simp] theorem lanes_freezeTrigger (t : Trigger) (s : State) :
    (freezeTrigger t s).lanes = s.lanes := by
  simp only [freezeTrigger]
  (repeat' split) <;> simp

@[simp] theorem lanes_releaseFreeze (s : State) :
    (releaseFreeze s).lanes = s.lanes := by
  simp only [releaseFreeze]
  (repeat' split) <;> simp

@[simp] theorem lanes_openMark (p : Port) (index : Nat) (e : MatchEntry) (ingress : Date) (s : State) :
    (openMark p index e ingress s).lanes = s.lanes := by
  simp only [openMark]
  (repeat' split) <;> simp

@[simp] theorem lanes_settleStamp (p : Port) (written : Bool) (s : State) :
    (settleStamp p written s).lanes = s.lanes := by
  simp only [settleStamp]
  (repeat' split) <;> simp

@[simp] theorem lanes_loseStamp (p : Port) (s : State) :
    (loseStamp p s).lanes = s.lanes := by simp [loseStamp]

@[simp] theorem lanes_readyArriving (p : Port) (edit : Edit) (s : State) :
    (readyArriving p edit s).lanes = s.lanes := by simp [readyArriving]

@[simp] theorem lanes_writeStampNow (p : Port) (c : DatingCtx) (bytes : List Byte) (s : State) :
    (writeStampNow p c bytes s).lanes = s.lanes := by simp [writeStampNow]

@[simp] theorem lanes_closeMark (p : Port) (bytes : List Byte) (stop len : Nat) (badFcs : Bool) (s : State) :
    (closeMark p bytes stop len badFcs s).lanes = s.lanes := by
  simp only [closeMark]
  (repeat' split) <;> simp

@[simp] theorem lanes_cutMark (p : Port) (bytes : List Byte) (len : Nat) (s : State) :
    (cutMark p bytes len s).lanes = s.lanes := by
  simp only [cutMark]
  (repeat' split) <;> simp

@[simp] theorem lanes_setRx (p : Port) (r : Option Rx) (s : State) :
    (setRx p r s).lanes = s.lanes := by simp [setRx]

@[simp] theorem lanes_forwardArriving (p : Port) (r : Rx) (ready : Bool) (s : State) :
    (forwardArriving p r ready s).1.lanes = s.lanes := by simp [forwardArriving]

@[simp] theorem lanes_passFrame (p : Port) (r : Rx) (s : State) :
    (passFrame p r s).lanes = s.lanes := by simp [passFrame]

@[simp] theorem lanes_settleArrived (p : Port) (bytes : List Byte) (s : State) :
    (settleArrived p bytes s).lanes = s.lanes := by
  simp only [settleArrived]
  (repeat' split) <;> simp

@[simp] theorem lanes_markFrame (p : Port) (r : Rx) (index : Nat) (e : MatchEntry) (s : State) :
    (markFrame p r index e s).lanes = s.lanes := by
  simp only [markFrame]
  (repeat' split) <;> simp

@[simp] theorem lanes_lookupFrame (p : Port) (r : Rx) (ended : Bool) (s : State) :
    (lookupFrame p r ended s).lanes = s.lanes := by
  simp only [lookupFrame]
  (repeat' split) <;> simp

@[simp] theorem lanes_growArriving (p : Port) (bytes : List Byte) (s : State) :
    (growArriving p bytes s).lanes = s.lanes := by simp [growArriving]

@[simp] theorem lanes_overrun (p : Port) (r : Rx) (s : State) :
    (overrun p r s).lanes = s.lanes := by
  simp only [overrun]
  (repeat' split) <;> simp

@[simp] theorem lanes_malformedFrame (w : Whole) (s : State) :
    (malformedFrame w s).lanes = s.lanes := by simp [malformedFrame]

@[simp] theorem lanes_acceptControl (w : Whole) (privilege : Privilege) (s : State) :
    (acceptControl w privilege s).lanes = s.lanes := by
  simp only [acceptControl]
  (repeat' split) <;> simp

@[simp] theorem lanes_dispatchUdp (w : Whole) (mgmt utx : Bool) (privilege : Privilege) (s : State) :
    (dispatchUdp w mgmt utx privilege s).lanes = s.lanes := by
  simp only [dispatchUdp]
  (repeat' split) <;> simp

@[simp] theorem lanes_endForwarded (p : Port) (r : Rx) (inLane : Bool) (s : State) :
    (endForwarded p r inLane s).lanes = s.lanes := by
  simp only [endForwarded]
  (repeat' split) <;> simp

@[simp] theorem lanes_applyFull (c : Settings) (bank : Vector MatchEntry 64) (source : LoadSource) (version : Nat) (s : State) :
    (applyFull c bank source version s).lanes = s.lanes := by simp [applyFull]

@[simp] theorem lanes_raiseAgain (expired : Bool) (s : State) :
    (raiseAgain expired s).lanes = s.lanes := by
  simp only [raiseAgain]
  (repeat' split) <;> simp

@[simp] theorem lanes_completeSoft (expired : Bool) (s : State) :
    (completeSoft expired s).lanes = s.lanes := by simp [completeSoft]

@[simp] theorem lanes_enterRunning (s : State) :
    (enterRunning s).lanes = s.lanes := by simp [enterRunning]

@[simp] theorem lanes_finishLoad (first second : List Byte) (s : State) :
    (finishLoad first second s).lanes = s.lanes := by
  simp only [finishLoad]
  (repeat' split) <;> simp

@[simp] theorem lanes_loseReception (p : Port) (more : List Byte) (s : State) :
    (loseReception p more s).lanes = s.lanes := by
  simp only [loseReception]
  (repeat' split) <;> simp

@[simp] theorem lanes_flushEgress (p : Port) (s : State) :
    (flushEgress p s).lanes = s.lanes := by
  simp only [flushEgress]
  (repeat' split) <;> simp

@[simp] theorem lanes_linkBackUp (p : Port) (s : State) :
    (linkBackUp p s).lanes = s.lanes := by
  simp only [linkBackUp]
  (repeat' split) <;> simp

@[simp] theorem lanes_linkComesUp (p : Port) (s : State) :
    (linkComesUp p s).lanes = s.lanes := by
  simp only [linkComesUp]
  (repeat' split) <;> simp

@[simp] theorem lanes_finishSave (written readBack : List Byte) (s : State) :
    (finishSave written readBack s).lanes = s.lanes := by
  simp only [finishSave]
  (repeat' split) <;> simp

@[simp] theorem lanes_endMemoryTest (pass : Bool) (s : State) :
    (endMemoryTest pass s).lanes = s.lanes := by
  simp only [endMemoryTest]
  (repeat' split) <;> simp

@[simp] theorem lanes_removeRecords (k : Nat) (s : State) :
    (removeRecords k s).lanes = s.lanes := by
  simp only [removeRecords]
  (repeat' split) <;> simp

@[simp] theorem lanes_testLog (s : State) :
    (testLog s).1.lanes = s.lanes := by
  simp only [testLog]
  (repeat' split) <;> simp

@[simp] theorem lanes_writeMatch (index : Byte) (a : MatchArg) (s : State) :
    (writeMatch index a s).1.lanes = s.lanes := by
  simp only [writeMatch]
  (repeat' split) <;> simp

@[simp] theorem lanes_copyActive (s : State) :
    (copyActive s).1.lanes = s.lanes := by
  simp only [copyActive]
  (repeat' split) <;> simp

@[simp] theorem lanes_swapCommand (arg : Byte) (s : State) :
    (swapCommand arg s).1.lanes = s.lanes := by
  simp only [swapCommand]
  (repeat' split) <;> simp

@[simp] theorem lanes_writePort (a : PortArg) (s : State) :
    (writePort a s).1.lanes = s.lanes := by
  simp only [writePort]
  (repeat' split) <;> simp

@[simp] theorem lanes_writeOverride (a : OverrideArg) (s : State) :
    (writeOverride a s).1.lanes = s.lanes := by
  simp only [writeOverride]
  (repeat' split) <;> simp

@[simp] theorem lanes_writePeer (a : PeerArg) (s : State) :
    (writePeer a s).1.lanes = s.lanes := by
  simp only [writePeer]
  (repeat' split) <;> simp

@[simp] theorem lanes_clearPeer (index : Byte) (s : State) :
    (clearPeer index s).1.lanes = s.lanes := by
  simp only [clearPeer]
  (repeat' split) <;> simp

@[simp] theorem lanes_writeServo (a : ServoArg) (s : State) :
    (writeServo a s).1.lanes = s.lanes := by simp [writeServo]

@[simp] theorem lanes_writeDrift (a : DriftArg) (s : State) :
    (writeDrift a s).1.lanes = s.lanes := by simp [writeDrift]

@[simp] theorem lanes_applyResponse (k : FaultKind) (r : Response) (s : State) :
    (applyResponse k r s).lanes = s.lanes := by
  simp only [applyResponse]
  (repeat' split) <;> simp

@[simp] theorem lanes_writeFault (kind response : Byte) (s : State) :
    (writeFault kind response s).1.lanes = s.lanes := by
  simp only [writeFault]
  (repeat' split) <;> simp

@[simp] theorem lanes_clearPosition (mask : BitVec 32) (s : State) (k : FaultKind) :
    (clearPosition mask s k).lanes = s.lanes := by
  simp only [clearPosition]
  (repeat' split) <;> simp

@[simp] theorem lanes_clearFlags (mask : BitVec 32) (s : State) :
    (clearFlags mask s).1.lanes = s.lanes := by
  simp only [clearFlags]
  (repeat' split) <;> simp [foldl_lanes]

@[simp] theorem lanes_barSource (index : Byte) (seconds : BitVec 16) (s : State) :
    (barSource index seconds s).1.lanes = s.lanes := by
  simp only [barSource]
  (repeat' split) <;> simp

@[simp] theorem lanes_saveSettings (s : State) :
    (saveSettings s).1.lanes = s.lanes := by
  simp only [saveSettings]
  (repeat' split) <;> simp

@[simp] theorem lanes_resetCommand (arg : Byte) (s : State) :
    (resetCommand arg s).1.lanes = s.lanes := by
  simp only [resetCommand]
  (repeat' split) <;> simp

/-! ### echo -/

theorem foldl_echo {α : Type} (f : State → α → State) (h : ∀ t a, (f t a).echo = t.echo) (s : State) (l : List α) :
    (l.foldl f s).echo = s.echo := by
  induction l generalizing s with
  | nil => rfl
  | cons a rest ih => rw [List.foldl_cons, ih, h]

@[simp] theorem echo_watchSecond (s : State) :
    (watchSecond s).echo = s.echo := by
  simp only [watchSecond]
  (repeat' split) <;> simp

@[simp] theorem echo_judgePulse (d : Option Nat) (s : State) :
    (judgePulse d s).echo = s.echo := by simp [judgePulse]

@[simp] theorem echo_setPort (s : State) (p : Port) (u : PortUnit) : (s.setPort p u).echo = s.echo := (rfl)
@[simp] theorem echo_count (s : State) (p : Port) (f : Stats → Stats) : (s.count p f).echo = s.echo := (rfl)
@[simp] theorem echo_setLane (s : State) (l : Lane) (u : LaneUnit) : (s.setLane l u).echo = s.echo := (rfl)
@[simp] theorem echo_setSource (s : State) (i : Nat) (e : Option SourceEntry) : (s.setSource i e).echo = s.echo := (rfl)
@[simp] theorem echo_setPeer (s : State) (i : Nat) (e : PeerDyn) : (s.setPeer i e).echo = s.echo := (rfl)
@[simp] theorem echo_setFault (s : State) (k : FaultKind) (r : FaultRec) : (s.setFault k r).echo = s.echo := (rfl)
@[simp] theorem echo_setForm (s : State) (a : AlertForm) (v : FormState) : (s.setForm a v).echo = s.echo := (rfl)
@[simp] theorem echo_admitFrame (p : Port) (need : Nat) (f : FwdFrame) (s : State) :
    (admitFrame p need f s).1.echo = s.echo := by
  simp only [admitFrame]
  (repeat' split) <;> simp

@[simp] theorem echo_offerTiming (p : Port) (tag : OrigTag) (header : Nat) (bytes : List Byte) (s : State) :
    (offerTiming p tag header bytes s).1.echo = s.echo := by
  simp only [offerTiming]
  (repeat' split) <;> simp

@[simp] theorem echo_offerGeneral (p : Port) (tag : OrigTag) (header : Nat) (bytes : List Byte) (s : State) :
    (offerGeneral p tag header bytes s).1.echo = s.echo := by
  simp only [offerGeneral]
  (repeat' split) <;> simp

@[simp] theorem echo_reportPassesEgress (i : Nat) (rack ip : BitVec 32) (s : State) :
    (reportPassesEgress i rack ip s).echo = s.echo := by
  simp only [reportPassesEgress]
  (repeat' split) <;> simp

@[simp] theorem echo_grantForwarded (p : Port) (f : FwdFrame) (s : State) :
    (grantForwarded p f s).echo = s.echo := by simp [grantForwarded]

@[simp] theorem echo_finishTx (p : Port) (t : Tx) (s : State) :
    (finishTx p t s).echo = s.echo := by
  simp only [finishTx]
  (repeat' split) <;> simp

@[simp] theorem echo_suppressAlert (a : AlertForm) (s : State) :
    (suppressAlert a s).echo = s.echo := by simp [suppressAlert]

@[simp] theorem echo_activate (k : FaultKind) (subject : Subject) (s : State) :
    (activate k subject s).echo = s.echo := by simp [activate]

@[simp] theorem echo_countRaise (k : FaultKind) (s : State) :
    (countRaise k s).echo = s.echo := by simp [countRaise]

@[simp] theorem echo_deactivate (k : FaultKind) (s : State) :
    (deactivate k s).echo = s.echo := by simp [deactivate]

@[simp] theorem echo_handRate (r : Int) (s : State) :
    (handRate r s).echo = s.echo := by simp [handRate]

@[simp] theorem echo_setServoState (st : ServoState) (s : State) :
    (setServoState st s).echo = s.echo := by simp [setServoState]

@[simp] theorem echo_servoFollows (s : State) :
    (servoFollows s).echo = s.echo := by simp [servoFollows]

@[simp] theorem echo_servoSwitches (s : State) :
    (servoSwitches s).echo = s.echo := by simp [servoSwitches]

@[simp] theorem echo_servoHolds (s : State) :
    (servoHolds s).echo = s.echo := by simp [servoHolds]

@[simp] theorem echo_setSourceState (i : Nat) (st : SourceState) (s : State) :
    (setSourceState i st s).echo = s.echo := by
  simp only [setSourceState]
  (repeat' split) <;> simp

@[simp] theorem echo_unselect (i : Nat) (s : State) :
    (unselect i s).echo = s.echo := by
  simp only [unselect]
  (repeat' split) <;> simp

@[simp] theorem echo_secondPulse (s : State) :
    (secondPulse s).echo = s.echo := by
  simp only [secondPulse]
  (repeat' split) <;> simp

@[simp] theorem echo_performSwap (s : State) :
    (performSwap s).echo = s.echo := by simp [performSwap]

@[simp] theorem echo_armedSwap (s : State) :
    (armedSwap s).echo = s.echo := by
  simp only [armedSwap]
  (repeat' split) <;> simp

@[simp] theorem echo_secondBoundary (s : State) :
    (secondBoundary s).echo = s.echo := by simp [secondBoundary]

@[simp] theorem echo_stepTo (moved : Date × Bool) (s : State) :
    (stepTo moved s).echo = s.echo := by
  simp only [stepTo]
  (repeat' split) <;> simp

@[simp] theorem echo_forwardStep (amount : Nat) (s : State) :
    (forwardStep amount s).echo = s.echo := by simp [forwardStep]

@[simp] theorem echo_load (d : Date) (s : State) :
    (load d s).echo = s.echo := by
  simp only [load]
  (repeat' split) <;> simp

@[simp] theorem echo_uptimeSecond (s : State) :
    (uptimeSecond s).echo = s.echo := by
  simp only [uptimeSecond]
  (repeat' split) <;> simp

@[simp] theorem echo_rememberStamp (d : SN) (s : State) :
    (rememberStamp d s).echo = s.echo := by simp [rememberStamp]

@[simp] theorem echo_clampF (s : State) :
    (clampF s).echo = s.echo := by
  simp only [clampF]
  (repeat' split) <;> simp

@[simp] theorem echo_setTrimTo (f : Int) (s : State) :
    (setTrimTo f s).1.echo = s.echo := by
  simp only [setTrimTo]
  (repeat' split) <;> simp

@[simp] theorem echo_loadTrim (s : State) :
    (loadTrim s).echo = s.echo := by simp [loadTrim]

@[simp] theorem echo_recordEmission (l : Lane) (instant : SN) (e : Emission) (s : State) :
    (recordEmission l instant e s).echo = s.echo := by simp [recordEmission]

@[simp] theorem echo_startReports (s : State) :
    (startReports s).echo = s.echo := by simp [startReports]

@[simp] theorem echo_nextSlot (s : State) :
    (nextSlot s).echo = s.echo := by
  simp only [nextSlot]
  (repeat' split) <;> simp

@[simp] theorem echo_reportNotSent (i : Nat) (s : State) :
    (reportNotSent i s).echo = s.echo := by simp [reportNotSent]

@[simp] theorem echo_reportSent (i : Nat) (s : State) :
    (reportSent i s).echo = s.echo := by simp [reportSent]

@[simp] theorem echo_setPeerCfg (i : Nat) (c : PeerCfg) (s : State) :
    (setPeerCfg i c s).echo = s.echo := by simp [setPeerCfg]

@[simp] theorem echo_driftSoftReset (s : State) :
    (driftSoftReset s).echo = s.echo := by simp [driftSoftReset]

@[simp] theorem echo_settleStamp (p : Port) (written : Bool) (s : State) :
    (settleStamp p written s).echo = s.echo := by
  simp only [settleStamp]
  (repeat' split) <;> simp

@[simp] theorem echo_loseStamp (p : Port) (s : State) :
    (loseStamp p s).echo = s.echo := by simp [loseStamp]

@[simp] theorem echo_readyArriving (p : Port) (edit : Edit) (s : State) :
    (readyArriving p edit s).echo = s.echo := by simp [readyArriving]

@[simp] theorem echo_setRx (p : Port) (r : Option Rx) (s : State) :
    (setRx p r s).echo = s.echo := by simp [setRx]

@[simp] theorem echo_forwardArriving (p : Port) (r : Rx) (ready : Bool) (s : State) :
    (forwardArriving p r ready s).1.echo = s.echo := by simp [forwardArriving]

@[simp] theorem echo_growArriving (p : Port) (bytes : List Byte) (s : State) :
    (growArriving p bytes s).echo = s.echo := by simp [growArriving]

@[simp] theorem echo_acceptControl (w : Whole) (privilege : Privilege) (s : State) :
    (acceptControl w privilege s).echo = s.echo := by
  simp only [acceptControl]
  (repeat' split) <;> simp

@[simp] theorem echo_applyFull (c : Settings) (bank : Vector MatchEntry 64) (source : LoadSource) (version : Nat) (s : State) :
    (applyFull c bank source version s).echo = s.echo := by simp [applyFull]

@[simp] theorem echo_flushEgress (p : Port) (s : State) :
    (flushEgress p s).echo = s.echo := by
  simp only [flushEgress]
  (repeat' split) <;> simp

@[simp] theorem echo_removeRecords (k : Nat) (s : State) :
    (removeRecords k s).echo = s.echo := by
  simp only [removeRecords]
  (repeat' split) <;> simp

@[simp] theorem echo_testLog (s : State) :
    (testLog s).1.echo = s.echo := by
  simp only [testLog]
  (repeat' split) <;> simp

@[simp] theorem echo_writeMatch (index : Byte) (a : MatchArg) (s : State) :
    (writeMatch index a s).1.echo = s.echo := by
  simp only [writeMatch]
  (repeat' split) <;> simp

@[simp] theorem echo_copyActive (s : State) :
    (copyActive s).1.echo = s.echo := by
  simp only [copyActive]
  (repeat' split) <;> simp

@[simp] theorem echo_swapCommand (arg : Byte) (s : State) :
    (swapCommand arg s).1.echo = s.echo := by
  simp only [swapCommand]
  (repeat' split) <;> simp

@[simp] theorem echo_writeLane (a : LaneArg) (s : State) :
    (writeLane a s).1.echo = s.echo := by
  simp only [writeLane]
  (repeat' split) <;> simp

@[simp] theorem echo_writeOverride (a : OverrideArg) (s : State) :
    (writeOverride a s).1.echo = s.echo := by
  simp only [writeOverride]
  (repeat' split) <;> simp

@[simp] theorem echo_saveSettings (s : State) :
    (saveSettings s).1.echo = s.echo := by
  simp only [saveSettings]
  (repeat' split) <;> simp

@[simp] theorem echo_resetCommand (arg : Byte) (s : State) :
    (resetCommand arg s).1.echo = s.echo := by
  simp only [resetCommand]
  (repeat' split) <;> simp

end Sys2Proof.Machine
end

