-- ==== Sys2Proof/Laws/Base.lean ====
section
/-! SUPPORT. The queue of waiting commands, the run state and the uptime: left as they are by every shared operation but the
oscillator period, the resets and the entry into RUNNING. -/

namespace Sys2Proof.Machine

/-- What only a period, a reset or the entry into RUNNING changes. -/
structure Base where
  pending : List Instr
  run : RunState
  up : Nat

def State.base (s : State) : Base := ⟨s.pending, s.run, s.clock.up⟩

theorem base_pending {s t : State} (h : t.base = s.base) : t.pending = s.pending := congrArg Base.pending h
theorem base_run {s t : State} (h : t.base = s.base) : t.run = s.run := congrArg Base.run h
theorem base_up {s t : State} (h : t.base = s.base) : t.clock.up = s.clock.up := congrArg Base.up h

theorem base_of_anchor {s t : State} (h : t.anchor = s.anchor) : t.base = s.base := by
  simp only [State.base, anchor_pending h, anchor_run h, anchor_up h]
@[simp] theorem base_setCfg (s : State) (v : Settings) : (s.setCfg v).base = s.base := (rfl)
@[simp] theorem base_setEchos (s : State) (v : Pair Echo) : (s.setEchos v).base = s.base := (rfl)
@[simp] theorem base_setSources (s : State) (v : Vector (Option SourceEntry) 8) : (s.setSources v).base = s.base := (rfl)
@[simp] theorem base_setServo (s : State) (v : Servo) : (s.setServo v).base = s.base := (rfl)
@[simp] theorem base_setLanes (s : State) (v : Pair LaneUnit) : (s.setLanes v).base = s.base := (rfl)
@[simp] theorem base_setPorts (s : State) (v : Quad PortUnit) : (s.setPorts v).base = s.base := (rfl)
@[simp] theorem base_setMatchTab (s : State) (v : MatchTable) : (s.setMatchTab v).base = s.base := (rfl)
@[simp] theorem base_setLog (s : State) (v : EventLog) : (s.setLog v).base = s.base := (rfl)
@[simp] theorem base_setFrozen (s : State) (v : Option Frozen) : (s.setFrozen v).base = s.base := (rfl)
@[simp] theorem base_setDrift (s : State) (v : DriftMonitor) : (s.setDrift v).base = s.base := (rfl)
@[simp] theorem base_setFaults (s : State) (v : FaultUnit) : (s.setFaults v).base = s.base := (rfl)
@[simp] theorem base_setAgent (s : State) (v : Agent) : (s.setAgent v).base = s.base := (rfl)
@[simp] theorem base_setDate (s : State) (d : Date) : (s.setClock { s.clock with date := d }).base = s.base := (rfl)
@[simp] theorem base_setStepped (s : State) (d : Date) (e : Nat) :
    (s.setClock { s.clock with date := d, epoch := e }).base = s.base := (rfl)
@[simp] theorem base_setStamp (s : State) (d : Option SN) : (s.setClock { s.clock with lastStamp := d }).base = s.base := (rfl)
@[simp] theorem base_setSecond (s : State) (d : Option Nat) : (s.setClock { s.clock with secondEnd := d }).base = s.base := (rfl)

@[simp] theorem base_watchSecond (s : State) : (watchSecond s).base = s.base := base_of_anchor (anchor_watchSecond _)
@[simp] theorem base_judgePulse (d : Option Nat) (s : State) : (judgePulse d s).base = s.base := base_of_anchor (anchor_judgePulse _ _)
@[simp] theorem base_setPort (s : State) (p : Port) (u : PortUnit) : (s.setPort p u).base = s.base := base_of_anchor (anchor_setPort _ _ _)
@[simp] theorem base_count (s : State) (p : Port) (f : Stats → Stats) : (s.count p f).base = s.base := base_of_anchor (anchor_count _ _ _)
@[simp] theorem base_setEcho (s : State) (p : Port) (e : Echo) : (s.setEcho p e).base = s.base := base_of_anchor (anchor_setEcho _ _ _)
@[simp] theorem base_setLane (s : State) (l : Lane) (u : LaneUnit) : (s.setLane l u).base = s.base := base_of_anchor (anchor_setLane _ _ _)
@[simp] theorem base_setSource (s : State) (i : Nat) (e : Option SourceEntry) : (s.setSource i e).base = s.base := base_of_anchor (anchor_setSource _ _ _)
@[simp] theorem base_setPeer (s : State) (i : Nat) (e : PeerDyn) : (s.setPeer i e).base = s.base := base_of_anchor (anchor_setPeer _ _ _)
@[simp] theorem base_setFault (s : State) (k : FaultKind) (r : FaultRec) : (s.setFault k r).base = s.base := base_of_anchor (anchor_setFault _ _ _)
@[simp] theorem base_setForm (s : State) (a : AlertForm) (v : FormState) : (s.setForm a v).base = s.base := base_of_anchor (anchor_setForm _ _ _)
@[simp] theorem base_admitFrame (p : Port) (need : Nat) (f : FwdFrame) (s : State) : (admitFrame p need f s).1.base = s.base := base_of_anchor (anchor_admitFrame _ _ _ _)
@[simp] theorem base_offerTiming (p : Port) (tag : OrigTag) (header : Nat) (bytes : List Byte) (s : State) : (offerTiming p tag header bytes s).1.base = s.base := base_of_anchor (anchor_offerTiming _ _ _ _ _)
@[simp] theorem base_offerGeneral (p : Port) (tag : OrigTag) (header : Nat) (bytes : List Byte) (s : State) : (offerGeneral p tag header bytes s).1.base = s.base := base_of_anchor (anchor_offerGeneral _ _ _ _ _)
@[simp] theorem base_askPassesEgress (p : Port) (id : Nat) (s : State) : (askPassesEgress p id s).base = s.base := base_of_anchor (anchor_askPassesEgress _ _ _)
@[simp] theorem base_reportPassesEgress (i : Nat) (rack ip : BitVec 32) (s : State) : (reportPassesEgress i rack ip s).base = s.base := base_of_anchor (anchor_reportPassesEgress _ _ _ _)
@[simp] theorem base_recordEgress (p : Port) (tag : OrigTag) (s : State) : (recordEgress p tag s).base = s.base := base_of_anchor (anchor_recordEgress _ _ _)
@[simp] theorem base_grantQueued (p : Port) (o : TxFrom) (q : QFrame) (s : State) : (grantQueued p o q s).base = s.base := base_of_anchor (anchor_grantQueued _ _ _ _)
@[simp] theorem base_grantForwarded (p : Port) (f : FwdFrame) (s : State) : (grantForwarded p f s).base = s.base := base_of_anchor (anchor_grantForwarded _ _ _)
@[simp] theorem base_arbitrate (p : Port) (s : State) : (arbitrate p s).base = s.base := base_of_anchor (anchor_arbitrate _ _)
@[simp] theorem base_finishTx (p : Port) (t : Tx) (s : State) : (finishTx p t s).base = s.base := base_of_anchor (anchor_finishTx _ _ _)
@[simp] theorem base_suppressAlert (a : AlertForm) (s : State) : (suppressAlert a s).base = s.base := base_of_anchor (anchor_suppressAlert _ _)
@[simp] theorem base_alertEvent (a : AlertForm) (clear : Bool) (subject : Subject) (d : AlertData) (s : State) : (alertEvent a clear subject d s).base = s.base := base_of_anchor (anchor_alertEvent _ _ _ _ _)
@[simp] theorem base_levelNotice (s : State) : (levelNotice s).base = s.base := base_of_anchor (anchor_levelNotice _)
@[simp] theorem base_offerBare (o : Offer) (s : State) : (offerBare o s).1.base = s.base := base_of_anchor (anchor_offerBare _ _)
@[simp] theorem base_activate (k : FaultKind) (subject : Subject) (s : State) : (activate k subject s).base = s.base := base_of_anchor (anchor_activate _ _ _)
@[simp] theorem base_countRaise (k : FaultKind) (s : State) : (countRaise k s).base = s.base := base_of_anchor (anchor_countRaise _ _)
@[simp] theorem base_deactivate (k : FaultKind) (s : State) : (deactivate k s).base = s.base := base_of_anchor (anchor_deactivate _ _)
@[simp] theorem base_faultAlert (k : FaultKind) (clear : Bool) (subject : Subject) (d : AlertData) (s : State) : (faultAlert k clear subject d s).base = s.base := base_of_anchor (anchor_faultAlert _ _ _ _ _)
@[simp] theorem base_raiseLogFull (s : State) : (raiseLogFull s).base = s.base := base_of_anchor (anchor_raiseLogFull _)
@[simp] theorem base_clearLogFull (s : State) : (clearLogFull s).base = s.base := base_of_anchor (anchor_clearLogFull _)
@[simp] theorem base_offerRecord (o : Offer) (s : State) : (offerRecord o s).base = s.base := base_of_anchor (anchor_offerRecord _ _)
@[simp] theorem base_raiseLogFullAgain (s : State) : (raiseLogFullAgain s).base = s.base := base_of_anchor (anchor_raiseLogFullAgain _)
@[simp] theorem base_raiseFault (k : FaultKind) (subject : Subject) (record : Bool) (d : AlertData) (s : State) : (raiseFault k subject record d s).base = s.base := base_of_anchor (anchor_raiseFault _ _ _ _ _)
@[simp] theorem base_clearFault (k : FaultKind) (subject : Subject) (record : Bool) (d : AlertData) (s : State) : (clearFault k subject record d s).base = s.base := base_of_anchor (anchor_clearFault _ _ _ _ _)
@[simp] theorem base_handRate (r : Int) (s : State) : (handRate r s).base = s.base := base_of_anchor (anchor_handRate _ _)
@[simp] theorem base_setServoState (st : ServoState) (s : State) : (setServoState st s).base = s.base := base_of_anchor (anchor_setServoState _ _)
@[simp] theorem base_offerState (old : ServoState) (s : State) : (offerState old s).base = s.base := base_of_anchor (anchor_offerState _ _)
@[simp] theorem base_servoFollows (s : State) : (servoFollows s).base = s.base := base_of_anchor (anchor_servoFollows _)
@[simp] theorem base_servoSwitches (s : State) : (servoSwitches s).base = s.base := base_of_anchor (anchor_servoSwitches _)
@[simp] theorem base_servoHolds (s : State) : (servoHolds s).base = s.base := base_of_anchor (anchor_servoHolds _)
@[simp] theorem base_setSourceState (i : Nat) (st : SourceState) (s : State) : (setSourceState i st s).base = s.base := base_of_anchor (anchor_setSourceState _ _ _)
@[simp] theorem base_unselect (i : Nat) (s : State) : (unselect i s).base = s.base := base_of_anchor (anchor_unselect _ _)
@[simp] theorem base_clearHoldoverExpired (s : State) : (clearHoldoverExpired s).base = s.base := base_of_anchor (anchor_clearHoldoverExpired _)
@[simp] theorem base_offerStateIfChanged (before : ServoState) (s : State) : (offerStateIfChanged before s).base = s.base := base_of_anchor (anchor_offerStateIfChanged _ _)
@[simp] theorem base_select (old : Option (Nat × SourceEntry)) (new : Nat × SourceEntry) (reason : Reason) (sampled : Bool) (s : State) : (select old new reason sampled s).base = s.base := base_of_anchor (anchor_select _ _ _ _ _)
@[simp] theorem base_endSelection (old : Nat × SourceEntry) (reason : Reason) (s : State) : (endSelection old reason s).base = s.base := base_of_anchor (anchor_endSelection _ _ _)
@[simp] theorem base_reevaluate (old : Option (Nat × SourceEntry)) (why : Reason) (own : Option Nat) (s : State) : (reevaluate old why own s).base = s.base := base_of_anchor (anchor_reevaluate _ _ _ _)
@[simp] theorem base_reevaluateOnHold (before : Bool) (s : State) : (reevaluateOnHold before s).base = s.base := base_of_anchor (anchor_reevaluateOnHold _ _)
@[simp] theorem base_raiseWithHold (k : FaultKind) (subject : Subject) (record : Bool) (d : AlertData) (s : State) : (raiseWithHold k subject record d s).base = s.base := base_of_anchor (anchor_raiseWithHold _ _ _ _ _)
@[simp] theorem base_clearWithHold (k : FaultKind) (subject : Subject) (record : Bool) (d : AlertData) (s : State) : (clearWithHold k subject record d s).base = s.base := base_of_anchor (anchor_clearWithHold _ _ _ _ _)
@[simp] theorem base_secondPulse (s : State) : (secondPulse s).base = s.base := base_of_anchor (anchor_secondPulse _)
@[simp] theorem base_performSwap (s : State) : (performSwap s).base = s.base := base_of_anchor (anchor_performSwap _)
@[simp] theorem base_armedSwap (s : State) : (armedSwap s).base = s.base := base_of_anchor (anchor_armedSwap _)
@[simp] theorem base_secondBoundary (s : State) : (secondBoundary s).base = s.base := base_of_anchor (anchor_secondBoundary _)
@[simp] theorem base_stepTo (moved : Date × Bool) (s : State) :
    (stepTo moved s).base = s.base := by
  simp only [stepTo]
  (repeat' split) <;> first | rfl | simp

@[simp] theorem base_forwardStep (amount : Nat) (s : State) :
    (forwardStep amount s).base = s.base := by
  simp only [forwardStep]
  (repeat' split) <;> first | rfl | simp

@[simp] theorem base_load (d : Date) (s : State) :
    (load d s).base = s.base := by
  simp only [load]
  (repeat' split) <;> first | rfl | simp

@[simp] theorem base_uptimeSecond (s : State) : (uptimeSecond s).base = s.base := base_of_anchor (anchor_uptimeSecond _)
@[simp] theorem base_rememberStamp (d : SN) (s : State) :
    (rememberStamp d s).base = s.base := by
  simp only [rememberStamp]
  (repeat' split) <;> first | rfl | simp

@[simp] theorem base_leaveLocked (s : State) : (leaveLocked s).base = s.base := base_of_anchor (anchor_leaveLocked _)
@[simp] theorem base_afterStep (amount : Nat) (s : State) : (afterStep amount s).base = s.base := base_of_anchor (anchor_afterStep _ _)
@[simp] theorem base_servoStep (amount : Nat) (s : State) :
    (servoStep amount s).base = s.base := by
  simp only [servoStep]
  (repeat' split) <;> first | rfl | simp

@[simp] theorem base_startCatchDown (s : State) : (startCatchDown s).base = s.base := base_of_anchor (anchor_startCatchDown _)
@[simp] theorem base_filterUpdate (theta k : Int) (s : State) : (filterUpdate theta k s).base = s.base := base_of_anchor (anchor_filterUpdate _ _ _)
@[simp] theorem base_lockCounting (theta : Int) (s : State) : (lockCounting theta s).base = s.base := base_of_anchor (anchor_lockCounting _ _)
@[simp] theorem base_sampleInUnset (x : ServoSample) (s : State) :
    (sampleInUnset x s).base = s.base := by
  simp only [sampleInUnset]
  (repeat' split) <;> first | rfl | simp

@[simp] theorem base_filterAndLock (x : ServoSample) (s : State) : (filterAndLock x s).base = s.base := base_of_anchor (anchor_filterAndLock _ _)
@[simp] theorem base_sampleInCatchDown (x : ServoSample) (s : State) :
    (sampleInCatchDown x s).base = s.base := by
  simp only [sampleInCatchDown]
  (repeat' split) <;> first | rfl | simp

@[simp] theorem base_sampleOutside (x : ServoSample) (s : State) :
    (sampleOutside x s).base = s.base := by
  simp only [sampleOutside]
  (repeat' split) <;> first | rfl | simp

@[simp] theorem base_sampleInFollow (x : ServoSample) (s : State) :
    (sampleInFollow x s).base = s.base := by
  simp only [sampleInFollow]
  (repeat' split) <;> first | rfl | simp

@[simp] theorem base_takeSample (x : ServoSample) (s : State) :
    (takeSample x s).base = s.base := by
  simp only [takeSample]
  (repeat' split) <;> first | rfl | simp

@[simp] theorem base_expireHoldover (s : State) : (expireHoldover s).base = s.base := base_of_anchor (anchor_expireHoldover _)
@[simp] theorem base_unexpireHoldover (s : State) : (unexpireHoldover s).base = s.base := base_of_anchor (anchor_unexpireHoldover _)
@[simp] theorem base_judgeHoldover (s : State) : (judgeHoldover s).base = s.base := base_of_anchor (anchor_judgeHoldover _)
@[simp] theorem base_clampF (s : State) : (clampF s).base = s.base := base_of_anchor (anchor_clampF _)
@[simp] theorem base_applyServo (p : ServoParams) (width limit : Nat) (s : State) : (applyServo p width limit s).base = s.base := base_of_anchor (anchor_applyServo _ _ _ _)
@[simp] theorem base_setDateTo (d : SN) (s : State) :
    (setDateTo d s).1.base = s.base := by
  simp only [setDateTo]
  (repeat' split) <;> first | rfl | simp

@[simp] theorem base_setTrimTo (f : Int) (s : State) : (setTrimTo f s).1.base = s.base := base_of_anchor (anchor_setTrimTo _ _)
@[simp] theorem base_loadTrim (s : State) : (loadTrim s).base = s.base := base_of_anchor (anchor_loadTrim _)
@[simp] theorem base_servoSoftReset (s : State) : (servoSoftReset s).base = s.base := base_of_anchor (anchor_servoSoftReset _)
@[simp] theorem base_forwardWhole (w : Whole) (edit : Edit) (s : State) : (forwardWhole w edit s).base = s.base := base_of_anchor (anchor_forwardWhole _ _ _)
@[simp] theorem base_takeInterval (p : Port) (s : State) : (takeInterval p s).base = s.base := base_of_anchor (anchor_takeInterval _ _)
@[simp] theorem base_restartInterval (p : Port) (s : State) : (restartInterval p s).base = s.base := base_of_anchor (anchor_restartInterval _ _)
@[simp] theorem base_startEcho (p : Port) (s : State) : (startEcho p s).base = s.base := base_of_anchor (anchor_startEcho _ _)
@[simp] theorem base_takeDelay (p : Port) (x : Nat) (s : State) : (takeDelay p x s).base = s.base := base_of_anchor (anchor_takeDelay _ _ _)
@[simp] theorem base_endExchange (w : Whole) (s : State) : (endExchange w s).base = s.base := base_of_anchor (anchor_endExchange _ _)
@[simp] theorem base_answerReceived (w : Whole) (s : State) : (answerReceived w s).base = s.base := base_of_anchor (anchor_answerReceived _ _)
@[simp] theorem base_echoTimesOut (p : Port) (s : State) : (echoTimesOut p s).base = s.base := base_of_anchor (anchor_echoTimesOut _ _)
@[simp] theorem base_echoLinkDown (p : Port) (s : State) : (echoLinkDown p s).base = s.base := base_of_anchor (anchor_echoLinkDown _ _)
@[simp] theorem base_echoLinkUp (p : Port) (s : State) : (echoLinkUp p s).base = s.base := base_of_anchor (anchor_echoLinkUp _ _)
@[simp] theorem base_echoRewritten (p : Port) (old : PortRec) (s : State) : (echoRewritten p old s).base = s.base := base_of_anchor (anchor_echoRewritten _ _ _)
@[simp] theorem base_clearStale (p : Port) (s : State) : (clearStale p s).base = s.base := base_of_anchor (anchor_clearStale _ _)
@[simp] theorem base_answerAsk (w : Whole) (s : State) : (answerAsk w s).base = s.base := base_of_anchor (anchor_answerAsk _ _)
@[simp] theorem base_handleAsk (w : Whole) (s : State) : (handleAsk w s).base = s.base := base_of_anchor (anchor_handleAsk _ _)
@[simp] theorem base_handleAnswer (w : Whole) (s : State) : (handleAnswer w s).base = s.base := base_of_anchor (anchor_handleAnswer _ _)
@[simp] theorem base_afterBeacon (w : Whole) (i p : Nat) (a : Int) (old : Option (Nat × SourceEntry)) (s : State) :
    (afterBeacon w i p a old s).base = s.base := by
  simp only [afterBeacon]
  (repeat' split) <;> first | rfl | simp

@[simp] theorem base_beaconIntoTable (w : Whole) (s : State) :
    (beaconIntoTable w s).base = s.base := by
  simp only [beaconIntoTable]
  (repeat' split) <;> first | rfl | simp

@[simp] theorem base_goStale (i : Nat) (s : State) : (goStale i s).base = s.base := base_of_anchor (anchor_goStale _ _)
@[simp] theorem base_afterBar (old : Option (Nat × SourceEntry)) (s : State) : (afterBar old s).base = s.base := base_of_anchor (anchor_afterBar _ _)
@[simp] theorem base_endBar (i : Nat) (e : SourceEntry) (s : State) : (endBar i e s).base = s.base := base_of_anchor (anchor_endBar _ _ _)
@[simp] theorem base_setBar (i : Nat) (e : SourceEntry) (seconds : Nat) (s : State) : (setBar i e seconds s).base = s.base := base_of_anchor (anchor_setBar _ _ _ _)
@[simp] theorem base_barEntry (i : Nat) (e : SourceEntry) (seconds : Nat) (s : State) : (barEntry i e seconds s).base = s.base := base_of_anchor (anchor_barEntry _ _ _ _)
@[simp] theorem base_barSelected (seconds : Nat) (s : State) : (barSelected seconds s).base = s.base := base_of_anchor (anchor_barSelected _ _)
@[simp] theorem base_transitBeacon (w : Whole) (p : Nat) (s : State) : (transitBeacon w p s).base = s.base := base_of_anchor (anchor_transitBeacon _ _ _)
@[simp] theorem base_beaconUnit (w : Whole) (p : Nat) (s : State) : (beaconUnit w p s).base = s.base := base_of_anchor (anchor_beaconUnit _ _ _)
@[simp] theorem base_handleBeacon (w : Whole) (s : State) :
    (handleBeacon w s).base = s.base := by
  simp only [handleBeacon]
  (repeat' split) <;> first | rfl | simp

@[simp] theorem base_recordEmission (l : Lane) (instant : SN) (e : Emission) (s : State) : (recordEmission l instant e s).base = s.base := base_of_anchor (anchor_recordEmission _ _ _ _)
@[simp] theorem base_originate (l : Lane) (instant : SN) (s : State) : (originate l instant s).base = s.base := base_of_anchor (anchor_originate _ _ _)
@[simp] theorem base_laneInstant (l : Lane) (old new : Date) (s : State) : (laneInstant l old new s).base = s.base := base_of_anchor (anchor_laneInstant _ _ _ _)
@[simp] theorem base_startReports (s : State) : (startReports s).base = s.base := base_of_anchor (anchor_startReports _)
@[simp] theorem base_nextSlot (s : State) : (nextSlot s).base = s.base := base_of_anchor (anchor_nextSlot _)
@[simp] theorem base_reportNotSent (i : Nat) (s : State) : (reportNotSent i s).base = s.base := base_of_anchor (anchor_reportNotSent _ _)
@[simp] theorem base_reportSent (i : Nat) (s : State) : (reportSent i s).base = s.base := base_of_anchor (anchor_reportSent _ _)
@[simp] theorem base_sendReport (i : Nat) (s : State) : (sendReport i s).base = s.base := base_of_anchor (anchor_sendReport _ _)
@[simp] theorem base_setSelfDrift (v : Verdict) (s : State) : (setSelfDrift v s).base = s.base := base_of_anchor (anchor_setSelfDrift _ _)
@[simp] theorem base_clearSelfDrift (v : Verdict) (e : Episode) (s : State) : (clearSelfDrift v e s).base = s.base := base_of_anchor (anchor_clearSelfDrift _ _ _)
@[simp] theorem base_judgeSelf (s : State) : (judgeSelf s).base = s.base := base_of_anchor (anchor_judgeSelf _)
@[simp] theorem base_warnPeer (i : Nat) (vote : Vote) (s : State) : (warnPeer i vote s).base = s.base := base_of_anchor (anchor_warnPeer _ _ _)
@[simp] theorem base_unwarnPeer (i : Nat) (vote : Vote) (s : State) : (unwarnPeer i vote s).base = s.base := base_of_anchor (anchor_unwarnPeer _ _ _)
@[simp] theorem base_judgePeer (s : State) (i : Nat) : (judgePeer s i).base = s.base := base_of_anchor (anchor_judgePeer _ _)
@[simp] theorem base_judgeRack (s : State) : (judgeRack s).base = s.base := base_of_anchor (anchor_judgeRack _)
@[simp] theorem base_reportReceived (w : Whole) (s : State) : (reportReceived w s).base = s.base := base_of_anchor (anchor_reportReceived _ _)
@[simp] theorem base_setPeerCfg (i : Nat) (c : PeerCfg) (s : State) : (setPeerCfg i c s).base = s.base := base_of_anchor (anchor_setPeerCfg _ _ _)
@[simp] theorem base_writePeerAt (i : Nat) (c : PeerCfg) (s : State) : (writePeerAt i c s).base = s.base := base_of_anchor (anchor_writePeerAt _ _ _)
@[simp] theorem base_clearPeerAt (i : Nat) (s : State) : (clearPeerAt i s).base = s.base := base_of_anchor (anchor_clearPeerAt _ _)
@[simp] theorem base_applyDrift (p : DriftParams) (holdoff threshold : Nat) (s : State) : (applyDrift p holdoff threshold s).base = s.base := base_of_anchor (anchor_applyDrift _ _ _ _)
@[simp] theorem base_driftSoftReset (s : State) : (driftSoftReset s).base = s.base := base_of_anchor (anchor_driftSoftReset _)
@[simp] theorem base_freezeTrigger (t : Trigger) (s : State) : (freezeTrigger t s).base = s.base := base_of_anchor (anchor_freezeTrigger _ _)
@[simp] theorem base_releaseFreeze (s : State) : (releaseFreeze s).base = s.base := base_of_anchor (anchor_releaseFreeze _)
@[simp] theorem base_openMark (p : Port) (index : Nat) (e : MatchEntry) (ingress : Date) (s : State) :
    (openMark p index e ingress s).base = s.base := by
  simp only [openMark]
  (repeat' split) <;> first | rfl | simp

@[simp] theorem base_settleStamp (p : Port) (written : Bool) (s : State) : (settleStamp p written s).base = s.base := base_of_anchor (anchor_settleStamp _ _ _)
@[simp] theorem base_loseStamp (p : Port) (s : State) : (loseStamp p s).base = s.base := base_of_anchor (anchor_loseStamp _ _)
@[simp] theorem base_readyArriving (p : Port) (edit : Edit) (s : State) : (readyArriving p edit s).base = s.base := base_of_anchor (anchor_readyArriving _ _ _)
@[simp] theorem base_writeStampNow (p : Port) (c : DatingCtx) (bytes : List Byte) (s : State) : (writeStampNow p c bytes s).base = s.base := base_of_anchor (anchor_writeStampNow _ _ _ _)
@[simp] theorem base_closeMark (p : Port) (bytes : List Byte) (stop len : Nat) (badFcs : Bool) (s : State) : (closeMark p bytes stop len badFcs s).base = s.base := base_of_anchor (anchor_closeMark _ _ _ _ _ _)
@[simp] theorem base_cutMark (p : Port) (bytes : List Byte) (len : Nat) (s : State) : (cutMark p bytes len s).base = s.base := base_of_anchor (anchor_cutMark _ _ _ _)
@[simp] theorem base_setRx (p : Port) (r : Option Rx) (s : State) : (setRx p r s).base = s.base := base_of_anchor (anchor_setRx _ _ _)
@[simp] theorem base_forwardArriving (p : Port) (r : Rx) (ready : Bool) (s : State) : (forwardArriving p r ready s).1.base = s.base := base_of_anchor (anchor_forwardArriving _ _ _ _)
@[simp] theorem base_passFrame (p : Port) (r : Rx) (s : State) : (passFrame p r s).base = s.base := base_of_anchor (anchor_passFrame _ _ _)
@[simp] theorem base_settleArrived (p : Port) (bytes : List Byte) (s : State) : (settleArrived p bytes s).base = s.base := base_of_anchor (anchor_settleArrived _ _ _)
@[simp] theorem base_markFrame (p : Port) (r : Rx) (index : Nat) (e : MatchEntry) (s : State) :
    (markFrame p r index e s).base = s.base := by
  simp only [markFrame]
  (repeat' split) <;> first | rfl | simp

@[simp] theorem base_lookupFrame (p : Port) (r : Rx) (ended : Bool) (s : State) :
    (lookupFrame p r ended s).base = s.base := by
  simp only [lookupFrame]
  (repeat' split) <;> first | rfl | simp

@[simp] theorem base_growArriving (p : Port) (bytes : List Byte) (s : State) : (growArriving p bytes s).base = s.base := base_of_anchor (anchor_growArriving _ _ _)
@[simp] theorem base_overrun (p : Port) (r : Rx) (s : State) : (overrun p r s).base = s.base := base_of_anchor (anchor_overrun _ _ _)
@[simp] theorem base_malformedFrame (w : Whole) (s : State) : (malformedFrame w s).base = s.base := base_of_anchor (anchor_malformedFrame _ _)
@[simp] theorem base_dispatchL2 (w : Whole) (s : State) :
    (dispatchL2 w s).base = s.base := by
  simp only [dispatchL2]
  (repeat' split) <;> first | rfl | simp

@[simp] theorem base_acceptControl (w : Whole) (privilege : Privilege) (s : State) : (acceptControl w privilege s).base = s.base := base_of_anchor (anchor_acceptControl _ _ _)
@[simp] theorem base_dispatchUdp (w : Whole) (mgmt utx : Bool) (privilege : Privilege) (s : State) : (dispatchUdp w mgmt utx privilege s).base = s.base := base_of_anchor (anchor_dispatchUdp _ _ _ _ _)
@[simp] theorem base_endForwarded (p : Port) (r : Rx) (inLane : Bool) (s : State) : (endForwarded p r inLane s).base = s.base := base_of_anchor (anchor_endForwarded _ _ _ _)
@[simp] theorem base_endFrame (p : Port) (r : Rx) (s : State) :
    (endFrame p r s).base = s.base := by
  simp only [endFrame]
  (repeat' split) <;> first | rfl | simp

@[simp] theorem base_receiveEnd (p : Port) (r : Rx) (s : State) :
    (receiveEnd p r s).base = s.base := by
  simp only [receiveEnd]
  (repeat' split) <;> first | rfl | simp

@[simp] theorem base_oversizeArrives (p : Port) (more : List Byte) (s : State) :
    (oversizeArrives p more s).base = s.base := by
  simp only [oversizeArrives]
  (repeat' split) <;> first | rfl | simp

@[simp] theorem base_applyFull (c : Settings) (bank : Vector MatchEntry 64) (source : LoadSource) (version : Nat) (s : State) : (applyFull c bank source version s).base = s.base := base_of_anchor (anchor_applyFull _ _ _ _ _)
@[simp] theorem base_applyReload (c : Settings) (bank : Vector MatchEntry 64) (s : State) : (applyReload c bank s).base = s.base := base_of_anchor (anchor_applyReload _ _ _)
@[simp] theorem base_softResetNow (reload : Bool) (s : State) : (softResetNow reload s).base = s.base := base_of_anchor (anchor_softResetNow _ _)
@[simp] theorem base_raiseAgain (expired : Bool) (s : State) : (raiseAgain expired s).base = s.base := base_of_anchor (anchor_raiseAgain _ _)
@[simp] theorem base_completeSoft (expired : Bool) (s : State) : (completeSoft expired s).base = s.base := base_of_anchor (anchor_completeSoft _ _)
@[simp] theorem base_finishReload (first second : List Byte) (s : State) : (finishReload first second s).base = s.base := base_of_anchor (anchor_finishReload _ _ _)
@[simp] theorem base_loseReception (p : Port) (more : List Byte) (s : State) : (loseReception p more s).base = s.base := base_of_anchor (anchor_loseReception _ _ _)
@[simp] theorem base_flushEgress (p : Port) (s : State) : (flushEgress p s).base = s.base := base_of_anchor (anchor_flushEgress _ _)
@[simp] theorem base_linkBackUp (p : Port) (s : State) : (linkBackUp p s).base = s.base := base_of_anchor (anchor_linkBackUp _ _)
@[simp] theorem base_linkComesUp (p : Port) (s : State) : (linkComesUp p s).base = s.base := base_of_anchor (anchor_linkComesUp _ _)
@[simp] theorem base_finishSave (written readBack : List Byte) (s : State) : (finishSave written readBack s).base = s.base := base_of_anchor (anchor_finishSave _ _ _)
@[simp] theorem base_endMemoryTest (pass : Bool) (s : State) : (endMemoryTest pass s).base = s.base := base_of_anchor (anchor_endMemoryTest _ _)
@[simp] theorem base_removeRecords (k : Nat) (s : State) : (removeRecords k s).base = s.base := base_of_anchor (anchor_removeRecords _ _)
@[simp] theorem base_testLog (s : State) : (testLog s).1.base = s.base := base_of_anchor (anchor_testLog _)
@[simp] theorem base_writeMatch (index : Byte) (a : MatchArg) (s : State) : (writeMatch index a s).1.base = s.base := base_of_anchor (anchor_writeMatch _ _ _)
@[simp] theorem base_copyActive (s : State) : (copyActive s).1.base = s.base := base_of_anchor (anchor_copyActive _)
@[simp] theorem base_swapCommand (arg : Byte) (s : State) : (swapCommand arg s).1.base = s.base := base_of_anchor (anchor_swapCommand _ _)
@[simp] theorem base_writePort (a : PortArg) (s : State) : (writePort a s).1.base = s.base := base_of_anchor (anchor_writePort _ _)
@[simp] theorem base_writeLane (a : LaneArg) (s : State) : (writeLane a s).1.base = s.base := base_of_anchor (anchor_writeLane _ _)
@[simp] theorem base_writeOverride (a : OverrideArg) (s : State) : (writeOverride a s).1.base = s.base := base_of_anchor (anchor_writeOverride _ _)
@[simp] theorem base_writePeer (a : PeerArg) (s : State) : (writePeer a s).1.base = s.base := base_of_anchor (anchor_writePeer _ _)
@[simp] theorem base_clearPeer (index : Byte) (s : State) : (clearPeer index s).1.base = s.base := base_of_anchor (anchor_clearPeer _ _)
@[simp] theorem base_writeServo (a : ServoArg) (s : State) : (writeServo a s).1.base = s.base := base_of_anchor (anchor_writeServo _ _)
@[simp] theorem base_writeDrift (a : DriftArg) (s : State) : (writeDrift a s).1.base = s.base := base_of_anchor (anchor_writeDrift _ _)
@[simp] theorem base_applyResponse (k : FaultKind) (r : Response) (s : State) : (applyResponse k r s).base = s.base := base_of_anchor (anchor_applyResponse _ _ _)
@[simp] theorem base_writeFault (kind response : Byte) (s : State) : (writeFault kind response s).1.base = s.base := base_of_anchor (anchor_writeFault _ _ _)
@[simp] theorem base_clearPosition (mask : BitVec 32) (s : State) (k : FaultKind) : (clearPosition mask s k).base = s.base := base_of_anchor (anchor_clearPosition _ _ _)
@[simp] theorem base_clearFlags (mask : BitVec 32) (s : State) : (clearFlags mask s).1.base = s.base := base_of_anchor (anchor_clearFlags _ _)
@[simp] theorem base_barSource (index : Byte) (seconds : BitVec 16) (s : State) : (barSource index seconds s).1.base = s.base := base_of_anchor (anchor_barSource _ _ _)
@[simp] theorem base_saveSettings (s : State) : (saveSettings s).1.base = s.base := base_of_anchor (anchor_saveSettings _)
@[simp] theorem base_resetCommand (arg : Byte) (s : State) : (resetCommand arg s).1.base = s.base := base_of_anchor (anchor_resetCommand _ _)
/-- A reset of any kind keeps the queue of waiting commands. -/
@[simp] theorem pending_fullReset (s : State) : (fullReset s).pending = s.pending := (rfl)
@[simp] theorem pending_holdReset (s : State) : (holdReset s).pending = s.pending := (rfl)

@[simp] theorem pending_takeReset (k : ResetKind) (s : State) : (takeReset k s).pending = s.pending := by
  cases k
  · exact base_pending (by simp [takeReset])
  · exact base_pending (by simp [takeReset])
  · rfl

@[simp] theorem pending_takePendingReset (s : State) : (takePendingReset s).pending = s.pending := by
  simp only [takePendingReset]
  split <;> simp

@[simp] theorem pending_finishFrame (e : Exec) (s : State) : (finishFrame e s).pending = s.pending := by
  simp only [finishFrame]
  split
  · exact base_pending (by simp)
  · rw [pending_takePendingReset]; exact base_pending (by simp)

@[simp] theorem pending_advanceFrame (e : Exec) (s : State) : (advanceFrame e s).pending = s.pending := by
  simp only [advanceFrame]
  split
  · simp
  · rfl

@[simp] theorem pending_deliver (code : Nat) (out : State × Status × List Byte) :
    (deliver code out).pending = out.1.pending := by
  simp only [deliver, answerInFrame]
  split
  · simp
  · simp

@[simp] theorem pending_takeFrame (p : Port) (c : CtlFrame) (s : State) : (takeFrame p c s).pending = s.pending := by
  simp only [takeFrame, pending_advanceFrame]
  exact base_pending (by simp)

@[simp] theorem pending_linkGoesDown (p : Port) (more : List Byte) (s : State) :
    (linkGoesDown p more s).pending = s.pending := by
  simp only [linkGoesDown]
  split
  · rw [pending_takePendingReset]; exact base_pending (by (repeat' split) <;> simp)
  · exact base_pending (by (repeat' split) <;> simp)

theorem base_setRun (s : State) (r : RunState) : (s.setRun r).base = ⟨s.pending, r, s.clock.up⟩ := (rfl)

/-- The entry into RUNNING. -/
@[simp] theorem base_enterRunning (s : State) : (enterRunning s).base = ⟨s.pending, .running, s.clock.up⟩ := by
  simp [enterRunning, base_setRun]

@[simp] theorem base_finishLoad (first second : List Byte) (s : State) :
    (finishLoad first second s).base = ⟨s.pending, .running, s.clock.up⟩ := by
  have h (c : Settings) (bank : Vector MatchEntry 64) (source : LoadSource) (version : Nat) :=
    base_applyFull c bank source version s
  simp only [finishLoad]
  split <;> simp [base_pending (h _ _ _ _), base_up (h _ _ _ _)]

theorem base_tick (s : State) (d : Date) (u : Nat) :
    (s.setClock { s.clock with date := d, up := u }).base = ⟨s.pending, s.run, u⟩ := (rfl)

/-- One oscillator period counts one into the uptime. -/
@[simp] theorem base_periodTo (moved : Date × Bool) (second : Bool) (s : State) :
    (periodTo moved second s).base = ⟨s.pending, s.run, s.clock.up + 1⟩ := by
  simp only [periodTo, base_laneInstant]
  (repeat' split) <;> simp [base_tick]

@[simp] theorem base_clockPeriod (s : State) : (clockPeriod s).base = ⟨s.pending, s.run, s.clock.up + 1⟩ := by
  simp [clockPeriod]

end Sys2Proof.Machine
end

