-- ==== Sys2Proof/Laws/Queues.lean ====
section
/-! SUPPORT. Every shared operation keeps the queues of the ports within their capacities (R121). -/

namespace Sys2Proof.Machine

/-- Every port's queues within their capacities. -/
def Queued (s : State) : Prop := ∀ p, QueuesOk (s.port p)

theorem Queued.of {s t : State} (h : Queued s) (hp : t.ports = s.ports) : Queued t := fun p => by
  simp only [State.port, hp]; exact h p

theorem port_setPort (s : State) (p q : Port) (u : PortUnit) :
    (s.setPort p u).port q = if p = q then u else s.port q := by
  cases p <;> cases q <;> rfl
/-- A port replaced by one whose queues are within their capacities. -/
theorem q_setPort (s : State) (p : Port) (u : PortUnit) (hu : QueuesOk u) (h : Queued s) :
    Queued (s.setPort p u) := by
  intro q
  rw [port_setPort]
  split
  · exact hu
  · exact h q
/-- What a queue holds depends on the queues and the leaving frame's store only. -/
theorem QueuesOk.same {u v : PortUnit} (h : QueuesOk u) (h1 : v.timing = u.timing) (h2 : v.general = u.general)
    (h3 : v.tx.map (fun t => t.origin) = u.tx.map (fun t => t.origin)) :
    QueuesOk v := by
  have hl : ∀ o, leavingFrom v o = leavingFrom u o := by
    intro o
    simp only [leavingFrom]
    cases hv : v.tx <;> cases hu : u.tx <;> simp_all
  exact ⟨by simp only [timingHeld, h1, hl]; exact h.timing, by simp only [generalHeld, h2, hl]; exact h.general⟩

theorem q_same (s : State) (p : Port) (u : PortUnit) (h1 : u.timing = (s.port p).timing) (h2 : u.general =
    (s.port p).general) (h3 : u.tx.map (fun t => t.origin) = (s.port p).tx.map (fun t => t.origin)) (h : Queued s) :
    Queued (s.setPort p u) :=
  q_setPort s p u ((h p).same h1 h2 h3) h

theorem onArriving_origin (f : FwdFrame → FwdFrame) (u : PortUnit) :
    (onArriving f u).tx.map (fun t => t.origin) = u.tx.map (fun t => t.origin) := by
  simp only [onArriving, Option.map_map]
  congr 1
  funext t
  simp only [Function.comp]
  (repeat' split) <;> rfl

theorem q_count (s : State) (p : Port) (f : Stats → Stats) (h : Queued s) :
    Queued (s.count p f) := q_same s p _ rfl rfl rfl h

theorem q_setRx (p : Port) (r : Option Rx) (s : State) (h : Queued s) :
    Queued (setRx p r s) := q_same s p _ rfl rfl rfl h

theorem q_foldl {α : Type} (f : State → α → State) (hf : ∀ t a, Queued t → Queued (f t a)) (s : State)
    (l : List α) (h : Queued s) : Queued (l.foldl f s) := by
  induction l generalizing s with
  | nil => exact h
  | cons a rest ih => exact ih _ (hf _ _ h)

theorem q_admitFrame (p : Port) (n : Nat) (f : FwdFrame) (s : State) (h : Queued s) :
    Queued (admitFrame p n f s).1 := by
  simp only [admitFrame]
  split
  · exact q_same s p _ rfl rfl rfl h
  · exact q_count _ _ _ h

theorem q_offerTiming (p : Port) (tag : OrigTag) (n : Nat) (b : List Byte) (s : State) (h : Queued s) :
    Queued (offerTiming p tag n b s).1 := by
  simp only [offerTiming]
  split
  · rename_i hc
    have hc := of_decide_eq_true (Bool.and_eq_true_iff.mp hc).2; simp only [Config.timingCap, timingHeld] at hc
    refine q_setPort s p _ ⟨?_, (h p).general⟩ h
    simp only [timingHeld, List.length_append, List.length_singleton, leavingFrom] at hc ⊢
    omega
  · exact q_count _ _ _ h

theorem q_offerGeneral (p : Port) (tag : OrigTag) (n : Nat) (b : List Byte) (s : State) (h : Queued s) :
    Queued (offerGeneral p tag n b s).1 := by
  simp only [offerGeneral]
  split
  · rename_i hc
    have hc := of_decide_eq_true (Bool.and_eq_true_iff.mp hc).2; simp only [Config.generalCap, generalHeld] at hc
    refine q_setPort s p _ ⟨(h p).timing, ?_⟩ h
    simp only [generalHeld, List.length_append, List.length_singleton, leavingFrom] at hc ⊢
    omega
  · exact q_count _ _ _ h

theorem q_recordEgress (p : Port) (tag : OrigTag) (s : State) (h : Queued s) : Queued (recordEgress p tag s) := by
  refine h.of ?_
  simp only [recordEgress, askPassesEgress, reportPassesEgress]
  (repeat' split) <;> rfl

theorem q_arbitrate (p : Port) (s : State) (h : Queued s) : Queued (arbitrate p s) := by
  simp only [arbitrate]
  split
  · exact h
  · rename_i hn
    have hx : (s.port p).tx = none := by
      cases ht : (s.port p).tx with
      | none => rfl
      | some t => simp [ht] at hn
    have hp := h p
    have h1 := hp.timing
    have h2 := hp.general
    simp only [timingHeld, generalHeld, leavingFrom, hx] at h1 h2
    split
    · rename_i q rest hg
      have ht : (s.port p).timing = q :: rest := by
        simp only [chooseGrant] at hg
        split at hg
        · injection hg with a b; subst a; subst b; assumption
        · (repeat' split at hg) <;> cases hg
      simp only [grantQueued]
      apply q_recordEgress
      refine q_setPort _ p _ ?_ (q_setPort s p _ ?_ h)
      · simp only [port_setPort, if_true]
        constructor
        · simp [timingHeld, leavingFrom]; simp [ht] at h1; omega
        · simp [generalHeld, leavingFrom]; omega
      · constructor
        · simp [timingHeld, leavingFrom, hx]; simp [ht] at h1; omega
        · simp [generalHeld, leavingFrom, hx]; omega
    · rename_i q rest hg
      have ht : (s.port p).general = q :: rest ∧ (s.port p).timing = [] := by
        simp only [chooseGrant] at hg
        split at hg
        · cases hg
        · (repeat' split at hg) <;> first | (injection hg with a b; subst a; subst b; exact ⟨by assumption, by assumption⟩) | cases hg
      simp only [grantQueued]
      apply q_recordEgress
      refine q_setPort _ p _ ?_ (q_setPort s p _ ?_ h)
      · simp only [port_setPort, if_true]
        constructor
        · simp [timingHeld, leavingFrom]; omega
        · simp [generalHeld, leavingFrom]; simp [ht.1] at h2; omega
      · constructor
        · simp [timingHeld, leavingFrom, hx]; omega
        · simp [generalHeld, leavingFrom, hx]; simp [ht.1] at h2; omega
    · rename_i q rest hg
      simp only [grantForwarded]
      refine q_setPort _ p _ ?_ (q_setPort s p _ ?_ h)
      · simp only [port_setPort, if_true]
        constructor
        · simp [timingHeld, leavingFrom]; omega
        · simp [generalHeld, leavingFrom]; omega
      · constructor
        · simp [timingHeld, leavingFrom, hx]; omega
        · simp [generalHeld, leavingFrom, hx]; omega
    · exact h

theorem q_finishTx (p : Port) (t : Tx) (s : State) (h : Queued s) : Queued (finishTx p t s) := by
  simp only [finishTx]
  refine q_setPort s p _ ?_ h
  have h1 := (h p).timing
  have h2 := (h p).general
  simp only [timingHeld, generalHeld] at h1 h2
  exact ⟨by simp [timingHeld, leavingFrom]; omega, by simp [generalHeld, leavingFrom]; omega⟩

theorem q_empty (u : PortUnit) (h1 : u.timing = []) (h2 : u.general = []) : QueuesOk u := by
  have hl : ∀ o, leavingFrom u o ≤ 1 := by intro o; simp only [leavingFrom]; (repeat' split) <;> omega
  exact ⟨by have := hl .timing; simp [timingHeld, h1]; omega, by have := hl .general; simp [generalHeld, h2]; omega⟩

theorem q_setPorts (s : State) (v : Quad PortUnit) (hv : ∀ p, QueuesOk (v.get p)) : Queued (s.setPorts v) := hv

theorem q_mapPorts (s : State) (f : PortUnit → PortUnit) (hf : ∀ u, QueuesOk u → QueuesOk (f u)) (h : Queued s) :
    Queued (s.setPorts (s.ports.map f)) := by
  intro p
  have := hf _ (h p)
  cases p <;> exact this

theorem q_arriving (s : State) (p : Port) (f : FwdFrame → FwdFrame) (h : Queued s) :
    Queued (s.setPort p (onArriving f (s.port p))) :=
  q_same s p _ rfl rfl (onArriving_origin _ _) h

theorem q_setCfg (s : State) (v : Settings) (h : Queued s) : Queued (s.setCfg v) := h.of rfl

theorem q_setEchos (s : State) (v : Pair Echo) (h : Queued s) : Queued (s.setEchos v) := h.of rfl

theorem q_setLanes (s : State) (v : Pair LaneUnit) (h : Queued s) : Queued (s.setLanes v) := h.of rfl

theorem q_setServo (s : State) (v : Servo) (h : Queued s) : Queued (s.setServo v) := h.of rfl

theorem q_setMatchTab (s : State) (v : MatchTable) (h : Queued s) : Queued (s.setMatchTab v) := h.of rfl

theorem q_setLog (s : State) (v : EventLog) (h : Queued s) : Queued (s.setLog v) := h.of rfl

theorem q_setFrozen (s : State) (v : Option Frozen) (h : Queued s) : Queued (s.setFrozen v) := h.of rfl

theorem q_setDrift (s : State) (v : DriftMonitor) (h : Queued s) : Queued (s.setDrift v) := h.of rfl

theorem q_setFaults (s : State) (v : FaultUnit) (h : Queued s) : Queued (s.setFaults v) := h.of rfl

theorem q_setAgent (s : State) (v : Agent) (h : Queued s) : Queued (s.setAgent v) := h.of rfl

theorem q_setClock (s : State) (v : Clock) (h : Queued s) : Queued (s.setClock v) := h.of rfl

theorem q_setRun (s : State) (v : RunState) (h : Queued s) : Queued (s.setRun v) := h.of rfl

theorem q_setSources (s : State) (v : Vector (Option SourceEntry) 8) (h : Queued s) :
    Queued (s.setSources v) := h.of rfl

theorem q_setSource (s : State) (i : Nat) (v : Option SourceEntry) (h : Queued s) :
    Queued (s.setSource i v) := h.of rfl

theorem q_setPeer (s : State) (i : Nat) (v : PeerDyn) (h : Queued s) : Queued (s.setPeer i v) := h.of rfl

theorem q_setForm (s : State) (i : AlertForm) (v : FormState) (h : Queued s) : Queued (s.setForm i v) := h.of rfl

theorem q_setFault (s : State) (i : FaultKind) (v : FaultRec) (h : Queued s) : Queued (s.setFault i v) := h.of rfl

theorem q_setEcho (s : State) (p : Port) (v : Echo) (h : Queued s) : Queued (s.setEcho p v) := h.of rfl

theorem q_setLane (s : State) (p : Lane) (v : LaneUnit) (h : Queued s) : Queued (s.setLane p v) := h.of rfl

theorem q_watchSecond (s : State) (h : Queued s) : Queued (watchSecond s) := h.of (ports_watchSecond _)

theorem q_judgePulse (d : Option Nat) (s : State) (h : Queued s) : Queued (judgePulse d s) := h.of (ports_judgePulse _ _)

theorem q_askPassesEgress (p : Port) (id : Nat) (s : State) (h : Queued s) : Queued (askPassesEgress p id s) :=
  h.of (ports_askPassesEgress _ _ _)

theorem q_reportPassesEgress (i : Nat) (rack ip : BitVec 32) (s : State) (h : Queued s) :
    Queued (reportPassesEgress i rack ip s) :=
  h.of (ports_reportPassesEgress _ _ _ _)

theorem q_suppressAlert (a : AlertForm) (s : State) (h : Queued s) : Queued (suppressAlert a s) :=
  h.of (ports_suppressAlert _ _)

theorem q_alertEvent (a : AlertForm) (clear : Bool) (subject : Subject) (d : AlertData) (s : State) (h : Queued s) :
    Queued (alertEvent a clear subject d s) := by
  simp only [alertEvent]
  (repeat' split) <;> (repeat' first
      | with_reducible assumption | with_reducible apply q_offerGeneral | with_reducible apply q_arbitrate
      | with_reducible apply q_suppressAlert | with_reducible apply q_setForm | (refine q_arriving _ _ _ ?_)
      | (refine q_same _ _ _ ?_ ?_ ?_ ?_) | with_reducible rfl | (simp only [port_setPort, if_true]; done) | simp)

theorem q_levelNotice (s : State) (h : Queued s) :
    Queued (levelNotice s) := by
  simp only [levelNotice]
  (repeat' split) <;> (repeat' first
      | with_reducible assumption | with_reducible apply q_alertEvent | with_reducible apply q_setLog
      | (refine q_arriving _ _ _ ?_) | (refine q_same _ _ _ ?_ ?_ ?_ ?_) | with_reducible rfl
      | (simp only [port_setPort, if_true]; done) | simp)

theorem q_offerBare (o : Offer) (s : State) (h : Queued s) :
    Queued (offerBare o s).1 := by
  simp only [offerBare]
  (repeat' split) <;> (repeat' first
      | with_reducible assumption | with_reducible apply q_levelNotice | with_reducible apply q_setLog
      | (refine q_arriving _ _ _ ?_) | (refine q_same _ _ _ ?_ ?_ ?_ ?_) | with_reducible rfl
      | (simp only [port_setPort, if_true]; done) | simp)

theorem q_activate (k : FaultKind) (subject : Subject) (s : State) (h : Queued s) :
    Queued (activate k subject s) := by
  simp only [activate]
  (repeat' split) <;> (repeat' first
      | with_reducible assumption | with_reducible apply q_setFault | with_reducible apply q_count
      | (refine q_arriving _ _ _ ?_) | (refine q_same _ _ _ ?_ ?_ ?_ ?_) | with_reducible rfl
      | (simp only [port_setPort, if_true]; done) | simp)

theorem q_countRaise (k : FaultKind) (s : State) (h : Queued s) :
    Queued (countRaise k s) := by
  simp only [countRaise]
  (repeat' split) <;> (repeat' first
      | with_reducible assumption | with_reducible apply q_setFault | with_reducible apply q_count
      | (refine q_arriving _ _ _ ?_) | (refine q_same _ _ _ ?_ ?_ ?_ ?_) | with_reducible rfl
      | (simp only [port_setPort, if_true]; done) | simp)

theorem q_deactivate (k : FaultKind) (s : State) (h : Queued s) : Queued (deactivate k s) :=
  h.of (ports_deactivate _ _)

theorem q_faultAlert (k : FaultKind) (clear : Bool) (subject : Subject) (d : AlertData) (s : State) (h : Queued s) :
    Queued (faultAlert k clear subject d s) := by
  simp only [faultAlert]
  (repeat' split) <;> (repeat' first
      | with_reducible assumption | with_reducible apply q_alertEvent | (refine q_arriving _ _ _ ?_)
      | (refine q_same _ _ _ ?_ ?_ ?_ ?_) | with_reducible rfl | (simp only [port_setPort, if_true]; done) | simp)

theorem q_raiseLogFull (s : State) (h : Queued s) :
    Queued (raiseLogFull s) := by
  simp only [raiseLogFull]
  (repeat' split) <;> (repeat' first
      | with_reducible assumption | with_reducible apply q_watchSecond | with_reducible apply q_offerBare
      | with_reducible apply q_activate | with_reducible apply q_countRaise | with_reducible apply q_faultAlert
      | (refine q_arriving _ _ _ ?_) | (refine q_same _ _ _ ?_ ?_ ?_ ?_) | with_reducible rfl
      | (simp only [port_setPort, if_true]; done) | simp)

theorem q_clearLogFull (s : State) (h : Queued s) :
    Queued (clearLogFull s) := by
  simp only [clearLogFull]
  (repeat' split) <;> (repeat' first
      | with_reducible assumption | with_reducible apply q_offerBare | with_reducible apply q_deactivate
      | with_reducible apply q_faultAlert | with_reducible apply q_raiseLogFull | (refine q_arriving _ _ _ ?_)
      | (refine q_same _ _ _ ?_ ?_ ?_ ?_) | with_reducible rfl | (simp only [port_setPort, if_true]; done) | simp)

theorem q_offerRecord (o : Offer) (s : State) (h : Queued s) :
    Queued (offerRecord o s) := by
  simp only [offerRecord]
  (repeat' split) <;> (repeat' first
      | with_reducible assumption | with_reducible apply q_offerBare | with_reducible apply q_raiseLogFull
      | with_reducible apply q_clearLogFull | (refine q_arriving _ _ _ ?_) | (refine q_same _ _ _ ?_ ?_ ?_ ?_)
      | with_reducible rfl | (simp only [port_setPort, if_true]; done) | simp)

theorem q_raiseLogFullAgain (s : State) (h : Queued s) :
    Queued (raiseLogFullAgain s) := by
  simp only [raiseLogFullAgain]
  (repeat' split) <;> (repeat' first
      | with_reducible assumption | with_reducible apply q_watchSecond | with_reducible apply q_offerBare
      | with_reducible apply q_activate | with_reducible apply q_countRaise | with_reducible apply q_faultAlert
      | with_reducible apply q_clearLogFull | (refine q_arriving _ _ _ ?_) | (refine q_same _ _ _ ?_ ?_ ?_ ?_)
      | with_reducible rfl | (simp only [port_setPort, if_true]; done) | simp)

theorem q_raiseFault (k : FaultKind) (subject : Subject) (record : Bool) (d : AlertData) (s : State) (h : Queued s) :
    Queued (raiseFault k subject record d s) := by
  simp only [raiseFault]
  (repeat' split) <;> (repeat' first
      | with_reducible assumption | with_reducible apply q_watchSecond | with_reducible apply q_activate
      | with_reducible apply q_countRaise | with_reducible apply q_faultAlert | with_reducible apply q_offerRecord
      | (refine q_arriving _ _ _ ?_) | (refine q_same _ _ _ ?_ ?_ ?_ ?_) | with_reducible rfl
      | (simp only [port_setPort, if_true]; done) | simp)

theorem q_clearFault (k : FaultKind) (subject : Subject) (record : Bool) (d : AlertData) (s : State) (h : Queued s) :
    Queued (clearFault k subject record d s) := by
  simp only [clearFault]
  (repeat' split) <;> (repeat' first
      | with_reducible assumption | with_reducible apply q_deactivate | with_reducible apply q_faultAlert
      | with_reducible apply q_offerRecord | (refine q_arriving _ _ _ ?_) | (refine q_same _ _ _ ?_ ?_ ?_ ?_)
      | with_reducible rfl | (simp only [port_setPort, if_true]; done) | simp)

theorem q_handRate (r : Int) (s : State) (h : Queued s) : Queued (handRate r s) := h.of (ports_handRate _ _)

theorem q_setServoState (st : ServoState) (s : State) (h : Queued s) : Queued (setServoState st s) :=
  h.of (ports_setServoState _ _)

theorem q_offerState (old : ServoState) (s : State) (h : Queued s) :
    Queued (offerState old s) := by
  simp only [offerState]
  (repeat' split) <;> (repeat' first
      | with_reducible assumption | with_reducible apply q_offerRecord | (refine q_arriving _ _ _ ?_)
      | (refine q_same _ _ _ ?_ ?_ ?_ ?_) | with_reducible rfl | (simp only [port_setPort, if_true]; done) | simp)

theorem q_servoFollows (s : State) (h : Queued s) : Queued (servoFollows s) := h.of (ports_servoFollows _)

theorem q_servoSwitches (s : State) (h : Queued s) : Queued (servoSwitches s) := h.of (ports_servoSwitches _)

theorem q_servoHolds (s : State) (h : Queued s) : Queued (servoHolds s) := h.of (ports_servoHolds _)

theorem q_setSourceState (i : Nat) (st : SourceState) (s : State) (h : Queued s) : Queued (setSourceState i st s) :=
  h.of (ports_setSourceState _ _ _)

theorem q_unselect (i : Nat) (s : State) (h : Queued s) : Queued (unselect i s) := h.of (ports_unselect _ _)

theorem q_clearHoldoverExpired (s : State) (h : Queued s) :
    Queued (clearHoldoverExpired s) := by
  simp only [clearHoldoverExpired]
  (repeat' split) <;> (repeat' first
      | with_reducible assumption | with_reducible apply q_clearFault | (refine q_arriving _ _ _ ?_)
      | (refine q_same _ _ _ ?_ ?_ ?_ ?_) | with_reducible rfl | (simp only [port_setPort, if_true]; done) | simp)

theorem q_offerStateIfChanged (before : ServoState) (s : State) (h : Queued s) :
    Queued (offerStateIfChanged before s) := by
  simp only [offerStateIfChanged]
  (repeat' split) <;> (repeat' first
      | with_reducible assumption | with_reducible apply q_offerState | (refine q_arriving _ _ _ ?_)
      | (refine q_same _ _ _ ?_ ?_ ?_ ?_) | with_reducible rfl | (simp only [port_setPort, if_true]; done) | simp)

theorem q_select (old : Option (Nat × SourceEntry)) (new : Nat × SourceEntry) (reason : Reason) (sampled : Bool) (s : State) (h : Queued s) :
    Queued (select old new reason sampled s) := by
  simp only [select]
  (repeat' split) <;> (repeat' first
      | with_reducible assumption | with_reducible apply q_offerRecord | with_reducible apply q_clearFault
      | with_reducible apply q_servoFollows | with_reducible apply q_servoSwitches
      | with_reducible apply q_setSourceState | with_reducible apply q_unselect
      | with_reducible apply q_clearHoldoverExpired | with_reducible apply q_offerStateIfChanged
      | (refine q_arriving _ _ _ ?_) | (refine q_same _ _ _ ?_ ?_ ?_ ?_) | with_reducible rfl
      | (simp only [port_setPort, if_true]; done) | simp)

theorem q_endSelection (old : Nat × SourceEntry) (reason : Reason) (s : State) (h : Queued s) :
    Queued (endSelection old reason s) := by
  simp only [endSelection]
  (repeat' split) <;> (repeat' first
      | with_reducible assumption | with_reducible apply q_offerRecord | with_reducible apply q_raiseFault
      | with_reducible apply q_servoHolds | with_reducible apply q_unselect
      | with_reducible apply q_offerStateIfChanged | (refine q_arriving _ _ _ ?_)
      | (refine q_same _ _ _ ?_ ?_ ?_ ?_) | with_reducible rfl | (simp only [port_setPort, if_true]; done) | simp)

theorem q_reevaluate (old : Option (Nat × SourceEntry)) (why : Reason) (own : Option Nat) (s : State) (h : Queued s) :
    Queued (reevaluate old why own s) := by
  simp only [reevaluate]
  (repeat' split) <;> (repeat' first
      | with_reducible assumption | with_reducible apply q_select | with_reducible apply q_endSelection
      | (refine q_arriving _ _ _ ?_) | (refine q_same _ _ _ ?_ ?_ ?_ ?_) | with_reducible rfl
      | (simp only [port_setPort, if_true]; done) | simp)

theorem q_reevaluateOnHold (before : Bool) (s : State) (h : Queued s) :
    Queued (reevaluateOnHold before s) := by
  simp only [reevaluateOnHold]
  (repeat' split) <;> (repeat' first
      | with_reducible assumption | with_reducible apply q_reevaluate | (refine q_arriving _ _ _ ?_)
      | (refine q_same _ _ _ ?_ ?_ ?_ ?_) | with_reducible rfl | (simp only [port_setPort, if_true]; done) | simp)

theorem q_raiseWithHold (k : FaultKind) (subject : Subject) (record : Bool) (d : AlertData) (s : State) (h : Queued s) :
    Queued (raiseWithHold k subject record d s) := by
  simp only [raiseWithHold]
  (repeat' split) <;> (repeat' first
      | with_reducible assumption | with_reducible apply q_raiseFault | with_reducible apply q_reevaluateOnHold
      | (refine q_arriving _ _ _ ?_) | (refine q_same _ _ _ ?_ ?_ ?_ ?_) | with_reducible rfl
      | (simp only [port_setPort, if_true]; done) | simp)

theorem q_clearWithHold (k : FaultKind) (subject : Subject) (record : Bool) (d : AlertData) (s : State) (h : Queued s) :
    Queued (clearWithHold k subject record d s) := by
  simp only [clearWithHold]
  (repeat' split) <;> (repeat' first
      | with_reducible assumption | with_reducible apply q_clearFault | with_reducible apply q_reevaluateOnHold
      | (refine q_arriving _ _ _ ?_) | (refine q_same _ _ _ ?_ ?_ ?_ ?_) | with_reducible rfl
      | (simp only [port_setPort, if_true]; done) | simp)

theorem q_secondPulse (s : State) (h : Queued s) : Queued (secondPulse s) := h.of (ports_secondPulse _)

theorem q_performSwap (s : State) (h : Queued s) : Queued (performSwap s) := h.of (ports_performSwap _)

theorem q_armedSwap (s : State) (h : Queued s) : Queued (armedSwap s) := h.of (ports_armedSwap _)

theorem q_secondBoundary (s : State) (h : Queued s) : Queued (secondBoundary s) := h.of (ports_secondBoundary _)

theorem q_stepTo (moved : Date × Bool) (s : State) (h : Queued s) : Queued (stepTo moved s) := h.of (ports_stepTo _ _)

theorem q_forwardStep (amount : Nat) (s : State) (h : Queued s) : Queued (forwardStep amount s) :=
  h.of (ports_forwardStep _ _)

theorem q_load (d : Date) (s : State) (h : Queued s) : Queued (load d s) := h.of (ports_load _ _)

theorem q_uptimeSecond (s : State) (h : Queued s) : Queued (uptimeSecond s) := h.of (ports_uptimeSecond _)

theorem q_rememberStamp (d : SN) (s : State) (h : Queued s) : Queued (rememberStamp d s) :=
  h.of (ports_rememberStamp _ _)

theorem q_leaveLocked (s : State) (h : Queued s) :
    Queued (leaveLocked s) := by
  simp only [leaveLocked]
  (repeat' split) <;> (repeat' first
      | with_reducible assumption | with_reducible apply q_setServoState | with_reducible apply q_offerState
      | with_reducible apply q_setServo | (refine q_arriving _ _ _ ?_) | (refine q_same _ _ _ ?_ ?_ ?_ ?_)
      | with_reducible rfl | (simp only [port_setPort, if_true]; done) | simp)

theorem q_afterStep (amount : Nat) (s : State) (h : Queued s) :
    Queued (afterStep amount s) := by
  simp only [afterStep]
  (repeat' split) <;> (repeat' first
      | with_reducible assumption | with_reducible apply q_offerRecord | with_reducible apply q_leaveLocked
      | with_reducible apply q_setServo | (refine q_arriving _ _ _ ?_) | (refine q_same _ _ _ ?_ ?_ ?_ ?_)
      | with_reducible rfl | (simp only [port_setPort, if_true]; done) | simp)

theorem q_servoStep (amount : Nat) (s : State) (h : Queued s) :
    Queued (servoStep amount s) := by
  simp only [servoStep]
  (repeat' split) <;> (repeat' first
      | with_reducible assumption | with_reducible apply q_forwardStep | with_reducible apply q_afterStep
      | (refine q_arriving _ _ _ ?_) | (refine q_same _ _ _ ?_ ?_ ?_ ?_) | with_reducible rfl
      | (simp only [port_setPort, if_true]; done) | simp)

theorem q_startCatchDown (s : State) (h : Queued s) :
    Queued (startCatchDown s) := by
  simp only [startCatchDown]
  (repeat' split) <;> (repeat' first
      | with_reducible assumption | with_reducible apply q_handRate | with_reducible apply q_leaveLocked
      | with_reducible apply q_setServo | (refine q_arriving _ _ _ ?_) | (refine q_same _ _ _ ?_ ?_ ?_ ?_)
      | with_reducible rfl | (simp only [port_setPort, if_true]; done) | simp)

theorem q_filterUpdate (theta k : Int) (s : State) (h : Queued s) :
    Queued (filterUpdate theta k s) := by
  simp only [filterUpdate]
  (repeat' split) <;> (repeat' first
      | with_reducible assumption | with_reducible apply q_handRate | with_reducible apply q_raiseWithHold
      | with_reducible apply q_setServo | (refine q_arriving _ _ _ ?_) | (refine q_same _ _ _ ?_ ?_ ?_ ?_)
      | with_reducible rfl | (simp only [port_setPort, if_true]; done) | simp)

theorem q_lockCounting (theta : Int) (s : State) (h : Queued s) :
    Queued (lockCounting theta s) := by
  simp only [lockCounting]
  (repeat' split) <;> (repeat' first
      | with_reducible assumption | with_reducible apply q_setServoState | with_reducible apply q_offerState
      | with_reducible apply q_leaveLocked | with_reducible apply q_setServo | (refine q_arriving _ _ _ ?_)
      | (refine q_same _ _ _ ?_ ?_ ?_ ?_) | with_reducible rfl | (simp only [port_setPort, if_true]; done) | simp)

theorem q_sampleInUnset (x : ServoSample) (s : State) (h : Queued s) :
    Queued (sampleInUnset x s) := by
  simp only [sampleInUnset]
  (repeat' split) <;> (repeat' first
      | with_reducible assumption | with_reducible apply q_setServoState | with_reducible apply q_offerState
      | with_reducible apply q_load | with_reducible apply q_setServo | (refine q_arriving _ _ _ ?_)
      | (refine q_same _ _ _ ?_ ?_ ?_ ?_) | with_reducible rfl | (simp only [port_setPort, if_true]; done) | simp)

theorem q_filterAndLock (x : ServoSample) (s : State) (h : Queued s) :
    Queued (filterAndLock x s) := by
  simp only [filterAndLock]
  (repeat' split) <;> (repeat' first
      | with_reducible assumption | with_reducible apply q_filterUpdate | with_reducible apply q_lockCounting
      | (refine q_arriving _ _ _ ?_) | (refine q_same _ _ _ ?_ ?_ ?_ ?_) | with_reducible rfl
      | (simp only [port_setPort, if_true]; done) | simp)

theorem q_sampleInCatchDown (x : ServoSample) (s : State) (h : Queued s) :
    Queued (sampleInCatchDown x s) := by
  simp only [sampleInCatchDown]
  (repeat' split) <;> (repeat' first
      | with_reducible assumption | with_reducible apply q_handRate | with_reducible apply q_servoStep
      | with_reducible apply q_filterAndLock | with_reducible apply q_setServo | (refine q_arriving _ _ _ ?_)
      | (refine q_same _ _ _ ?_ ?_ ?_ ?_) | with_reducible rfl | (simp only [port_setPort, if_true]; done) | simp)

theorem q_sampleOutside (x : ServoSample) (s : State) (h : Queued s) :
    Queued (sampleOutside x s) := by
  simp only [sampleOutside]
  (repeat' split) <;> (repeat' first
      | with_reducible assumption | with_reducible apply q_servoStep | with_reducible apply q_startCatchDown
      | with_reducible apply q_filterAndLock | (refine q_arriving _ _ _ ?_) | (refine q_same _ _ _ ?_ ?_ ?_ ?_)
      | with_reducible rfl | (simp only [port_setPort, if_true]; done) | simp)

theorem q_sampleInFollow (x : ServoSample) (s : State) (h : Queued s) :
    Queued (sampleInFollow x s) := by
  simp only [sampleInFollow]
  (repeat' split) <;> (repeat' first
      | with_reducible assumption | with_reducible apply q_sampleInCatchDown
      | with_reducible apply q_sampleOutside | with_reducible apply q_setServo | (refine q_arriving _ _ _ ?_)
      | (refine q_same _ _ _ ?_ ?_ ?_ ?_) | with_reducible rfl | (simp only [port_setPort, if_true]; done) | simp)

theorem q_takeSample (x : ServoSample) (s : State) (h : Queued s) :
    Queued (takeSample x s) := by
  simp only [takeSample]
  (repeat' split) <;> (repeat' first
      | with_reducible assumption | with_reducible apply q_sampleInUnset | with_reducible apply q_sampleInFollow
      | (refine q_arriving _ _ _ ?_) | (refine q_same _ _ _ ?_ ?_ ?_ ?_) | with_reducible rfl
      | (simp only [port_setPort, if_true]; done) | simp)

theorem q_expireHoldover (s : State) (h : Queued s) :
    Queued (expireHoldover s) := by
  simp only [expireHoldover]
  (repeat' split) <;> (repeat' first
      | with_reducible assumption | with_reducible apply q_watchSecond | with_reducible apply q_offerState
      | with_reducible apply q_raiseWithHold | with_reducible apply q_setServo | (refine q_arriving _ _ _ ?_)
      | (refine q_same _ _ _ ?_ ?_ ?_ ?_) | with_reducible rfl | (simp only [port_setPort, if_true]; done) | simp)

theorem q_unexpireHoldover (s : State) (h : Queued s) :
    Queued (unexpireHoldover s) := by
  simp only [unexpireHoldover]
  (repeat' split) <;> (repeat' first
      | with_reducible assumption | with_reducible apply q_offerState | with_reducible apply q_clearWithHold
      | with_reducible apply q_setServo | (refine q_arriving _ _ _ ?_) | (refine q_same _ _ _ ?_ ?_ ?_ ?_)
      | with_reducible rfl | (simp only [port_setPort, if_true]; done) | simp)

theorem q_judgeHoldover (s : State) (h : Queued s) :
    Queued (judgeHoldover s) := by
  simp only [judgeHoldover]
  (repeat' split) <;> (repeat' first
      | with_reducible assumption | with_reducible apply q_expireHoldover
      | with_reducible apply q_unexpireHoldover | (refine q_arriving _ _ _ ?_) | (refine q_same _ _ _ ?_ ?_ ?_ ?_)
      | with_reducible rfl | (simp only [port_setPort, if_true]; done) | simp)

theorem q_clampF (s : State) (h : Queued s) : Queued (clampF s) := h.of (ports_clampF _)

theorem q_applyServo (p : ServoParams) (width limit : Nat) (s : State) (h : Queued s) :
    Queued (applyServo p width limit s) := by
  simp only [applyServo]
  (repeat' split) <;> (repeat' first
      | with_reducible assumption | with_reducible apply q_judgePulse | with_reducible apply q_handRate
      | with_reducible apply q_judgeHoldover | with_reducible apply q_clampF | with_reducible apply q_setCfg
      | (refine q_arriving _ _ _ ?_) | (refine q_same _ _ _ ?_ ?_ ?_ ?_) | with_reducible rfl
      | (simp only [port_setPort, if_true]; done) | simp)

theorem q_setDateTo (d : SN) (s : State) (h : Queued s) :
    Queued (setDateTo d s).1 := by
  simp only [setDateTo]
  (repeat' split) <;> (repeat' first
      | with_reducible assumption | with_reducible apply q_offerRecord | with_reducible apply q_setServoState
      | with_reducible apply q_offerState | with_reducible apply q_forwardStep | with_reducible apply q_load
      | (refine q_arriving _ _ _ ?_) | (refine q_same _ _ _ ?_ ?_ ?_ ?_) | with_reducible rfl
      | (simp only [port_setPort, if_true]; done) | simp)

theorem q_setTrimTo (f : Int) (s : State) (h : Queued s) : Queued (setTrimTo f s).1 := h.of (ports_setTrimTo _ _)

theorem q_loadTrim (s : State) (h : Queued s) : Queued (loadTrim s) := h.of (ports_loadTrim _)

theorem q_servoSoftReset (s : State) (h : Queued s) :
    Queued (servoSoftReset s) := by
  simp only [servoSoftReset]
  (repeat' split) <;> (repeat' first
      | with_reducible assumption | with_reducible apply q_handRate | with_reducible apply q_offerState
      | with_reducible apply q_servoHolds | with_reducible apply q_setServo | (refine q_arriving _ _ _ ?_)
      | (refine q_same _ _ _ ?_ ?_ ?_ ?_) | with_reducible rfl | (simp only [port_setPort, if_true]; done) | simp)

theorem q_forwardWhole (w : Whole) (edit : Edit) (s : State) (h : Queued s) :
    Queued (forwardWhole w edit s) := by
  simp only [forwardWhole]
  (repeat' split) <;> (repeat' first
      | with_reducible assumption | with_reducible apply q_admitFrame | with_reducible apply q_arbitrate
      | (refine q_arriving _ _ _ ?_) | (refine q_same _ _ _ ?_ ?_ ?_ ?_) | with_reducible rfl
      | (simp only [port_setPort, if_true]; done) | simp)

theorem q_takeInterval (p : Port) (s : State) (h : Queued s) :
    Queued (takeInterval p s) := by
  simp only [takeInterval]
  (repeat' split) <;> (repeat' first
      | with_reducible assumption | with_reducible apply q_offerTiming | with_reducible apply q_arbitrate
      | with_reducible apply q_setEcho | (refine q_arriving _ _ _ ?_) | (refine q_same _ _ _ ?_ ?_ ?_ ?_)
      | with_reducible rfl | (simp only [port_setPort, if_true]; done) | simp)

theorem q_restartInterval (p : Port) (s : State) (h : Queued s) : Queued (restartInterval p s) :=
  h.of (ports_restartInterval _ _)

theorem q_startEcho (p : Port) (s : State) (h : Queued s) :
    Queued (startEcho p s) := by
  simp only [startEcho]
  (repeat' split) <;> (repeat' first
      | with_reducible assumption | with_reducible apply q_takeInterval | with_reducible apply q_restartInterval
      | (refine q_arriving _ _ _ ?_) | (refine q_same _ _ _ ?_ ?_ ?_ ?_) | with_reducible rfl
      | (simp only [port_setPort, if_true]; done) | simp)

theorem q_takeDelay (p : Port) (x : Nat) (s : State) (h : Queued s) : Queued (takeDelay p x s) :=
  h.of (ports_takeDelay _ _ _)

theorem q_endExchange (w : Whole) (s : State) (h : Queued s) :
    Queued (endExchange w s) := by
  simp only [endExchange]
  (repeat' split) <;> (repeat' first
      | with_reducible assumption | with_reducible apply q_takeDelay | with_reducible apply q_setEcho
      | with_reducible apply q_count | (refine q_arriving _ _ _ ?_) | (refine q_same _ _ _ ?_ ?_ ?_ ?_)
      | with_reducible rfl | (simp only [port_setPort, if_true]; done) | simp)

theorem q_answerReceived (w : Whole) (s : State) (h : Queued s) :
    Queued (answerReceived w s) := by
  simp only [answerReceived]
  (repeat' split) <;> (repeat' first
      | with_reducible assumption | with_reducible apply q_endExchange | with_reducible apply q_count
      | (refine q_arriving _ _ _ ?_) | (refine q_same _ _ _ ?_ ?_ ?_ ?_) | with_reducible rfl
      | (simp only [port_setPort, if_true]; done) | simp)

theorem q_echoTimesOut (p : Port) (s : State) (h : Queued s) :
    Queued (echoTimesOut p s) := by
  simp only [echoTimesOut]
  (repeat' split) <;> (repeat' first
      | with_reducible assumption | with_reducible apply q_setEcho | with_reducible apply q_count
      | (refine q_arriving _ _ _ ?_) | (refine q_same _ _ _ ?_ ?_ ?_ ?_) | with_reducible rfl
      | (simp only [port_setPort, if_true]; done) | simp)

theorem q_echoLinkDown (p : Port) (s : State) (h : Queued s) : Queued (echoLinkDown p s) :=
  h.of (ports_echoLinkDown _ _)

theorem q_echoLinkUp (p : Port) (s : State) (h : Queued s) :
    Queued (echoLinkUp p s) := by
  simp only [echoLinkUp]
  (repeat' split) <;> (repeat' first
      | with_reducible assumption | with_reducible apply q_startEcho | with_reducible apply q_setEcho
      | (refine q_arriving _ _ _ ?_) | (refine q_same _ _ _ ?_ ?_ ?_ ?_) | with_reducible rfl
      | (simp only [port_setPort, if_true]; done) | simp)

theorem q_echoRewritten (p : Port) (old : PortRec) (s : State) (h : Queued s) :
    Queued (echoRewritten p old s) := by
  simp only [echoRewritten]
  (repeat' split) <;> (repeat' first
      | with_reducible assumption | with_reducible apply q_restartInterval | with_reducible apply q_startEcho
      | with_reducible apply q_setEcho | (refine q_arriving _ _ _ ?_) | (refine q_same _ _ _ ?_ ?_ ?_ ?_)
      | with_reducible rfl | (simp only [port_setPort, if_true]; done) | simp)

theorem q_clearStale (p : Port) (s : State) (h : Queued s) : Queued (clearStale p s) := h.of (ports_clearStale _ _)

theorem q_answerAsk (w : Whole) (s : State) (h : Queued s) :
    Queued (answerAsk w s) := by
  simp only [answerAsk]
  (repeat' split) <;> (repeat' first
      | with_reducible assumption | with_reducible apply q_offerTiming | with_reducible apply q_arbitrate
      | (refine q_arriving _ _ _ ?_) | (refine q_same _ _ _ ?_ ?_ ?_ ?_) | with_reducible rfl
      | (simp only [port_setPort, if_true]; done) | simp)

theorem q_handleAsk (w : Whole) (s : State) (h : Queued s) :
    Queued (handleAsk w s) := by
  simp only [handleAsk]
  (repeat' split) <;> (repeat' first
      | with_reducible assumption | with_reducible apply q_forwardWhole | with_reducible apply q_answerAsk
      | (refine q_arriving _ _ _ ?_) | (refine q_same _ _ _ ?_ ?_ ?_ ?_) | with_reducible rfl
      | (simp only [port_setPort, if_true]; done) | simp)

theorem q_handleAnswer (w : Whole) (s : State) (h : Queued s) :
    Queued (handleAnswer w s) := by
  simp only [handleAnswer]
  (repeat' split) <;> (repeat' first
      | with_reducible assumption | with_reducible apply q_forwardWhole | with_reducible apply q_answerReceived
      | (refine q_arriving _ _ _ ?_) | (refine q_same _ _ _ ?_ ?_ ?_ ?_) | with_reducible rfl
      | (simp only [port_setPort, if_true]; done) | simp)

theorem q_afterBeacon (w : Whole) (i p : Nat) (a : Int) (old : Option (Nat × SourceEntry)) (s : State) (h : Queued s) :
    Queued (afterBeacon w i p a old s) := by
  simp only [afterBeacon]
  (repeat' split) <;> (repeat' first
      | with_reducible assumption | with_reducible apply q_watchSecond | with_reducible apply q_reevaluate
      | with_reducible apply q_takeSample | with_reducible apply q_setSource | (refine q_arriving _ _ _ ?_)
      | (refine q_same _ _ _ ?_ ?_ ?_ ?_) | with_reducible rfl | (simp only [port_setPort, if_true]; done) | simp)

theorem q_beaconIntoTable (w : Whole) (s : State) (h : Queued s) :
    Queued (beaconIntoTable w s) := by
  simp only [beaconIntoTable]
  (repeat' split) <;> (repeat' first
      | with_reducible assumption | with_reducible apply q_afterBeacon | with_reducible apply q_setSource
      | with_reducible apply q_count | (refine q_arriving _ _ _ ?_) | (refine q_same _ _ _ ?_ ?_ ?_ ?_)
      | with_reducible rfl | (simp only [port_setPort, if_true]; done) | simp)

theorem q_goStale (i : Nat) (s : State) (h : Queued s) :
    Queued (goStale i s) := by
  simp only [goStale]
  (repeat' split) <;> (repeat' first
      | with_reducible assumption | with_reducible apply q_setSourceState | with_reducible apply q_reevaluate
      | (refine q_arriving _ _ _ ?_) | (refine q_same _ _ _ ?_ ?_ ?_ ?_) | with_reducible rfl
      | (simp only [port_setPort, if_true]; done) | simp)

theorem q_afterBar (old : Option (Nat × SourceEntry)) (s : State) (h : Queued s) :
    Queued (afterBar old s) := by
  simp only [afterBar]
  (repeat' split) <;> (repeat' first
      | with_reducible assumption | with_reducible apply q_reevaluate | (refine q_arriving _ _ _ ?_)
      | (refine q_same _ _ _ ?_ ?_ ?_ ?_) | with_reducible rfl | (simp only [port_setPort, if_true]; done) | simp)

theorem q_endBar (i : Nat) (e : SourceEntry) (s : State) (h : Queued s) :
    Queued (endBar i e s) := by
  simp only [endBar]
  (repeat' split) <;> (repeat' first
      | with_reducible assumption | with_reducible apply q_afterBar | with_reducible apply q_setSource
      | (refine q_arriving _ _ _ ?_) | (refine q_same _ _ _ ?_ ?_ ?_ ?_) | with_reducible rfl
      | (simp only [port_setPort, if_true]; done) | simp)

theorem q_setBar (i : Nat) (e : SourceEntry) (seconds : Nat) (s : State) (h : Queued s) :
    Queued (setBar i e seconds s) := by
  simp only [setBar]
  (repeat' split) <;> (repeat' first
      | with_reducible assumption | with_reducible apply q_afterBar | with_reducible apply q_setSource
      | (refine q_arriving _ _ _ ?_) | (refine q_same _ _ _ ?_ ?_ ?_ ?_) | with_reducible rfl
      | (simp only [port_setPort, if_true]; done) | simp)

theorem q_barEntry (i : Nat) (e : SourceEntry) (seconds : Nat) (s : State) (h : Queued s) :
    Queued (barEntry i e seconds s) := by
  simp only [barEntry]
  (repeat' split) <;> (repeat' first
      | with_reducible assumption | with_reducible apply q_endBar | with_reducible apply q_setBar
      | (refine q_arriving _ _ _ ?_) | (refine q_same _ _ _ ?_ ?_ ?_ ?_) | with_reducible rfl
      | (simp only [port_setPort, if_true]; done) | simp)

theorem q_barSelected (seconds : Nat) (s : State) (h : Queued s) :
    Queued (barSelected seconds s) := by
  simp only [barSelected]
  (repeat' split) <;> (repeat' first
      | with_reducible assumption | with_reducible apply q_barEntry | (refine q_arriving _ _ _ ?_)
      | (refine q_same _ _ _ ?_ ?_ ?_ ?_) | with_reducible rfl | (simp only [port_setPort, if_true]; done) | simp)

theorem q_transitBeacon (w : Whole) (p : Nat) (s : State) (h : Queued s) :
    Queued (transitBeacon w p s) := by
  simp only [transitBeacon]
  (repeat' split) <;> (repeat' first
      | with_reducible assumption | with_reducible apply q_forwardWhole | with_reducible apply q_setLane
      | (refine q_arriving _ _ _ ?_) | (refine q_same _ _ _ ?_ ?_ ?_ ?_) | with_reducible rfl
      | (simp only [port_setPort, if_true]; done) | simp)

theorem q_beaconUnit (w : Whole) (p : Nat) (s : State) (h : Queued s) :
    Queued (beaconUnit w p s) := by
  simp only [beaconUnit]
  (repeat' split) <;> (repeat' first
      | with_reducible assumption | with_reducible apply q_forwardWhole | with_reducible apply q_transitBeacon
      | (refine q_arriving _ _ _ ?_) | (refine q_same _ _ _ ?_ ?_ ?_ ?_) | with_reducible rfl
      | (simp only [port_setPort, if_true]; done) | simp)

theorem q_handleBeacon (w : Whole) (s : State) (h : Queued s) :
    Queued (handleBeacon w s) := by
  simp only [handleBeacon]
  (repeat' split) <;> (repeat' first
      | with_reducible assumption | with_reducible apply q_beaconIntoTable | with_reducible apply q_beaconUnit
      | (refine q_arriving _ _ _ ?_) | (refine q_same _ _ _ ?_ ?_ ?_ ?_) | with_reducible rfl
      | (simp only [port_setPort, if_true]; done) | simp)

theorem q_recordEmission (l : Lane) (instant : SN) (e : Emission) (s : State) (h : Queued s) :
    Queued (recordEmission l instant e s) :=
  h.of (ports_recordEmission _ _ _ _)

theorem q_originate (l : Lane) (instant : SN) (s : State) (h : Queued s) :
    Queued (originate l instant s) := by
  simp only [originate]
  (repeat' split) <;> (repeat' first
      | with_reducible assumption | with_reducible apply q_offerTiming | with_reducible apply q_arbitrate
      | with_reducible apply q_recordEmission | with_reducible apply q_setLane | (refine q_arriving _ _ _ ?_)
      | (refine q_same _ _ _ ?_ ?_ ?_ ?_) | with_reducible rfl | (simp only [port_setPort, if_true]; done) | simp)

theorem q_laneInstant (l : Lane) (old new : Date) (s : State) (h : Queued s) :
    Queued (laneInstant l old new s) := by
  simp only [laneInstant]
  (repeat' split) <;> (repeat' first
      | with_reducible assumption | with_reducible apply q_originate | (refine q_arriving _ _ _ ?_)
      | (refine q_same _ _ _ ?_ ?_ ?_ ?_) | with_reducible rfl | (simp only [port_setPort, if_true]; done) | simp)

theorem q_startReports (s : State) (h : Queued s) : Queued (startReports s) := h.of (ports_startReports _)

theorem q_nextSlot (s : State) (h : Queued s) : Queued (nextSlot s) := h.of (ports_nextSlot _)

theorem q_reportNotSent (i : Nat) (s : State) (h : Queued s) : Queued (reportNotSent i s) :=
  h.of (ports_reportNotSent _ _)

theorem q_reportSent (i : Nat) (s : State) (h : Queued s) : Queued (reportSent i s) := h.of (ports_reportSent _ _)

theorem q_sendReport (i : Nat) (s : State) (h : Queued s) :
    Queued (sendReport i s) := by
  simp only [sendReport]
  (repeat' split) <;> (repeat' first
      | with_reducible assumption | with_reducible apply q_offerTiming | with_reducible apply q_arbitrate
      | with_reducible apply q_reportNotSent | with_reducible apply q_reportSent | (refine q_arriving _ _ _ ?_)
      | (refine q_same _ _ _ ?_ ?_ ?_ ?_) | with_reducible rfl | (simp only [port_setPort, if_true]; done) | simp)

theorem q_setSelfDrift (v : Verdict) (s : State) (h : Queued s) :
    Queued (setSelfDrift v s) := by
  simp only [setSelfDrift]
  (repeat' split) <;> (repeat' first
      | with_reducible assumption | with_reducible apply q_offerRecord | with_reducible apply q_raiseWithHold
      | with_reducible apply q_barSelected | with_reducible apply q_setDrift | (refine q_arriving _ _ _ ?_)
      | (refine q_same _ _ _ ?_ ?_ ?_ ?_) | with_reducible rfl | (simp only [port_setPort, if_true]; done) | simp)

theorem q_clearSelfDrift (v : Verdict) (e : Episode) (s : State) (h : Queued s) :
    Queued (clearSelfDrift v e s) := by
  simp only [clearSelfDrift]
  (repeat' split) <;> (repeat' first
      | with_reducible assumption | with_reducible apply q_offerRecord | with_reducible apply q_clearWithHold
      | with_reducible apply q_setDrift | (refine q_arriving _ _ _ ?_) | (refine q_same _ _ _ ?_ ?_ ?_ ?_)
      | with_reducible rfl | (simp only [port_setPort, if_true]; done) | simp)

theorem q_judgeSelf (s : State) (h : Queued s) :
    Queued (judgeSelf s) := by
  simp only [judgeSelf]
  (repeat' split) <;> (repeat' first
      | with_reducible assumption | with_reducible apply q_setSelfDrift | with_reducible apply q_clearSelfDrift
      | with_reducible apply q_setDrift | (refine q_arriving _ _ _ ?_) | (refine q_same _ _ _ ?_ ?_ ?_ ?_)
      | with_reducible rfl | (simp only [port_setPort, if_true]; done) | simp)

theorem q_warnPeer (i : Nat) (vote : Vote) (s : State) (h : Queued s) :
    Queued (warnPeer i vote s) := by
  simp only [warnPeer]
  (repeat' split) <;> (repeat' first
      | with_reducible assumption | with_reducible apply q_offerRecord | with_reducible apply q_raiseWithHold
      | with_reducible apply q_setPeer | (refine q_arriving _ _ _ ?_) | (refine q_same _ _ _ ?_ ?_ ?_ ?_)
      | with_reducible rfl | (simp only [port_setPort, if_true]; done) | simp)

theorem q_unwarnPeer (i : Nat) (vote : Vote) (s : State) (h : Queued s) :
    Queued (unwarnPeer i vote s) := by
  simp only [unwarnPeer]
  (repeat' split) <;> (repeat' first
      | with_reducible assumption | with_reducible apply q_offerRecord | with_reducible apply q_setPeer
      | (refine q_arriving _ _ _ ?_) | (refine q_same _ _ _ ?_ ?_ ?_ ?_) | with_reducible rfl
      | (simp only [port_setPort, if_true]; done) | simp)

theorem q_judgePeer (s : State) (i : Nat) (h : Queued s) :
    Queued (judgePeer s i) := by
  simp only [judgePeer]
  (repeat' split) <;> (repeat' first
      | with_reducible assumption | with_reducible apply q_warnPeer | with_reducible apply q_unwarnPeer
      | (refine q_arriving _ _ _ ?_) | (refine q_same _ _ _ ?_ ?_ ?_ ?_) | with_reducible rfl
      | (simp only [port_setPort, if_true]; done) | simp)

theorem q_judgeRack (s : State) (h : Queued s) :
    Queued (judgeRack s) := by
  simp only [judgeRack]
  (repeat' split) <;> (repeat' first
      | with_reducible assumption | (with_reducible apply q_foldl; intro t _ ht)
      | with_reducible apply q_judgeSelf | with_reducible apply q_judgePeer | (refine q_arriving _ _ _ ?_)
      | (refine q_same _ _ _ ?_ ?_ ?_ ?_) | with_reducible rfl | (simp only [port_setPort, if_true]; done) | simp)

theorem q_reportReceived (w : Whole) (s : State) (h : Queued s) :
    Queued (reportReceived w s) := by
  simp only [reportReceived]
  (repeat' split) <;> (repeat' first
      | with_reducible assumption | with_reducible apply q_judgeRack | with_reducible apply q_setPeer
      | with_reducible apply q_count | (refine q_arriving _ _ _ ?_) | (refine q_same _ _ _ ?_ ?_ ?_ ?_)
      | with_reducible rfl | (simp only [port_setPort, if_true]; done) | simp)

theorem q_setPeerCfg (i : Nat) (c : PeerCfg) (s : State) (h : Queued s) : Queued (setPeerCfg i c s) :=
  h.of (ports_setPeerCfg _ _ _)

theorem q_voidReports (i : Nat) (s : State) (h : Queued s) : Queued (voidReports i s) := by
  refine q_mapPorts _ _ (fun u hu => ?_) h
  exact ⟨by simpa [timingHeld, leavingFrom] using hu.timing, hu.general⟩

theorem q_writePeerAt (i : Nat) (c : PeerCfg) (s : State) (h : Queued s) :
    Queued (writePeerAt i c s) := by
  simp only [writePeerAt]
  (repeat' split) <;> (repeat' first
      | with_reducible assumption | with_reducible apply q_voidReports | with_reducible apply q_judgeRack | with_reducible apply q_setPeerCfg
      | with_reducible apply q_setPeer | (refine q_arriving _ _ _ ?_) | (refine q_same _ _ _ ?_ ?_ ?_ ?_)
      | with_reducible rfl | (simp only [port_setPort, if_true]; done) | simp)

theorem q_clearPeerAt (i : Nat) (s : State) (h : Queued s) :
    Queued (clearPeerAt i s) := by
  simp only [clearPeerAt]
  (repeat' split) <;> (repeat' first
      | with_reducible assumption | with_reducible apply q_voidReports | with_reducible apply q_judgeRack | with_reducible apply q_setPeerCfg
      | with_reducible apply q_setPeer | (refine q_arriving _ _ _ ?_) | (refine q_same _ _ _ ?_ ?_ ?_ ?_)
      | with_reducible rfl | (simp only [port_setPort, if_true]; done) | simp)

theorem q_applyDrift (p : DriftParams) (holdoff threshold : Nat) (s : State) (h : Queued s) :
    Queued (applyDrift p holdoff threshold s) := by
  simp only [applyDrift]
  (repeat' split) <;> (repeat' first
      | with_reducible assumption | with_reducible apply q_startReports | with_reducible apply q_judgeRack
      | with_reducible apply q_setCfg | (refine q_arriving _ _ _ ?_) | (refine q_same _ _ _ ?_ ?_ ?_ ?_)
      | with_reducible rfl | (simp only [port_setPort, if_true]; done) | simp)

theorem q_driftSoftReset (s : State) (h : Queued s) : Queued (driftSoftReset s) := h.of (ports_driftSoftReset _)

theorem q_freezeTrigger (t : Trigger) (s : State) (h : Queued s) :
    Queued (freezeTrigger t s) := by
  simp only [freezeTrigger]
  (repeat' split) <;> (repeat' first
      | with_reducible assumption | with_reducible apply q_offerRecord | with_reducible apply q_setFrozen
      | (refine q_arriving _ _ _ ?_) | (refine q_same _ _ _ ?_ ?_ ?_ ?_) | with_reducible rfl
      | (simp only [port_setPort, if_true]; done) | simp)

theorem q_releaseFreeze (s : State) (h : Queued s) :
    Queued (releaseFreeze s) := by
  simp only [releaseFreeze]
  (repeat' split) <;> (repeat' first
      | with_reducible assumption | with_reducible apply q_offerRecord | with_reducible apply q_setFrozen
      | (refine q_arriving _ _ _ ?_) | (refine q_same _ _ _ ?_ ?_ ?_ ?_) | with_reducible rfl
      | (simp only [port_setPort, if_true]; done) | simp)

theorem q_openMark (p : Port) (index : Nat) (e : MatchEntry) (ingress : Date) (s : State) (h : Queued s) :
    Queued (openMark p index e ingress s) := by
  simp only [openMark]
  (repeat' split) <;> (repeat' first
      | with_reducible assumption | with_reducible apply q_rememberStamp | with_reducible apply q_freezeTrigger
      | (refine q_arriving _ _ _ ?_) | (refine q_same _ _ _ ?_ ?_ ?_ ?_) | with_reducible rfl
      | (simp only [port_setPort, if_true]; done) | simp)

theorem q_settleStamp (p : Port) (written : Bool) (s : State) (h : Queued s) :
    Queued (settleStamp p written s) := by
  simp only [settleStamp]
  (repeat' split) <;> (repeat' first
      | with_reducible assumption | with_reducible apply q_count | (refine q_arriving _ _ _ ?_)
      | (refine q_same _ _ _ ?_ ?_ ?_ ?_) | with_reducible rfl | (simp only [port_setPort, if_true]; done) | simp)

theorem q_loseStamp (p : Port) (s : State) (h : Queued s) :
    Queued (loseStamp p s) := by
  simp only [loseStamp]
  (repeat' split) <;> (repeat' first
      | with_reducible assumption | with_reducible apply q_settleStamp | (refine q_arriving _ _ _ ?_)
      | (refine q_same _ _ _ ?_ ?_ ?_ ?_) | with_reducible rfl | (simp only [port_setPort, if_true]; done) | simp)

theorem q_readyArriving (p : Port) (edit : Edit) (s : State) (h : Queued s) :
    Queued (readyArriving p edit s) := by
  simp only [readyArriving]
  (repeat' split) <;> (repeat' first
      | with_reducible assumption | (refine q_arriving _ _ _ ?_) | (refine q_same _ _ _ ?_ ?_ ?_ ?_)
      | with_reducible rfl | (simp only [port_setPort, if_true]; done) | simp)

theorem q_writeStampNow (p : Port) (c : DatingCtx) (bytes : List Byte) (s : State) (h : Queued s) :
    Queued (writeStampNow p c bytes s) := by
  simp only [writeStampNow]
  (repeat' split) <;> (repeat' first
      | with_reducible assumption | with_reducible apply q_arbitrate | with_reducible apply q_settleStamp
      | with_reducible apply q_readyArriving | (refine q_arriving _ _ _ ?_) | (refine q_same _ _ _ ?_ ?_ ?_ ?_)
      | with_reducible rfl | (simp only [port_setPort, if_true]; done) | simp)

theorem q_closeMark (p : Port) (bytes : List Byte) (stop len : Nat) (badFcs : Bool) (s : State) (h : Queued s) :
    Queued (closeMark p bytes stop len badFcs s) := by
  simp only [closeMark]
  (repeat' split) <;> (repeat' first
      | with_reducible assumption | with_reducible apply q_offerRecord | (refine q_arriving _ _ _ ?_)
      | (refine q_same _ _ _ ?_ ?_ ?_ ?_) | with_reducible rfl | (simp only [port_setPort, if_true]; done) | simp)

theorem q_cutMark (p : Port) (bytes : List Byte) (len : Nat) (s : State) (h : Queued s) :
    Queued (cutMark p bytes len s) := by
  simp only [cutMark]
  (repeat' split) <;> (repeat' first
      | with_reducible assumption | with_reducible apply q_settleStamp | with_reducible apply q_closeMark
      | (refine q_arriving _ _ _ ?_) | (refine q_same _ _ _ ?_ ?_ ?_ ?_) | with_reducible rfl
      | (simp only [port_setPort, if_true]; done) | simp)

theorem q_forwardArriving (p : Port) (r : Rx) (ready : Bool) (s : State) (h : Queued s) :
    Queued (forwardArriving p r ready s).1 := by
  simp only [forwardArriving]
  (repeat' split) <;> (repeat' first
      | with_reducible assumption | with_reducible apply q_admitFrame | with_reducible apply q_setRx
      | (refine q_arriving _ _ _ ?_) | (refine q_same _ _ _ ?_ ?_ ?_ ?_) | with_reducible rfl
      | (simp only [port_setPort, if_true]; done) | simp)

theorem q_passFrame (p : Port) (r : Rx) (s : State) (h : Queued s) :
    Queued (passFrame p r s) := by
  simp only [passFrame]
  (repeat' split) <;> (repeat' first
      | with_reducible assumption | with_reducible apply q_arbitrate | with_reducible apply q_forwardArriving
      | (refine q_arriving _ _ _ ?_) | (refine q_same _ _ _ ?_ ?_ ?_ ?_) | with_reducible rfl
      | (simp only [port_setPort, if_true]; done) | simp)

theorem q_settleArrived (p : Port) (bytes : List Byte) (s : State) (h : Queued s) :
    Queued (settleArrived p bytes s) := by
  simp only [settleArrived]
  (repeat' split) <;> (repeat' first
      | with_reducible assumption | with_reducible apply q_writeStampNow | (refine q_arriving _ _ _ ?_)
      | (refine q_same _ _ _ ?_ ?_ ?_ ?_) | with_reducible rfl | (simp only [port_setPort, if_true]; done) | simp)

theorem q_markFrame (p : Port) (r : Rx) (index : Nat) (e : MatchEntry) (s : State) (h : Queued s) :
    Queued (markFrame p r index e s) := by
  simp only [markFrame]
  (repeat' split) <;> (repeat' first
      | with_reducible assumption | with_reducible apply q_arbitrate | with_reducible apply q_openMark
      | with_reducible apply q_loseStamp | with_reducible apply q_forwardArriving
      | with_reducible apply q_settleArrived | (refine q_arriving _ _ _ ?_) | (refine q_same _ _ _ ?_ ?_ ?_ ?_)
      | with_reducible rfl | (simp only [port_setPort, if_true]; done) | simp)

theorem q_lookupFrame (p : Port) (r : Rx) (ended : Bool) (s : State) (h : Queued s) :
    Queued (lookupFrame p r ended s) := by
  simp only [lookupFrame]
  (repeat' split) <;> (repeat' first
      | with_reducible assumption | with_reducible apply q_setRx | with_reducible apply q_passFrame
      | with_reducible apply q_markFrame | (refine q_arriving _ _ _ ?_) | (refine q_same _ _ _ ?_ ?_ ?_ ?_)
      | with_reducible rfl | (simp only [port_setPort, if_true]; done) | simp)

theorem q_growArriving (p : Port) (bytes : List Byte) (s : State) (h : Queued s) :
    Queued (growArriving p bytes s) := by
  simp only [growArriving]
  (repeat' split) <;> (repeat' first
      | with_reducible assumption | (refine q_arriving _ _ _ ?_) | (refine q_same _ _ _ ?_ ?_ ?_ ?_)
      | with_reducible rfl | (simp only [port_setPort, if_true]; done) | simp)

theorem q_overrun (p : Port) (r : Rx) (s : State) (h : Queued s) :
    Queued (overrun p r s) := by
  simp only [overrun]
  (repeat' split) <;> (repeat' first
      | with_reducible assumption | with_reducible apply q_arbitrate | with_reducible apply q_cutMark
      | with_reducible apply q_setRx | with_reducible apply q_settleArrived | with_reducible apply q_count
      | (refine q_arriving _ _ _ ?_) | (refine q_same _ _ _ ?_ ?_ ?_ ?_) | with_reducible rfl
      | (simp only [port_setPort, if_true]; done) | simp)

theorem q_malformedFrame (w : Whole) (s : State) (h : Queued s) :
    Queued (malformedFrame w s) := by
  simp only [malformedFrame]
  (repeat' split) <;> (repeat' first
      | with_reducible assumption | with_reducible apply q_forwardWhole | with_reducible apply q_count
      | (refine q_arriving _ _ _ ?_) | (refine q_same _ _ _ ?_ ?_ ?_ ?_) | with_reducible rfl
      | (simp only [port_setPort, if_true]; done) | simp)

theorem q_dispatchL2 (w : Whole) (s : State) (h : Queued s) :
    Queued (dispatchL2 w s) := by
  simp only [dispatchL2]
  (repeat' split) <;> (repeat' first
      | with_reducible assumption | with_reducible apply q_handleAsk | with_reducible apply q_handleAnswer
      | with_reducible apply q_handleBeacon | with_reducible apply q_malformedFrame | (refine q_arriving _ _ _ ?_)
      | (refine q_same _ _ _ ?_ ?_ ?_ ?_) | with_reducible rfl | (simp only [port_setPort, if_true]; done) | simp)

theorem q_acceptControl (w : Whole) (privilege : Privilege) (s : State) (h : Queued s) :
    Queued (acceptControl w privilege s) := by
  simp only [acceptControl]
  (repeat' split) <;> (repeat' first
      | with_reducible assumption | (refine q_arriving _ _ _ ?_) | (refine q_same _ _ _ ?_ ?_ ?_ ?_)
      | with_reducible rfl | (simp only [port_setPort, if_true]; done) | simp)

theorem q_dispatchUdp (w : Whole) (mgmt utx : Bool) (privilege : Privilege) (s : State) (h : Queued s) :
    Queued (dispatchUdp w mgmt utx privilege s) := by
  simp only [dispatchUdp]
  (repeat' split) <;> (repeat' first
      | with_reducible assumption | with_reducible apply q_reportReceived | with_reducible apply q_malformedFrame
      | with_reducible apply q_acceptControl | (refine q_arriving _ _ _ ?_) | (refine q_same _ _ _ ?_ ?_ ?_ ?_)
      | with_reducible rfl | (simp only [port_setPort, if_true]; done) | simp)

theorem q_endForwarded (p : Port) (r : Rx) (inLane : Bool) (s : State) (h : Queued s) :
    Queued (endForwarded p r inLane s) := by
  simp only [endForwarded]
  (repeat' split) <;> (repeat' first
      | with_reducible assumption | with_reducible apply q_arbitrate | with_reducible apply q_settleStamp
      | with_reducible apply q_closeMark | with_reducible apply q_setRx | with_reducible apply q_settleArrived
      | with_reducible apply q_growArriving | (refine q_arriving _ _ _ ?_) | (refine q_same _ _ _ ?_ ?_ ?_ ?_)
      | with_reducible rfl | (simp only [port_setPort, if_true]; done) | simp)

theorem q_endFrame (p : Port) (r : Rx) (s : State) (h : Queued s) :
    Queued (endFrame p r s) := by
  simp only [endFrame]
  (repeat' split) <;> (repeat' first
      | with_reducible assumption | with_reducible apply q_setRx | with_reducible apply q_dispatchL2
      | with_reducible apply q_dispatchUdp | with_reducible apply q_endForwarded | with_reducible apply q_count
      | (refine q_arriving _ _ _ ?_) | (refine q_same _ _ _ ?_ ?_ ?_ ?_) | with_reducible rfl
      | (simp only [port_setPort, if_true]; done) | simp)

theorem q_receiveEnd (p : Port) (r : Rx) (s : State) (h : Queued s) :
    Queued (receiveEnd p r s) := by
  simp only [receiveEnd]
  (repeat' split) <;> (repeat' first
      | with_reducible assumption | with_reducible apply q_setRx | with_reducible apply q_lookupFrame
      | with_reducible apply q_overrun | with_reducible apply q_endFrame | with_reducible apply q_count
      | (refine q_arriving _ _ _ ?_) | (refine q_same _ _ _ ?_ ?_ ?_ ?_) | with_reducible rfl
      | (simp only [port_setPort, if_true]; done) | simp)

theorem q_oversizeArrives (p : Port) (more : List Byte) (s : State) (h : Queued s) :
    Queued (oversizeArrives p more s) := by
  simp only [oversizeArrives]
  (repeat' split) <;> (repeat' first
      | with_reducible assumption | with_reducible apply q_lookupFrame | with_reducible apply q_overrun)

theorem q_applyFull (c : Settings) (bank : Vector MatchEntry 64) (source : LoadSource) (version : Nat) (s : State)
    (h : Queued s) :
    Queued (applyFull c bank source version s) :=
  h.of (ports_applyFull _ _ _ _ _)

theorem q_applyReload (c : Settings) (bank : Vector MatchEntry 64) (s : State) (h : Queued s) :
    Queued (applyReload c bank s) := by
  simp only [applyReload]
  (repeat' split) <;> (repeat' first
      | with_reducible assumption | with_reducible apply q_judgePulse | with_reducible apply q_reevaluateOnHold
      | with_reducible apply q_applyServo | with_reducible apply q_setCfg | with_reducible apply q_setLanes
      | with_reducible apply q_setMatchTab | with_reducible apply q_setDrift | with_reducible apply q_setAgent
      | (refine q_arriving _ _ _ ?_) | (refine q_same _ _ _ ?_ ?_ ?_ ?_) | with_reducible rfl
      | (simp only [port_setPort, if_true]; done) | simp)

theorem q_softResetNow (reload : Bool) (s : State) : Queued (softResetNow reload s) := by
  simp only [softResetNow]
  apply q_servoSoftReset
  refine Queued.of (s := (s.setAgent (s.agent.softReset reload)).setPorts (softPorts s.ports)) ?_ (by simp [driftSoftReset])
  intro p
  cases p <;> exact q_empty _ rfl rfl

theorem q_raiseAgain (expired : Bool) (s : State) (h : Queued s) :
    Queued (raiseAgain expired s) := by
  simp only [raiseAgain]
  (repeat' split) <;> (repeat' first
      | with_reducible assumption | with_reducible apply q_raiseLogFullAgain
      | with_reducible apply q_raiseWithHold | (refine q_arriving _ _ _ ?_) | (refine q_same _ _ _ ?_ ?_ ?_ ?_)
      | with_reducible rfl | (simp only [port_setPort, if_true]; done) | simp)

theorem q_completeSoft (expired : Bool) (s : State) (h : Queued s) :
    Queued (completeSoft expired s) := by
  simp only [completeSoft]
  (repeat' split) <;> (repeat' first
      | with_reducible assumption | with_reducible apply q_startEcho | with_reducible apply q_startReports
      | with_reducible apply q_raiseAgain | (refine q_arriving _ _ _ ?_) | (refine q_same _ _ _ ?_ ?_ ?_ ?_)
      | with_reducible rfl | (simp only [port_setPort, if_true]; done) | simp)

theorem q_enterRunning (s : State) (h : Queued s) : Queued (enterRunning s) := by
  have h0 : Queued (loadTrim (s.setRun .running)) := q_loadTrim _ (q_setRun _ _ h)
  simp only [enterRunning]
  exact q_startReports _ (q_startEcho _ _ (q_startEcho _ _ (q_mapPorts _ _ (fun u hu => hu.same rfl rfl rfl) h0)))

theorem q_finishLoad (first second : List Byte) (s : State) (h : Queued s) :
    Queued (finishLoad first second s) := by
  simp only [finishLoad]
  (repeat' split) <;> (repeat' first
      | with_reducible assumption | with_reducible apply q_raiseWithHold | with_reducible apply q_applyFull
      | with_reducible apply q_enterRunning | (refine q_arriving _ _ _ ?_) | (refine q_same _ _ _ ?_ ?_ ?_ ?_)
      | with_reducible rfl | (simp only [port_setPort, if_true]; done) | simp)

theorem q_finishReload (first second : List Byte) (s : State) (h : Queued s) :
    Queued (finishReload first second s) := by
  simp only [finishReload]
  (repeat' split) <;> (repeat' first
      | with_reducible assumption | with_reducible apply q_raiseWithHold | with_reducible apply q_applyReload
      | with_reducible apply q_completeSoft | with_reducible apply q_setAgent | (refine q_arriving _ _ _ ?_)
      | (refine q_same _ _ _ ?_ ?_ ?_ ?_) | with_reducible rfl | (simp only [port_setPort, if_true]; done) | simp)

theorem loseArriving_same (bytes : List Byte) (u : PortUnit) (h : QueuesOk u) :
    QueuesOk (loseArriving bytes u) := h.same rfl rfl (onArriving_origin _ _)

theorem q_loseReception (p : Port) (more : List Byte) (s : State) (h : Queued s) :
    Queued (loseReception p more s) := by
  simp only [loseReception]
  (repeat' split)
  · exact h
  · exact q_setRx _ _ _ h
  · exact q_setRx _ _ _ h
  · exact q_count _ _ _ (q_setRx _ _ _ h)
  · exact q_count _ _ _ (q_setRx _ _ _ h)
  · rename_i r _ _ _ _ _
    have := q_cutMark p (r.grow more).bytes (r.grow more).bytes.length _ (q_setRx p none s h)
    exact q_count _ _ _ (q_setPort _ _ _ (loseArriving_same _ _ (this _)) this)
  · exact q_cutMark _ _ _ _ (q_setRx _ _ _ h)

theorem q_flushEgress (p : Port) (s : State) (h : Queued s) : Queued (flushEgress p s) := by
  have h1 := q_setPort s p { s.port p with buffer := [], timing := [], general := [], tx := none, stats := Stats.addTransitDrops (flushedCount (s.port p)) (s.port p).stats } (q_empty _ rfl rfl) h
  simp only [flushEgress]
  split
  · exact q_loseStamp _ _ (q_same _ _ _ rfl rfl rfl h1)
  · exact h1

theorem q_linkBackUp (p : Port) (s : State) (h : Queued s) :
    Queued (linkBackUp p s) := by
  simp only [linkBackUp]
  (repeat' split) <;> (repeat' first
      | with_reducible assumption | with_reducible apply q_reevaluate | with_reducible apply q_clearWithHold
      | with_reducible apply q_echoLinkUp | (refine q_arriving _ _ _ ?_) | (refine q_same _ _ _ ?_ ?_ ?_ ?_)
      | with_reducible rfl | (simp only [port_setPort, if_true]; done) | simp)

theorem q_linkComesUp (p : Port) (s : State) (h : Queued s) :
    Queued (linkComesUp p s) := by
  simp only [linkComesUp]
  (repeat' split) <;> (repeat' first
      | with_reducible assumption | with_reducible apply q_linkBackUp | (refine q_arriving _ _ _ ?_)
      | (refine q_same _ _ _ ?_ ?_ ?_ ?_) | with_reducible rfl | (simp only [port_setPort, if_true]; done) | simp)

/-- All bytes of a frame whose reception has ended have arrived (R116). -/
@[simp] theorem arrived_complete (f : FwdFrame) (h : f.complete = true) : f.arrived = f.bytes.length := by
  simp [FwdFrame.arrived, h]

/-- A command's bytes set the count of an arriving frame right (log 4). -/
theorem arrived_upTo (f : FwdFrame) (bytes : List Byte) (h : bytes.length ≤ Config.maxFrame) :
    (f.upTo bytes).arrived = bytes.length := by
  simp only [FwdFrame.arrived, FwdFrame.upTo, Nat.zero_div, Nat.add_zero, Nat.min_eq_right h, ite_self]

/-- A frame still arriving holds at most the longest frame (R116, log 4). -/
theorem arrived_le (f : FwdFrame) (h : f.complete = false) : f.arrived ≤ Config.maxFrame := by
  simp only [FwdFrame.arrived, h, Bool.false_eq_true, if_false]
  omega

theorem flowPort_same (u : PortUnit) (h : QueuesOk u) : QueuesOk (flowPort u) := by
  refine h.same rfl rfl ?_
  rw [← onArriving_origin (fun x => { x with sinceHalf := countHalf x.sinceHalf }) u]
  simp only [flowPort, Option.map_map]
  rfl

theorem q_periodTo (m : Date × Bool) (second : Bool) (s : State) (h : Queued s) : Queued (periodTo m second s) := by
  have h0 : Queued ((s.setClock { s.clock with date := m.1, up := s.clock.up + 1 }).setPorts ((s.setClock { s.clock with date := m.1, up := s.clock.up + 1 }).ports.map flowPort)) :=
    q_mapPorts (s.setClock { s.clock with date := m.1, up := s.clock.up + 1 }) flowPort flowPort_same (q_setClock _ _ h)
  simp only [periodTo]
  apply q_laneInstant
  apply q_laneInstant
  have h0' := h0
  (repeat' split) <;> (repeat' first | with_reducible assumption | with_reducible apply q_secondBoundary | with_reducible apply q_uptimeSecond)

theorem q_clockPeriod (s : State) (h : Queued s) :
    Queued (clockPeriod s) := by
  simp only [clockPeriod]
  (repeat' split) <;> (repeat' first
      | with_reducible assumption | with_reducible apply q_periodTo | (refine q_arriving _ _ _ ?_)
      | (refine q_same _ _ _ ?_ ?_ ?_ ?_) | with_reducible rfl | (simp only [port_setPort, if_true]; done) | simp)

theorem q_finishSave (written readBack : List Byte) (s : State) (h : Queued s) :
    Queued (finishSave written readBack s) := by
  simp only [finishSave]
  (repeat' split) <;> (repeat' first
      | with_reducible assumption | with_reducible apply q_raiseWithHold | with_reducible apply q_setAgent
      | (refine q_arriving _ _ _ ?_) | (refine q_same _ _ _ ?_ ?_ ?_ ?_) | with_reducible rfl
      | (simp only [port_setPort, if_true]; done) | simp)

theorem q_endMemoryTest (pass : Bool) (s : State) (h : Queued s) :
    Queued (endMemoryTest pass s) := by
  simp only [endMemoryTest]
  (repeat' split) <;> (repeat' first
      | with_reducible assumption | with_reducible apply q_raiseWithHold | with_reducible apply q_setLog
      | (refine q_arriving _ _ _ ?_) | (refine q_same _ _ _ ?_ ?_ ?_ ?_) | with_reducible rfl
      | (simp only [port_setPort, if_true]; done) | simp)

theorem q_removeRecords (k : Nat) (s : State) (h : Queued s) : Queued (removeRecords k s) :=
  h.of (ports_removeRecords _ _)

theorem q_testLog (s : State) (h : Queued s) : Queued (testLog s).1 := h.of (ports_testLog _)

theorem q_writeMatch (index : Byte) (a : MatchArg) (s : State) (h : Queued s) : Queued (writeMatch index a s).1 :=
  h.of (ports_writeMatch _ _ _)

theorem q_copyActive (s : State) (h : Queued s) : Queued (copyActive s).1 := h.of (ports_copyActive _)

theorem q_swapCommand (arg : Byte) (s : State) (h : Queued s) : Queued (swapCommand arg s).1 :=
  h.of (ports_swapCommand _ _)

theorem q_writePort (a : PortArg) (s : State) (h : Queued s) :
    Queued (writePort a s).1 := by
  simp only [writePort]
  (repeat' split) <;> (repeat' first
      | with_reducible assumption | with_reducible apply q_echoRewritten | with_reducible apply q_setCfg
      | (refine q_arriving _ _ _ ?_) | (refine q_same _ _ _ ?_ ?_ ?_ ?_) | with_reducible rfl
      | (simp only [port_setPort, if_true]; done) | simp)

theorem q_writeLane (a : LaneArg) (s : State) (h : Queued s) : Queued (writeLane a s).1 := h.of (ports_writeLane _ _)

theorem q_writeOverride (a : OverrideArg) (s : State) (h : Queued s) : Queued (writeOverride a s).1 :=
  h.of (ports_writeOverride _ _)

theorem q_writePeer (a : PeerArg) (s : State) (h : Queued s) :
    Queued (writePeer a s).1 := by
  simp only [writePeer]
  (repeat' split) <;> (repeat' first
      | with_reducible assumption | with_reducible apply q_writePeerAt | (refine q_arriving _ _ _ ?_)
      | (refine q_same _ _ _ ?_ ?_ ?_ ?_) | with_reducible rfl | (simp only [port_setPort, if_true]; done) | simp)

theorem q_clearPeer (index : Byte) (s : State) (h : Queued s) :
    Queued (clearPeer index s).1 := by
  simp only [clearPeer]
  (repeat' split) <;> (repeat' first
      | with_reducible assumption | with_reducible apply q_clearPeerAt | (refine q_arriving _ _ _ ?_)
      | (refine q_same _ _ _ ?_ ?_ ?_ ?_) | with_reducible rfl | (simp only [port_setPort, if_true]; done) | simp)

theorem q_writeServo (a : ServoArg) (s : State) (h : Queued s) :
    Queued (writeServo a s).1 := by
  simp only [writeServo]
  (repeat' split) <;> (repeat' first
      | with_reducible assumption | with_reducible apply q_applyServo | (refine q_arriving _ _ _ ?_)
      | (refine q_same _ _ _ ?_ ?_ ?_ ?_) | with_reducible rfl | (simp only [port_setPort, if_true]; done) | simp)

theorem q_writeDrift (a : DriftArg) (s : State) (h : Queued s) :
    Queued (writeDrift a s).1 := by
  simp only [writeDrift]
  (repeat' split) <;> (repeat' first
      | with_reducible assumption | with_reducible apply q_applyDrift | (refine q_arriving _ _ _ ?_)
      | (refine q_same _ _ _ ?_ ?_ ?_ ?_) | with_reducible rfl | (simp only [port_setPort, if_true]; done) | simp)

theorem q_applyResponse (k : FaultKind) (r : Response) (s : State) (h : Queued s) :
    Queued (applyResponse k r s) := by
  simp only [applyResponse]
  (repeat' split) <;> (repeat' first
      | with_reducible assumption | with_reducible apply q_watchSecond | with_reducible apply q_reevaluateOnHold
      | with_reducible apply q_setCfg | (refine q_arriving _ _ _ ?_) | (refine q_same _ _ _ ?_ ?_ ?_ ?_)
      | with_reducible rfl | (simp only [port_setPort, if_true]; done) | simp)

theorem q_writeFault (kind response : Byte) (s : State) (h : Queued s) :
    Queued (writeFault kind response s).1 := by
  simp only [writeFault]
  (repeat' split) <;> (repeat' first
      | with_reducible assumption | with_reducible apply q_applyResponse | (refine q_arriving _ _ _ ?_)
      | (refine q_same _ _ _ ?_ ?_ ?_ ?_) | with_reducible rfl | (simp only [port_setPort, if_true]; done) | simp)

theorem q_clearPosition (mask : BitVec 32) (s : State) (k : FaultKind) (h : Queued s) :
    Queued (clearPosition mask s k) := by
  simp only [clearPosition]
  (repeat' split) <;> (repeat' first
      | with_reducible assumption | with_reducible apply q_clearWithHold | (refine q_arriving _ _ _ ?_)
      | (refine q_same _ _ _ ?_ ?_ ?_ ?_) | with_reducible rfl | (simp only [port_setPort, if_true]; done) | simp)

theorem q_clearFlags (mask : BitVec 32) (s : State) (h : Queued s) :
    Queued (clearFlags mask s).1 := by
  simp only [clearFlags]
  (repeat' split) <;> (repeat' first
      | with_reducible assumption | (with_reducible apply q_foldl; intro t _ ht)
      | with_reducible apply q_clearStale | with_reducible apply q_clearPosition | with_reducible apply q_setServo
      | (refine q_arriving _ _ _ ?_) | (refine q_same _ _ _ ?_ ?_ ?_ ?_) | with_reducible rfl
      | (simp only [port_setPort, if_true]; done) | simp)

theorem q_barSource (index : Byte) (seconds : BitVec 16) (s : State) (h : Queued s) :
    Queued (barSource index seconds s).1 := by
  simp only [barSource]
  (repeat' split) <;> (repeat' first
      | with_reducible assumption | with_reducible apply q_barEntry | (refine q_arriving _ _ _ ?_)
      | (refine q_same _ _ _ ?_ ?_ ?_ ?_) | with_reducible rfl | (simp only [port_setPort, if_true]; done) | simp)

theorem q_saveSettings (s : State) (h : Queued s) : Queued (saveSettings s).1 := h.of (ports_saveSettings _)

theorem q_resetCommand (arg : Byte) (s : State) (h : Queued s) : Queued (resetCommand arg s).1 :=
  h.of (ports_resetCommand _ _)

theorem q_reset : Queued State.reset := by intro p; cases p <;> exact q_empty _ rfl rfl

theorem q_fullReset (s : State) : Queued (fullReset s) := q_reset.of rfl

theorem q_holdReset (s : State) : Queued (holdReset s) := q_reset.of rfl

theorem q_takeReset (k : ResetKind) (s : State) (h : Queued s) : Queued (takeReset k s) := by
  cases k
  · exact q_completeSoft _ _ (q_softResetNow _ _)
  · exact q_softResetNow _ _
  · exact q_fullReset _

theorem q_takePendingReset (s : State) (h : Queued s) : Queued (takePendingReset s) := by
  simp only [takePendingReset]; split
  · exact q_takeReset _ _ h
  · exact h

theorem q_finishFrame (e : Exec) (s : State) (h : Queued s) : Queued (finishFrame e s) := by
  simp only [finishFrame]
  split
  · exact q_arbitrate _ _ (q_offerGeneral _ _ _ _ _ (q_setAgent _ _ h))
  · exact q_takePendingReset _ (q_offerGeneral _ _ _ _ _ (q_setAgent _ _ h))

theorem q_advanceFrame (e : Exec) (s : State) (h : Queued s) : Queued (advanceFrame e s) := by
  simp only [advanceFrame]
  split
  · exact q_finishFrame _ _ h
  · exact q_setAgent _ _ h

theorem q_deliver (c : Nat) (out : State × Status × List Byte) (h : Queued out.1) : Queued (deliver c out) := by
  simp only [Machine.deliver, answerInFrame]
  split
  · exact q_advanceFrame _ _ (q_setAgent _ _ h)
  · exact q_takePendingReset _ (q_setAgent _ _ h)

theorem q_linkGoesDown (p : Port) (more : List Byte) (s : State) (h : Queued s) : Queued (linkGoesDown p more s) := by
  simp only [linkGoesDown]
  have h1 : Queued (echoLinkDown p (flushEgress p (loseReception p more (s.setPort p { s.port p with up := false })))) := q_echoLinkDown _ _ (q_flushEgress _ _ (q_loseReception _ _ _ (q_same _ _ _ rfl rfl rfl h)))
  generalize (echoLinkDown p (flushEgress p (loseReception p more (s.setPort p { s.port p with up := false })))) = x at *
  have h2 : Queued (if (x.port p).seenUp then raiseWithHold .linkDown (.port p) true .nothing x else x) := by
    split
    · exact q_raiseWithHold _ _ _ _ _ h1
    · exact h1
  generalize (if (x.port p).seenUp then raiseWithHold .linkDown (.port p) true .nothing x else x) = y at *
  have h3 : Queued (if p.isUplink then reevaluate y.selectedPair .lost none y else y) := by
    split
    · exact q_reevaluate _ _ _ _ h2
    · exact h2
  split
  · exact q_takePendingReset _ h3
  · exact h3

theorem q_logTakeMeaning (n : Byte) (room : Nat) (s : State) (h : Queued s) : Queued (logTakeMeaning n room s).1 := by
  simp only [logTakeMeaning]; (repeat' split) <;> first | exact h | exact q_removeRecords _ _ h
end Sys2Proof.Machine
end

