-- ==== Sys2Proof/Laws/Captures.lean ====
section
/-! SUPPORT. Every shared operation keeps the ingress captures that the ports hold within the range of dates (R14). -/

namespace Sys2Proof.Machine

/-- Every capture that a port holds is a date. -/
def Captured (s : State) : Prop := ∀ p, CapturesOk (s.port p)

theorem Captured.of {s t : State} (h : Captured s) (hp : t.ports = s.ports) : Captured t := fun p => by
  simp only [State.port, hp]; exact h p

/-- A port replaced by one whose captures are dates. -/
theorem cap_setPort (s : State) (p : Port) (u : PortUnit) (hu : CapturesOk u) (h : Captured s) : Captured (s.setPort p u) := by
  intro q
  rw [port_setPort]
  split
  · exact hu
  · exact h q

/-- The captures depend on the frame under reception and the open context only. -/
theorem CapturesOk.same {u v : PortUnit} (h : CapturesOk u) (h1 : v.rx = u.rx) (h2 : v.ctx = u.ctx) : CapturesOk v :=
  ⟨fun r hr => h.frame r (h1 ▸ hr), fun c hc => h.context c (h2 ▸ hc)⟩

theorem cap_same (s : State) (p : Port) (u : PortUnit) (h1 : u.rx = (s.port p).rx) (h2 : u.ctx = (s.port p).ctx)
    (h : Captured s) : Captured (s.setPort p u) := cap_setPort s p u ((h p).same h1 h2) h

theorem cap_count (s : State) (p : Port) (f : Stats → Stats) (h : Captured s) : Captured (s.count p f) :=
  cap_same s p _ rfl rfl h

theorem cap_setRx (p : Port) (r : Option Rx) (s : State) (hr : ∀ x, r = some x → DateOk x.ingress) (h : Captured s) :
    Captured (setRx p r s) := cap_setPort s p _ ⟨hr, (h p).context⟩ h

theorem cap_dropRx (p : Port) (s : State) (h : Captured s) : Captured (setRx p none s) :=
  cap_setRx _ _ _ (fun _ hx => by cases hx) h

theorem cap_keepRx (p : Port) (r : Rx) (s : State) (hr : DateOk r.ingress) (h : Captured s) :
    Captured (setRx p (some r) s) := cap_setRx _ _ _ (fun x hx => by cases hx; exact hr) h

theorem cap_foldl {α : Type} (f : State → α → State) (hf : ∀ t a, Captured t → Captured (f t a)) (s : State)
    (l : List α) (h : Captured s) : Captured (l.foldl f s) := by
  induction l generalizing s with
  | nil => exact h
  | cons a rest ih => exact ih _ (hf _ _ h)

theorem cap_arriving (s : State) (p : Port) (f : FwdFrame → FwdFrame) (h : Captured s) :
    Captured (s.setPort p (onArriving f (s.port p))) := cap_same s p _ rfl rfl h

theorem cap_mapPorts (s : State) (f : PortUnit → PortUnit) (hf : ∀ u, CapturesOk u → CapturesOk (f u)) (h : Captured s) :
    Captured (s.setPorts (s.ports.map f)) := by
  intro p
  have := hf _ (h p)
  cases p <;> exact this

theorem cap_admitFrame (p : Port) (n : Nat) (f : FwdFrame) (s : State) (h : Captured s) : Captured (admitFrame p n f s).1 := by
  simp only [admitFrame]
  split
  · exact cap_same s p _ rfl rfl h
  · exact cap_count _ _ _ h

theorem cap_offerTiming (p : Port) (tag : OrigTag) (n : Nat) (b : List Byte) (s : State) (h : Captured s) :
    Captured (offerTiming p tag n b s).1 := by
  simp only [offerTiming]
  split
  · exact cap_same s p _ rfl rfl h
  · exact cap_count _ _ _ h

theorem cap_offerGeneral (p : Port) (tag : OrigTag) (n : Nat) (b : List Byte) (s : State) (h : Captured s) :
    Captured (offerGeneral p tag n b s).1 := by
  simp only [offerGeneral]
  split
  · exact cap_same s p _ rfl rfl h
  · exact cap_count _ _ _ h

theorem cap_recordEgress (p : Port) (tag : OrigTag) (s : State) (h : Captured s) : Captured (recordEgress p tag s) := by
  refine h.of ?_
  simp only [recordEgress, askPassesEgress, reportPassesEgress]
  (repeat' split) <;> rfl

theorem cap_grantQueued (p : Port) (o : TxFrom) (q : QFrame) (s : State) (h : Captured s) : Captured (grantQueued p o q s) :=
  cap_recordEgress _ _ _ (cap_same _ _ _ rfl rfl h)

theorem cap_arbitrate (p : Port) (s : State) (h : Captured s) : Captured (arbitrate p s) := by
  simp only [arbitrate]
  split
  · exact h
  · split
    · exact cap_grantQueued _ _ _ _ (cap_same _ _ _ rfl rfl h)
    · exact cap_grantQueued _ _ _ _ (cap_same _ _ _ rfl rfl h)
    · exact cap_same _ _ _ rfl rfl (cap_same _ _ _ rfl rfl h)
    · exact h

theorem cap_finishTx (p : Port) (t : Tx) (s : State) (h : Captured s) : Captured (finishTx p t s) :=
  cap_same _ _ _ rfl rfl h

theorem cap_setCfg (s : State) (v : Settings) (h : Captured s) : Captured (s.setCfg v) := h.of rfl

theorem cap_setEchos (s : State) (v : Pair Echo) (h : Captured s) : Captured (s.setEchos v) := h.of rfl

theorem cap_setLanes (s : State) (v : Pair LaneUnit) (h : Captured s) : Captured (s.setLanes v) := h.of rfl

theorem cap_setServo (s : State) (v : Servo) (h : Captured s) : Captured (s.setServo v) := h.of rfl

theorem cap_setMatchTab (s : State) (v : MatchTable) (h : Captured s) : Captured (s.setMatchTab v) := h.of rfl

theorem cap_setLog (s : State) (v : EventLog) (h : Captured s) : Captured (s.setLog v) := h.of rfl

theorem cap_setFrozen (s : State) (v : Option Frozen) (h : Captured s) : Captured (s.setFrozen v) := h.of rfl

theorem cap_setDrift (s : State) (v : DriftMonitor) (h : Captured s) : Captured (s.setDrift v) := h.of rfl

theorem cap_setFaults (s : State) (v : FaultUnit) (h : Captured s) : Captured (s.setFaults v) := h.of rfl

theorem cap_setAgent (s : State) (v : Agent) (h : Captured s) : Captured (s.setAgent v) := h.of rfl

theorem cap_setClock (s : State) (v : Clock) (h : Captured s) : Captured (s.setClock v) := h.of rfl

theorem cap_setRun (s : State) (v : RunState) (h : Captured s) : Captured (s.setRun v) := h.of rfl

theorem cap_setSources (s : State) (v : Vector (Option SourceEntry) 8) (h : Captured s) : Captured (s.setSources v) := h.of rfl

theorem cap_setSource (s : State) (i : Nat) (v : Option SourceEntry) (h : Captured s) : Captured (s.setSource i v) := h.of rfl

theorem cap_setPeer (s : State) (i : Nat) (v : PeerDyn) (h : Captured s) : Captured (s.setPeer i v) := h.of rfl

theorem cap_setForm (s : State) (i : AlertForm) (v : FormState) (h : Captured s) : Captured (s.setForm i v) := h.of rfl

theorem cap_setFault (s : State) (i : FaultKind) (v : FaultRec) (h : Captured s) : Captured (s.setFault i v) := h.of rfl

theorem cap_setEcho (s : State) (p : Port) (v : Echo) (h : Captured s) : Captured (s.setEcho p v) := h.of rfl

theorem cap_setLane (s : State) (p : Lane) (v : LaneUnit) (h : Captured s) : Captured (s.setLane p v) := h.of rfl

theorem cap_watchSecond (s : State) (h : Captured s) : Captured (watchSecond s) := h.of (ports_watchSecond _)

theorem cap_judgePulse (d : Option Nat) (s : State) (h : Captured s) : Captured (judgePulse d s) := h.of (ports_judgePulse _ _)

theorem cap_askPassesEgress (p : Port) (id : Nat) (s : State) (h : Captured s) : Captured (askPassesEgress p id s) :=
  h.of (ports_askPassesEgress _ _ _)

theorem cap_reportPassesEgress (i : Nat) (rack ip : BitVec 32) (s : State) (h : Captured s) : Captured (reportPassesEgress i rack ip s) :=
  h.of (ports_reportPassesEgress _ _ _ _)

theorem cap_suppressAlert (a : AlertForm) (s : State) (h : Captured s) : Captured (suppressAlert a s) :=
  h.of (ports_suppressAlert _ _)

theorem cap_alertEvent (a : AlertForm) (clear : Bool) (subject : Subject) (d : AlertData) (s : State) (h : Captured s) :
    Captured (alertEvent a clear subject d s) := by
  simp only [alertEvent]
  (repeat' split) <;> (repeat' first
      | with_reducible assumption | with_reducible apply cap_offerGeneral | with_reducible apply cap_arbitrate
      | with_reducible apply cap_suppressAlert | with_reducible apply cap_setForm | (refine cap_arriving _ _ _ ?_)
      | (refine cap_same _ _ _ ?_ ?_ ?_) | with_reducible rfl | (simp only [port_setPort, if_true]; done) | simp)

theorem cap_levelNotice (s : State) (h : Captured s) :
    Captured (levelNotice s) := by
  simp only [levelNotice]
  (repeat' split) <;> (repeat' first
      | with_reducible assumption | with_reducible apply cap_alertEvent | with_reducible apply cap_setLog
      | (refine cap_arriving _ _ _ ?_) | (refine cap_same _ _ _ ?_ ?_ ?_) | with_reducible rfl
      | (simp only [port_setPort, if_true]; done) | simp)

theorem cap_offerBare (o : Offer) (s : State) (h : Captured s) :
    Captured (offerBare o s).1 := by
  simp only [offerBare]
  (repeat' split) <;> (repeat' first
      | with_reducible assumption | with_reducible apply cap_levelNotice | with_reducible apply cap_setLog
      | (refine cap_arriving _ _ _ ?_) | (refine cap_same _ _ _ ?_ ?_ ?_) | with_reducible rfl
      | (simp only [port_setPort, if_true]; done) | simp)

theorem cap_activate (k : FaultKind) (subject : Subject) (s : State) (h : Captured s) :
    Captured (activate k subject s) := by
  simp only [activate]
  (repeat' split) <;> (repeat' first
      | with_reducible assumption | with_reducible apply cap_setFault | with_reducible apply cap_count
      | (refine cap_arriving _ _ _ ?_) | (refine cap_same _ _ _ ?_ ?_ ?_) | with_reducible rfl
      | (simp only [port_setPort, if_true]; done) | simp)

theorem cap_countRaise (k : FaultKind) (s : State) (h : Captured s) :
    Captured (countRaise k s) := by
  simp only [countRaise]
  (repeat' split) <;> (repeat' first
      | with_reducible assumption | with_reducible apply cap_setFault | with_reducible apply cap_count
      | (refine cap_arriving _ _ _ ?_) | (refine cap_same _ _ _ ?_ ?_ ?_) | with_reducible rfl
      | (simp only [port_setPort, if_true]; done) | simp)

theorem cap_deactivate (k : FaultKind) (s : State) (h : Captured s) : Captured (deactivate k s) :=
  h.of (ports_deactivate _ _)

theorem cap_faultAlert (k : FaultKind) (clear : Bool) (subject : Subject) (d : AlertData) (s : State) (h : Captured s) :
    Captured (faultAlert k clear subject d s) := by
  simp only [faultAlert]
  (repeat' split) <;> (repeat' first
      | with_reducible assumption | with_reducible apply cap_alertEvent | (refine cap_arriving _ _ _ ?_)
      | (refine cap_same _ _ _ ?_ ?_ ?_) | with_reducible rfl | (simp only [port_setPort, if_true]; done) | simp)

theorem cap_raiseLogFull (s : State) (h : Captured s) :
    Captured (raiseLogFull s) := by
  simp only [raiseLogFull]
  (repeat' split) <;> (repeat' first
      | with_reducible assumption | with_reducible apply cap_watchSecond | with_reducible apply cap_offerBare
      | with_reducible apply cap_activate | with_reducible apply cap_countRaise
      | with_reducible apply cap_faultAlert | (refine cap_arriving _ _ _ ?_) | (refine cap_same _ _ _ ?_ ?_ ?_)
      | with_reducible rfl | (simp only [port_setPort, if_true]; done) | simp)

theorem cap_clearLogFull (s : State) (h : Captured s) :
    Captured (clearLogFull s) := by
  simp only [clearLogFull]
  (repeat' split) <;> (repeat' first
      | with_reducible assumption | with_reducible apply cap_offerBare | with_reducible apply cap_deactivate
      | with_reducible apply cap_faultAlert | with_reducible apply cap_raiseLogFull
      | (refine cap_arriving _ _ _ ?_) | (refine cap_same _ _ _ ?_ ?_ ?_) | with_reducible rfl
      | (simp only [port_setPort, if_true]; done) | simp)

theorem cap_offerRecord (o : Offer) (s : State) (h : Captured s) :
    Captured (offerRecord o s) := by
  simp only [offerRecord]
  (repeat' split) <;> (repeat' first
      | with_reducible assumption | with_reducible apply cap_offerBare | with_reducible apply cap_raiseLogFull
      | with_reducible apply cap_clearLogFull | (refine cap_arriving _ _ _ ?_) | (refine cap_same _ _ _ ?_ ?_ ?_)
      | with_reducible rfl | (simp only [port_setPort, if_true]; done) | simp)

theorem cap_raiseLogFullAgain (s : State) (h : Captured s) :
    Captured (raiseLogFullAgain s) := by
  simp only [raiseLogFullAgain]
  (repeat' split) <;> (repeat' first
      | with_reducible assumption | with_reducible apply cap_watchSecond | with_reducible apply cap_offerBare
      | with_reducible apply cap_activate | with_reducible apply cap_countRaise
      | with_reducible apply cap_faultAlert | with_reducible apply cap_clearLogFull
      | (refine cap_arriving _ _ _ ?_) | (refine cap_same _ _ _ ?_ ?_ ?_) | with_reducible rfl
      | (simp only [port_setPort, if_true]; done) | simp)

theorem cap_raiseFault (k : FaultKind) (subject : Subject) (record : Bool) (d : AlertData) (s : State) (h : Captured s) :
    Captured (raiseFault k subject record d s) := by
  simp only [raiseFault]
  (repeat' split) <;> (repeat' first
      | with_reducible assumption | with_reducible apply cap_watchSecond | with_reducible apply cap_activate
      | with_reducible apply cap_countRaise | with_reducible apply cap_faultAlert
      | with_reducible apply cap_offerRecord | (refine cap_arriving _ _ _ ?_) | (refine cap_same _ _ _ ?_ ?_ ?_)
      | with_reducible rfl | (simp only [port_setPort, if_true]; done) | simp)

theorem cap_clearFault (k : FaultKind) (subject : Subject) (record : Bool) (d : AlertData) (s : State) (h : Captured s) :
    Captured (clearFault k subject record d s) := by
  simp only [clearFault]
  (repeat' split) <;> (repeat' first
      | with_reducible assumption | with_reducible apply cap_deactivate | with_reducible apply cap_faultAlert
      | with_reducible apply cap_offerRecord | (refine cap_arriving _ _ _ ?_) | (refine cap_same _ _ _ ?_ ?_ ?_)
      | with_reducible rfl | (simp only [port_setPort, if_true]; done) | simp)

theorem cap_handRate (r : Int) (s : State) (h : Captured s) : Captured (handRate r s) := h.of (ports_handRate _ _)

theorem cap_setServoState (st : ServoState) (s : State) (h : Captured s) : Captured (setServoState st s) :=
  h.of (ports_setServoState _ _)

theorem cap_offerState (old : ServoState) (s : State) (h : Captured s) :
    Captured (offerState old s) := by
  simp only [offerState]
  (repeat' split) <;> (repeat' first
      | with_reducible assumption | with_reducible apply cap_offerRecord | (refine cap_arriving _ _ _ ?_)
      | (refine cap_same _ _ _ ?_ ?_ ?_) | with_reducible rfl | (simp only [port_setPort, if_true]; done) | simp)

theorem cap_servoFollows (s : State) (h : Captured s) : Captured (servoFollows s) := h.of (ports_servoFollows _)

theorem cap_servoSwitches (s : State) (h : Captured s) : Captured (servoSwitches s) := h.of (ports_servoSwitches _)

theorem cap_servoHolds (s : State) (h : Captured s) : Captured (servoHolds s) := h.of (ports_servoHolds _)

theorem cap_setSourceState (i : Nat) (st : SourceState) (s : State) (h : Captured s) : Captured (setSourceState i st s) :=
  h.of (ports_setSourceState _ _ _)

theorem cap_unselect (i : Nat) (s : State) (h : Captured s) : Captured (unselect i s) := h.of (ports_unselect _ _)

theorem cap_clearHoldoverExpired (s : State) (h : Captured s) :
    Captured (clearHoldoverExpired s) := by
  simp only [clearHoldoverExpired]
  (repeat' split) <;> (repeat' first
      | with_reducible assumption | with_reducible apply cap_clearFault | (refine cap_arriving _ _ _ ?_)
      | (refine cap_same _ _ _ ?_ ?_ ?_) | with_reducible rfl | (simp only [port_setPort, if_true]; done) | simp)

theorem cap_offerStateIfChanged (before : ServoState) (s : State) (h : Captured s) :
    Captured (offerStateIfChanged before s) := by
  simp only [offerStateIfChanged]
  (repeat' split) <;> (repeat' first
      | with_reducible assumption | with_reducible apply cap_offerState | (refine cap_arriving _ _ _ ?_)
      | (refine cap_same _ _ _ ?_ ?_ ?_) | with_reducible rfl | (simp only [port_setPort, if_true]; done) | simp)

theorem cap_select (old : Option (Nat × SourceEntry)) (new : Nat × SourceEntry) (reason : Reason) (sampled : Bool) (s : State) (h : Captured s) :
    Captured (select old new reason sampled s) := by
  simp only [select]
  (repeat' split) <;> (repeat' first
      | with_reducible assumption | with_reducible apply cap_offerRecord | with_reducible apply cap_clearFault
      | with_reducible apply cap_servoFollows | with_reducible apply cap_servoSwitches
      | with_reducible apply cap_setSourceState | with_reducible apply cap_unselect
      | with_reducible apply cap_clearHoldoverExpired | with_reducible apply cap_offerStateIfChanged
      | (refine cap_arriving _ _ _ ?_) | (refine cap_same _ _ _ ?_ ?_ ?_) | with_reducible rfl
      | (simp only [port_setPort, if_true]; done) | simp)

theorem cap_endSelection (old : Nat × SourceEntry) (reason : Reason) (s : State) (h : Captured s) :
    Captured (endSelection old reason s) := by
  simp only [endSelection]
  (repeat' split) <;> (repeat' first
      | with_reducible assumption | with_reducible apply cap_offerRecord | with_reducible apply cap_raiseFault
      | with_reducible apply cap_servoHolds | with_reducible apply cap_unselect
      | with_reducible apply cap_offerStateIfChanged | (refine cap_arriving _ _ _ ?_)
      | (refine cap_same _ _ _ ?_ ?_ ?_) | with_reducible rfl | (simp only [port_setPort, if_true]; done) | simp)

theorem cap_reevaluate (old : Option (Nat × SourceEntry)) (why : Reason) (own : Option Nat) (s : State) (h : Captured s) :
    Captured (reevaluate old why own s) := by
  simp only [reevaluate]
  (repeat' split) <;> (repeat' first
      | with_reducible assumption | with_reducible apply cap_select | with_reducible apply cap_endSelection
      | (refine cap_arriving _ _ _ ?_) | (refine cap_same _ _ _ ?_ ?_ ?_) | with_reducible rfl
      | (simp only [port_setPort, if_true]; done) | simp)

theorem cap_reevaluateOnHold (before : Bool) (s : State) (h : Captured s) :
    Captured (reevaluateOnHold before s) := by
  simp only [reevaluateOnHold]
  (repeat' split) <;> (repeat' first
      | with_reducible assumption | with_reducible apply cap_reevaluate | (refine cap_arriving _ _ _ ?_)
      | (refine cap_same _ _ _ ?_ ?_ ?_) | with_reducible rfl | (simp only [port_setPort, if_true]; done) | simp)

theorem cap_raiseWithHold (k : FaultKind) (subject : Subject) (record : Bool) (d : AlertData) (s : State) (h : Captured s) :
    Captured (raiseWithHold k subject record d s) := by
  simp only [raiseWithHold]
  (repeat' split) <;> (repeat' first
      | with_reducible assumption | with_reducible apply cap_raiseFault
      | with_reducible apply cap_reevaluateOnHold | (refine cap_arriving _ _ _ ?_)
      | (refine cap_same _ _ _ ?_ ?_ ?_) | with_reducible rfl | (simp only [port_setPort, if_true]; done) | simp)

theorem cap_clearWithHold (k : FaultKind) (subject : Subject) (record : Bool) (d : AlertData) (s : State) (h : Captured s) :
    Captured (clearWithHold k subject record d s) := by
  simp only [clearWithHold]
  (repeat' split) <;> (repeat' first
      | with_reducible assumption | with_reducible apply cap_clearFault
      | with_reducible apply cap_reevaluateOnHold | (refine cap_arriving _ _ _ ?_)
      | (refine cap_same _ _ _ ?_ ?_ ?_) | with_reducible rfl | (simp only [port_setPort, if_true]; done) | simp)

theorem cap_secondPulse (s : State) (h : Captured s) : Captured (secondPulse s) := h.of (ports_secondPulse _)

theorem cap_performSwap (s : State) (h : Captured s) : Captured (performSwap s) := h.of (ports_performSwap _)

theorem cap_armedSwap (s : State) (h : Captured s) : Captured (armedSwap s) := h.of (ports_armedSwap _)

theorem cap_secondBoundary (s : State) (h : Captured s) : Captured (secondBoundary s) := h.of (ports_secondBoundary _)

theorem cap_stepTo (moved : Date × Bool) (s : State) (h : Captured s) : Captured (stepTo moved s) :=
  h.of (ports_stepTo _ _)

theorem cap_forwardStep (amount : Nat) (s : State) (h : Captured s) : Captured (forwardStep amount s) :=
  h.of (ports_forwardStep _ _)

theorem cap_load (d : Date) (s : State) (h : Captured s) : Captured (load d s) := h.of (ports_load _ _)

theorem cap_uptimeSecond (s : State) (h : Captured s) : Captured (uptimeSecond s) := h.of (ports_uptimeSecond _)

theorem cap_rememberStamp (d : SN) (s : State) (h : Captured s) : Captured (rememberStamp d s) :=
  h.of (ports_rememberStamp _ _)

theorem cap_leaveLocked (s : State) (h : Captured s) :
    Captured (leaveLocked s) := by
  simp only [leaveLocked]
  (repeat' split) <;> (repeat' first
      | with_reducible assumption | with_reducible apply cap_setServoState | with_reducible apply cap_offerState
      | with_reducible apply cap_setServo | (refine cap_arriving _ _ _ ?_) | (refine cap_same _ _ _ ?_ ?_ ?_)
      | with_reducible rfl | (simp only [port_setPort, if_true]; done) | simp)

theorem cap_afterStep (amount : Nat) (s : State) (h : Captured s) :
    Captured (afterStep amount s) := by
  simp only [afterStep]
  (repeat' split) <;> (repeat' first
      | with_reducible assumption | with_reducible apply cap_offerRecord | with_reducible apply cap_leaveLocked
      | with_reducible apply cap_setServo | (refine cap_arriving _ _ _ ?_) | (refine cap_same _ _ _ ?_ ?_ ?_)
      | with_reducible rfl | (simp only [port_setPort, if_true]; done) | simp)

theorem cap_servoStep (amount : Nat) (s : State) (h : Captured s) :
    Captured (servoStep amount s) := by
  simp only [servoStep]
  (repeat' split) <;> (repeat' first
      | with_reducible assumption | with_reducible apply cap_forwardStep | with_reducible apply cap_afterStep
      | (refine cap_arriving _ _ _ ?_) | (refine cap_same _ _ _ ?_ ?_ ?_) | with_reducible rfl
      | (simp only [port_setPort, if_true]; done) | simp)

theorem cap_startCatchDown (s : State) (h : Captured s) :
    Captured (startCatchDown s) := by
  simp only [startCatchDown]
  (repeat' split) <;> (repeat' first
      | with_reducible assumption | with_reducible apply cap_handRate | with_reducible apply cap_leaveLocked
      | with_reducible apply cap_setServo | (refine cap_arriving _ _ _ ?_) | (refine cap_same _ _ _ ?_ ?_ ?_)
      | with_reducible rfl | (simp only [port_setPort, if_true]; done) | simp)

theorem cap_filterUpdate (theta k : Int) (s : State) (h : Captured s) :
    Captured (filterUpdate theta k s) := by
  simp only [filterUpdate]
  (repeat' split) <;> (repeat' first
      | with_reducible assumption | with_reducible apply cap_handRate | with_reducible apply cap_raiseWithHold
      | with_reducible apply cap_setServo | (refine cap_arriving _ _ _ ?_) | (refine cap_same _ _ _ ?_ ?_ ?_)
      | with_reducible rfl | (simp only [port_setPort, if_true]; done) | simp)

theorem cap_lockCounting (theta : Int) (s : State) (h : Captured s) :
    Captured (lockCounting theta s) := by
  simp only [lockCounting]
  (repeat' split) <;> (repeat' first
      | with_reducible assumption | with_reducible apply cap_setServoState | with_reducible apply cap_offerState
      | with_reducible apply cap_leaveLocked | with_reducible apply cap_setServo | (refine cap_arriving _ _ _ ?_)
      | (refine cap_same _ _ _ ?_ ?_ ?_) | with_reducible rfl | (simp only [port_setPort, if_true]; done) | simp)

theorem cap_sampleInUnset (x : ServoSample) (s : State) (h : Captured s) :
    Captured (sampleInUnset x s) := by
  simp only [sampleInUnset]
  (repeat' split) <;> (repeat' first
      | with_reducible assumption | with_reducible apply cap_setServoState | with_reducible apply cap_offerState
      | with_reducible apply cap_load | with_reducible apply cap_setServo | (refine cap_arriving _ _ _ ?_)
      | (refine cap_same _ _ _ ?_ ?_ ?_) | with_reducible rfl | (simp only [port_setPort, if_true]; done) | simp)

theorem cap_filterAndLock (x : ServoSample) (s : State) (h : Captured s) :
    Captured (filterAndLock x s) := by
  simp only [filterAndLock]
  (repeat' split) <;> (repeat' first
      | with_reducible assumption | with_reducible apply cap_filterUpdate | with_reducible apply cap_lockCounting
      | (refine cap_arriving _ _ _ ?_) | (refine cap_same _ _ _ ?_ ?_ ?_) | with_reducible rfl
      | (simp only [port_setPort, if_true]; done) | simp)

theorem cap_sampleInCatchDown (x : ServoSample) (s : State) (h : Captured s) :
    Captured (sampleInCatchDown x s) := by
  simp only [sampleInCatchDown]
  (repeat' split) <;> (repeat' first
      | with_reducible assumption | with_reducible apply cap_handRate | with_reducible apply cap_servoStep
      | with_reducible apply cap_filterAndLock | with_reducible apply cap_setServo
      | (refine cap_arriving _ _ _ ?_) | (refine cap_same _ _ _ ?_ ?_ ?_) | with_reducible rfl
      | (simp only [port_setPort, if_true]; done) | simp)

theorem cap_sampleOutside (x : ServoSample) (s : State) (h : Captured s) :
    Captured (sampleOutside x s) := by
  simp only [sampleOutside]
  (repeat' split) <;> (repeat' first
      | with_reducible assumption | with_reducible apply cap_servoStep | with_reducible apply cap_startCatchDown
      | with_reducible apply cap_filterAndLock | (refine cap_arriving _ _ _ ?_) | (refine cap_same _ _ _ ?_ ?_ ?_)
      | with_reducible rfl | (simp only [port_setPort, if_true]; done) | simp)

theorem cap_sampleInFollow (x : ServoSample) (s : State) (h : Captured s) :
    Captured (sampleInFollow x s) := by
  simp only [sampleInFollow]
  (repeat' split) <;> (repeat' first
      | with_reducible assumption | with_reducible apply cap_sampleInCatchDown
      | with_reducible apply cap_sampleOutside | with_reducible apply cap_setServo
      | (refine cap_arriving _ _ _ ?_) | (refine cap_same _ _ _ ?_ ?_ ?_) | with_reducible rfl
      | (simp only [port_setPort, if_true]; done) | simp)

theorem cap_takeSample (x : ServoSample) (s : State) (h : Captured s) :
    Captured (takeSample x s) := by
  simp only [takeSample]
  (repeat' split) <;> (repeat' first
      | with_reducible assumption | with_reducible apply cap_sampleInUnset
      | with_reducible apply cap_sampleInFollow | (refine cap_arriving _ _ _ ?_)
      | (refine cap_same _ _ _ ?_ ?_ ?_) | with_reducible rfl | (simp only [port_setPort, if_true]; done) | simp)

theorem cap_expireHoldover (s : State) (h : Captured s) :
    Captured (expireHoldover s) := by
  simp only [expireHoldover]
  (repeat' split) <;> (repeat' first
      | with_reducible assumption | with_reducible apply cap_watchSecond | with_reducible apply cap_offerState
      | with_reducible apply cap_raiseWithHold | with_reducible apply cap_setServo
      | (refine cap_arriving _ _ _ ?_) | (refine cap_same _ _ _ ?_ ?_ ?_) | with_reducible rfl
      | (simp only [port_setPort, if_true]; done) | simp)

theorem cap_unexpireHoldover (s : State) (h : Captured s) :
    Captured (unexpireHoldover s) := by
  simp only [unexpireHoldover]
  (repeat' split) <;> (repeat' first
      | with_reducible assumption | with_reducible apply cap_offerState | with_reducible apply cap_clearWithHold
      | with_reducible apply cap_setServo | (refine cap_arriving _ _ _ ?_) | (refine cap_same _ _ _ ?_ ?_ ?_)
      | with_reducible rfl | (simp only [port_setPort, if_true]; done) | simp)

theorem cap_judgeHoldover (s : State) (h : Captured s) :
    Captured (judgeHoldover s) := by
  simp only [judgeHoldover]
  (repeat' split) <;> (repeat' first
      | with_reducible assumption | with_reducible apply cap_expireHoldover
      | with_reducible apply cap_unexpireHoldover | (refine cap_arriving _ _ _ ?_)
      | (refine cap_same _ _ _ ?_ ?_ ?_) | with_reducible rfl | (simp only [port_setPort, if_true]; done) | simp)

theorem cap_clampF (s : State) (h : Captured s) : Captured (clampF s) := h.of (ports_clampF _)

theorem cap_applyServo (p : ServoParams) (width limit : Nat) (s : State) (h : Captured s) :
    Captured (applyServo p width limit s) := by
  simp only [applyServo]
  (repeat' split) <;> (repeat' first
      | with_reducible assumption | with_reducible apply cap_judgePulse | with_reducible apply cap_handRate
      | with_reducible apply cap_judgeHoldover | with_reducible apply cap_clampF | with_reducible apply cap_setCfg
      | (refine cap_arriving _ _ _ ?_) | (refine cap_same _ _ _ ?_ ?_ ?_) | with_reducible rfl
      | (simp only [port_setPort, if_true]; done) | simp)

theorem cap_setDateTo (d : SN) (s : State) (h : Captured s) :
    Captured (setDateTo d s).1 := by
  simp only [setDateTo]
  (repeat' split) <;> (repeat' first
      | with_reducible assumption | with_reducible apply cap_offerRecord | with_reducible apply cap_setServoState
      | with_reducible apply cap_offerState | with_reducible apply cap_forwardStep | with_reducible apply cap_load
      | (refine cap_arriving _ _ _ ?_) | (refine cap_same _ _ _ ?_ ?_ ?_) | with_reducible rfl
      | (simp only [port_setPort, if_true]; done) | simp)

theorem cap_setTrimTo (f : Int) (s : State) (h : Captured s) : Captured (setTrimTo f s).1 :=
  h.of (ports_setTrimTo _ _)

theorem cap_loadTrim (s : State) (h : Captured s) : Captured (loadTrim s) := h.of (ports_loadTrim _)

theorem cap_servoSoftReset (s : State) (h : Captured s) :
    Captured (servoSoftReset s) := by
  simp only [servoSoftReset]
  (repeat' split) <;> (repeat' first
      | with_reducible assumption | with_reducible apply cap_handRate | with_reducible apply cap_offerState
      | with_reducible apply cap_servoHolds | with_reducible apply cap_setServo | (refine cap_arriving _ _ _ ?_)
      | (refine cap_same _ _ _ ?_ ?_ ?_) | with_reducible rfl | (simp only [port_setPort, if_true]; done) | simp)

theorem cap_forwardWhole (w : Whole) (edit : Edit) (s : State) (h : Captured s) :
    Captured (forwardWhole w edit s) := by
  simp only [forwardWhole]
  (repeat' split) <;> (repeat' first
      | with_reducible assumption | with_reducible apply cap_admitFrame | with_reducible apply cap_arbitrate
      | (refine cap_arriving _ _ _ ?_) | (refine cap_same _ _ _ ?_ ?_ ?_) | with_reducible rfl
      | (simp only [port_setPort, if_true]; done) | simp)

theorem cap_takeInterval (p : Port) (s : State) (h : Captured s) :
    Captured (takeInterval p s) := by
  simp only [takeInterval]
  (repeat' split) <;> (repeat' first
      | with_reducible assumption | with_reducible apply cap_offerTiming | with_reducible apply cap_arbitrate
      | with_reducible apply cap_setEcho | (refine cap_arriving _ _ _ ?_) | (refine cap_same _ _ _ ?_ ?_ ?_)
      | with_reducible rfl | (simp only [port_setPort, if_true]; done) | simp)

theorem cap_restartInterval (p : Port) (s : State) (h : Captured s) : Captured (restartInterval p s) :=
  h.of (ports_restartInterval _ _)

theorem cap_startEcho (p : Port) (s : State) (h : Captured s) :
    Captured (startEcho p s) := by
  simp only [startEcho]
  (repeat' split) <;> (repeat' first
      | with_reducible assumption | with_reducible apply cap_takeInterval
      | with_reducible apply cap_restartInterval | (refine cap_arriving _ _ _ ?_)
      | (refine cap_same _ _ _ ?_ ?_ ?_) | with_reducible rfl | (simp only [port_setPort, if_true]; done) | simp)

theorem cap_takeDelay (p : Port) (x : Nat) (s : State) (h : Captured s) : Captured (takeDelay p x s) :=
  h.of (ports_takeDelay _ _ _)

theorem cap_endExchange (w : Whole) (s : State) (h : Captured s) :
    Captured (endExchange w s) := by
  simp only [endExchange]
  (repeat' split) <;> (repeat' first
      | with_reducible assumption | with_reducible apply cap_takeDelay | with_reducible apply cap_setEcho
      | with_reducible apply cap_count | (refine cap_arriving _ _ _ ?_) | (refine cap_same _ _ _ ?_ ?_ ?_)
      | with_reducible rfl | (simp only [port_setPort, if_true]; done) | simp)

theorem cap_answerReceived (w : Whole) (s : State) (h : Captured s) :
    Captured (answerReceived w s) := by
  simp only [answerReceived]
  (repeat' split) <;> (repeat' first
      | with_reducible assumption | with_reducible apply cap_endExchange | with_reducible apply cap_count
      | (refine cap_arriving _ _ _ ?_) | (refine cap_same _ _ _ ?_ ?_ ?_) | with_reducible rfl
      | (simp only [port_setPort, if_true]; done) | simp)

theorem cap_echoTimesOut (p : Port) (s : State) (h : Captured s) :
    Captured (echoTimesOut p s) := by
  simp only [echoTimesOut]
  (repeat' split) <;> (repeat' first
      | with_reducible assumption | with_reducible apply cap_setEcho | with_reducible apply cap_count
      | (refine cap_arriving _ _ _ ?_) | (refine cap_same _ _ _ ?_ ?_ ?_) | with_reducible rfl
      | (simp only [port_setPort, if_true]; done) | simp)

theorem cap_echoLinkDown (p : Port) (s : State) (h : Captured s) : Captured (echoLinkDown p s) :=
  h.of (ports_echoLinkDown _ _)

theorem cap_echoLinkUp (p : Port) (s : State) (h : Captured s) :
    Captured (echoLinkUp p s) := by
  simp only [echoLinkUp]
  (repeat' split) <;> (repeat' first
      | with_reducible assumption | with_reducible apply cap_startEcho | with_reducible apply cap_setEcho
      | (refine cap_arriving _ _ _ ?_) | (refine cap_same _ _ _ ?_ ?_ ?_) | with_reducible rfl
      | (simp only [port_setPort, if_true]; done) | simp)

theorem cap_echoRewritten (p : Port) (old : PortRec) (s : State) (h : Captured s) :
    Captured (echoRewritten p old s) := by
  simp only [echoRewritten]
  (repeat' split) <;> (repeat' first
      | with_reducible assumption | with_reducible apply cap_restartInterval | with_reducible apply cap_startEcho
      | with_reducible apply cap_setEcho | (refine cap_arriving _ _ _ ?_) | (refine cap_same _ _ _ ?_ ?_ ?_)
      | with_reducible rfl | (simp only [port_setPort, if_true]; done) | simp)

theorem cap_clearStale (p : Port) (s : State) (h : Captured s) : Captured (clearStale p s) :=
  h.of (ports_clearStale _ _)

theorem cap_answerAsk (w : Whole) (s : State) (h : Captured s) :
    Captured (answerAsk w s) := by
  simp only [answerAsk]
  (repeat' split) <;> (repeat' first
      | with_reducible assumption | with_reducible apply cap_offerTiming | with_reducible apply cap_arbitrate
      | (refine cap_arriving _ _ _ ?_) | (refine cap_same _ _ _ ?_ ?_ ?_) | with_reducible rfl
      | (simp only [port_setPort, if_true]; done) | simp)

theorem cap_handleAsk (w : Whole) (s : State) (h : Captured s) :
    Captured (handleAsk w s) := by
  simp only [handleAsk]
  (repeat' split) <;> (repeat' first
      | with_reducible assumption | with_reducible apply cap_forwardWhole | with_reducible apply cap_answerAsk
      | (refine cap_arriving _ _ _ ?_) | (refine cap_same _ _ _ ?_ ?_ ?_) | with_reducible rfl
      | (simp only [port_setPort, if_true]; done) | simp)

theorem cap_handleAnswer (w : Whole) (s : State) (h : Captured s) :
    Captured (handleAnswer w s) := by
  simp only [handleAnswer]
  (repeat' split) <;> (repeat' first
      | with_reducible assumption | with_reducible apply cap_forwardWhole
      | with_reducible apply cap_answerReceived | (refine cap_arriving _ _ _ ?_)
      | (refine cap_same _ _ _ ?_ ?_ ?_) | with_reducible rfl | (simp only [port_setPort, if_true]; done) | simp)

theorem cap_afterBeacon (w : Whole) (i p : Nat) (a : Int) (old : Option (Nat × SourceEntry)) (s : State) (h : Captured s) :
    Captured (afterBeacon w i p a old s) := by
  simp only [afterBeacon]
  (repeat' split) <;> (repeat' first
      | with_reducible assumption | with_reducible apply cap_watchSecond | with_reducible apply cap_reevaluate
      | with_reducible apply cap_takeSample | with_reducible apply cap_setSource | (refine cap_arriving _ _ _ ?_)
      | (refine cap_same _ _ _ ?_ ?_ ?_) | with_reducible rfl | (simp only [port_setPort, if_true]; done) | simp)

theorem cap_beaconIntoTable (w : Whole) (s : State) (h : Captured s) :
    Captured (beaconIntoTable w s) := by
  simp only [beaconIntoTable]
  (repeat' split) <;> (repeat' first
      | with_reducible assumption | with_reducible apply cap_afterBeacon | with_reducible apply cap_setSource
      | with_reducible apply cap_count | (refine cap_arriving _ _ _ ?_) | (refine cap_same _ _ _ ?_ ?_ ?_)
      | with_reducible rfl | (simp only [port_setPort, if_true]; done) | simp)

theorem cap_goStale (i : Nat) (s : State) (h : Captured s) :
    Captured (goStale i s) := by
  simp only [goStale]
  (repeat' split) <;> (repeat' first
      | with_reducible assumption | with_reducible apply cap_setSourceState | with_reducible apply cap_reevaluate
      | (refine cap_arriving _ _ _ ?_) | (refine cap_same _ _ _ ?_ ?_ ?_) | with_reducible rfl
      | (simp only [port_setPort, if_true]; done) | simp)

theorem cap_afterBar (old : Option (Nat × SourceEntry)) (s : State) (h : Captured s) :
    Captured (afterBar old s) := by
  simp only [afterBar]
  (repeat' split) <;> (repeat' first
      | with_reducible assumption | with_reducible apply cap_reevaluate | (refine cap_arriving _ _ _ ?_)
      | (refine cap_same _ _ _ ?_ ?_ ?_) | with_reducible rfl | (simp only [port_setPort, if_true]; done) | simp)

theorem cap_endBar (i : Nat) (e : SourceEntry) (s : State) (h : Captured s) :
    Captured (endBar i e s) := by
  simp only [endBar]
  (repeat' split) <;> (repeat' first
      | with_reducible assumption | with_reducible apply cap_afterBar | with_reducible apply cap_setSource
      | (refine cap_arriving _ _ _ ?_) | (refine cap_same _ _ _ ?_ ?_ ?_) | with_reducible rfl
      | (simp only [port_setPort, if_true]; done) | simp)

theorem cap_setBar (i : Nat) (e : SourceEntry) (seconds : Nat) (s : State) (h : Captured s) :
    Captured (setBar i e seconds s) := by
  simp only [setBar]
  (repeat' split) <;> (repeat' first
      | with_reducible assumption | with_reducible apply cap_afterBar | with_reducible apply cap_setSource
      | (refine cap_arriving _ _ _ ?_) | (refine cap_same _ _ _ ?_ ?_ ?_) | with_reducible rfl
      | (simp only [port_setPort, if_true]; done) | simp)

theorem cap_barEntry (i : Nat) (e : SourceEntry) (seconds : Nat) (s : State) (h : Captured s) :
    Captured (barEntry i e seconds s) := by
  simp only [barEntry]
  (repeat' split) <;> (repeat' first
      | with_reducible assumption | with_reducible apply cap_endBar | with_reducible apply cap_setBar
      | (refine cap_arriving _ _ _ ?_) | (refine cap_same _ _ _ ?_ ?_ ?_) | with_reducible rfl
      | (simp only [port_setPort, if_true]; done) | simp)

theorem cap_barSelected (seconds : Nat) (s : State) (h : Captured s) :
    Captured (barSelected seconds s) := by
  simp only [barSelected]
  (repeat' split) <;> (repeat' first
      | with_reducible assumption | with_reducible apply cap_barEntry | (refine cap_arriving _ _ _ ?_)
      | (refine cap_same _ _ _ ?_ ?_ ?_) | with_reducible rfl | (simp only [port_setPort, if_true]; done) | simp)

theorem cap_transitBeacon (w : Whole) (p : Nat) (s : State) (h : Captured s) :
    Captured (transitBeacon w p s) := by
  simp only [transitBeacon]
  (repeat' split) <;> (repeat' first
      | with_reducible assumption | with_reducible apply cap_forwardWhole | with_reducible apply cap_setLane
      | (refine cap_arriving _ _ _ ?_) | (refine cap_same _ _ _ ?_ ?_ ?_) | with_reducible rfl
      | (simp only [port_setPort, if_true]; done) | simp)

theorem cap_beaconUnit (w : Whole) (p : Nat) (s : State) (h : Captured s) :
    Captured (beaconUnit w p s) := by
  simp only [beaconUnit]
  (repeat' split) <;> (repeat' first
      | with_reducible assumption | with_reducible apply cap_forwardWhole | with_reducible apply cap_transitBeacon
      | (refine cap_arriving _ _ _ ?_) | (refine cap_same _ _ _ ?_ ?_ ?_) | with_reducible rfl
      | (simp only [port_setPort, if_true]; done) | simp)

theorem cap_handleBeacon (w : Whole) (s : State) (h : Captured s) :
    Captured (handleBeacon w s) := by
  simp only [handleBeacon]
  (repeat' split) <;> (repeat' first
      | with_reducible assumption | with_reducible apply cap_beaconIntoTable | with_reducible apply cap_beaconUnit
      | (refine cap_arriving _ _ _ ?_) | (refine cap_same _ _ _ ?_ ?_ ?_) | with_reducible rfl
      | (simp only [port_setPort, if_true]; done) | simp)

theorem cap_recordEmission (l : Lane) (instant : SN) (e : Emission) (s : State) (h : Captured s) : Captured (recordEmission l instant e s) :=
  h.of (ports_recordEmission _ _ _ _)

theorem cap_originate (l : Lane) (instant : SN) (s : State) (h : Captured s) :
    Captured (originate l instant s) := by
  simp only [originate]
  (repeat' split) <;> (repeat' first
      | with_reducible assumption | with_reducible apply cap_offerTiming | with_reducible apply cap_arbitrate
      | with_reducible apply cap_recordEmission | with_reducible apply cap_setLane
      | (refine cap_arriving _ _ _ ?_) | (refine cap_same _ _ _ ?_ ?_ ?_) | with_reducible rfl
      | (simp only [port_setPort, if_true]; done) | simp)

theorem cap_laneInstant (l : Lane) (old new : Date) (s : State) (h : Captured s) :
    Captured (laneInstant l old new s) := by
  simp only [laneInstant]
  (repeat' split) <;> (repeat' first
      | with_reducible assumption | with_reducible apply cap_originate | (refine cap_arriving _ _ _ ?_)
      | (refine cap_same _ _ _ ?_ ?_ ?_) | with_reducible rfl | (simp only [port_setPort, if_true]; done) | simp)

theorem cap_startReports (s : State) (h : Captured s) : Captured (startReports s) := h.of (ports_startReports _)

theorem cap_nextSlot (s : State) (h : Captured s) : Captured (nextSlot s) := h.of (ports_nextSlot _)

theorem cap_reportNotSent (i : Nat) (s : State) (h : Captured s) : Captured (reportNotSent i s) :=
  h.of (ports_reportNotSent _ _)

theorem cap_reportSent (i : Nat) (s : State) (h : Captured s) : Captured (reportSent i s) :=
  h.of (ports_reportSent _ _)

theorem cap_sendReport (i : Nat) (s : State) (h : Captured s) :
    Captured (sendReport i s) := by
  simp only [sendReport]
  (repeat' split) <;> (repeat' first
      | with_reducible assumption | with_reducible apply cap_offerTiming | with_reducible apply cap_arbitrate
      | with_reducible apply cap_reportNotSent | with_reducible apply cap_reportSent
      | (refine cap_arriving _ _ _ ?_) | (refine cap_same _ _ _ ?_ ?_ ?_) | with_reducible rfl
      | (simp only [port_setPort, if_true]; done) | simp)

theorem cap_setSelfDrift (v : Verdict) (s : State) (h : Captured s) :
    Captured (setSelfDrift v s) := by
  simp only [setSelfDrift]
  (repeat' split) <;> (repeat' first
      | with_reducible assumption | with_reducible apply cap_offerRecord | with_reducible apply cap_raiseWithHold
      | with_reducible apply cap_barSelected | with_reducible apply cap_setDrift | (refine cap_arriving _ _ _ ?_)
      | (refine cap_same _ _ _ ?_ ?_ ?_) | with_reducible rfl | (simp only [port_setPort, if_true]; done) | simp)

theorem cap_clearSelfDrift (v : Verdict) (e : Episode) (s : State) (h : Captured s) :
    Captured (clearSelfDrift v e s) := by
  simp only [clearSelfDrift]
  (repeat' split) <;> (repeat' first
      | with_reducible assumption | with_reducible apply cap_offerRecord | with_reducible apply cap_clearWithHold
      | with_reducible apply cap_setDrift | (refine cap_arriving _ _ _ ?_) | (refine cap_same _ _ _ ?_ ?_ ?_)
      | with_reducible rfl | (simp only [port_setPort, if_true]; done) | simp)

theorem cap_judgeSelf (s : State) (h : Captured s) :
    Captured (judgeSelf s) := by
  simp only [judgeSelf]
  (repeat' split) <;> (repeat' first
      | with_reducible assumption | with_reducible apply cap_setSelfDrift
      | with_reducible apply cap_clearSelfDrift | with_reducible apply cap_setDrift
      | (refine cap_arriving _ _ _ ?_) | (refine cap_same _ _ _ ?_ ?_ ?_) | with_reducible rfl
      | (simp only [port_setPort, if_true]; done) | simp)

theorem cap_warnPeer (i : Nat) (vote : Vote) (s : State) (h : Captured s) :
    Captured (warnPeer i vote s) := by
  simp only [warnPeer]
  (repeat' split) <;> (repeat' first
      | with_reducible assumption | with_reducible apply cap_offerRecord | with_reducible apply cap_raiseWithHold
      | with_reducible apply cap_setPeer | (refine cap_arriving _ _ _ ?_) | (refine cap_same _ _ _ ?_ ?_ ?_)
      | with_reducible rfl | (simp only [port_setPort, if_true]; done) | simp)

theorem cap_unwarnPeer (i : Nat) (vote : Vote) (s : State) (h : Captured s) :
    Captured (unwarnPeer i vote s) := by
  simp only [unwarnPeer]
  (repeat' split) <;> (repeat' first
      | with_reducible assumption | with_reducible apply cap_offerRecord | with_reducible apply cap_setPeer
      | (refine cap_arriving _ _ _ ?_) | (refine cap_same _ _ _ ?_ ?_ ?_) | with_reducible rfl
      | (simp only [port_setPort, if_true]; done) | simp)

theorem cap_judgePeer (s : State) (i : Nat) (h : Captured s) :
    Captured (judgePeer s i) := by
  simp only [judgePeer]
  (repeat' split) <;> (repeat' first
      | with_reducible assumption | with_reducible apply cap_warnPeer | with_reducible apply cap_unwarnPeer
      | (refine cap_arriving _ _ _ ?_) | (refine cap_same _ _ _ ?_ ?_ ?_) | with_reducible rfl
      | (simp only [port_setPort, if_true]; done) | simp)

theorem cap_judgeRack (s : State) (h : Captured s) :
    Captured (judgeRack s) := by
  simp only [judgeRack]
  (repeat' split) <;> (repeat' first
      | with_reducible assumption | (with_reducible apply cap_foldl; intro t _ ht)
      | with_reducible apply cap_judgeSelf | with_reducible apply cap_judgePeer | (refine cap_arriving _ _ _ ?_)
      | (refine cap_same _ _ _ ?_ ?_ ?_) | with_reducible rfl | (simp only [port_setPort, if_true]; done) | simp)

theorem cap_reportReceived (w : Whole) (s : State) (h : Captured s) :
    Captured (reportReceived w s) := by
  simp only [reportReceived]
  (repeat' split) <;> (repeat' first
      | with_reducible assumption | with_reducible apply cap_judgeRack | with_reducible apply cap_setPeer
      | with_reducible apply cap_count | (refine cap_arriving _ _ _ ?_) | (refine cap_same _ _ _ ?_ ?_ ?_)
      | with_reducible rfl | (simp only [port_setPort, if_true]; done) | simp)

theorem cap_voidReports (i : Nat) (s : State) (h : Captured s) : Captured (voidReports i s) :=
  cap_mapPorts _ _ (fun _ hu => hu.same rfl rfl) h

theorem cap_setPeerCfg (i : Nat) (c : PeerCfg) (s : State) (h : Captured s) : Captured (setPeerCfg i c s) :=
  h.of (ports_setPeerCfg _ _ _)

theorem cap_writePeerAt (i : Nat) (c : PeerCfg) (s : State) (h : Captured s) :
    Captured (writePeerAt i c s) := by
  simp only [writePeerAt]
  (repeat' split) <;> (repeat' first
      | with_reducible assumption | with_reducible apply cap_judgeRack | with_reducible apply cap_voidReports
      | with_reducible apply cap_setPeerCfg | with_reducible apply cap_setPeer | (refine cap_arriving _ _ _ ?_)
      | (refine cap_same _ _ _ ?_ ?_ ?_) | with_reducible rfl | (simp only [port_setPort, if_true]; done) | simp)

theorem cap_clearPeerAt (i : Nat) (s : State) (h : Captured s) :
    Captured (clearPeerAt i s) := by
  simp only [clearPeerAt]
  (repeat' split) <;> (repeat' first
      | with_reducible assumption | with_reducible apply cap_judgeRack | with_reducible apply cap_voidReports
      | with_reducible apply cap_setPeerCfg | with_reducible apply cap_setPeer | (refine cap_arriving _ _ _ ?_)
      | (refine cap_same _ _ _ ?_ ?_ ?_) | with_reducible rfl | (simp only [port_setPort, if_true]; done) | simp)

theorem cap_applyDrift (p : DriftParams) (holdoff threshold : Nat) (s : State) (h : Captured s) :
    Captured (applyDrift p holdoff threshold s) := by
  simp only [applyDrift]
  (repeat' split) <;> (repeat' first
      | with_reducible assumption | with_reducible apply cap_startReports | with_reducible apply cap_judgeRack
      | with_reducible apply cap_setCfg | (refine cap_arriving _ _ _ ?_) | (refine cap_same _ _ _ ?_ ?_ ?_)
      | with_reducible rfl | (simp only [port_setPort, if_true]; done) | simp)

theorem cap_driftSoftReset (s : State) (h : Captured s) : Captured (driftSoftReset s) := h.of (ports_driftSoftReset _)

theorem cap_freezeTrigger (t : Trigger) (s : State) (h : Captured s) :
    Captured (freezeTrigger t s) := by
  simp only [freezeTrigger]
  (repeat' split) <;> (repeat' first
      | with_reducible assumption | with_reducible apply cap_offerRecord | with_reducible apply cap_setFrozen
      | (refine cap_arriving _ _ _ ?_) | (refine cap_same _ _ _ ?_ ?_ ?_) | with_reducible rfl
      | (simp only [port_setPort, if_true]; done) | simp)

theorem cap_releaseFreeze (s : State) (h : Captured s) :
    Captured (releaseFreeze s) := by
  simp only [releaseFreeze]
  (repeat' split) <;> (repeat' first
      | with_reducible assumption | with_reducible apply cap_offerRecord | with_reducible apply cap_setFrozen
      | (refine cap_arriving _ _ _ ?_) | (refine cap_same _ _ _ ?_ ?_ ?_) | with_reducible rfl
      | (simp only [port_setPort, if_true]; done) | simp)

theorem cap_openMark (p : Port) (index : Nat) (e : MatchEntry) (ingress : Date) (s : State) (hd : DateOk ingress)
    (h : Captured s) : Captured (openMark p index e ingress s) := by
  have h0 := cap_rememberStamp (issueDate s.clock.lastStamp ingress) s h
  simp only [openMark]
  generalize rememberStamp _ s = x at *
  split
  · exact cap_freezeTrigger _ _ (cap_setPort _ _ _ ⟨(h0 p).frame, fun c hc => by cases hc; exact hd⟩ h0)
  · exact cap_setPort _ _ _ ⟨(h0 p).frame, fun c hc => by cases hc; exact hd⟩ h0

theorem cap_settleStamp (p : Port) (written : Bool) (s : State) (h : Captured s) : Captured (settleStamp p written s) := by
  simp only [settleStamp]
  split
  · rename_i c hc
    have hk := (h p).context c hc
    (repeat' split) <;> (repeat' first
      | with_reducible assumption | with_reducible apply cap_count
      | exact cap_setPort _ _ _ ⟨(h p).frame, fun c' hc' => by cases hc'; exact hk⟩ h)
  · exact h

theorem cap_loseStamp (p : Port) (s : State) (h : Captured s) :
    Captured (loseStamp p s) := by
  simp only [loseStamp]
  (repeat' split) <;> (repeat' first
      | with_reducible assumption | with_reducible apply cap_settleStamp | (refine cap_arriving _ _ _ ?_)
      | (refine cap_same _ _ _ ?_ ?_ ?_) | with_reducible rfl | (simp only [port_setPort, if_true]; done) | simp)

theorem cap_readyArriving (p : Port) (edit : Edit) (s : State) (h : Captured s) :
    Captured (readyArriving p edit s) := by
  simp only [readyArriving]
  (repeat' split) <;> (repeat' first
      | with_reducible assumption | (refine cap_arriving _ _ _ ?_) | (refine cap_same _ _ _ ?_ ?_ ?_)
      | with_reducible rfl | (simp only [port_setPort, if_true]; done) | simp)

theorem cap_writeStampNow (p : Port) (c : DatingCtx) (bytes : List Byte) (s : State) (h : Captured s) :
    Captured (writeStampNow p c bytes s) := by
  simp only [writeStampNow]
  (repeat' split) <;> (repeat' first
      | with_reducible assumption | with_reducible apply cap_arbitrate | with_reducible apply cap_settleStamp
      | with_reducible apply cap_readyArriving | (refine cap_arriving _ _ _ ?_) | (refine cap_same _ _ _ ?_ ?_ ?_)
      | with_reducible rfl | (simp only [port_setPort, if_true]; done) | simp)

theorem cap_closeMark (p : Port) (bytes : List Byte) (stop len : Nat) (badFcs : Bool) (s : State) (h : Captured s) :
    Captured (closeMark p bytes stop len badFcs s) := by
  simp only [closeMark]
  split
  · have h0 := cap_setPort s p { s.port p with ctx := none } ⟨(h p).frame, fun c hc => by cases hc⟩ h
    split
    · exact h0
    · exact cap_offerRecord _ _ h0
  · exact h

theorem cap_cutMark (p : Port) (bytes : List Byte) (len : Nat) (s : State) (h : Captured s) :
    Captured (cutMark p bytes len s) := by
  simp only [cutMark]
  (repeat' split) <;> (repeat' first
      | with_reducible assumption | with_reducible apply cap_settleStamp | with_reducible apply cap_closeMark
      | (refine cap_arriving _ _ _ ?_) | (refine cap_same _ _ _ ?_ ?_ ?_) | with_reducible rfl
      | (simp only [port_setPort, if_true]; done) | simp)

theorem cap_forwardArriving (p : Port) (r : Rx) (ready : Bool) (s : State) (hr : DateOk r.ingress) (h : Captured s) :
    Captured (forwardArriving p r ready s).1 :=
  cap_keepRx _ _ _ hr (cap_admitFrame _ _ _ _ h)

theorem cap_passFrame (p : Port) (r : Rx) (s : State) (hr : DateOk r.ingress) (h : Captured s) : Captured (passFrame p r s) :=
  cap_arbitrate _ _ (cap_forwardArriving _ _ _ _ hr h)

theorem cap_settleArrived (p : Port) (bytes : List Byte) (s : State) (h : Captured s) :
    Captured (settleArrived p bytes s) := by
  simp only [settleArrived]
  (repeat' split) <;> (repeat' first
      | with_reducible assumption | with_reducible apply cap_writeStampNow | (refine cap_arriving _ _ _ ?_)
      | (refine cap_same _ _ _ ?_ ?_ ?_) | with_reducible rfl | (simp only [port_setPort, if_true]; done) | simp)

theorem cap_markFrame (p : Port) (r : Rx) (index : Nat) (e : MatchEntry) (s : State) (hr : DateOk r.ingress)
    (h : Captured s) : Captured (markFrame p r index e s) := by
  have h0 := cap_forwardArriving p r (e.logMode == .logOnly) _ hr (cap_openMark p index e r.ingress s hr h)
  simp only [markFrame]
  split
  · exact cap_arbitrate _ _ (cap_settleArrived _ _ _ h0)
  · exact cap_loseStamp _ _ h0

theorem cap_lookupFrame (p : Port) (r : Rx) (ended : Bool) (s : State) (hr : DateOk r.ingress) (h : Captured s) :
    Captured (lookupFrame p r ended s) := by
  simp only [lookupFrame]
  (repeat' split)
  · exact cap_passFrame _ _ _ hr h
  · exact cap_passFrame _ _ _ hr h
  · exact cap_markFrame _ _ _ _ _ hr h
  · exact cap_keepRx _ _ _ hr h
  · exact cap_keepRx _ _ _ hr h

theorem cap_growArriving (p : Port) (bytes : List Byte) (s : State) (h : Captured s) :
    Captured (growArriving p bytes s) := by
  simp only [growArriving]
  (repeat' split) <;> (repeat' first
      | with_reducible assumption | (refine cap_arriving _ _ _ ?_) | (refine cap_same _ _ _ ?_ ?_ ?_)
      | with_reducible rfl | (simp only [port_setPort, if_true]; done) | simp)

theorem cap_overrun (p : Port) (r : Rx) (s : State) (hr : DateOk r.ingress) (h : Captured s) : Captured (overrun p r s) := by
  have h0 : Captured (setRx p (some { r with stage := .discarding }) s) := cap_keepRx _ _ _ hr h
  have h1 := cap_cutMark p r.bytes Config.maxFrame _ (cap_settleArrived p r.bytes _ h0)
  simp only [overrun]
  (repeat' split)
  · exact cap_arbitrate _ _ (cap_count _ _ _ (cap_arriving _ _ _ h1))
  · exact h1
  · exact cap_count _ _ _ h0
  · exact cap_count _ _ _ h0
  · exact h0
  · exact h0

theorem cap_malformedFrame (w : Whole) (s : State) (h : Captured s) : Captured (malformedFrame w s) :=
  cap_forwardWhole _ _ _ (cap_count _ _ _ h)

theorem cap_dispatchL2 (w : Whole) (s : State) (h : Captured s) :
    Captured (dispatchL2 w s) := by
  simp only [dispatchL2]
  (repeat' split) <;> (repeat' first
      | with_reducible assumption | with_reducible apply cap_handleAsk | with_reducible apply cap_handleAnswer
      | with_reducible apply cap_handleBeacon | with_reducible apply cap_malformedFrame
      | (refine cap_arriving _ _ _ ?_) | (refine cap_same _ _ _ ?_ ?_ ?_) | with_reducible rfl
      | (simp only [port_setPort, if_true]; done) | simp)

theorem cap_acceptControl (w : Whole) (privilege : Privilege) (s : State) (h : Captured s) :
    Captured (acceptControl w privilege s) := by
  simp only [acceptControl]
  (repeat' split) <;> first | exact h | exact cap_same _ _ _ rfl rfl h

theorem cap_dispatchUdp (w : Whole) (mgmt utx : Bool) (privilege : Privilege) (s : State) (h : Captured s) :
    Captured (dispatchUdp w mgmt utx privilege s) := by
  simp only [dispatchUdp]
  (repeat' split) <;> (repeat' first
      | with_reducible assumption | with_reducible apply cap_reportReceived
      | with_reducible apply cap_malformedFrame | with_reducible apply cap_acceptControl
      | (refine cap_arriving _ _ _ ?_) | (refine cap_same _ _ _ ?_ ?_ ?_) | with_reducible rfl
      | (simp only [port_setPort, if_true]; done) | simp)

theorem cap_endForwarded (p : Port) (r : Rx) (inLane : Bool) (s : State) (h : Captured s) :
    Captured (endForwarded p r inLane s) := by
  have h0 := cap_dropRx p s h
  simp only [endForwarded]
  (repeat' split) <;> (repeat' first
      | with_reducible assumption | with_reducible apply cap_closeMark
      | with_reducible apply cap_arbitrate | with_reducible apply cap_arriving | with_reducible apply cap_settleStamp
      | with_reducible apply cap_settleArrived | with_reducible apply cap_growArriving)

theorem cap_endFrame (p : Port) (r : Rx) (s : State) (h : Captured s) : Captured (endFrame p r s) := by
  have h0 := cap_dropRx p s h
  simp only [endFrame]
  (repeat' split) <;> (repeat' first
      | with_reducible assumption | with_reducible apply cap_endForwarded
      | with_reducible apply cap_dispatchL2 | with_reducible apply cap_dispatchUdp | with_reducible apply cap_count)

theorem cap_receiveEnd (p : Port) (r : Rx) (s : State) (hr : DateOk r.ingress) (h : Captured s) : Captured (receiveEnd p r s) := by
  have hr : DateOk r.upToOversize.ingress := hr
  simp only [receiveEnd]
  generalize r.upToOversize = r at *
  split
  · exact cap_count _ _ _ (cap_dropRx _ _ h)
  · have h1 : Captured (if r.stage = .parsing then lookupFrame p r (decide (r.bytes.length < frameHeader r.bytes + Config.lookupBytes + 4)) s else s) := by
      split
      · exact cap_lookupFrame _ _ _ _ hr h
      · exact h
    generalize (if r.stage = .parsing then lookupFrame p r (decide (r.bytes.length < frameHeader r.bytes + Config.lookupBytes + 4)) s else s) = x at *
    split
    · rename_i r' hx
      have hk : DateOk r'.ingress := (h1 p).frame r' hx
      split
      · exact cap_dropRx _ _ (cap_overrun _ _ _ hk h1)
      · exact cap_endFrame _ _ _ h1
    · exact h1

theorem cap_oversizeArrives (p : Port) (more : List Byte) (s : State) (h : Captured s) :
    Captured (oversizeArrives p more s) := by
  simp only [oversizeArrives]
  split
  · rename_i r hr
    have hi : DateOk (r.grow more).upToOversize.ingress := (h p).frame r hr
    generalize (r.grow more).upToOversize = r at *
    split
    · have h1 : Captured (if r.stage = .parsing then lookupFrame p r false s else s) := by
        split
        · exact cap_lookupFrame _ _ _ _ hi h
        · exact h
      generalize (if r.stage = .parsing then lookupFrame p r false s else s) = x at *
      split
      · rename_i r' hx
        have hk : DateOk r'.ingress := (h1 p).frame r' hx
        exact cap_overrun _ _ _ hk h1
      · exact h1
    · exact h
  · exact h

theorem cap_applyFull (c : Settings) (bank : Vector MatchEntry 64) (source : LoadSource) (version : Nat) (s : State) (h : Captured s) : Captured (applyFull c bank source version s) :=
  h.of (ports_applyFull _ _ _ _ _)

theorem cap_applyReload (c : Settings) (bank : Vector MatchEntry 64) (s : State) (h : Captured s) :
    Captured (applyReload c bank s) := by
  simp only [applyReload]
  (repeat' split) <;> (repeat' first
      | with_reducible assumption | with_reducible apply cap_judgePulse
      | with_reducible apply cap_reevaluateOnHold | with_reducible apply cap_applyServo
      | with_reducible apply cap_setCfg | with_reducible apply cap_setLanes | with_reducible apply cap_setMatchTab
      | with_reducible apply cap_setDrift | with_reducible apply cap_setAgent | (refine cap_arriving _ _ _ ?_)
      | (refine cap_same _ _ _ ?_ ?_ ?_) | with_reducible rfl | (simp only [port_setPort, if_true]; done) | simp)

theorem softRx_ingress (b : Bool) (r : Rx) : (softRx b r).ingress = r.ingress := by
  simp only [softRx]
  (repeat' split) <;> rfl

theorem softPort_captures (b : Bool) (u : PortUnit) (h : CapturesOk u) : CapturesOk (softPort b u) :=
  ⟨fun r hr => by
    obtain ⟨x, hx, rfl⟩ := Option.map_eq_some_iff.mp hr
    rw [softRx_ingress]
    exact h.frame x hx, fun c hc => by cases hc⟩

theorem cap_softResetNow (reload : Bool) (s : State) (h : Captured s) : Captured (softResetNow reload s) := by
  simp only [softResetNow]
  apply cap_servoSoftReset
  refine Captured.of (s := (s.setAgent (s.agent.softReset reload)).setPorts (softPorts s.ports)) ?_ (by simp [driftSoftReset])
  intro p
  cases p <;> exact softPort_captures _ _ (h _)

theorem cap_raiseAgain (expired : Bool) (s : State) (h : Captured s) :
    Captured (raiseAgain expired s) := by
  simp only [raiseAgain]
  (repeat' split) <;> (repeat' first
      | with_reducible assumption | with_reducible apply cap_raiseLogFullAgain
      | with_reducible apply cap_raiseWithHold | (refine cap_arriving _ _ _ ?_) | (refine cap_same _ _ _ ?_ ?_ ?_)
      | with_reducible rfl | (simp only [port_setPort, if_true]; done) | simp)

theorem cap_completeSoft (expired : Bool) (s : State) (h : Captured s) :
    Captured (completeSoft expired s) := by
  simp only [completeSoft]
  (repeat' split) <;> (repeat' first
      | with_reducible assumption | with_reducible apply cap_startEcho | with_reducible apply cap_startReports
      | with_reducible apply cap_raiseAgain | (refine cap_arriving _ _ _ ?_) | (refine cap_same _ _ _ ?_ ?_ ?_)
      | with_reducible rfl | (simp only [port_setPort, if_true]; done) | simp)

theorem cap_enterRunning (s : State) (h : Captured s) : Captured (enterRunning s) := by
  have h0 : Captured (loadTrim (s.setRun .running)) := cap_loadTrim _ (cap_setRun _ _ h)
  simp only [enterRunning]
  exact cap_startReports _ (cap_startEcho _ _ (cap_startEcho _ _ (cap_mapPorts _ _ (fun u hu => hu.same rfl rfl) h0)))

theorem cap_finishLoad (first second : List Byte) (s : State) (h : Captured s) :
    Captured (finishLoad first second s) := by
  simp only [finishLoad]
  (repeat' split) <;> (repeat' first
      | with_reducible assumption | with_reducible apply cap_raiseWithHold | with_reducible apply cap_applyFull
      | with_reducible apply cap_enterRunning | (refine cap_arriving _ _ _ ?_) | (refine cap_same _ _ _ ?_ ?_ ?_)
      | with_reducible rfl | (simp only [port_setPort, if_true]; done) | simp)

theorem cap_finishReload (first second : List Byte) (s : State) (h : Captured s) :
    Captured (finishReload first second s) := by
  simp only [finishReload]
  (repeat' split) <;> (repeat' first
      | with_reducible assumption | with_reducible apply cap_raiseWithHold | with_reducible apply cap_applyReload
      | with_reducible apply cap_completeSoft | with_reducible apply cap_setAgent | (refine cap_arriving _ _ _ ?_)
      | (refine cap_same _ _ _ ?_ ?_ ?_) | with_reducible rfl | (simp only [port_setPort, if_true]; done) | simp)

theorem cap_loseReception (p : Port) (more : List Byte) (s : State) (h : Captured s) : Captured (loseReception p more s) := by
  have h0 := cap_dropRx p s h
  simp only [loseReception]
  (repeat' split)
  · exact h
  · exact h0
  · exact h0
  · exact cap_count _ _ _ h0
  · exact cap_count _ _ _ h0
  · rename_i r _ _ _ _ _
    have := cap_cutMark p (r.grow more).bytes (r.grow more).bytes.length _ h0
    exact cap_count _ _ _ (cap_setPort _ _ _ ((this _).same rfl rfl) this)
  · exact cap_cutMark _ _ _ _ h0

theorem refuseRx_ingress (r : Rx) : (refuseRx r).ingress = r.ingress := by
  simp only [refuseRx]
  split <;> rfl

theorem cap_flushEgress (p : Port) (s : State) (h : Captured s) : Captured (flushEgress p s) := by
  have h0 := cap_setPort s p { s.port p with
    buffer := [], timing := [], general := [], tx := none, stats := Stats.addTransitDrops (flushedCount (s.port p)) (s.port p).stats }
    ((h p).same rfl rfl) h
  simp only [flushEgress]
  split
  · refine cap_loseStamp _ _ (cap_setPort _ _ _ ⟨fun r hr => ?_, (h0 _).context⟩ h0)
    obtain ⟨x, hx, rfl⟩ := Option.map_eq_some_iff.mp hr
    rw [refuseRx_ingress]
    exact (h0 _).frame x hx
  · exact h0

theorem cap_linkBackUp (p : Port) (s : State) (h : Captured s) :
    Captured (linkBackUp p s) := by
  simp only [linkBackUp]
  (repeat' split) <;> (repeat' first
      | with_reducible assumption | with_reducible apply cap_reevaluate | with_reducible apply cap_clearWithHold
      | with_reducible apply cap_echoLinkUp | (refine cap_arriving _ _ _ ?_) | (refine cap_same _ _ _ ?_ ?_ ?_)
      | with_reducible rfl | (simp only [port_setPort, if_true]; done) | simp)

theorem cap_linkComesUp (p : Port) (s : State) (h : Captured s) :
    Captured (linkComesUp p s) := by
  simp only [linkComesUp]
  (repeat' split) <;> (repeat' first
      | with_reducible assumption | with_reducible apply cap_linkBackUp | (refine cap_arriving _ _ _ ?_)
      | (refine cap_same _ _ _ ?_ ?_ ?_) | with_reducible rfl | (simp only [port_setPort, if_true]; done) | simp)

theorem flowPort_captures (u : PortUnit) (h : CapturesOk u) : CapturesOk (flowPort u) := by
  exact h.same rfl rfl

theorem cap_periodTo (m : Date × Bool) (second : Bool) (s : State) (h : Captured s) : Captured (periodTo m second s) := by
  have h0 : Captured ((s.setClock { s.clock with date := m.1, up := s.clock.up + 1 }).setPorts ((s.setClock { s.clock with date := m.1, up := s.clock.up + 1 }).ports.map flowPort)) :=
    cap_mapPorts (s.setClock { s.clock with date := m.1, up := s.clock.up + 1 }) flowPort flowPort_captures (cap_setClock _ _ h)
  simp only [periodTo]
  apply cap_laneInstant
  apply cap_laneInstant
  have h0' := h0
  (repeat' split) <;> (repeat' first | with_reducible assumption | with_reducible apply cap_secondBoundary | with_reducible apply cap_uptimeSecond)

theorem cap_clockPeriod (s : State) (h : Captured s) :
    Captured (clockPeriod s) := by
  simp only [clockPeriod]
  (repeat' split) <;> (repeat' first
      | with_reducible assumption | with_reducible apply cap_periodTo | (refine cap_arriving _ _ _ ?_)
      | (refine cap_same _ _ _ ?_ ?_ ?_) | with_reducible rfl | (simp only [port_setPort, if_true]; done) | simp)

theorem cap_finishSave (written readBack : List Byte) (s : State) (h : Captured s) :
    Captured (finishSave written readBack s) := by
  simp only [finishSave]
  (repeat' split) <;> (repeat' first
      | with_reducible assumption | with_reducible apply cap_raiseWithHold | with_reducible apply cap_setAgent
      | (refine cap_arriving _ _ _ ?_) | (refine cap_same _ _ _ ?_ ?_ ?_) | with_reducible rfl
      | (simp only [port_setPort, if_true]; done) | simp)

theorem cap_endMemoryTest (pass : Bool) (s : State) (h : Captured s) :
    Captured (endMemoryTest pass s) := by
  simp only [endMemoryTest]
  (repeat' split) <;> (repeat' first
      | with_reducible assumption | with_reducible apply cap_raiseWithHold | with_reducible apply cap_setLog
      | (refine cap_arriving _ _ _ ?_) | (refine cap_same _ _ _ ?_ ?_ ?_) | with_reducible rfl
      | (simp only [port_setPort, if_true]; done) | simp)

theorem cap_removeRecords (k : Nat) (s : State) (h : Captured s) : Captured (removeRecords k s) :=
  h.of (ports_removeRecords _ _)

theorem cap_testLog (s : State) (h : Captured s) : Captured (testLog s).1 := h.of (ports_testLog _)

theorem cap_writeMatch (index : Byte) (a : MatchArg) (s : State) (h : Captured s) : Captured (writeMatch index a s).1 :=
  h.of (ports_writeMatch _ _ _)

theorem cap_copyActive (s : State) (h : Captured s) : Captured (copyActive s).1 := h.of (ports_copyActive _)

theorem cap_swapCommand (arg : Byte) (s : State) (h : Captured s) : Captured (swapCommand arg s).1 :=
  h.of (ports_swapCommand _ _)

theorem cap_writePort (a : PortArg) (s : State) (h : Captured s) :
    Captured (writePort a s).1 := by
  simp only [writePort]
  (repeat' split) <;> (repeat' first
      | with_reducible assumption | with_reducible apply cap_echoRewritten | with_reducible apply cap_setCfg
      | (refine cap_arriving _ _ _ ?_) | (refine cap_same _ _ _ ?_ ?_ ?_) | with_reducible rfl
      | (simp only [port_setPort, if_true]; done) | simp)

theorem cap_writeLane (a : LaneArg) (s : State) (h : Captured s) : Captured (writeLane a s).1 :=
  h.of (ports_writeLane _ _)

theorem cap_writeOverride (a : OverrideArg) (s : State) (h : Captured s) : Captured (writeOverride a s).1 :=
  h.of (ports_writeOverride _ _)

theorem cap_writePeer (a : PeerArg) (s : State) (h : Captured s) :
    Captured (writePeer a s).1 := by
  simp only [writePeer]
  (repeat' split) <;> (repeat' first
      | with_reducible assumption | with_reducible apply cap_writePeerAt | (refine cap_arriving _ _ _ ?_)
      | (refine cap_same _ _ _ ?_ ?_ ?_) | with_reducible rfl | (simp only [port_setPort, if_true]; done) | simp)

theorem cap_clearPeer (index : Byte) (s : State) (h : Captured s) :
    Captured (clearPeer index s).1 := by
  simp only [clearPeer]
  (repeat' split) <;> (repeat' first
      | with_reducible assumption | with_reducible apply cap_clearPeerAt | (refine cap_arriving _ _ _ ?_)
      | (refine cap_same _ _ _ ?_ ?_ ?_) | with_reducible rfl | (simp only [port_setPort, if_true]; done) | simp)

theorem cap_writeServo (a : ServoArg) (s : State) (h : Captured s) :
    Captured (writeServo a s).1 := by
  simp only [writeServo]
  (repeat' split) <;> (repeat' first
      | with_reducible assumption | with_reducible apply cap_applyServo | (refine cap_arriving _ _ _ ?_)
      | (refine cap_same _ _ _ ?_ ?_ ?_) | with_reducible rfl | (simp only [port_setPort, if_true]; done) | simp)

theorem cap_writeDrift (a : DriftArg) (s : State) (h : Captured s) :
    Captured (writeDrift a s).1 := by
  simp only [writeDrift]
  (repeat' split) <;> (repeat' first
      | with_reducible assumption | with_reducible apply cap_applyDrift | (refine cap_arriving _ _ _ ?_)
      | (refine cap_same _ _ _ ?_ ?_ ?_) | with_reducible rfl | (simp only [port_setPort, if_true]; done) | simp)

theorem cap_applyResponse (k : FaultKind) (r : Response) (s : State) (h : Captured s) :
    Captured (applyResponse k r s) := by
  simp only [applyResponse]
  (repeat' split) <;> (repeat' first
      | with_reducible assumption | with_reducible apply cap_watchSecond
      | with_reducible apply cap_reevaluateOnHold | with_reducible apply cap_setCfg
      | (refine cap_arriving _ _ _ ?_) | (refine cap_same _ _ _ ?_ ?_ ?_) | with_reducible rfl
      | (simp only [port_setPort, if_true]; done) | simp)

theorem cap_writeFault (kind response : Byte) (s : State) (h : Captured s) :
    Captured (writeFault kind response s).1 := by
  simp only [writeFault]
  (repeat' split) <;> (repeat' first
      | with_reducible assumption | with_reducible apply cap_applyResponse | (refine cap_arriving _ _ _ ?_)
      | (refine cap_same _ _ _ ?_ ?_ ?_) | with_reducible rfl | (simp only [port_setPort, if_true]; done) | simp)

theorem cap_clearPosition (mask : BitVec 32) (s : State) (k : FaultKind) (h : Captured s) :
    Captured (clearPosition mask s k) := by
  simp only [clearPosition]
  (repeat' split) <;> (repeat' first
      | with_reducible assumption | with_reducible apply cap_clearWithHold | (refine cap_arriving _ _ _ ?_)
      | (refine cap_same _ _ _ ?_ ?_ ?_) | with_reducible rfl | (simp only [port_setPort, if_true]; done) | simp)

theorem cap_clearFlags (mask : BitVec 32) (s : State) (h : Captured s) :
    Captured (clearFlags mask s).1 := by
  simp only [clearFlags]
  (repeat' split) <;> (repeat' first
      | with_reducible assumption | (with_reducible apply cap_foldl; intro t _ ht)
      | with_reducible apply cap_clearStale | with_reducible apply cap_clearPosition
      | with_reducible apply cap_setServo | (refine cap_arriving _ _ _ ?_) | (refine cap_same _ _ _ ?_ ?_ ?_)
      | with_reducible rfl | (simp only [port_setPort, if_true]; done) | simp)

theorem cap_barSource (index : Byte) (seconds : BitVec 16) (s : State) (h : Captured s) :
    Captured (barSource index seconds s).1 := by
  simp only [barSource]
  (repeat' split) <;> (repeat' first
      | with_reducible assumption | with_reducible apply cap_barEntry | (refine cap_arriving _ _ _ ?_)
      | (refine cap_same _ _ _ ?_ ?_ ?_) | with_reducible rfl | (simp only [port_setPort, if_true]; done) | simp)

theorem cap_saveSettings (s : State) (h : Captured s) : Captured (saveSettings s).1 := h.of (ports_saveSettings _)

theorem cap_resetCommand (arg : Byte) (s : State) (h : Captured s) : Captured (resetCommand arg s).1 :=
  h.of (ports_resetCommand _ _)

theorem cap_reset : Captured State.reset := by
  intro p
  cases p <;> exact ⟨fun _ h => (by cases h), fun _ h => (by cases h)⟩


theorem cap_fullReset (s : State) : Captured (fullReset s) := cap_reset.of rfl

theorem cap_holdReset (s : State) : Captured (holdReset s) := cap_reset.of rfl

theorem cap_takeReset (k : ResetKind) (s : State) (h : Captured s) : Captured (takeReset k s) := by
  cases k
  · exact cap_completeSoft _ _ (cap_softResetNow _ _ h)
  · exact cap_softResetNow _ _ h
  · exact cap_fullReset _

theorem cap_takePendingReset (s : State) (h : Captured s) : Captured (takePendingReset s) := by
  simp only [takePendingReset]; split
  · exact cap_takeReset _ _ h
  · exact h

theorem cap_finishFrame (e : Exec) (s : State) (h : Captured s) : Captured (finishFrame e s) := by
  simp only [finishFrame]
  split
  · exact cap_arbitrate _ _ (cap_offerGeneral _ _ _ _ _ (cap_setAgent _ _ h))
  · exact cap_takePendingReset _ (cap_offerGeneral _ _ _ _ _ (cap_setAgent _ _ h))

theorem cap_advanceFrame (e : Exec) (s : State) (h : Captured s) : Captured (advanceFrame e s) := by
  simp only [advanceFrame]
  split
  · exact cap_finishFrame _ _ h
  · exact cap_setAgent _ _ h

theorem cap_deliver (c : Nat) (out : State × Status × List Byte) (h : Captured out.1) : Captured (deliver c out) := by
  simp only [Machine.deliver, answerInFrame]
  split
  · exact cap_advanceFrame _ _ (cap_setAgent _ _ h)
  · exact cap_takePendingReset _ (cap_setAgent _ _ h)

theorem cap_linkGoesDown (p : Port) (more : List Byte) (s : State) (h : Captured s) : Captured (linkGoesDown p more s) := by
  simp only [linkGoesDown]
  have h1 : Captured (echoLinkDown p (flushEgress p (loseReception p more (s.setPort p { s.port p with up := false })))) := cap_echoLinkDown _ _ (cap_flushEgress _ _ (cap_loseReception _ _ _ (cap_same _ _ _ rfl rfl h)))
  generalize (echoLinkDown p (flushEgress p (loseReception p more (s.setPort p { s.port p with up := false })))) = x at *
  have h2 : Captured (if (x.port p).seenUp then raiseWithHold .linkDown (.port p) true .nothing x else x) := by
    split
    · exact cap_raiseWithHold _ _ _ _ _ h1
    · exact h1
  generalize (if (x.port p).seenUp then raiseWithHold .linkDown (.port p) true .nothing x else x) = y at *
  have h3 : Captured (if p.isUplink then reevaluate y.selectedPair .lost none y else y) := by
    split
    · exact cap_reevaluate _ _ _ _ h2
    · exact h2
  split
  · exact cap_takePendingReset _ h3
  · exact h3

theorem cap_logTakeMeaning (n : Byte) (room : Nat) (s : State) (h : Captured s) : Captured (logTakeMeaning n room s).1 := by
  simp only [logTakeMeaning]; (repeat' split) <;> first | exact h | exact cap_removeRecords _ _ h

end Sys2Proof.Machine
end

