-- ==== Sys2Proof/Laws/Dates.lean ====
section
/-! SUPPORT. What an advance, a step and a claim do to a date, as numbers (R2, R7, R16). Where a date is a quotient and a
remainder, reduce projections with `simp only` before `exact`: the kernel does not get through a division by 10^9 that it
unfolds. -/

namespace Sys2Proof.Machine

/-- The number of units of 2^-32 ns in the whole span of dates. -/
def spanUnits : Nat := (Config.maxS + 1) * Config.nsPerSec * Config.fracPerNs

theorem maxDate_ok : DateOk maxDate := ⟨by simp [maxDate, Config.maxS], by simp [maxDate], by simp [maxDate]⟩

theorem maxDate_units : maxDate.units + 1 = spanUnits := by decide

theorem Date.units_lt {d : Date} (h : DateOk d) : d.units < spanUnits := by
  obtain ⟨h1, h2, h3⟩ := h
  simp only [Date.units, Date.ns, spanUnits, Config.nsPerSec, Config.fracPerNs, Config.maxS]
  omega

/-! ### One period -/

theorem advance_plain (d : Date) (inc : Nat) (h : d.n + (d.f + inc) / Config.fracPerNs < Config.nsPerSec) :
    advance d inc = (⟨d.s, d.n + (d.f + inc) / Config.fracPerNs, (d.f + inc) % Config.fracPerNs⟩, false) := by
  unfold advance
  exact if_pos h

theorem advance_carry (d : Date) (inc : Nat) (h : ¬ d.n + (d.f + inc) / Config.fracPerNs < Config.nsPerSec)
    (hs : d.s < Config.maxS) :
    advance d inc = (⟨d.s + 1, d.n + (d.f + inc) / Config.fracPerNs - Config.nsPerSec, (d.f + inc) % Config.fracPerNs⟩,
      true) := by
  unfold advance
  exact (if_neg h).trans (if_pos hs)

theorem advance_held (d : Date) (inc : Nat) (h : ¬ d.n + (d.f + inc) / Config.fracPerNs < Config.nsPerSec)
    (hs : ¬ d.s < Config.maxS) : advance d inc = (maxDate, false) := by
  unfold advance
  exact (if_neg h).trans (if_neg hs)

/-- An advance adds the increment, or holds the date at its maximum. -/
theorem advance_units {d : Date} (h : DateOk d) (inc : Nat) (hi : inc < Config.nsPerSec * Config.fracPerNs) :
    (advance d inc).1.units = if d.units + inc < spanUnits then d.units + inc else maxDate.units := by
  obtain ⟨h1, h2, h3⟩ := h
  by_cases hn : d.n + (d.f + inc) / Config.fracPerNs < Config.nsPerSec
  · simp only [advance_plain d inc hn]
    rw [if_pos (by simp only [Date.units, Date.ns, spanUnits, Config.nsPerSec, Config.fracPerNs, Config.maxS] at *; omega)]
    simp only [Date.units, Date.ns, spanUnits, Config.nsPerSec, Config.fracPerNs, Config.maxS] at *
    omega
  · by_cases hs : d.s < Config.maxS
    · simp only [advance_carry d inc hn hs]
      rw [if_pos (by simp only [Date.units, Date.ns, spanUnits, Config.nsPerSec, Config.fracPerNs, Config.maxS] at *; omega)]
      simp only [Date.units, Date.ns, spanUnits, Config.nsPerSec, Config.fracPerNs, Config.maxS] at *
      omega
    · simp only [advance_held d inc hn hs]
      rw [if_neg]
      simp only [Date.units, Date.ns, spanUnits, Config.nsPerSec, Config.fracPerNs, Config.maxS] at *
      omega

/-- An advance gives a date. -/
theorem advance_ok {d : Date} (h : DateOk d) (inc : Nat) (hi : inc < Config.nsPerSec * Config.fracPerNs) :
    DateOk (advance d inc).1 := by
  obtain ⟨h1, h2, h3⟩ := h
  by_cases hn : d.n + (d.f + inc) / Config.fracPerNs < Config.nsPerSec
  · simp only [advance_plain d inc hn]
    exact ⟨h1, hn, Nat.mod_lt _ (by decide)⟩
  · by_cases hs : d.s < Config.maxS
    · simp only [advance_carry d inc hn hs]
      refine ⟨?_, ?_, Nat.mod_lt _ (by decide)⟩
      · simp only [Config.maxS] at *
        omega
      · simp only [Config.nsPerSec, Config.fracPerNs] at *
        omega
    · simp only [advance_held d inc hn hs]
      exact maxDate_ok

/-! ### A step -/

theorem stepDate_inside (d : Date) (amount : Nat) (h : (d.ns + amount) / Config.nsPerSec ≤ Config.maxS) :
    stepDate d amount = (⟨(d.ns + amount) / Config.nsPerSec, (d.ns + amount) % Config.nsPerSec, d.f⟩,
      decide (d.s < (d.ns + amount) / Config.nsPerSec)) := by
  unfold stepDate
  exact if_pos h

theorem stepDate_beyond (d : Date) (amount : Nat) (h : ¬ (d.ns + amount) / Config.nsPerSec ≤ Config.maxS) :
    stepDate d amount = (maxDate, decide (d.s < Config.maxS)) := by
  unfold stepDate
  exact if_neg h

theorem stepDate_ok {d : Date} (h : DateOk d) (amount : Nat) : DateOk (stepDate d amount).1 := by
  by_cases hc : (d.ns + amount) / Config.nsPerSec ≤ Config.maxS
  · simp only [stepDate_inside d amount hc]
    exact ⟨hc, Nat.mod_lt _ (by decide), h.f⟩
  · simp only [stepDate_beyond d amount hc]
    exact maxDate_ok

/-- A step adds its amount, or leads to the maximum date. -/
theorem stepDate_units {d : Date} (h : DateOk d) (amount : Nat) :
    (stepDate d amount).1.units =
      if d.units + amount * Config.fracPerNs < spanUnits then d.units + amount * Config.fracPerNs else maxDate.units := by
  obtain ⟨h1, h2, h3⟩ := h
  by_cases hc : (d.ns + amount) / Config.nsPerSec ≤ Config.maxS
  · simp only [stepDate_inside d amount hc]
    rw [if_pos (by simp only [Date.units, Date.ns, spanUnits, Config.nsPerSec, Config.fracPerNs, Config.maxS] at *; omega)]
    simp only [Date.units, Date.ns, spanUnits, Config.nsPerSec, Config.fracPerNs, Config.maxS] at *
    omega
  · simp only [stepDate_beyond d amount hc]
    rw [if_neg]
    simp only [Date.units, Date.ns, spanUnits, Config.nsPerSec, Config.fracPerNs, Config.maxS] at *
    omega

/-- No step moves a date back. -/
theorem stepDate_le {d : Date} (h : DateOk d) (amount : Nat) : d.units ≤ (stepDate d amount).1.units := by
  rw [stepDate_units h]
  have := Date.units_lt h
  have := maxDate_units
  split <;> omega

end Sys2Proof.Machine
end

