-- ==== Sys2Proof/Laws/Rates.lean ====
section
/-! SUPPORT. Every shared operation keeps the rates, the parameters that bound them, and the increment within their ranges
(R3, R66, R67, R68, R80). -/

namespace Sys2Proof.Machine

structure Rated (s : State) : Prop where
  ok : RateOk s
  inc : 17171279249 ≤ s.clock.inc ∧ s.clock.inc ≤ 17188459119

theorem Rated.of {s t : State} (h : Rated s) (hs : t.servo = s.servo) (hc : t.clock.inc = s.clock.inc)
    (hg : t.cfg.servo = s.cfg.servo) :
    Rated t :=
  ⟨⟨by rw [hs, hg]; exact h.ok.integral, by rw [hs]; exact h.ok.rate, by rw [hg]; exact h.ok.plausibility, by rw [hg]; exact h.ok.catchRate⟩, by rw [hc]; exact h.inc⟩

theorem servoParams_le (a : ServoArg) : (servoParamsOf a).plausibility ≤ 500 ∧ (servoParamsOf a).catchRate ≤ 500 := by
  simp only [servoParamsOf, clampNat]; omega

theorem rated_foldl {α : Type} (f : State → α → State) (hf : ∀ t a, Rated t → Rated (f t a)) (s : State)
    (l : List α) (h : Rated s) : Rated (l.foldl f s) := by
  induction l generalizing s with
  | nil => exact h
  | cons a rest ih => exact ih _ (hf _ _ h)

theorem clearCounts_f (v : Servo) : v.clearCounts.f = v.f := rfl

theorem clearCounts_r (v : Servo) : v.clearCounts.r = v.r := rfl

theorem rated_setServo (s : State) (v : Servo) (hf : v.f = s.servo.f) (hr : v.r = s.servo.r) (h : Rated s) :
    Rated (s.setServo v) :=
  ⟨⟨by show -_ ≤ v.f ∧ v.f ≤ _; rw [hf]; exact h.ok.integral, by show _ ≤ v.r ∧ v.r ≤ _; rw [hr]; exact h.ok.rate, h.ok.plausibility, h.ok.catchRate⟩, h.inc⟩

theorem rateDelta_bounds (r : Int) (h1 : -512000000 ≤ r) (h2 : r ≤ 512000000) :
    -8589935 ≤ rateDelta r ∧ rateDelta r ≤ 8589935 := by
  simp only [rateDelta, roundHalfAway]
  split <;> constructor <;> omega

theorem rated_handRate (r : Int) (s : State) (h : Rated s) (h1 : -512000000 ≤ r) (h2 : r ≤ 512000000) :
    Rated (handRate r s) := by
  have hb := rateDelta_bounds r h1 h2
  refine ⟨⟨h.ok.integral, ⟨h1, h2⟩, h.ok.plausibility, h.ok.catchRate⟩, ?_⟩
  simp only [handRate, incrementOf, Config.nominalInc, State.setClock]
  omega

theorem Rated.f {s} (h : Rated s) : -512000000 ≤ s.servo.f ∧ s.servo.f ≤ 512000000 := by
  have := h.ok.integral
  have := h.ok.plausibility
  omega

theorem Rated.cr {s} (h : Rated s) : -512000000 ≤ catchRate s ∧ catchRate s ≤ 512000000 := by
  have := h.ok.catchRate
  simp only [catchRate, Config.unitsPerPpm]
  omega

theorem Rated.pl {s} (h : Rated s) : plausibleUnits s ≤ 512000000 ∧ 0 ≤ plausibleUnits s := by
  have := h.ok.plausibility
  simp only [plausibleUnits, Config.unitsPerPpm]
  omega

theorem rated_setCfg (s : State) (v : Settings) (hv : v.servo = s.cfg.servo) (h : Rated s) :
    Rated (s.setCfg v) :=
  ⟨⟨by show -((v.servo.plausibility * _ : Nat) : Int) ≤ _ ∧ _ ≤ ((v.servo.plausibility * _ : Nat) : Int); rw [hv]; exact h.ok.integral, h.ok.rate, by show v.servo.plausibility ≤ _; rw [hv]; exact h.ok.plausibility, by show v.servo.catchRate ≤ _; rw [hv]; exact h.ok.catchRate⟩, h.inc⟩

theorem rated_setEchos (s : State) (v : Pair Echo) (h : Rated s) :
    Rated (s.setEchos v) := ⟨⟨h.ok.integral, h.ok.rate, h.ok.plausibility, h.ok.catchRate⟩, h.inc⟩

theorem rated_setSources (s : State) (v : Vector (Option SourceEntry) 8) (h : Rated s) :
    Rated (s.setSources v) := ⟨⟨h.ok.integral, h.ok.rate, h.ok.plausibility, h.ok.catchRate⟩, h.inc⟩

theorem rated_setLanes (s : State) (v : Pair LaneUnit) (h : Rated s) :
    Rated (s.setLanes v) := ⟨⟨h.ok.integral, h.ok.rate, h.ok.plausibility, h.ok.catchRate⟩, h.inc⟩

theorem rated_setPorts (s : State) (v : Quad PortUnit) (h : Rated s) :
    Rated (s.setPorts v) := ⟨⟨h.ok.integral, h.ok.rate, h.ok.plausibility, h.ok.catchRate⟩, h.inc⟩

theorem rated_setMatchTab (s : State) (v : MatchTable) (h : Rated s) :
    Rated (s.setMatchTab v) := ⟨⟨h.ok.integral, h.ok.rate, h.ok.plausibility, h.ok.catchRate⟩, h.inc⟩

theorem rated_setLog (s : State) (v : EventLog) (h : Rated s) :
    Rated (s.setLog v) := ⟨⟨h.ok.integral, h.ok.rate, h.ok.plausibility, h.ok.catchRate⟩, h.inc⟩

theorem rated_setFrozen (s : State) (v : Option Frozen) (h : Rated s) :
    Rated (s.setFrozen v) := ⟨⟨h.ok.integral, h.ok.rate, h.ok.plausibility, h.ok.catchRate⟩, h.inc⟩

theorem rated_setDrift (s : State) (v : DriftMonitor) (h : Rated s) :
    Rated (s.setDrift v) := ⟨⟨h.ok.integral, h.ok.rate, h.ok.plausibility, h.ok.catchRate⟩, h.inc⟩

theorem rated_setFaults (s : State) (v : FaultUnit) (h : Rated s) :
    Rated (s.setFaults v) := ⟨⟨h.ok.integral, h.ok.rate, h.ok.plausibility, h.ok.catchRate⟩, h.inc⟩

theorem rated_setAgent (s : State) (v : Agent) (h : Rated s) :
    Rated (s.setAgent v) := ⟨⟨h.ok.integral, h.ok.rate, h.ok.plausibility, h.ok.catchRate⟩, h.inc⟩

theorem rated_setPort (s : State) (p : Port) (v : PortUnit) (h : Rated s) :
    Rated (s.setPort p v) := ⟨⟨h.ok.integral, h.ok.rate, h.ok.plausibility, h.ok.catchRate⟩, h.inc⟩

theorem rated_setSource (s : State) (i : Nat) (v : Option SourceEntry) (h : Rated s) :
    Rated (s.setSource i v) := ⟨⟨h.ok.integral, h.ok.rate, h.ok.plausibility, h.ok.catchRate⟩, h.inc⟩

theorem rated_setPeer (s : State) (i : Nat) (v : PeerDyn) (h : Rated s) :
    Rated (s.setPeer i v) := ⟨⟨h.ok.integral, h.ok.rate, h.ok.plausibility, h.ok.catchRate⟩, h.inc⟩

theorem rated_setForm (s : State) (i : AlertForm) (v : FormState) (h : Rated s) :
    Rated (s.setForm i v) := ⟨⟨h.ok.integral, h.ok.rate, h.ok.plausibility, h.ok.catchRate⟩, h.inc⟩

theorem rated_setFault (s : State) (i : FaultKind) (v : FaultRec) (h : Rated s) :
    Rated (s.setFault i v) := ⟨⟨h.ok.integral, h.ok.rate, h.ok.plausibility, h.ok.catchRate⟩, h.inc⟩

theorem rated_setEcho (s : State) (p : Port) (v : Echo) (h : Rated s) :
    Rated (s.setEcho p v) := ⟨⟨h.ok.integral, h.ok.rate, h.ok.plausibility, h.ok.catchRate⟩, h.inc⟩

theorem rated_setLane (s : State) (p : Lane) (v : LaneUnit) (h : Rated s) :
    Rated (s.setLane p v) := ⟨⟨h.ok.integral, h.ok.rate, h.ok.plausibility, h.ok.catchRate⟩, h.inc⟩

theorem rated_count (s : State) (p : Port) (v : Stats → Stats) (h : Rated s) :
    Rated (s.count p v) := ⟨⟨h.ok.integral, h.ok.rate, h.ok.plausibility, h.ok.catchRate⟩, h.inc⟩

theorem rated_setRun (s : State) (v : RunState) (h : Rated s) :
    Rated (s.setRun v) := ⟨⟨h.ok.integral, h.ok.rate, h.ok.plausibility, h.ok.catchRate⟩, h.inc⟩

theorem rated_setClock (s : State) (v : Clock) (hv : v.inc = s.clock.inc) (h : Rated s) :
    Rated (s.setClock v) :=
  ⟨⟨h.ok.integral, h.ok.rate, h.ok.plausibility, h.ok.catchRate⟩, by show _ ≤ v.inc ∧ v.inc ≤ _; rw [hv]; exact h.inc⟩

theorem rated_watchSecond (s : State) (h : Rated s) :
    Rated (watchSecond s) := by
  simp only [watchSecond]
  (repeat' split) <;> (repeat' first
      | with_reducible assumption | with_reducible apply rated_setClock | with_reducible exact clearCounts_f _
      | with_reducible exact clearCounts_r _ | with_reducible rfl | exact (Rated.f (by assumption)).1
      | exact (Rated.f (by assumption)).2 | exact (Rated.cr (by assumption)).1
      | exact (Rated.cr (by assumption)).2 | exact (servoParams_le _).1 | exact (servoParams_le _).2 | simp)

theorem rated_judgePulse (d : Option Nat) (s : State) (h : Rated s) : Rated (judgePulse d s) :=
  rated_watchSecond _ (rated_setClock _ _ rfl h)

theorem rated_admitFrame (p : Port) (need : Nat) (f : FwdFrame) (s : State) (h : Rated s) :
    Rated (admitFrame p need f s).1 :=
  h.of (servo_admitFrame _ _ _ _) (by rw [clock_admitFrame]) (by rw [cfg_admitFrame])

theorem rated_offerTiming (p : Port) (tag : OrigTag) (header : Nat) (bytes : List Byte) (s : State) (h : Rated s) :
    Rated (offerTiming p tag header bytes s).1 :=
  h.of (servo_offerTiming _ _ _ _ _) (by rw [clock_offerTiming]) (by rw [cfg_offerTiming])

theorem rated_offerGeneral (p : Port) (tag : OrigTag) (header : Nat) (bytes : List Byte) (s : State) (h : Rated s) :
    Rated (offerGeneral p tag header bytes s).1 :=
  h.of (servo_offerGeneral _ _ _ _ _) (by rw [clock_offerGeneral]) (by rw [cfg_offerGeneral])

theorem rated_askPassesEgress (p : Port) (id : Nat) (s : State) (h : Rated s) : Rated (askPassesEgress p id s) :=
  h.of (servo_askPassesEgress _ _ _) (by rw [clock_askPassesEgress]) (by rw [cfg_askPassesEgress])

theorem rated_reportPassesEgress (i : Nat) (rack ip : BitVec 32) (s : State) (h : Rated s) :
    Rated (reportPassesEgress i rack ip s) :=
  h.of (servo_reportPassesEgress _ _ _ _) (by rw [clock_reportPassesEgress]) (by rw [cfg_reportPassesEgress])

theorem rated_recordEgress (p : Port) (tag : OrigTag) (s : State) (h : Rated s) : Rated (recordEgress p tag s) :=
  h.of (servo_recordEgress _ _ _) (by rw [clock_recordEgress]) (by rw [cfg_recordEgress])

theorem rated_grantQueued (p : Port) (o : TxFrom) (q : QFrame) (s : State) (h : Rated s) :
    Rated (grantQueued p o q s) :=
  h.of (servo_grantQueued _ _ _ _) (by rw [clock_grantQueued]) (by rw [cfg_grantQueued])

theorem rated_grantForwarded (p : Port) (f : FwdFrame) (s : State) (h : Rated s) : Rated (grantForwarded p f s) :=
  h.of (servo_grantForwarded _ _ _) (by rw [clock_grantForwarded]) (by rw [cfg_grantForwarded])

theorem rated_arbitrate (p : Port) (s : State) (h : Rated s) : Rated (arbitrate p s) :=
  h.of (servo_arbitrate _ _) (by rw [clock_arbitrate]) (by rw [cfg_arbitrate])

theorem rated_finishTx (p : Port) (t : Tx) (s : State) (h : Rated s) : Rated (finishTx p t s) :=
  h.of (servo_finishTx _ _ _) (by rw [clock_finishTx]) (by rw [cfg_finishTx])

theorem rated_suppressAlert (a : AlertForm) (s : State) (h : Rated s) : Rated (suppressAlert a s) :=
  h.of (servo_suppressAlert _ _) (by rw [clock_suppressAlert]) (by rw [cfg_suppressAlert])

theorem rated_alertEvent (a : AlertForm) (clear : Bool) (subject : Subject) (d : AlertData) (s : State)
    (h : Rated s) :
    Rated (alertEvent a clear subject d s) :=
  h.of (servo_alertEvent _ _ _ _ _) (by rw [clock_alertEvent]) (by rw [cfg_alertEvent])

theorem rated_levelNotice (s : State) (h : Rated s) : Rated (levelNotice s) :=
  h.of (servo_levelNotice _) (by rw [clock_levelNotice]) (by rw [cfg_levelNotice])

theorem rated_offerBare (o : Offer) (s : State) (h : Rated s) : Rated (offerBare o s).1 :=
  h.of (servo_offerBare _ _) (by rw [clock_offerBare]) (by rw [cfg_offerBare])

theorem rated_activate (k : FaultKind) (subject : Subject) (s : State) (h : Rated s) : Rated (activate k subject s) :=
  h.of (servo_activate _ _ _) (by rw [clock_activate]) (by rw [cfg_activate])

theorem rated_countRaise (k : FaultKind) (s : State) (h : Rated s) : Rated (countRaise k s) :=
  h.of (servo_countRaise _ _) (by rw [clock_countRaise]) (by rw [cfg_countRaise])

theorem rated_deactivate (k : FaultKind) (s : State) (h : Rated s) : Rated (deactivate k s) :=
  h.of (servo_deactivate _ _) (by rw [clock_deactivate]) (by rw [cfg_deactivate])

theorem rated_faultAlert (k : FaultKind) (clear : Bool) (subject : Subject) (d : AlertData) (s : State)
    (h : Rated s) :
    Rated (faultAlert k clear subject d s) :=
  h.of (servo_faultAlert _ _ _ _ _) (by rw [clock_faultAlert]) (by rw [cfg_faultAlert])

theorem rated_raiseLogFull (s : State) (h : Rated s) :
    Rated (raiseLogFull s) := by
  simp only [raiseLogFull]
  (repeat' split) <;> (repeat' first
      | with_reducible assumption | with_reducible apply rated_watchSecond | with_reducible apply rated_offerBare
      | with_reducible apply rated_activate | with_reducible apply rated_countRaise
      | with_reducible apply rated_faultAlert | with_reducible exact clearCounts_f _
      | with_reducible exact clearCounts_r _ | with_reducible rfl | exact (Rated.f (by assumption)).1
      | exact (Rated.f (by assumption)).2 | exact (Rated.cr (by assumption)).1
      | exact (Rated.cr (by assumption)).2 | exact (servoParams_le _).1 | exact (servoParams_le _).2 | simp)

theorem rated_clearLogFull (s : State) (h : Rated s) :
    Rated (clearLogFull s) := by
  simp only [clearLogFull]
  (repeat' split) <;> (repeat' first
      | with_reducible assumption | with_reducible apply rated_offerBare | with_reducible apply rated_deactivate
      | with_reducible apply rated_faultAlert | with_reducible apply rated_raiseLogFull
      | with_reducible exact clearCounts_f _ | with_reducible exact clearCounts_r _ | with_reducible rfl
      | exact (Rated.f (by assumption)).1 | exact (Rated.f (by assumption)).2 | exact (Rated.cr (by assumption)).1
      | exact (Rated.cr (by assumption)).2 | exact (servoParams_le _).1 | exact (servoParams_le _).2 | simp)

theorem rated_offerRecord (o : Offer) (s : State) (h : Rated s) :
    Rated (offerRecord o s) := by
  simp only [offerRecord]
  (repeat' split) <;> (repeat' first
      | with_reducible assumption | with_reducible apply rated_offerBare | with_reducible apply rated_raiseLogFull
      | with_reducible apply rated_clearLogFull | with_reducible exact clearCounts_f _
      | with_reducible exact clearCounts_r _ | with_reducible rfl | exact (Rated.f (by assumption)).1
      | exact (Rated.f (by assumption)).2 | exact (Rated.cr (by assumption)).1
      | exact (Rated.cr (by assumption)).2 | exact (servoParams_le _).1 | exact (servoParams_le _).2 | simp)

theorem rated_raiseLogFullAgain (s : State) (h : Rated s) :
    Rated (raiseLogFullAgain s) := by
  simp only [raiseLogFullAgain]
  (repeat' split) <;> (repeat' first
      | with_reducible assumption | with_reducible apply rated_watchSecond | with_reducible apply rated_offerBare
      | with_reducible apply rated_activate | with_reducible apply rated_countRaise
      | with_reducible apply rated_faultAlert | with_reducible apply rated_clearLogFull
      | with_reducible exact clearCounts_f _ | with_reducible exact clearCounts_r _ | with_reducible rfl
      | exact (Rated.f (by assumption)).1 | exact (Rated.f (by assumption)).2 | exact (Rated.cr (by assumption)).1
      | exact (Rated.cr (by assumption)).2 | exact (servoParams_le _).1 | exact (servoParams_le _).2 | simp)

theorem rated_raiseFault (k : FaultKind) (subject : Subject) (record : Bool) (d : AlertData) (s : State) (h : Rated s) :
    Rated (raiseFault k subject record d s) := by
  simp only [raiseFault]
  (repeat' split) <;> (repeat' first
      | with_reducible assumption | with_reducible apply rated_watchSecond | with_reducible apply rated_activate
      | with_reducible apply rated_countRaise | with_reducible apply rated_faultAlert
      | with_reducible apply rated_offerRecord | with_reducible exact clearCounts_f _
      | with_reducible exact clearCounts_r _ | with_reducible rfl | exact (Rated.f (by assumption)).1
      | exact (Rated.f (by assumption)).2 | exact (Rated.cr (by assumption)).1
      | exact (Rated.cr (by assumption)).2 | exact (servoParams_le _).1 | exact (servoParams_le _).2 | simp)

theorem rated_clearFault (k : FaultKind) (subject : Subject) (record : Bool) (d : AlertData) (s : State) (h : Rated s) :
    Rated (clearFault k subject record d s) := by
  simp only [clearFault]
  (repeat' split) <;> (repeat' first
      | with_reducible assumption | with_reducible apply rated_deactivate | with_reducible apply rated_faultAlert
      | with_reducible apply rated_offerRecord | with_reducible exact clearCounts_f _
      | with_reducible exact clearCounts_r _ | with_reducible rfl | exact (Rated.f (by assumption)).1
      | exact (Rated.f (by assumption)).2 | exact (Rated.cr (by assumption)).1
      | exact (Rated.cr (by assumption)).2 | exact (servoParams_le _).1 | exact (servoParams_le _).2 | simp)

theorem rated_setServoState (st : ServoState) (s : State) (h : Rated s) :
    Rated (setServoState st s) := by
  simp only [setServoState]
  (repeat' split) <;> (repeat' first
      | with_reducible assumption | with_reducible apply rated_watchSecond | with_reducible apply rated_setServo
      | with_reducible exact clearCounts_f _ | with_reducible exact clearCounts_r _ | with_reducible rfl
      | exact (Rated.f (by assumption)).1 | exact (Rated.f (by assumption)).2 | exact (Rated.cr (by assumption)).1
      | exact (Rated.cr (by assumption)).2 | exact (servoParams_le _).1 | exact (servoParams_le _).2 | simp)

theorem rated_offerState (old : ServoState) (s : State) (h : Rated s) :
    Rated (offerState old s) := by
  simp only [offerState]
  (repeat' split) <;> (repeat' first
      | with_reducible assumption | with_reducible apply rated_offerRecord | with_reducible exact clearCounts_f _
      | with_reducible exact clearCounts_r _ | with_reducible rfl | exact (Rated.f (by assumption)).1
      | exact (Rated.f (by assumption)).2 | exact (Rated.cr (by assumption)).1
      | exact (Rated.cr (by assumption)).2 | exact (servoParams_le _).1 | exact (servoParams_le _).2 | simp)

theorem rated_servoFollows (s : State) (h : Rated s) :
    Rated (servoFollows s) := by
  simp only [servoFollows]
  (repeat' split) <;> (repeat' first
      | with_reducible assumption | with_reducible apply rated_setServoState | with_reducible apply rated_setServo
      | with_reducible exact clearCounts_f _ | with_reducible exact clearCounts_r _ | with_reducible rfl
      | exact (Rated.f (by assumption)).1 | exact (Rated.f (by assumption)).2 | exact (Rated.cr (by assumption)).1
      | exact (Rated.cr (by assumption)).2 | exact (servoParams_le _).1 | exact (servoParams_le _).2 | simp)

theorem rated_servoSwitches (s : State) (h : Rated s) :
    Rated (servoSwitches s) := by
  simp only [servoSwitches]
  (repeat' split) <;> (repeat' first
      | with_reducible assumption | with_reducible apply rated_setServoState | with_reducible apply rated_setServo
      | with_reducible exact clearCounts_f _ | with_reducible exact clearCounts_r _ | with_reducible rfl
      | exact (Rated.f (by assumption)).1 | exact (Rated.f (by assumption)).2 | exact (Rated.cr (by assumption)).1
      | exact (Rated.cr (by assumption)).2 | exact (servoParams_le _).1 | exact (servoParams_le _).2 | simp)

theorem rated_servoHolds (s : State) (h : Rated s) :
    Rated (servoHolds s) := by
  simp only [servoHolds]
  (repeat' split) <;> (repeat' first
      | with_reducible assumption | with_reducible apply rated_handRate | with_reducible apply rated_setServoState
      | with_reducible apply rated_setServo | with_reducible exact clearCounts_f _
      | with_reducible exact clearCounts_r _ | with_reducible rfl | exact (Rated.f (by assumption)).1
      | exact (Rated.f (by assumption)).2 | exact (Rated.cr (by assumption)).1
      | exact (Rated.cr (by assumption)).2 | exact (servoParams_le _).1 | exact (servoParams_le _).2 | simp)

theorem rated_setSourceState (i : Nat) (st : SourceState) (s : State) (h : Rated s) : Rated (setSourceState i st s) :=
  h.of (servo_setSourceState _ _ _) (by rw [clock_setSourceState]) (by rw [cfg_setSourceState])

theorem rated_unselect (i : Nat) (s : State) (h : Rated s) : Rated (unselect i s) :=
  h.of (servo_unselect _ _) (by rw [clock_unselect]) (by rw [cfg_unselect])

theorem rated_clearHoldoverExpired (s : State) (h : Rated s) :
    Rated (clearHoldoverExpired s) := by
  simp only [clearHoldoverExpired]
  (repeat' split) <;> (repeat' first
      | with_reducible assumption | with_reducible apply rated_clearFault | with_reducible exact clearCounts_f _
      | with_reducible exact clearCounts_r _ | with_reducible rfl | exact (Rated.f (by assumption)).1
      | exact (Rated.f (by assumption)).2 | exact (Rated.cr (by assumption)).1
      | exact (Rated.cr (by assumption)).2 | exact (servoParams_le _).1 | exact (servoParams_le _).2 | simp)

theorem rated_offerStateIfChanged (before : ServoState) (s : State) (h : Rated s) :
    Rated (offerStateIfChanged before s) := by
  simp only [offerStateIfChanged]
  (repeat' split) <;> (repeat' first
      | with_reducible assumption | with_reducible apply rated_offerState | with_reducible exact clearCounts_f _
      | with_reducible exact clearCounts_r _ | with_reducible rfl | exact (Rated.f (by assumption)).1
      | exact (Rated.f (by assumption)).2 | exact (Rated.cr (by assumption)).1
      | exact (Rated.cr (by assumption)).2 | exact (servoParams_le _).1 | exact (servoParams_le _).2 | simp)

theorem rated_select (old : Option (Nat × SourceEntry)) (new : Nat × SourceEntry) (reason : Reason) (sampled : Bool) (s : State) (h : Rated s) :
    Rated (select old new reason sampled s) := by
  simp only [select]
  (repeat' split) <;> (repeat' first
      | with_reducible assumption | with_reducible apply rated_offerRecord | with_reducible apply rated_clearFault
      | with_reducible apply rated_servoFollows | with_reducible apply rated_servoSwitches
      | with_reducible apply rated_setSourceState | with_reducible apply rated_unselect
      | with_reducible apply rated_clearHoldoverExpired | with_reducible apply rated_offerStateIfChanged
      | with_reducible exact clearCounts_f _ | with_reducible exact clearCounts_r _ | with_reducible rfl
      | exact (Rated.f (by assumption)).1 | exact (Rated.f (by assumption)).2 | exact (Rated.cr (by assumption)).1
      | exact (Rated.cr (by assumption)).2 | exact (servoParams_le _).1 | exact (servoParams_le _).2 | simp)

theorem rated_endSelection (old : Nat × SourceEntry) (reason : Reason) (s : State) (h : Rated s) :
    Rated (endSelection old reason s) := by
  simp only [endSelection]
  (repeat' split) <;> (repeat' first
      | with_reducible assumption | with_reducible apply rated_offerRecord | with_reducible apply rated_raiseFault
      | with_reducible apply rated_servoHolds | with_reducible apply rated_unselect
      | with_reducible apply rated_offerStateIfChanged | with_reducible exact clearCounts_f _
      | with_reducible exact clearCounts_r _ | with_reducible rfl | exact (Rated.f (by assumption)).1
      | exact (Rated.f (by assumption)).2 | exact (Rated.cr (by assumption)).1
      | exact (Rated.cr (by assumption)).2 | exact (servoParams_le _).1 | exact (servoParams_le _).2 | simp)

theorem rated_reevaluate (old : Option (Nat × SourceEntry)) (why : Reason) (own : Option Nat) (s : State) (h : Rated s) :
    Rated (reevaluate old why own s) := by
  simp only [reevaluate]
  (repeat' split) <;> (repeat' first
      | with_reducible assumption | with_reducible apply rated_select | with_reducible apply rated_endSelection
      | with_reducible exact clearCounts_f _ | with_reducible exact clearCounts_r _ | with_reducible rfl
      | exact (Rated.f (by assumption)).1 | exact (Rated.f (by assumption)).2 | exact (Rated.cr (by assumption)).1
      | exact (Rated.cr (by assumption)).2 | exact (servoParams_le _).1 | exact (servoParams_le _).2 | simp)

theorem rated_reevaluateOnHold (before : Bool) (s : State) (h : Rated s) :
    Rated (reevaluateOnHold before s) := by
  simp only [reevaluateOnHold]
  (repeat' split) <;> (repeat' first
      | with_reducible assumption | with_reducible apply rated_reevaluate | with_reducible exact clearCounts_f _
      | with_reducible exact clearCounts_r _ | with_reducible rfl | exact (Rated.f (by assumption)).1
      | exact (Rated.f (by assumption)).2 | exact (Rated.cr (by assumption)).1
      | exact (Rated.cr (by assumption)).2 | exact (servoParams_le _).1 | exact (servoParams_le _).2 | simp)

theorem rated_raiseWithHold (k : FaultKind) (subject : Subject) (record : Bool) (d : AlertData) (s : State) (h : Rated s) :
    Rated (raiseWithHold k subject record d s) := by
  simp only [raiseWithHold]
  (repeat' split) <;> (repeat' first
      | with_reducible assumption | with_reducible apply rated_raiseFault
      | with_reducible apply rated_reevaluateOnHold | with_reducible exact clearCounts_f _
      | with_reducible exact clearCounts_r _ | with_reducible rfl | exact (Rated.f (by assumption)).1
      | exact (Rated.f (by assumption)).2 | exact (Rated.cr (by assumption)).1
      | exact (Rated.cr (by assumption)).2 | exact (servoParams_le _).1 | exact (servoParams_le _).2 | simp)

theorem rated_clearWithHold (k : FaultKind) (subject : Subject) (record : Bool) (d : AlertData) (s : State) (h : Rated s) :
    Rated (clearWithHold k subject record d s) := by
  simp only [clearWithHold]
  (repeat' split) <;> (repeat' first
      | with_reducible assumption | with_reducible apply rated_clearFault
      | with_reducible apply rated_reevaluateOnHold | with_reducible exact clearCounts_f _
      | with_reducible exact clearCounts_r _ | with_reducible rfl | exact (Rated.f (by assumption)).1
      | exact (Rated.f (by assumption)).2 | exact (Rated.cr (by assumption)).1
      | exact (Rated.cr (by assumption)).2 | exact (servoParams_le _).1 | exact (servoParams_le _).2 | simp)

theorem rated_secondPulse (s : State) (h : Rated s) :
    Rated (secondPulse s) := by
  simp only [secondPulse]
  (repeat' split) <;> (repeat' first
      | with_reducible assumption | with_reducible apply rated_setClock | with_reducible exact clearCounts_f _
      | with_reducible exact clearCounts_r _ | with_reducible rfl | exact (Rated.f (by assumption)).1
      | exact (Rated.f (by assumption)).2 | exact (Rated.cr (by assumption)).1
      | exact (Rated.cr (by assumption)).2 | exact (servoParams_le _).1 | exact (servoParams_le _).2 | simp)

theorem rated_performSwap (s : State) (h : Rated s) : Rated (performSwap s) :=
  h.of (servo_performSwap _) (by rw [clock_performSwap]) (by rw [cfg_performSwap])

theorem rated_armedSwap (s : State) (h : Rated s) : Rated (armedSwap s) :=
  h.of (servo_armedSwap _) (by rw [clock_armedSwap]) (by rw [cfg_armedSwap])

theorem rated_secondBoundary (s : State) (h : Rated s) :
    Rated (secondBoundary s) := by
  simp only [secondBoundary]
  (repeat' split) <;> (repeat' first
      | with_reducible assumption | with_reducible apply rated_secondPulse | with_reducible apply rated_armedSwap
      | with_reducible exact clearCounts_f _ | with_reducible exact clearCounts_r _ | with_reducible rfl
      | exact (Rated.f (by assumption)).1 | exact (Rated.f (by assumption)).2 | exact (Rated.cr (by assumption)).1
      | exact (Rated.cr (by assumption)).2 | exact (servoParams_le _).1 | exact (servoParams_le _).2 | simp)

theorem rated_stepTo (moved : Date × Bool) (s : State) (h : Rated s) :
    Rated (stepTo moved s) := by
  simp only [stepTo]
  (repeat' split) <;> (repeat' first
      | with_reducible assumption | with_reducible apply rated_secondBoundary
      | with_reducible apply rated_setClock | with_reducible exact clearCounts_f _
      | with_reducible exact clearCounts_r _ | with_reducible rfl | exact (Rated.f (by assumption)).1
      | exact (Rated.f (by assumption)).2 | exact (Rated.cr (by assumption)).1
      | exact (Rated.cr (by assumption)).2 | exact (servoParams_le _).1 | exact (servoParams_le _).2 | simp)

theorem rated_forwardStep (amount : Nat) (s : State) (h : Rated s) :
    Rated (forwardStep amount s) := by
  simp only [forwardStep]
  (repeat' split) <;> (repeat' first
      | with_reducible assumption | with_reducible apply rated_stepTo | with_reducible exact clearCounts_f _
      | with_reducible exact clearCounts_r _ | with_reducible rfl | exact (Rated.f (by assumption)).1
      | exact (Rated.f (by assumption)).2 | exact (Rated.cr (by assumption)).1
      | exact (Rated.cr (by assumption)).2 | exact (servoParams_le _).1 | exact (servoParams_le _).2 | simp)

theorem rated_load (d : Date) (s : State) (h : Rated s) :
    Rated (load d s) := by
  simp only [load]
  (repeat' split) <;> (repeat' first
      | with_reducible assumption | with_reducible apply rated_setClock | with_reducible exact clearCounts_f _
      | with_reducible exact clearCounts_r _ | with_reducible rfl | exact (Rated.f (by assumption)).1
      | exact (Rated.f (by assumption)).2 | exact (Rated.cr (by assumption)).1
      | exact (Rated.cr (by assumption)).2 | exact (servoParams_le _).1 | exact (servoParams_le _).2 | simp)

theorem rated_uptimeSecond (s : State) (h : Rated s) :
    Rated (uptimeSecond s) := by
  simp only [uptimeSecond]
  (repeat' split) <;> (repeat' first
      | with_reducible assumption | with_reducible apply rated_setSources | with_reducible apply rated_setServo
      | with_reducible exact clearCounts_f _ | with_reducible exact clearCounts_r _ | with_reducible rfl
      | exact (Rated.f (by assumption)).1 | exact (Rated.f (by assumption)).2 | exact (Rated.cr (by assumption)).1
      | exact (Rated.cr (by assumption)).2 | exact (servoParams_le _).1 | exact (servoParams_le _).2 | simp)

theorem rated_rememberStamp (d : SN) (s : State) (h : Rated s) :
    Rated (rememberStamp d s) := by
  simp only [rememberStamp]
  (repeat' split) <;> (repeat' first
      | with_reducible assumption | with_reducible apply rated_setClock | with_reducible exact clearCounts_f _
      | with_reducible exact clearCounts_r _ | with_reducible rfl | exact (Rated.f (by assumption)).1
      | exact (Rated.f (by assumption)).2 | exact (Rated.cr (by assumption)).1
      | exact (Rated.cr (by assumption)).2 | exact (servoParams_le _).1 | exact (servoParams_le _).2 | simp)

theorem rated_leaveLocked (s : State) (h : Rated s) :
    Rated (leaveLocked s) := by
  simp only [leaveLocked]
  (repeat' split) <;> (repeat' first
      | with_reducible assumption | with_reducible apply rated_setServoState
      | with_reducible apply rated_offerState | with_reducible apply rated_setServo
      | with_reducible exact clearCounts_f _ | with_reducible exact clearCounts_r _ | with_reducible rfl
      | exact (Rated.f (by assumption)).1 | exact (Rated.f (by assumption)).2 | exact (Rated.cr (by assumption)).1
      | exact (Rated.cr (by assumption)).2 | exact (servoParams_le _).1 | exact (servoParams_le _).2 | simp)

theorem rated_afterStep (amount : Nat) (s : State) (h : Rated s) :
    Rated (afterStep amount s) := by
  simp only [afterStep]
  (repeat' split) <;> (repeat' first
      | with_reducible assumption | with_reducible apply rated_offerRecord
      | with_reducible apply rated_leaveLocked | with_reducible apply rated_setServo
      | with_reducible exact clearCounts_f _ | with_reducible exact clearCounts_r _ | with_reducible rfl
      | exact (Rated.f (by assumption)).1 | exact (Rated.f (by assumption)).2 | exact (Rated.cr (by assumption)).1
      | exact (Rated.cr (by assumption)).2 | exact (servoParams_le _).1 | exact (servoParams_le _).2 | simp)

theorem rated_servoStep (amount : Nat) (s : State) (h : Rated s) :
    Rated (servoStep amount s) := by
  simp only [servoStep]
  (repeat' split) <;> (repeat' first
      | with_reducible assumption | with_reducible apply rated_forwardStep | with_reducible apply rated_afterStep
      | with_reducible exact clearCounts_f _ | with_reducible exact clearCounts_r _ | with_reducible rfl
      | exact (Rated.f (by assumption)).1 | exact (Rated.f (by assumption)).2 | exact (Rated.cr (by assumption)).1
      | exact (Rated.cr (by assumption)).2 | exact (servoParams_le _).1 | exact (servoParams_le _).2 | simp)

theorem rated_startCatchDown (s : State) (h : Rated s) :
    Rated (startCatchDown s) := by
  simp only [startCatchDown]
  (repeat' split) <;> (repeat' first
      | with_reducible assumption | with_reducible apply rated_handRate | with_reducible apply rated_leaveLocked
      | with_reducible apply rated_setServo | with_reducible exact clearCounts_f _
      | with_reducible exact clearCounts_r _ | with_reducible rfl | exact (Rated.f (by assumption)).1
      | exact (Rated.f (by assumption)).2 | exact (Rated.cr (by assumption)).1
      | exact (Rated.cr (by assumption)).2 | exact (servoParams_le _).1 | exact (servoParams_le _).2 | simp)

theorem rated_filterUpdate (theta k : Int) (s : State) (h : Rated s) : Rated (filterUpdate theta k s) := by
  simp only [filterUpdate]
  have key : ∀ x : State, Rated x → Rated (handRate (clampInt (-Config.maxRate) Config.maxRate (x.servo.f - errorRate theta k / (2 ^ s.cfg.servo.sp : Nat)))
      (x.setServo { x.servo with sat := x.servo.sat || clampInt (-Config.maxRate) Config.maxRate (x.servo.f - errorRate theta k / (2 ^ s.cfg.servo.sp : Nat)) != x.servo.f - errorRate theta k / (2 ^ s.cfg.servo.sp : Nat) })) := by
    intro x hx
    apply rated_handRate
    · exact rated_setServo _ _ rfl rfl hx
    · simp only [clampInt, Config.maxRate]; (repeat' split) <;> omega
    · simp only [clampInt, Config.maxRate]; (repeat' split) <;> omega
  by_cases hc : plausible s (integralNew s (errorRate theta k)) = true
  · simp only [hc, Bool.not_true, if_false, Bool.false_eq_true]
    have hb : Rated (s.setServo { s.servo with f := integralNew s (errorRate theta k) }) :=
      ⟨⟨of_decide_eq_true hc, h.ok.rate, h.ok.plausibility, h.ok.catchRate⟩, h.inc⟩
    exact key _ hb
  · simp only [hc, Bool.not_false, if_true]
    apply rated_raiseWithHold
    exact key _ h

theorem rated_lockCounting (theta : Int) (s : State) (h : Rated s) :
    Rated (lockCounting theta s) := by
  simp only [lockCounting]
  (repeat' split) <;> (repeat' first
      | with_reducible assumption | with_reducible apply rated_setServoState
      | with_reducible apply rated_offerState | with_reducible apply rated_leaveLocked
      | with_reducible apply rated_setServo | with_reducible exact clearCounts_f _
      | with_reducible exact clearCounts_r _ | with_reducible rfl | exact (Rated.f (by assumption)).1
      | exact (Rated.f (by assumption)).2 | exact (Rated.cr (by assumption)).1
      | exact (Rated.cr (by assumption)).2 | exact (servoParams_le _).1 | exact (servoParams_le _).2 | simp)

theorem rated_sampleInUnset (x : ServoSample) (s : State) (h : Rated s) :
    Rated (sampleInUnset x s) := by
  simp only [sampleInUnset]
  (repeat' split) <;> (repeat' first
      | with_reducible assumption | with_reducible apply rated_setServoState
      | with_reducible apply rated_offerState | with_reducible apply rated_load
      | with_reducible apply rated_setServo | with_reducible exact clearCounts_f _
      | with_reducible exact clearCounts_r _ | with_reducible rfl | exact (Rated.f (by assumption)).1
      | exact (Rated.f (by assumption)).2 | exact (Rated.cr (by assumption)).1
      | exact (Rated.cr (by assumption)).2 | exact (servoParams_le _).1 | exact (servoParams_le _).2 | simp)

theorem rated_filterAndLock (x : ServoSample) (s : State) (h : Rated s) :
    Rated (filterAndLock x s) := by
  simp only [filterAndLock]
  (repeat' split) <;> (repeat' first
      | with_reducible assumption | with_reducible apply rated_filterUpdate
      | with_reducible apply rated_lockCounting | with_reducible exact clearCounts_f _
      | with_reducible exact clearCounts_r _ | with_reducible rfl | exact (Rated.f (by assumption)).1
      | exact (Rated.f (by assumption)).2 | exact (Rated.cr (by assumption)).1
      | exact (Rated.cr (by assumption)).2 | exact (servoParams_le _).1 | exact (servoParams_le _).2 | simp)

theorem rated_sampleInCatchDown (x : ServoSample) (s : State) (h : Rated s) :
    Rated (sampleInCatchDown x s) := by
  simp only [sampleInCatchDown]
  (repeat' split) <;> (repeat' first
      | with_reducible assumption | with_reducible apply rated_handRate | with_reducible apply rated_servoStep
      | with_reducible apply rated_filterAndLock | with_reducible apply rated_setServo
      | with_reducible exact clearCounts_f _ | with_reducible exact clearCounts_r _ | with_reducible rfl
      | exact (Rated.f (by assumption)).1 | exact (Rated.f (by assumption)).2 | exact (Rated.cr (by assumption)).1
      | exact (Rated.cr (by assumption)).2 | exact (servoParams_le _).1 | exact (servoParams_le _).2 | simp)

theorem rated_sampleOutside (x : ServoSample) (s : State) (h : Rated s) :
    Rated (sampleOutside x s) := by
  simp only [sampleOutside]
  (repeat' split) <;> (repeat' first
      | with_reducible assumption | with_reducible apply rated_servoStep
      | with_reducible apply rated_startCatchDown | with_reducible apply rated_filterAndLock
      | with_reducible exact clearCounts_f _ | with_reducible exact clearCounts_r _ | with_reducible rfl
      | exact (Rated.f (by assumption)).1 | exact (Rated.f (by assumption)).2 | exact (Rated.cr (by assumption)).1
      | exact (Rated.cr (by assumption)).2 | exact (servoParams_le _).1 | exact (servoParams_le _).2 | simp)

theorem rated_sampleInFollow (x : ServoSample) (s : State) (h : Rated s) :
    Rated (sampleInFollow x s) := by
  simp only [sampleInFollow]
  (repeat' split) <;> (repeat' first
      | with_reducible assumption | with_reducible apply rated_sampleInCatchDown
      | with_reducible apply rated_sampleOutside | with_reducible apply rated_setServo
      | with_reducible exact clearCounts_f _ | with_reducible exact clearCounts_r _ | with_reducible rfl
      | exact (Rated.f (by assumption)).1 | exact (Rated.f (by assumption)).2 | exact (Rated.cr (by assumption)).1
      | exact (Rated.cr (by assumption)).2 | exact (servoParams_le _).1 | exact (servoParams_le _).2 | simp)

theorem rated_takeSample (x : ServoSample) (s : State) (h : Rated s) :
    Rated (takeSample x s) := by
  simp only [takeSample]
  (repeat' split) <;> (repeat' first
      | with_reducible assumption | with_reducible apply rated_sampleInUnset
      | with_reducible apply rated_sampleInFollow | with_reducible exact clearCounts_f _
      | with_reducible exact clearCounts_r _ | with_reducible rfl | exact (Rated.f (by assumption)).1
      | exact (Rated.f (by assumption)).2 | exact (Rated.cr (by assumption)).1
      | exact (Rated.cr (by assumption)).2 | exact (servoParams_le _).1 | exact (servoParams_le _).2 | simp)

theorem rated_expireHoldover (s : State) (h : Rated s) :
    Rated (expireHoldover s) := by
  simp only [expireHoldover]
  (repeat' split) <;> (repeat' first
      | with_reducible assumption | with_reducible apply rated_watchSecond | with_reducible apply rated_offerState
      | with_reducible apply rated_raiseWithHold | with_reducible apply rated_setServo
      | with_reducible exact clearCounts_f _ | with_reducible exact clearCounts_r _ | with_reducible rfl
      | exact (Rated.f (by assumption)).1 | exact (Rated.f (by assumption)).2 | exact (Rated.cr (by assumption)).1
      | exact (Rated.cr (by assumption)).2 | exact (servoParams_le _).1 | exact (servoParams_le _).2 | simp)

theorem rated_unexpireHoldover (s : State) (h : Rated s) :
    Rated (unexpireHoldover s) := by
  simp only [unexpireHoldover]
  (repeat' split) <;> (repeat' first
      | with_reducible assumption | with_reducible apply rated_offerState
      | with_reducible apply rated_clearWithHold | with_reducible apply rated_setServo
      | with_reducible exact clearCounts_f _ | with_reducible exact clearCounts_r _ | with_reducible rfl
      | exact (Rated.f (by assumption)).1 | exact (Rated.f (by assumption)).2 | exact (Rated.cr (by assumption)).1
      | exact (Rated.cr (by assumption)).2 | exact (servoParams_le _).1 | exact (servoParams_le _).2 | simp)

theorem rated_judgeHoldover (s : State) (h : Rated s) :
    Rated (judgeHoldover s) := by
  simp only [judgeHoldover]
  (repeat' split) <;> (repeat' first
      | with_reducible assumption | with_reducible apply rated_expireHoldover
      | with_reducible apply rated_unexpireHoldover | with_reducible exact clearCounts_f _
      | with_reducible exact clearCounts_r _ | with_reducible rfl | exact (Rated.f (by assumption)).1
      | exact (Rated.f (by assumption)).2 | exact (Rated.cr (by assumption)).1
      | exact (Rated.cr (by assumption)).2 | exact (servoParams_le _).1 | exact (servoParams_le _).2 | simp)

theorem rated_clampF' (s : State) (hp : s.cfg.servo.plausibility ≤ 500) (hcr : s.cfg.servo.catchRate ≤ 500)
    (hr : -512000000 ≤ s.servo.r ∧ s.servo.r ≤ 512000000) (hi : 17171279249 ≤ s.clock.inc ∧ s.clock.inc ≤ 17188459119) :
    Rated (clampF s) := by
  have hb : -plausibleUnits s ≤ clampInt (-plausibleUnits s) (plausibleUnits s) s.servo.f ∧ clampInt (-plausibleUnits s) (plausibleUnits s) s.servo.f ≤ plausibleUnits s := by
    have : 0 ≤ plausibleUnits s := by simp only [plausibleUnits]; omega
    simp only [clampInt]
    (repeat' split) <;> omega
  have hl : plausibleUnits s ≤ 512000000 := by simp only [plausibleUnits, Config.unitsPerPpm]; omega
  simp only [clampF]
  split
  · rename_i he
    rw [he] at hb
    exact ⟨⟨hb, hr, hp, hcr⟩, hi⟩
  · have h1 : Rated (s.setServo { s.servo with f := clampInt (-plausibleUnits s) (plausibleUnits s) s.servo.f }) := ⟨⟨hb, hr, hp, hcr⟩, hi⟩
    split
    · exact rated_handRate _ _ h1 (by omega) (by omega)
    · exact rated_handRate _ _ h1 (by omega) (by omega)
    · exact rated_handRate _ _ h1 (by omega) (by omega)
    · exact h1
    · exact h1

theorem rated_applyServo (p : ServoParams) (w l : Nat) (s : State) (h : Rated s) (hp : p.plausibility ≤ 500)
    (hc : p.catchRate ≤ 500) :
    Rated (applyServo p w l s) := by
  simp only [applyServo]
  apply rated_judgePulse
  apply rated_judgeHoldover
  have h1 : Rated (clampF (s.setCfg { s.cfg with servo := p, secWidth := w, secLimit := l })) := by
    apply rated_clampF'
    · simpa using hp
    · simpa using hc
    · simpa using h.ok.rate
    · simpa using h.inc
  split
  · exact rated_handRate _ _ h1 h1.cr.1 h1.cr.2
  · exact h1

theorem rated_setDateTo (d : SN) (s : State) (h : Rated s) :
    Rated (setDateTo d s).1 := by
  simp only [setDateTo]
  (repeat' split) <;> (repeat' first
      | with_reducible assumption | with_reducible apply rated_offerRecord
      | with_reducible apply rated_setServoState | with_reducible apply rated_offerState
      | with_reducible apply rated_forwardStep | with_reducible apply rated_load
      | with_reducible exact clearCounts_f _ | with_reducible exact clearCounts_r _ | with_reducible rfl
      | exact (Rated.f (by assumption)).1 | exact (Rated.f (by assumption)).2 | exact (Rated.cr (by assumption)).1
      | exact (Rated.cr (by assumption)).2 | exact (servoParams_le _).1 | exact (servoParams_le _).2 | simp)

theorem clampPl (s : State) (f : Int) (h : Rated s) :
    (-plausibleUnits s ≤ clampInt (-plausibleUnits s) (plausibleUnits s) f ∧ clampInt (-plausibleUnits s) (plausibleUnits s) f ≤ plausibleUnits s) := by
  have := h.pl
  simp only [clampInt]
  (repeat' split) <;> omega

theorem rated_setTrimTo (f : Int) (s : State) (h : Rated s) : Rated (setTrimTo f s).1 := by
  have hb := clampPl s f h
  have := h.pl
  simp only [setTrimTo]
  split
  · exact rated_handRate _ _ ⟨⟨hb, h.ok.rate, h.ok.plausibility, h.ok.catchRate⟩, h.inc⟩ (by omega) (by omega)
  · exact rated_handRate _ _ ⟨⟨hb, h.ok.rate, h.ok.plausibility, h.ok.catchRate⟩, h.inc⟩ (by omega) (by omega)
  · exact h
  · exact h
  · exact h

theorem rated_loadTrim (s : State) (hp : s.cfg.servo.plausibility ≤ 500) (hcr : s.cfg.servo.catchRate ≤ 500) :
    Rated (loadTrim s) := by
  have hb : -plausibleUnits s ≤ clampInt (-plausibleUnits s) (plausibleUnits s) s.cfg.trim ∧ clampInt (-plausibleUnits s) (plausibleUnits s) s.cfg.trim ≤ plausibleUnits s := by
    have : 0 ≤ plausibleUnits s := by simp only [plausibleUnits]; omega
    simp only [clampInt]
    (repeat' split) <;> omega
  have hl : plausibleUnits s ≤ 512000000 := by simp only [plausibleUnits, Config.unitsPerPpm]; omega
  have hd := rateDelta_bounds (clampInt (-plausibleUnits s) (plausibleUnits s) s.cfg.trim) (by omega) (by omega)
  refine ⟨⟨hb, ⟨?_, ?_⟩, hp, hcr⟩, ?_⟩
  · show _ ≤ clampInt (-plausibleUnits s) (plausibleUnits s) s.cfg.trim; omega
  · show clampInt (-plausibleUnits s) (plausibleUnits s) s.cfg.trim ≤ _; omega
  · simp only [loadTrim, handRate, incrementOf, Config.nominalInc, State.setClock]
    omega

theorem rated_servoSoftReset (s : State) (h : Rated s) :
    Rated (servoSoftReset s) := by
  simp only [servoSoftReset]
  (repeat' split) <;> (repeat' first
      | with_reducible assumption | with_reducible apply rated_handRate | with_reducible apply rated_offerState
      | with_reducible apply rated_servoHolds | with_reducible apply rated_setServo
      | with_reducible exact clearCounts_f _ | with_reducible exact clearCounts_r _ | with_reducible rfl
      | exact (Rated.f (by assumption)).1 | exact (Rated.f (by assumption)).2 | exact (Rated.cr (by assumption)).1
      | exact (Rated.cr (by assumption)).2 | exact (servoParams_le _).1 | exact (servoParams_le _).2 | simp)

theorem rated_forwardWhole (w : Whole) (edit : Edit) (s : State) (h : Rated s) : Rated (forwardWhole w edit s) :=
  h.of (servo_forwardWhole _ _ _) (by rw [clock_forwardWhole]) (by rw [cfg_forwardWhole])

theorem rated_takeInterval (p : Port) (s : State) (h : Rated s) : Rated (takeInterval p s) :=
  h.of (servo_takeInterval _ _) (by rw [clock_takeInterval]) (by rw [cfg_takeInterval])

theorem rated_restartInterval (p : Port) (s : State) (h : Rated s) : Rated (restartInterval p s) :=
  h.of (servo_restartInterval _ _) (by rw [clock_restartInterval]) (by rw [cfg_restartInterval])

theorem rated_startEcho (p : Port) (s : State) (h : Rated s) : Rated (startEcho p s) :=
  h.of (servo_startEcho _ _) (by rw [clock_startEcho]) (by rw [cfg_startEcho])

theorem rated_takeDelay (p : Port) (x : Nat) (s : State) (h : Rated s) : Rated (takeDelay p x s) :=
  h.of (servo_takeDelay _ _ _) (by rw [clock_takeDelay]) (by rw [cfg_takeDelay])

theorem rated_endExchange (w : Whole) (s : State) (h : Rated s) : Rated (endExchange w s) :=
  h.of (servo_endExchange _ _) (by rw [clock_endExchange]) (by rw [cfg_endExchange])

theorem rated_answerReceived (w : Whole) (s : State) (h : Rated s) : Rated (answerReceived w s) :=
  h.of (servo_answerReceived _ _) (by rw [clock_answerReceived]) (by rw [cfg_answerReceived])

theorem rated_echoTimesOut (p : Port) (s : State) (h : Rated s) : Rated (echoTimesOut p s) :=
  h.of (servo_echoTimesOut _ _) (by rw [clock_echoTimesOut]) (by rw [cfg_echoTimesOut])

theorem rated_echoLinkDown (p : Port) (s : State) (h : Rated s) : Rated (echoLinkDown p s) :=
  h.of (servo_echoLinkDown _ _) (by rw [clock_echoLinkDown]) (by rw [cfg_echoLinkDown])

theorem rated_echoLinkUp (p : Port) (s : State) (h : Rated s) : Rated (echoLinkUp p s) :=
  h.of (servo_echoLinkUp _ _) (by rw [clock_echoLinkUp]) (by rw [cfg_echoLinkUp])

theorem rated_echoRewritten (p : Port) (old : PortRec) (s : State) (h : Rated s) : Rated (echoRewritten p old s) :=
  h.of (servo_echoRewritten _ _ _) (by rw [clock_echoRewritten]) (by rw [cfg_echoRewritten])

theorem rated_clearStale (p : Port) (s : State) (h : Rated s) : Rated (clearStale p s) :=
  h.of (servo_clearStale _ _) (by rw [clock_clearStale]) (by rw [cfg_clearStale])

theorem rated_answerAsk (w : Whole) (s : State) (h : Rated s) : Rated (answerAsk w s) :=
  h.of (servo_answerAsk _ _) (by rw [clock_answerAsk]) (by rw [cfg_answerAsk])

theorem rated_handleAsk (w : Whole) (s : State) (h : Rated s) : Rated (handleAsk w s) :=
  h.of (servo_handleAsk _ _) (by rw [clock_handleAsk]) (by rw [cfg_handleAsk])

theorem rated_handleAnswer (w : Whole) (s : State) (h : Rated s) : Rated (handleAnswer w s) :=
  h.of (servo_handleAnswer _ _) (by rw [clock_handleAnswer]) (by rw [cfg_handleAnswer])

theorem rated_afterBeacon (w : Whole) (i p : Nat) (a : Int) (old : Option (Nat × SourceEntry)) (s : State) (h : Rated s) :
    Rated (afterBeacon w i p a old s) := by
  simp only [afterBeacon]
  (repeat' split) <;> (repeat' first
      | with_reducible assumption | with_reducible apply rated_watchSecond | with_reducible apply rated_reevaluate
      | with_reducible apply rated_takeSample | with_reducible apply rated_setSource
      | with_reducible exact clearCounts_f _ | with_reducible exact clearCounts_r _ | with_reducible rfl
      | exact (Rated.f (by assumption)).1 | exact (Rated.f (by assumption)).2 | exact (Rated.cr (by assumption)).1
      | exact (Rated.cr (by assumption)).2 | exact (servoParams_le _).1 | exact (servoParams_le _).2 | simp)

theorem rated_beaconIntoTable (w : Whole) (s : State) (h : Rated s) :
    Rated (beaconIntoTable w s) := by
  simp only [beaconIntoTable]
  (repeat' split) <;> (repeat' first
      | with_reducible assumption | with_reducible apply rated_afterBeacon | with_reducible apply rated_setSource
      | with_reducible apply rated_count | with_reducible exact clearCounts_f _
      | with_reducible exact clearCounts_r _ | with_reducible rfl | exact (Rated.f (by assumption)).1
      | exact (Rated.f (by assumption)).2 | exact (Rated.cr (by assumption)).1
      | exact (Rated.cr (by assumption)).2 | exact (servoParams_le _).1 | exact (servoParams_le _).2 | simp)

theorem rated_goStale (i : Nat) (s : State) (h : Rated s) :
    Rated (goStale i s) := by
  simp only [goStale]
  (repeat' split) <;> (repeat' first
      | with_reducible assumption | with_reducible apply rated_setSourceState
      | with_reducible apply rated_reevaluate | with_reducible exact clearCounts_f _
      | with_reducible exact clearCounts_r _ | with_reducible rfl | exact (Rated.f (by assumption)).1
      | exact (Rated.f (by assumption)).2 | exact (Rated.cr (by assumption)).1
      | exact (Rated.cr (by assumption)).2 | exact (servoParams_le _).1 | exact (servoParams_le _).2 | simp)

theorem rated_afterBar (old : Option (Nat × SourceEntry)) (s : State) (h : Rated s) :
    Rated (afterBar old s) := by
  simp only [afterBar]
  (repeat' split) <;> (repeat' first
      | with_reducible assumption | with_reducible apply rated_reevaluate | with_reducible exact clearCounts_f _
      | with_reducible exact clearCounts_r _ | with_reducible rfl | exact (Rated.f (by assumption)).1
      | exact (Rated.f (by assumption)).2 | exact (Rated.cr (by assumption)).1
      | exact (Rated.cr (by assumption)).2 | exact (servoParams_le _).1 | exact (servoParams_le _).2 | simp)

theorem rated_endBar (i : Nat) (e : SourceEntry) (s : State) (h : Rated s) :
    Rated (endBar i e s) := by
  simp only [endBar]
  (repeat' split) <;> (repeat' first
      | with_reducible assumption | with_reducible apply rated_afterBar | with_reducible apply rated_setSource
      | with_reducible exact clearCounts_f _ | with_reducible exact clearCounts_r _ | with_reducible rfl
      | exact (Rated.f (by assumption)).1 | exact (Rated.f (by assumption)).2 | exact (Rated.cr (by assumption)).1
      | exact (Rated.cr (by assumption)).2 | exact (servoParams_le _).1 | exact (servoParams_le _).2 | simp)

theorem rated_setBar (i : Nat) (e : SourceEntry) (seconds : Nat) (s : State) (h : Rated s) :
    Rated (setBar i e seconds s) := by
  simp only [setBar]
  (repeat' split) <;> (repeat' first
      | with_reducible assumption | with_reducible apply rated_afterBar | with_reducible apply rated_setSource
      | with_reducible exact clearCounts_f _ | with_reducible exact clearCounts_r _ | with_reducible rfl
      | exact (Rated.f (by assumption)).1 | exact (Rated.f (by assumption)).2 | exact (Rated.cr (by assumption)).1
      | exact (Rated.cr (by assumption)).2 | exact (servoParams_le _).1 | exact (servoParams_le _).2 | simp)

theorem rated_barEntry (i : Nat) (e : SourceEntry) (seconds : Nat) (s : State) (h : Rated s) :
    Rated (barEntry i e seconds s) := by
  simp only [barEntry]
  (repeat' split) <;> (repeat' first
      | with_reducible assumption | with_reducible apply rated_endBar | with_reducible apply rated_setBar
      | with_reducible exact clearCounts_f _ | with_reducible exact clearCounts_r _ | with_reducible rfl
      | exact (Rated.f (by assumption)).1 | exact (Rated.f (by assumption)).2 | exact (Rated.cr (by assumption)).1
      | exact (Rated.cr (by assumption)).2 | exact (servoParams_le _).1 | exact (servoParams_le _).2 | simp)

theorem rated_barSelected (seconds : Nat) (s : State) (h : Rated s) :
    Rated (barSelected seconds s) := by
  simp only [barSelected]
  (repeat' split) <;> (repeat' first
      | with_reducible assumption | with_reducible apply rated_barEntry | with_reducible exact clearCounts_f _
      | with_reducible exact clearCounts_r _ | with_reducible rfl | exact (Rated.f (by assumption)).1
      | exact (Rated.f (by assumption)).2 | exact (Rated.cr (by assumption)).1
      | exact (Rated.cr (by assumption)).2 | exact (servoParams_le _).1 | exact (servoParams_le _).2 | simp)

theorem rated_transitBeacon (w : Whole) (p : Nat) (s : State) (h : Rated s) : Rated (transitBeacon w p s) :=
  h.of (servo_transitBeacon _ _ _) (by rw [clock_transitBeacon]) (by rw [cfg_transitBeacon])

theorem rated_beaconUnit (w : Whole) (p : Nat) (s : State) (h : Rated s) : Rated (beaconUnit w p s) :=
  h.of (servo_beaconUnit _ _ _) (by rw [clock_beaconUnit]) (by rw [cfg_beaconUnit])

theorem rated_handleBeacon (w : Whole) (s : State) (h : Rated s) :
    Rated (handleBeacon w s) := by
  simp only [handleBeacon]
  (repeat' split) <;> (repeat' first
      | with_reducible assumption | with_reducible apply rated_beaconIntoTable
      | with_reducible apply rated_beaconUnit | with_reducible exact clearCounts_f _
      | with_reducible exact clearCounts_r _ | with_reducible rfl | exact (Rated.f (by assumption)).1
      | exact (Rated.f (by assumption)).2 | exact (Rated.cr (by assumption)).1
      | exact (Rated.cr (by assumption)).2 | exact (servoParams_le _).1 | exact (servoParams_le _).2 | simp)

theorem rated_recordEmission (l : Lane) (instant : SN) (e : Emission) (s : State) (h : Rated s) :
    Rated (recordEmission l instant e s) :=
  h.of (servo_recordEmission _ _ _ _) (by rw [clock_recordEmission]) (by rw [cfg_recordEmission])

theorem rated_originate (l : Lane) (instant : SN) (s : State) (h : Rated s) : Rated (originate l instant s) :=
  h.of (servo_originate _ _ _) (by rw [clock_originate]) (by rw [cfg_originate])

theorem rated_laneInstant (l : Lane) (old new : Date) (s : State) (h : Rated s) : Rated (laneInstant l old new s) :=
  h.of (servo_laneInstant _ _ _ _) (by rw [clock_laneInstant]) (by rw [cfg_laneInstant])

theorem rated_startReports (s : State) (h : Rated s) : Rated (startReports s) :=
  h.of (servo_startReports _) (by rw [clock_startReports]) (by rw [cfg_startReports])

theorem rated_nextSlot (s : State) (h : Rated s) : Rated (nextSlot s) :=
  h.of (servo_nextSlot _) (by rw [clock_nextSlot]) (by rw [cfg_nextSlot])

theorem rated_reportNotSent (i : Nat) (s : State) (h : Rated s) : Rated (reportNotSent i s) :=
  h.of (servo_reportNotSent _ _) (by rw [clock_reportNotSent]) (by rw [cfg_reportNotSent])

theorem rated_reportSent (i : Nat) (s : State) (h : Rated s) : Rated (reportSent i s) :=
  h.of (servo_reportSent _ _) (by rw [clock_reportSent]) (by rw [cfg_reportSent])

theorem rated_sendReport (i : Nat) (s : State) (h : Rated s) : Rated (sendReport i s) :=
  h.of (servo_sendReport _ _) (by rw [clock_sendReport]) (by rw [cfg_sendReport])

theorem rated_setSelfDrift (v : Verdict) (s : State) (h : Rated s) :
    Rated (setSelfDrift v s) := by
  simp only [setSelfDrift]
  (repeat' split) <;> (repeat' first
      | with_reducible assumption | with_reducible apply rated_offerRecord
      | with_reducible apply rated_raiseWithHold | with_reducible apply rated_barSelected
      | with_reducible apply rated_setDrift | with_reducible exact clearCounts_f _
      | with_reducible exact clearCounts_r _ | with_reducible rfl | exact (Rated.f (by assumption)).1
      | exact (Rated.f (by assumption)).2 | exact (Rated.cr (by assumption)).1
      | exact (Rated.cr (by assumption)).2 | exact (servoParams_le _).1 | exact (servoParams_le _).2 | simp)

theorem rated_clearSelfDrift (v : Verdict) (e : Episode) (s : State) (h : Rated s) :
    Rated (clearSelfDrift v e s) := by
  simp only [clearSelfDrift]
  (repeat' split) <;> (repeat' first
      | with_reducible assumption | with_reducible apply rated_offerRecord
      | with_reducible apply rated_clearWithHold | with_reducible apply rated_setDrift
      | with_reducible exact clearCounts_f _ | with_reducible exact clearCounts_r _ | with_reducible rfl
      | exact (Rated.f (by assumption)).1 | exact (Rated.f (by assumption)).2 | exact (Rated.cr (by assumption)).1
      | exact (Rated.cr (by assumption)).2 | exact (servoParams_le _).1 | exact (servoParams_le _).2 | simp)

theorem rated_judgeSelf (s : State) (h : Rated s) :
    Rated (judgeSelf s) := by
  simp only [judgeSelf]
  (repeat' split) <;> (repeat' first
      | with_reducible assumption | with_reducible apply rated_setSelfDrift
      | with_reducible apply rated_clearSelfDrift | with_reducible apply rated_setDrift
      | with_reducible exact clearCounts_f _ | with_reducible exact clearCounts_r _ | with_reducible rfl
      | exact (Rated.f (by assumption)).1 | exact (Rated.f (by assumption)).2 | exact (Rated.cr (by assumption)).1
      | exact (Rated.cr (by assumption)).2 | exact (servoParams_le _).1 | exact (servoParams_le _).2 | simp)

theorem rated_warnPeer (i : Nat) (vote : Vote) (s : State) (h : Rated s) :
    Rated (warnPeer i vote s) := by
  simp only [warnPeer]
  (repeat' split) <;> (repeat' first
      | with_reducible assumption | with_reducible apply rated_offerRecord
      | with_reducible apply rated_raiseWithHold | with_reducible apply rated_setPeer
      | with_reducible exact clearCounts_f _ | with_reducible exact clearCounts_r _ | with_reducible rfl
      | exact (Rated.f (by assumption)).1 | exact (Rated.f (by assumption)).2 | exact (Rated.cr (by assumption)).1
      | exact (Rated.cr (by assumption)).2 | exact (servoParams_le _).1 | exact (servoParams_le _).2 | simp)

theorem rated_unwarnPeer (i : Nat) (vote : Vote) (s : State) (h : Rated s) :
    Rated (unwarnPeer i vote s) := by
  simp only [unwarnPeer]
  (repeat' split) <;> (repeat' first
      | with_reducible assumption | with_reducible apply rated_offerRecord | with_reducible apply rated_setPeer
      | with_reducible exact clearCounts_f _ | with_reducible exact clearCounts_r _ | with_reducible rfl
      | exact (Rated.f (by assumption)).1 | exact (Rated.f (by assumption)).2 | exact (Rated.cr (by assumption)).1
      | exact (Rated.cr (by assumption)).2 | exact (servoParams_le _).1 | exact (servoParams_le _).2 | simp)

theorem rated_judgePeer (s : State) (i : Nat) (h : Rated s) :
    Rated (judgePeer s i) := by
  simp only [judgePeer]
  (repeat' split) <;> (repeat' first
      | with_reducible assumption | with_reducible apply rated_warnPeer | with_reducible apply rated_unwarnPeer
      | with_reducible exact clearCounts_f _ | with_reducible exact clearCounts_r _ | with_reducible rfl
      | exact (Rated.f (by assumption)).1 | exact (Rated.f (by assumption)).2 | exact (Rated.cr (by assumption)).1
      | exact (Rated.cr (by assumption)).2 | exact (servoParams_le _).1 | exact (servoParams_le _).2 | simp)

theorem rated_judgeRack (s : State) (h : Rated s) :
    Rated (judgeRack s) := by
  simp only [judgeRack]
  (repeat' split) <;> (repeat' first
      | with_reducible assumption | (with_reducible apply rated_foldl; intro t _ ht)
      | with_reducible apply rated_judgeSelf | with_reducible apply rated_judgePeer
      | with_reducible exact clearCounts_f _ | with_reducible exact clearCounts_r _ | with_reducible rfl
      | exact (Rated.f (by assumption)).1 | exact (Rated.f (by assumption)).2 | exact (Rated.cr (by assumption)).1
      | exact (Rated.cr (by assumption)).2 | exact (servoParams_le _).1 | exact (servoParams_le _).2 | simp)

theorem rated_reportReceived (w : Whole) (s : State) (h : Rated s) :
    Rated (reportReceived w s) := by
  simp only [reportReceived]
  (repeat' split) <;> (repeat' first
      | with_reducible assumption | with_reducible apply rated_judgeRack | with_reducible apply rated_setPeer
      | with_reducible apply rated_count | with_reducible exact clearCounts_f _
      | with_reducible exact clearCounts_r _ | with_reducible rfl | exact (Rated.f (by assumption)).1
      | exact (Rated.f (by assumption)).2 | exact (Rated.cr (by assumption)).1
      | exact (Rated.cr (by assumption)).2 | exact (servoParams_le _).1 | exact (servoParams_le _).2 | simp)

theorem rated_setPeerCfg (i : Nat) (c : PeerCfg) (s : State) (h : Rated s) :
    Rated (setPeerCfg i c s) := by
  simp only [setPeerCfg]
  (repeat' split) <;> (repeat' first
      | with_reducible assumption | with_reducible apply rated_setCfg | with_reducible exact clearCounts_f _
      | with_reducible exact clearCounts_r _ | with_reducible rfl | exact (Rated.f (by assumption)).1
      | exact (Rated.f (by assumption)).2 | exact (Rated.cr (by assumption)).1
      | exact (Rated.cr (by assumption)).2 | exact (servoParams_le _).1 | exact (servoParams_le _).2 | simp)

theorem rated_voidReports (i : Nat) (s : State) (h : Rated s) : Rated (voidReports i s) := h.of rfl rfl rfl

theorem rated_writePeerAt (i : Nat) (c : PeerCfg) (s : State) (h : Rated s) :
    Rated (writePeerAt i c s) := by
  simp only [writePeerAt]
  (repeat' split) <;> (repeat' first
      | with_reducible assumption | with_reducible apply rated_voidReports | with_reducible apply rated_judgeRack | with_reducible apply rated_setPeerCfg
      | with_reducible apply rated_setPeer | with_reducible exact clearCounts_f _
      | with_reducible exact clearCounts_r _ | with_reducible rfl | exact (Rated.f (by assumption)).1
      | exact (Rated.f (by assumption)).2 | exact (Rated.cr (by assumption)).1
      | exact (Rated.cr (by assumption)).2 | exact (servoParams_le _).1 | exact (servoParams_le _).2 | simp)

theorem rated_clearPeerAt (i : Nat) (s : State) (h : Rated s) :
    Rated (clearPeerAt i s) := by
  simp only [clearPeerAt]
  (repeat' split) <;> (repeat' first
      | with_reducible assumption | with_reducible apply rated_voidReports | with_reducible apply rated_judgeRack | with_reducible apply rated_setPeerCfg
      | with_reducible apply rated_setPeer | with_reducible exact clearCounts_f _
      | with_reducible exact clearCounts_r _ | with_reducible rfl | exact (Rated.f (by assumption)).1
      | exact (Rated.f (by assumption)).2 | exact (Rated.cr (by assumption)).1
      | exact (Rated.cr (by assumption)).2 | exact (servoParams_le _).1 | exact (servoParams_le _).2 | simp)

theorem rated_applyDrift (p : DriftParams) (holdoff threshold : Nat) (s : State) (h : Rated s) :
    Rated (applyDrift p holdoff threshold s) := by
  simp only [applyDrift]
  (repeat' split) <;> (repeat' first
      | with_reducible assumption | with_reducible apply rated_startReports | with_reducible apply rated_judgeRack
      | with_reducible apply rated_setCfg | with_reducible exact clearCounts_f _
      | with_reducible exact clearCounts_r _ | with_reducible rfl | exact (Rated.f (by assumption)).1
      | exact (Rated.f (by assumption)).2 | exact (Rated.cr (by assumption)).1
      | exact (Rated.cr (by assumption)).2 | exact (servoParams_le _).1 | exact (servoParams_le _).2 | simp)

theorem rated_driftSoftReset (s : State) (h : Rated s) : Rated (driftSoftReset s) :=
  h.of (servo_driftSoftReset _) (by rw [clock_driftSoftReset]) (by rw [cfg_driftSoftReset])

theorem rated_freezeTrigger (t : Trigger) (s : State) (h : Rated s) :
    Rated (freezeTrigger t s) := by
  simp only [freezeTrigger]
  (repeat' split) <;> (repeat' first
      | with_reducible assumption | with_reducible apply rated_offerRecord | with_reducible apply rated_setFrozen
      | with_reducible exact clearCounts_f _ | with_reducible exact clearCounts_r _ | with_reducible rfl
      | exact (Rated.f (by assumption)).1 | exact (Rated.f (by assumption)).2 | exact (Rated.cr (by assumption)).1
      | exact (Rated.cr (by assumption)).2 | exact (servoParams_le _).1 | exact (servoParams_le _).2 | simp)

theorem rated_releaseFreeze (s : State) (h : Rated s) :
    Rated (releaseFreeze s) := by
  simp only [releaseFreeze]
  (repeat' split) <;> (repeat' first
      | with_reducible assumption | with_reducible apply rated_offerRecord | with_reducible apply rated_setFrozen
      | with_reducible exact clearCounts_f _ | with_reducible exact clearCounts_r _ | with_reducible rfl
      | exact (Rated.f (by assumption)).1 | exact (Rated.f (by assumption)).2 | exact (Rated.cr (by assumption)).1
      | exact (Rated.cr (by assumption)).2 | exact (servoParams_le _).1 | exact (servoParams_le _).2 | simp)

theorem rated_openMark (p : Port) (index : Nat) (e : MatchEntry) (ingress : Date) (s : State) (h : Rated s) :
    Rated (openMark p index e ingress s) := by
  simp only [openMark]
  (repeat' split) <;> (repeat' first
      | with_reducible assumption | with_reducible apply rated_rememberStamp
      | with_reducible apply rated_freezeTrigger | with_reducible apply rated_setPort
      | with_reducible exact clearCounts_f _ | with_reducible exact clearCounts_r _ | with_reducible rfl
      | exact (Rated.f (by assumption)).1 | exact (Rated.f (by assumption)).2 | exact (Rated.cr (by assumption)).1
      | exact (Rated.cr (by assumption)).2 | exact (servoParams_le _).1 | exact (servoParams_le _).2 | simp)

theorem rated_settleStamp (p : Port) (written : Bool) (s : State) (h : Rated s) : Rated (settleStamp p written s) :=
  h.of (servo_settleStamp _ _ _) (by rw [clock_settleStamp]) (by rw [cfg_settleStamp])

theorem rated_loseStamp (p : Port) (s : State) (h : Rated s) : Rated (loseStamp p s) :=
  h.of (servo_loseStamp _ _) (by rw [clock_loseStamp]) (by rw [cfg_loseStamp])

theorem rated_readyArriving (p : Port) (edit : Edit) (s : State) (h : Rated s) : Rated (readyArriving p edit s) :=
  h.of (servo_readyArriving _ _ _) (by rw [clock_readyArriving]) (by rw [cfg_readyArriving])

theorem rated_writeStampNow (p : Port) (c : DatingCtx) (bytes : List Byte) (s : State) (h : Rated s) :
    Rated (writeStampNow p c bytes s) :=
  h.of (servo_writeStampNow _ _ _ _) (by rw [clock_writeStampNow]) (by rw [cfg_writeStampNow])

theorem rated_closeMark (p : Port) (bytes : List Byte) (stop len : Nat) (badFcs : Bool) (s : State) (h : Rated s) :
    Rated (closeMark p bytes stop len badFcs s) := by
  simp only [closeMark]
  (repeat' split) <;> (repeat' first
      | with_reducible assumption | with_reducible apply rated_offerRecord | with_reducible apply rated_setPort
      | with_reducible exact clearCounts_f _ | with_reducible exact clearCounts_r _ | with_reducible rfl
      | exact (Rated.f (by assumption)).1 | exact (Rated.f (by assumption)).2 | exact (Rated.cr (by assumption)).1
      | exact (Rated.cr (by assumption)).2 | exact (servoParams_le _).1 | exact (servoParams_le _).2 | simp)

theorem rated_cutMark (p : Port) (bytes : List Byte) (len : Nat) (s : State) (h : Rated s) :
    Rated (cutMark p bytes len s) := by
  simp only [cutMark]
  (repeat' split) <;> (repeat' first
      | with_reducible assumption | with_reducible apply rated_settleStamp | with_reducible apply rated_closeMark
      | with_reducible exact clearCounts_f _ | with_reducible exact clearCounts_r _ | with_reducible rfl
      | exact (Rated.f (by assumption)).1 | exact (Rated.f (by assumption)).2 | exact (Rated.cr (by assumption)).1
      | exact (Rated.cr (by assumption)).2 | exact (servoParams_le _).1 | exact (servoParams_le _).2 | simp)

theorem rated_setRx (p : Port) (r : Option Rx) (s : State) (h : Rated s) : Rated (setRx p r s) :=
  h.of (servo_setRx _ _ _) (by rw [clock_setRx]) (by rw [cfg_setRx])

theorem rated_forwardArriving (p : Port) (r : Rx) (ready : Bool) (s : State) (h : Rated s) :
    Rated (forwardArriving p r ready s).1 :=
  h.of (servo_forwardArriving _ _ _ _) (by rw [clock_forwardArriving]) (by rw [cfg_forwardArriving])

theorem rated_passFrame (p : Port) (r : Rx) (s : State) (h : Rated s) : Rated (passFrame p r s) :=
  h.of (servo_passFrame _ _ _) (by rw [clock_passFrame]) (by rw [cfg_passFrame])

theorem rated_settleArrived (p : Port) (bytes : List Byte) (s : State) (h : Rated s) :
    Rated (settleArrived p bytes s) :=
  h.of (servo_settleArrived _ _ _) (by rw [clock_settleArrived]) (by rw [cfg_settleArrived])

theorem rated_markFrame (p : Port) (r : Rx) (index : Nat) (e : MatchEntry) (s : State) (h : Rated s) :
    Rated (markFrame p r index e s) := by
  simp only [markFrame]
  (repeat' split) <;> (repeat' first
      | with_reducible assumption | with_reducible apply rated_arbitrate | with_reducible apply rated_openMark
      | with_reducible apply rated_loseStamp | with_reducible apply rated_forwardArriving
      | with_reducible apply rated_settleArrived | with_reducible exact clearCounts_f _
      | with_reducible exact clearCounts_r _ | with_reducible rfl | exact (Rated.f (by assumption)).1
      | exact (Rated.f (by assumption)).2 | exact (Rated.cr (by assumption)).1
      | exact (Rated.cr (by assumption)).2 | exact (servoParams_le _).1 | exact (servoParams_le _).2 | simp)

theorem rated_lookupFrame (p : Port) (r : Rx) (ended : Bool) (s : State) (h : Rated s) :
    Rated (lookupFrame p r ended s) := by
  simp only [lookupFrame]
  (repeat' split) <;> (repeat' first
      | with_reducible assumption | with_reducible apply rated_setRx | with_reducible apply rated_passFrame
      | with_reducible apply rated_markFrame | with_reducible exact clearCounts_f _
      | with_reducible exact clearCounts_r _ | with_reducible rfl | exact (Rated.f (by assumption)).1
      | exact (Rated.f (by assumption)).2 | exact (Rated.cr (by assumption)).1
      | exact (Rated.cr (by assumption)).2 | exact (servoParams_le _).1 | exact (servoParams_le _).2 | simp)

theorem rated_growArriving (p : Port) (bytes : List Byte) (s : State) (h : Rated s) :
    Rated (growArriving p bytes s) :=
  h.of (servo_growArriving _ _ _) (by rw [clock_growArriving]) (by rw [cfg_growArriving])

theorem rated_overrun (p : Port) (r : Rx) (s : State) (h : Rated s) :
    Rated (overrun p r s) := by
  simp only [overrun]
  (repeat' split) <;> (repeat' first
      | with_reducible assumption | with_reducible apply rated_arbitrate | with_reducible apply rated_cutMark
      | with_reducible apply rated_setRx | with_reducible apply rated_settleArrived
      | with_reducible apply rated_setPort | with_reducible apply rated_count
      | with_reducible exact clearCounts_f _ | with_reducible exact clearCounts_r _ | with_reducible rfl
      | exact (Rated.f (by assumption)).1 | exact (Rated.f (by assumption)).2 | exact (Rated.cr (by assumption)).1
      | exact (Rated.cr (by assumption)).2 | exact (servoParams_le _).1 | exact (servoParams_le _).2 | simp)

theorem rated_malformedFrame (w : Whole) (s : State) (h : Rated s) : Rated (malformedFrame w s) :=
  h.of (servo_malformedFrame _ _) (by rw [clock_malformedFrame]) (by rw [cfg_malformedFrame])

theorem rated_dispatchL2 (w : Whole) (s : State) (h : Rated s) :
    Rated (dispatchL2 w s) := by
  simp only [dispatchL2]
  (repeat' split) <;> (repeat' first
      | with_reducible assumption | with_reducible apply rated_handleAsk | with_reducible apply rated_handleAnswer
      | with_reducible apply rated_handleBeacon | with_reducible apply rated_malformedFrame
      | with_reducible exact clearCounts_f _ | with_reducible exact clearCounts_r _ | with_reducible rfl
      | exact (Rated.f (by assumption)).1 | exact (Rated.f (by assumption)).2 | exact (Rated.cr (by assumption)).1
      | exact (Rated.cr (by assumption)).2 | exact (servoParams_le _).1 | exact (servoParams_le _).2 | simp)

theorem rated_acceptControl (w : Whole) (privilege : Privilege) (s : State) (h : Rated s) :
    Rated (acceptControl w privilege s) :=
  h.of (servo_acceptControl _ _ _) (by rw [clock_acceptControl]) (by rw [cfg_acceptControl])

theorem rated_dispatchUdp (w : Whole) (mgmt utx : Bool) (privilege : Privilege) (s : State) (h : Rated s) :
    Rated (dispatchUdp w mgmt utx privilege s) := by
  simp only [dispatchUdp]
  (repeat' split) <;> (repeat' first
      | with_reducible assumption | with_reducible apply rated_reportReceived
      | with_reducible apply rated_malformedFrame | with_reducible apply rated_acceptControl
      | with_reducible exact clearCounts_f _ | with_reducible exact clearCounts_r _ | with_reducible rfl
      | exact (Rated.f (by assumption)).1 | exact (Rated.f (by assumption)).2 | exact (Rated.cr (by assumption)).1
      | exact (Rated.cr (by assumption)).2 | exact (servoParams_le _).1 | exact (servoParams_le _).2 | simp)

theorem rated_endForwarded (p : Port) (r : Rx) (inLane : Bool) (s : State) (h : Rated s) :
    Rated (endForwarded p r inLane s) := by
  simp only [endForwarded]
  (repeat' split) <;> (repeat' first
      | with_reducible assumption | with_reducible apply rated_arbitrate | with_reducible apply rated_settleStamp
      | with_reducible apply rated_closeMark | with_reducible apply rated_setRx
      | with_reducible apply rated_settleArrived | with_reducible apply rated_growArriving
      | with_reducible apply rated_setPort | with_reducible exact clearCounts_f _
      | with_reducible exact clearCounts_r _ | with_reducible rfl | exact (Rated.f (by assumption)).1
      | exact (Rated.f (by assumption)).2 | exact (Rated.cr (by assumption)).1
      | exact (Rated.cr (by assumption)).2 | exact (servoParams_le _).1 | exact (servoParams_le _).2 | simp)

theorem rated_endFrame (p : Port) (r : Rx) (s : State) (h : Rated s) :
    Rated (endFrame p r s) := by
  simp only [endFrame]
  (repeat' split) <;> (repeat' first
      | with_reducible assumption | with_reducible apply rated_setRx | with_reducible apply rated_dispatchL2
      | with_reducible apply rated_dispatchUdp | with_reducible apply rated_endForwarded
      | with_reducible apply rated_count | with_reducible exact clearCounts_f _
      | with_reducible exact clearCounts_r _ | with_reducible rfl | exact (Rated.f (by assumption)).1
      | exact (Rated.f (by assumption)).2 | exact (Rated.cr (by assumption)).1
      | exact (Rated.cr (by assumption)).2 | exact (servoParams_le _).1 | exact (servoParams_le _).2 | simp)

theorem rated_receiveEnd (p : Port) (r : Rx) (s : State) (h : Rated s) :
    Rated (receiveEnd p r s) := by
  simp only [receiveEnd]
  (repeat' split) <;> (repeat' first
      | with_reducible assumption | with_reducible apply rated_setRx | with_reducible apply rated_lookupFrame
      | with_reducible apply rated_overrun | with_reducible apply rated_endFrame
      | with_reducible apply rated_count | with_reducible exact clearCounts_f _
      | with_reducible exact clearCounts_r _ | with_reducible rfl | exact (Rated.f (by assumption)).1
      | exact (Rated.f (by assumption)).2 | exact (Rated.cr (by assumption)).1
      | exact (Rated.cr (by assumption)).2 | exact (servoParams_le _).1 | exact (servoParams_le _).2 | simp)

theorem rated_oversizeArrives (p : Port) (more : List Byte) (s : State) (h : Rated s) :
    Rated (oversizeArrives p more s) := by
  simp only [oversizeArrives]
  (repeat' split) <;> (repeat' first
      | with_reducible assumption | with_reducible apply rated_lookupFrame | with_reducible apply rated_overrun)

theorem rated_applyReload (img : List Byte) (bank : Vector MatchEntry 64) (s : State) (h : Rated s) :
    Rated (applyReload (imageSettings img) bank s) := by
  simp only [applyReload]
  refine rated_judgePulse _ _ (rated_applyServo _ _ _ _ ?_ (servoParams_le _).1 (servoParams_le _).2)
  exact rated_reevaluateOnHold _ _ (rated_setAgent _ _ (rated_setCfg _ _ rfl (rated_setMatchTab _ _ (rated_setLanes _ _ (rated_setDrift _ _ h)))))

theorem rated_softResetNow (reload : Bool) (s : State) (h : Rated s) :
    Rated (softResetNow reload s) := by
  simp only [softResetNow]
  (repeat' split) <;> (repeat' first
      | with_reducible assumption | with_reducible apply rated_servoSoftReset
      | with_reducible apply rated_driftSoftReset | with_reducible apply rated_setEchos
      | with_reducible apply rated_setSources | with_reducible apply rated_setLanes
      | with_reducible apply rated_setPorts | with_reducible apply rated_setMatchTab
      | with_reducible apply rated_setLog | with_reducible apply rated_setFrozen
      | with_reducible apply rated_setFaults | with_reducible apply rated_setAgent
      | with_reducible exact clearCounts_f _ | with_reducible exact clearCounts_r _ | with_reducible rfl
      | exact (Rated.f (by assumption)).1 | exact (Rated.f (by assumption)).2 | exact (Rated.cr (by assumption)).1
      | exact (Rated.cr (by assumption)).2 | exact (servoParams_le _).1 | exact (servoParams_le _).2 | simp)

theorem rated_raiseAgain (expired : Bool) (s : State) (h : Rated s) :
    Rated (raiseAgain expired s) := by
  simp only [raiseAgain]
  (repeat' split) <;> (repeat' first
      | with_reducible assumption | with_reducible apply rated_raiseLogFullAgain
      | with_reducible apply rated_raiseWithHold | with_reducible exact clearCounts_f _
      | with_reducible exact clearCounts_r _ | with_reducible rfl | exact (Rated.f (by assumption)).1
      | exact (Rated.f (by assumption)).2 | exact (Rated.cr (by assumption)).1
      | exact (Rated.cr (by assumption)).2 | exact (servoParams_le _).1 | exact (servoParams_le _).2 | simp)

theorem rated_completeSoft (expired : Bool) (s : State) (h : Rated s) :
    Rated (completeSoft expired s) := by
  simp only [completeSoft]
  (repeat' split) <;> (repeat' first
      | with_reducible assumption | with_reducible apply rated_startEcho | with_reducible apply rated_startReports
      | with_reducible apply rated_raiseAgain | with_reducible exact clearCounts_f _
      | with_reducible exact clearCounts_r _ | with_reducible rfl | exact (Rated.f (by assumption)).1
      | exact (Rated.f (by assumption)).2 | exact (Rated.cr (by assumption)).1
      | exact (Rated.cr (by assumption)).2 | exact (servoParams_le _).1 | exact (servoParams_le _).2 | simp)

theorem rated_enterRunning (s : State) (hp : s.cfg.servo.plausibility ≤ 500) (hcr : s.cfg.servo.catchRate ≤ 500) :
    Rated (enterRunning s) := by
  simp only [enterRunning]
  have := rated_loadTrim (s.setRun .running) hp hcr
  exact rated_startReports _ (rated_startEcho _ _ (rated_startEcho _ _ (rated_setPorts _ _ this)))

theorem rated_finishLoad (f g : List Byte) (s : State) : Rated (finishLoad f g s) := by
  simp only [finishLoad]
  split
  · exact rated_enterRunning _ (servoParams_le _).1 (servoParams_le _).2
  · exact rated_raiseWithHold _ _ _ _ _ (rated_enterRunning _ (show (200 : Nat) ≤ 500 by decide |> fun _ => show (100:Nat) ≤ 500 by decide) (show (200:Nat) ≤ 500 by decide))

theorem rated_finishReload (first second : List Byte) (s : State) (h : Rated s) :
    Rated (finishReload first second s) := by
  simp only [finishReload]
  (repeat' split) <;> (repeat' first
      | with_reducible assumption | with_reducible apply rated_raiseWithHold
      | with_reducible apply rated_applyReload | with_reducible apply rated_completeSoft
      | with_reducible apply rated_setAgent | with_reducible exact clearCounts_f _
      | with_reducible exact clearCounts_r _ | with_reducible rfl | exact (Rated.f (by assumption)).1
      | exact (Rated.f (by assumption)).2 | exact (Rated.cr (by assumption)).1
      | exact (Rated.cr (by assumption)).2 | exact (servoParams_le _).1 | exact (servoParams_le _).2 | simp)

theorem rated_loseReception (p : Port) (more : List Byte) (s : State) (h : Rated s) :
    Rated (loseReception p more s) := by
  simp only [loseReception]
  (repeat' split) <;> (repeat' first
      | with_reducible assumption | with_reducible apply rated_cutMark | with_reducible apply rated_setRx
      | with_reducible apply rated_setPort | with_reducible apply rated_count
      | with_reducible exact clearCounts_f _ | with_reducible exact clearCounts_r _ | with_reducible rfl
      | exact (Rated.f (by assumption)).1 | exact (Rated.f (by assumption)).2 | exact (Rated.cr (by assumption)).1
      | exact (Rated.cr (by assumption)).2 | exact (servoParams_le _).1 | exact (servoParams_le _).2 | simp)

theorem rated_flushEgress (p : Port) (s : State) (h : Rated s) : Rated (flushEgress p s) :=
  h.of (servo_flushEgress _ _) (by rw [clock_flushEgress]) (by rw [cfg_flushEgress])

theorem rated_linkBackUp (p : Port) (s : State) (h : Rated s) :
    Rated (linkBackUp p s) := by
  simp only [linkBackUp]
  (repeat' split) <;> (repeat' first
      | with_reducible assumption | with_reducible apply rated_reevaluate
      | with_reducible apply rated_clearWithHold | with_reducible apply rated_echoLinkUp
      | with_reducible apply rated_setPort | with_reducible exact clearCounts_f _
      | with_reducible exact clearCounts_r _ | with_reducible rfl | exact (Rated.f (by assumption)).1
      | exact (Rated.f (by assumption)).2 | exact (Rated.cr (by assumption)).1
      | exact (Rated.cr (by assumption)).2 | exact (servoParams_le _).1 | exact (servoParams_le _).2 | simp)

theorem rated_linkComesUp (p : Port) (s : State) (h : Rated s) :
    Rated (linkComesUp p s) := by
  simp only [linkComesUp]
  (repeat' split) <;> (repeat' first
      | with_reducible assumption | with_reducible apply rated_linkBackUp | with_reducible apply rated_setPort
      | with_reducible exact clearCounts_f _ | with_reducible exact clearCounts_r _ | with_reducible rfl
      | exact (Rated.f (by assumption)).1 | exact (Rated.f (by assumption)).2 | exact (Rated.cr (by assumption)).1
      | exact (Rated.cr (by assumption)).2 | exact (servoParams_le _).1 | exact (servoParams_le _).2 | simp)

theorem rated_periodTo (moved : Date × Bool) (second : Bool) (s : State) (h : Rated s) :
    Rated (periodTo moved second s) := by
  simp only [periodTo]
  (repeat' split) <;> (repeat' first
      | with_reducible assumption | with_reducible apply rated_secondBoundary
      | with_reducible apply rated_uptimeSecond | with_reducible apply rated_laneInstant
      | with_reducible apply rated_setPorts | with_reducible apply rated_setClock
      | with_reducible exact clearCounts_f _ | with_reducible exact clearCounts_r _ | with_reducible rfl
      | exact (Rated.f (by assumption)).1 | exact (Rated.f (by assumption)).2 | exact (Rated.cr (by assumption)).1
      | exact (Rated.cr (by assumption)).2 | exact (servoParams_le _).1 | exact (servoParams_le _).2 | simp)

theorem rated_clockPeriod (s : State) (h : Rated s) :
    Rated (clockPeriod s) := by
  simp only [clockPeriod]
  (repeat' split) <;> (repeat' first
      | with_reducible assumption | with_reducible apply rated_periodTo | with_reducible exact clearCounts_f _
      | with_reducible exact clearCounts_r _ | with_reducible rfl | exact (Rated.f (by assumption)).1
      | exact (Rated.f (by assumption)).2 | exact (Rated.cr (by assumption)).1
      | exact (Rated.cr (by assumption)).2 | exact (servoParams_le _).1 | exact (servoParams_le _).2 | simp)

theorem rated_finishSave (written readBack : List Byte) (s : State) (h : Rated s) :
    Rated (finishSave written readBack s) := by
  simp only [finishSave]
  (repeat' split) <;> (repeat' first
      | with_reducible assumption | with_reducible apply rated_raiseWithHold | with_reducible apply rated_setAgent
      | with_reducible exact clearCounts_f _ | with_reducible exact clearCounts_r _ | with_reducible rfl
      | exact (Rated.f (by assumption)).1 | exact (Rated.f (by assumption)).2 | exact (Rated.cr (by assumption)).1
      | exact (Rated.cr (by assumption)).2 | exact (servoParams_le _).1 | exact (servoParams_le _).2 | simp)

theorem rated_endMemoryTest (pass : Bool) (s : State) (h : Rated s) :
    Rated (endMemoryTest pass s) := by
  simp only [endMemoryTest]
  (repeat' split) <;> (repeat' first
      | with_reducible assumption | with_reducible apply rated_raiseWithHold | with_reducible apply rated_setLog
      | with_reducible exact clearCounts_f _ | with_reducible exact clearCounts_r _ | with_reducible rfl
      | exact (Rated.f (by assumption)).1 | exact (Rated.f (by assumption)).2 | exact (Rated.cr (by assumption)).1
      | exact (Rated.cr (by assumption)).2 | exact (servoParams_le _).1 | exact (servoParams_le _).2 | simp)

theorem rated_removeRecords (k : Nat) (s : State) (h : Rated s) : Rated (removeRecords k s) :=
  h.of (servo_removeRecords _ _) (by rw [clock_removeRecords]) (by rw [cfg_removeRecords])

theorem rated_testLog (s : State) (h : Rated s) : Rated (testLog s).1 :=
  h.of (servo_testLog _) (by rw [clock_testLog]) (by rw [cfg_testLog])

theorem rated_writeMatch (index : Byte) (a : MatchArg) (s : State) (h : Rated s) : Rated (writeMatch index a s).1 :=
  h.of (servo_writeMatch _ _ _) (by rw [clock_writeMatch]) (by rw [cfg_writeMatch])

theorem rated_copyActive (s : State) (h : Rated s) : Rated (copyActive s).1 :=
  h.of (servo_copyActive _) (by rw [clock_copyActive]) (by rw [cfg_copyActive])

theorem rated_swapCommand (arg : Byte) (s : State) (h : Rated s) : Rated (swapCommand arg s).1 :=
  h.of (servo_swapCommand _ _) (by rw [clock_swapCommand]) (by rw [cfg_swapCommand])

theorem rated_writePort (a : PortArg) (s : State) (h : Rated s) :
    Rated (writePort a s).1 := by
  simp only [writePort]
  (repeat' split) <;> (repeat' first
      | with_reducible assumption | with_reducible apply rated_echoRewritten | with_reducible apply rated_setCfg
      | with_reducible exact clearCounts_f _ | with_reducible exact clearCounts_r _ | with_reducible rfl
      | exact (Rated.f (by assumption)).1 | exact (Rated.f (by assumption)).2 | exact (Rated.cr (by assumption)).1
      | exact (Rated.cr (by assumption)).2 | exact (servoParams_le _).1 | exact (servoParams_le _).2 | simp)

theorem rated_writeLane (a : LaneArg) (s : State) (h : Rated s) :
    Rated (writeLane a s).1 := by
  simp only [writeLane]
  (repeat' split) <;> (repeat' first
      | with_reducible assumption | with_reducible apply rated_setCfg | with_reducible apply rated_setLane
      | with_reducible exact clearCounts_f _ | with_reducible exact clearCounts_r _ | with_reducible rfl
      | exact (Rated.f (by assumption)).1 | exact (Rated.f (by assumption)).2 | exact (Rated.cr (by assumption)).1
      | exact (Rated.cr (by assumption)).2 | exact (servoParams_le _).1 | exact (servoParams_le _).2 | simp)

theorem rated_writeOverride (a : OverrideArg) (s : State) (h : Rated s) :
    Rated (writeOverride a s).1 := by
  simp only [writeOverride]
  (repeat' split) <;> (repeat' first
      | with_reducible assumption | with_reducible apply rated_setCfg | with_reducible exact clearCounts_f _
      | with_reducible exact clearCounts_r _ | with_reducible rfl | exact (Rated.f (by assumption)).1
      | exact (Rated.f (by assumption)).2 | exact (Rated.cr (by assumption)).1
      | exact (Rated.cr (by assumption)).2 | exact (servoParams_le _).1 | exact (servoParams_le _).2 | simp)

theorem rated_writePeer (a : PeerArg) (s : State) (h : Rated s) :
    Rated (writePeer a s).1 := by
  simp only [writePeer]
  (repeat' split) <;> (repeat' first
      | with_reducible assumption | with_reducible apply rated_writePeerAt | with_reducible exact clearCounts_f _
      | with_reducible exact clearCounts_r _ | with_reducible rfl | exact (Rated.f (by assumption)).1
      | exact (Rated.f (by assumption)).2 | exact (Rated.cr (by assumption)).1
      | exact (Rated.cr (by assumption)).2 | exact (servoParams_le _).1 | exact (servoParams_le _).2 | simp)

theorem rated_clearPeer (index : Byte) (s : State) (h : Rated s) :
    Rated (clearPeer index s).1 := by
  simp only [clearPeer]
  (repeat' split) <;> (repeat' first
      | with_reducible assumption | with_reducible apply rated_clearPeerAt | with_reducible exact clearCounts_f _
      | with_reducible exact clearCounts_r _ | with_reducible rfl | exact (Rated.f (by assumption)).1
      | exact (Rated.f (by assumption)).2 | exact (Rated.cr (by assumption)).1
      | exact (Rated.cr (by assumption)).2 | exact (servoParams_le _).1 | exact (servoParams_le _).2 | simp)

theorem rated_writeServo (a : ServoArg) (s : State) (h : Rated s) :
    Rated (writeServo a s).1 := by
  simp only [writeServo]
  (repeat' split) <;> (repeat' first
      | with_reducible assumption | with_reducible apply rated_applyServo | with_reducible exact clearCounts_f _
      | with_reducible exact clearCounts_r _ | with_reducible rfl | exact (Rated.f (by assumption)).1
      | exact (Rated.f (by assumption)).2 | exact (Rated.cr (by assumption)).1
      | exact (Rated.cr (by assumption)).2 | exact (servoParams_le _).1 | exact (servoParams_le _).2 | simp)

theorem rated_writeDrift (a : DriftArg) (s : State) (h : Rated s) :
    Rated (writeDrift a s).1 := by
  simp only [writeDrift]
  (repeat' split) <;> (repeat' first
      | with_reducible assumption | with_reducible apply rated_applyDrift | with_reducible exact clearCounts_f _
      | with_reducible exact clearCounts_r _ | with_reducible rfl | exact (Rated.f (by assumption)).1
      | exact (Rated.f (by assumption)).2 | exact (Rated.cr (by assumption)).1
      | exact (Rated.cr (by assumption)).2 | exact (servoParams_le _).1 | exact (servoParams_le _).2 | simp)

theorem rated_applyResponse (k : FaultKind) (r : Response) (s : State) (h : Rated s) :
    Rated (applyResponse k r s) := by
  simp only [applyResponse]
  (repeat' split) <;> (repeat' first
      | with_reducible assumption | with_reducible apply rated_watchSecond
      | with_reducible apply rated_reevaluateOnHold | with_reducible apply rated_setCfg
      | with_reducible exact clearCounts_f _ | with_reducible exact clearCounts_r _ | with_reducible rfl
      | exact (Rated.f (by assumption)).1 | exact (Rated.f (by assumption)).2 | exact (Rated.cr (by assumption)).1
      | exact (Rated.cr (by assumption)).2 | exact (servoParams_le _).1 | exact (servoParams_le _).2 | simp)

theorem rated_writeFault (kind response : Byte) (s : State) (h : Rated s) :
    Rated (writeFault kind response s).1 := by
  simp only [writeFault]
  (repeat' split) <;> (repeat' first
      | with_reducible assumption | with_reducible apply rated_applyResponse
      | with_reducible exact clearCounts_f _ | with_reducible exact clearCounts_r _ | with_reducible rfl
      | exact (Rated.f (by assumption)).1 | exact (Rated.f (by assumption)).2 | exact (Rated.cr (by assumption)).1
      | exact (Rated.cr (by assumption)).2 | exact (servoParams_le _).1 | exact (servoParams_le _).2 | simp)

theorem rated_clearPosition (mask : BitVec 32) (s : State) (k : FaultKind) (h : Rated s) :
    Rated (clearPosition mask s k) := by
  simp only [clearPosition]
  (repeat' split) <;> (repeat' first
      | with_reducible assumption | with_reducible apply rated_clearWithHold
      | with_reducible exact clearCounts_f _ | with_reducible exact clearCounts_r _ | with_reducible rfl
      | exact (Rated.f (by assumption)).1 | exact (Rated.f (by assumption)).2 | exact (Rated.cr (by assumption)).1
      | exact (Rated.cr (by assumption)).2 | exact (servoParams_le _).1 | exact (servoParams_le _).2 | simp)

theorem rated_clearFlags (mask : BitVec 32) (s : State) (h : Rated s) :
    Rated (clearFlags mask s).1 := by
  simp only [clearFlags]
  (repeat' split) <;> (repeat' first
      | with_reducible assumption | (with_reducible apply rated_foldl; intro t _ ht)
      | with_reducible apply rated_clearStale | with_reducible apply rated_clearPosition
      | with_reducible apply rated_setServo | with_reducible exact clearCounts_f _
      | with_reducible exact clearCounts_r _ | with_reducible rfl | exact (Rated.f (by assumption)).1
      | exact (Rated.f (by assumption)).2 | exact (Rated.cr (by assumption)).1
      | exact (Rated.cr (by assumption)).2 | exact (servoParams_le _).1 | exact (servoParams_le _).2 | simp)

theorem rated_barSource (index : Byte) (seconds : BitVec 16) (s : State) (h : Rated s) :
    Rated (barSource index seconds s).1 := by
  simp only [barSource]
  (repeat' split) <;> (repeat' first
      | with_reducible assumption | with_reducible apply rated_barEntry | with_reducible exact clearCounts_f _
      | with_reducible exact clearCounts_r _ | with_reducible rfl | exact (Rated.f (by assumption)).1
      | exact (Rated.f (by assumption)).2 | exact (Rated.cr (by assumption)).1
      | exact (Rated.cr (by assumption)).2 | exact (servoParams_le _).1 | exact (servoParams_le _).2 | simp)

theorem rated_saveSettings (s : State) (h : Rated s) : Rated (saveSettings s).1 :=
  h.of (servo_saveSettings _) (by rw [clock_saveSettings]) (by rw [cfg_saveSettings])

theorem rated_resetCommand (arg : Byte) (s : State) (h : Rated s) : Rated (resetCommand arg s).1 :=
  h.of (servo_resetCommand _ _) (by rw [clock_resetCommand]) (by rw [cfg_resetCommand])

theorem rated_reset : Rated State.reset := ⟨⟨by decide, by decide, by decide, by decide⟩, by show _ ≤ Config.nominalInc ∧ Config.nominalInc ≤ _; simp only [Config.nominalInc]; omega⟩

theorem rated_fullReset (s : State) : Rated (fullReset s) := rated_reset.of rfl rfl rfl

theorem rated_holdReset (s : State) : Rated (holdReset s) := rated_reset.of rfl rfl rfl

theorem rated_takeReset (k : ResetKind) (s : State) (h : Rated s) : Rated (takeReset k s) := by
  cases k
  · exact rated_completeSoft _ _ (rated_softResetNow _ _ h)
  · exact rated_softResetNow _ _ h
  · exact rated_fullReset _

theorem rated_takePendingReset (s : State) (h : Rated s) : Rated (takePendingReset s) := by
  simp only [takePendingReset]; split
  · exact rated_takeReset _ _ h
  · exact h

theorem rated_finishFrame (e : Exec) (s : State) (h : Rated s) : Rated (finishFrame e s) := by
  simp only [finishFrame]
  split
  · exact rated_arbitrate _ _ (rated_offerGeneral _ _ _ _ _ (rated_setAgent _ _ h))
  · exact rated_takePendingReset _ (rated_offerGeneral _ _ _ _ _ (rated_setAgent _ _ h))

theorem rated_advanceFrame (e : Exec) (s : State) (h : Rated s) : Rated (advanceFrame e s) := by
  simp only [advanceFrame]
  split
  · exact rated_finishFrame _ _ h
  · exact rated_setAgent _ _ h

theorem rated_deliver (c : Nat) (out : State × Status × List Byte) (h : Rated out.1) : Rated (deliver c out) := by
  simp only [Machine.deliver, answerInFrame]
  split
  · exact rated_advanceFrame _ _ (rated_setAgent _ _ h)
  · exact rated_takePendingReset _ (rated_setAgent _ _ h)

theorem rated_linkGoesDown (p : Port) (more : List Byte) (s : State) (h : Rated s) :
    Rated (linkGoesDown p more s) := by
  simp only [linkGoesDown]
  have h1 : Rated (echoLinkDown p (flushEgress p (loseReception p more (s.setPort p { s.port p with up := false })))) := rated_echoLinkDown _ _ (rated_flushEgress _ _ (rated_loseReception _ _ _ (rated_setPort _ _ _ h)))
  generalize (echoLinkDown p (flushEgress p (loseReception p more (s.setPort p { s.port p with up := false })))) = x at *
  have h2 : Rated (if (x.port p).seenUp then raiseWithHold .linkDown (.port p) true .nothing x else x) := by
    split
    · exact rated_raiseWithHold _ _ _ _ _ h1
    · exact h1
  generalize (if (x.port p).seenUp then raiseWithHold .linkDown (.port p) true .nothing x else x) = y at *
  have h3 : Rated (if p.isUplink then reevaluate y.selectedPair .lost none y else y) := by
    split
    · exact rated_reevaluate _ _ _ _ h2
    · exact h2
  split
  · exact rated_takePendingReset _ h3
  · exact h3

theorem rated_logTakeMeaning (n : Byte) (room : Nat) (s : State) (h : Rated s) :
    Rated (logTakeMeaning n room s).1 := by
  simp only [logTakeMeaning]; (repeat' split) <;> first | exact h | exact rated_removeRecords _ _ h
end Sys2Proof.Machine
end

