-- ==== Sys2Proof/Laws/Clocks.lean ====
section
/-! SUPPORT. Every shared operation keeps the date in range, the step epoch within 16 bits and the last stamp even and in range. -/

namespace Sys2Proof.Machine

structure Clk (s : State) : Prop where
  date : DateOk s.clock.date
  epoch : s.clock.epoch < 65536
  stamp : ∀ d, s.clock.lastStamp = some d → StampOk d

theorem Clk.of {s t : State} (h : Clk s) (a : t.anchor = s.anchor) : Clk t :=
  ⟨by rw [anchor_date a]; exact h.date, by rw [anchor_epoch a]; exact h.epoch, by rw [anchor_lastStamp a]; exact h.stamp⟩

theorem clk_load (v : Date) (s : State) (h : Clk s) (hv : DateOk v) : Clk (load v s) := by
  simp only [load]; split
  · exact ⟨hv, h.epoch, h.stamp⟩
  · exact h

theorem clk_stepTo (m : Date × Bool) (s : State) (h : Clk s) (h3 : DateOk m.1) : Clk (stepTo m s) := by
  have h0 : Clk (s.setClock { s.clock with date := m.1, epoch := (s.clock.epoch + 1) % 65536 }) := ⟨h3, Nat.mod_lt _ (by decide), h.stamp⟩
  simp only [stepTo]
  split
  · exact h0.of (anchor_secondBoundary _)
  · exact h0

theorem clk_forwardStep (a : Nat) (s : State) (h : Clk s) : Clk (forwardStep a s) := by
  simp only [forwardStep]
  exact clk_stepTo _ _ h (stepDate_ok h.date _)

/-- A claim issues an even date in range. -/
theorem issue_ok (l : Option SN) (d : Date) (hd : DateOk d) (h : ∀ x, l = some x → StampOk x) : StampOk (issueDate l d) := by
  have hc : StampOk (candidateOf d) := by
    obtain ⟨h1, h2, -⟩ := hd
    refine ⟨h1, ?_, ?_⟩ <;> simp only [candidateOf] <;> omega
  cases l with
  | none => exact hc
  | some l =>
    have hl := h l rfl
    have hs : l ≠ maxEven → StampOk (snOfNs (l.ns + 2)) := fun hne => by
      obtain ⟨s, n⟩ := l
      obtain ⟨h1, h2, h3⟩ := hl
      simp only [maxEven, Config.maxS, ne_eq, SN.mk.injEq, not_and] at hne
      simp only at h1 h2 h3
      refine ⟨?_, ?_, ?_⟩ <;> simp only [snOfNs, SN.ns, Config.nsPerSec]
      · by_cases he : s = 281474976710655
        · have := hne he
          omega
        · omega
      · omega
      · omega
    simp only [issueDate]
    by_cases he : l = maxEven
    · simp only [he, if_true]
      split
      · rw [← he]; exact hl
      · exact hc
    · simp only [he, if_false]
      split
      · exact hs he
      · exact hc

theorem clk_rememberStamp (d : Date) (s : State) (hd : DateOk d) (h : Clk s) :
    Clk (rememberStamp (issueDate s.clock.lastStamp d) s) :=
  ⟨h.date, h.epoch, by intro x hx; cases hx; exact issue_ok _ _ hd h.stamp⟩

theorem dateBack_ok (d : Date) (t : Int) (h : DateOk d) : DateOk (dateBack d t) := by
  simp only [dateBack]
  split
  · exact ⟨by simp, by simp, h.f⟩
  · split
    · rename_i hs
      generalize hq : snOfNs _ = q at *
      have hn : q.n < 1000000000 := by rw [← hq]; exact Nat.mod_lt _ (by decide)
      exact ⟨hs, hn, h.f⟩
    · exact maxDate_ok

theorem clk_sampleInUnset (x : ServoSample) (s : State) (h : Clk s) : Clk (sampleInUnset x s) := by
  have h1 := clk_load (dateBack s.clock.date (thetaRounded x)) s h (dateBack_ok _ _ h.date)
  simp only [sampleInUnset]
  generalize load _ s = y at *
  exact h1.of (by simp)

theorem clk_setDateTo (a : BitVec 48) (b : BitVec 32) (s : State) (h : Clk s) :
    Clk (setDateTo ⟨a.toNat, b.toNat⟩ s).1 := by
  simp only [setDateTo]
  split
  · have h1 := clk_load ⟨a.toNat, min b.toNat 999999999, 0⟩ s h ⟨by have := a.isLt; simp only; omega, by simp only; omega, by simp⟩
    generalize load _ s = y at *
    exact h1.of (by simp)
  · split
    · exact h
    · split
      · exact h
      · have h1 := clk_forwardStep (SN.ns ⟨a.toNat, min b.toNat 999999999⟩ - s.clock.date.ns) s h
        generalize forwardStep _ s = y at *
        exact h1.of (by simp)
  all_goals exact h

theorem clk_periodTo (m : Date × Bool) (second : Bool) (s : State) (h : Clk s) (h3 : DateOk m.1) :
    Clk (periodTo m second s) := by
  simp only [periodTo]
  have h0 : Clk (s.setClock { s.clock with date := m.1, up := s.clock.up + 1 }) := ⟨h3, h.epoch, h.stamp⟩
  generalize (s.setClock { s.clock with date := m.1, up := s.clock.up + 1 }) = x at *
  refine Clk.of (s := x) h0 ?_
  simp
  (repeat' split) <;> simp

theorem clk_clockPeriod (s : State) (h : Clk s) (hi : s.clock.inc < Config.nsPerSec * Config.fracPerNs) :
    Clk (clockPeriod s) :=
  clk_periodTo _ _ _ h (advance_ok h.date _ hi)

theorem clk_enterRunning (s : State) (h : Clk s) : Clk (enterRunning s) := by
  have h0 : Clk (s.setRun .running) := ⟨h.date, h.epoch, h.stamp⟩
  simp only [enterRunning]
  generalize (s.setRun .running) = x at *
  exact h0.of (by simp)

theorem clk_finishLoad (f g : List Byte) (s : State) (h : Clk s) : Clk (finishLoad f g s) := by
  simp only [finishLoad]
  split
  · exact clk_enterRunning _ (h.of (by simp))
  · have h0 := clk_enterRunning _ (h.of (anchor_applyFull Settings.default defaultBank .defaults 0 s))
    generalize enterRunning _ = x at *
    exact h0.of (by simp)

theorem clk_openMark (p : Port) (i : Nat) (e : MatchEntry) (d : Date) (s : State) (hd : DateOk d) (h : Clk s) :
    Clk (openMark p i e d s) := by
  have h0 := clk_rememberStamp d s hd h
  simp only [openMark]
  generalize rememberStamp _ s = x at *
  split <;> exact h0.of (by simp)

theorem clk_setAgent (s : State) (v : Agent) (h : Clk s) : Clk (s.setAgent v) := h.of (by simp)

theorem clk_setServo (s : State) (v : Servo) (h : Clk s) : Clk (s.setServo v) := h.of (by simp)

theorem clk_setSources (s : State) (v : Vector (Option SourceEntry) 8) (h : Clk s) :
    Clk (s.setSources v) := h.of (by simp)

theorem clk_setPort (s : State) (p : Port) (u : PortUnit) (h : Clk s) : Clk (s.setPort p u) := h.of (by simp)

theorem clk_setSource (s : State) (i : Nat) (u : Option SourceEntry) (h : Clk s) :
    Clk (s.setSource i u) := h.of (by simp)

theorem clk_setPeer (s : State) (i : Nat) (u : PeerDyn) (h : Clk s) : Clk (s.setPeer i u) := h.of (by simp)

theorem clk_setForm (s : State) (i : AlertForm) (u : FormState) (h : Clk s) : Clk (s.setForm i u) := h.of (by simp)

theorem clk_watchSecond (s : State) (h : Clk s) : Clk (watchSecond s) := h.of (anchor_watchSecond _)

theorem clk_judgePulse (d : Option Nat) (s : State) (h : Clk s) : Clk (judgePulse d s) := h.of (anchor_judgePulse _ _)

theorem clk_admitFrame (p : Port) (need : Nat) (f : FwdFrame) (s : State) (h : Clk s) :
    Clk (admitFrame p need f s).1 :=
  h.of (anchor_admitFrame _ _ _ _)

theorem clk_offerTiming (p : Port) (tag : OrigTag) (header : Nat) (bytes : List Byte) (s : State) (h : Clk s) :
    Clk (offerTiming p tag header bytes s).1 :=
  h.of (anchor_offerTiming _ _ _ _ _)

theorem clk_offerGeneral (p : Port) (tag : OrigTag) (header : Nat) (bytes : List Byte) (s : State) (h : Clk s) :
    Clk (offerGeneral p tag header bytes s).1 :=
  h.of (anchor_offerGeneral _ _ _ _ _)

theorem clk_askPassesEgress (p : Port) (id : Nat) (s : State) (h : Clk s) : Clk (askPassesEgress p id s) :=
  h.of (anchor_askPassesEgress _ _ _)

theorem clk_reportPassesEgress (i : Nat) (rack ip : BitVec 32) (s : State) (h : Clk s) :
    Clk (reportPassesEgress i rack ip s) :=
  h.of (anchor_reportPassesEgress _ _ _ _)

theorem clk_recordEgress (p : Port) (tag : OrigTag) (s : State) (h : Clk s) : Clk (recordEgress p tag s) :=
  h.of (anchor_recordEgress _ _ _)

theorem clk_grantQueued (p : Port) (o : TxFrom) (q : QFrame) (s : State) (h : Clk s) : Clk (grantQueued p o q s) :=
  h.of (anchor_grantQueued _ _ _ _)

theorem clk_grantForwarded (p : Port) (f : FwdFrame) (s : State) (h : Clk s) : Clk (grantForwarded p f s) :=
  h.of (anchor_grantForwarded _ _ _)

theorem clk_arbitrate (p : Port) (s : State) (h : Clk s) : Clk (arbitrate p s) := h.of (anchor_arbitrate _ _)

theorem clk_finishTx (p : Port) (t : Tx) (s : State) (h : Clk s) : Clk (finishTx p t s) :=
  h.of (anchor_finishTx _ _ _)

theorem clk_suppressAlert (a : AlertForm) (s : State) (h : Clk s) : Clk (suppressAlert a s) :=
  h.of (anchor_suppressAlert _ _)

theorem clk_alertEvent (a : AlertForm) (clear : Bool) (subject : Subject) (d : AlertData) (s : State) (h : Clk s) :
    Clk (alertEvent a clear subject d s) :=
  h.of (anchor_alertEvent _ _ _ _ _)

theorem clk_levelNotice (s : State) (h : Clk s) : Clk (levelNotice s) := h.of (anchor_levelNotice _)

theorem clk_offerBare (o : Offer) (s : State) (h : Clk s) : Clk (offerBare o s).1 := h.of (anchor_offerBare _ _)

theorem clk_activate (k : FaultKind) (subject : Subject) (s : State) (h : Clk s) : Clk (activate k subject s) :=
  h.of (anchor_activate _ _ _)

theorem clk_countRaise (k : FaultKind) (s : State) (h : Clk s) : Clk (countRaise k s) := h.of (anchor_countRaise _ _)

theorem clk_deactivate (k : FaultKind) (s : State) (h : Clk s) : Clk (deactivate k s) := h.of (anchor_deactivate _ _)

theorem clk_faultAlert (k : FaultKind) (clear : Bool) (subject : Subject) (d : AlertData) (s : State) (h : Clk s) :
    Clk (faultAlert k clear subject d s) :=
  h.of (anchor_faultAlert _ _ _ _ _)

theorem clk_raiseLogFull (s : State) (h : Clk s) : Clk (raiseLogFull s) := h.of (anchor_raiseLogFull _)

theorem clk_clearLogFull (s : State) (h : Clk s) : Clk (clearLogFull s) := h.of (anchor_clearLogFull _)

theorem clk_offerRecord (o : Offer) (s : State) (h : Clk s) : Clk (offerRecord o s) := h.of (anchor_offerRecord _ _)

theorem clk_raiseLogFullAgain (s : State) (h : Clk s) : Clk (raiseLogFullAgain s) := h.of (anchor_raiseLogFullAgain _)

theorem clk_raiseFault (k : FaultKind) (subject : Subject) (record : Bool) (d : AlertData) (s : State) (h : Clk s) :
    Clk (raiseFault k subject record d s) :=
  h.of (anchor_raiseFault _ _ _ _ _)

theorem clk_clearFault (k : FaultKind) (subject : Subject) (record : Bool) (d : AlertData) (s : State) (h : Clk s) :
    Clk (clearFault k subject record d s) :=
  h.of (anchor_clearFault _ _ _ _ _)

theorem clk_handRate (r : Int) (s : State) (h : Clk s) : Clk (handRate r s) := h.of (anchor_handRate _ _)

theorem clk_setServoState (st : ServoState) (s : State) (h : Clk s) : Clk (setServoState st s) :=
  h.of (anchor_setServoState _ _)

theorem clk_offerState (old : ServoState) (s : State) (h : Clk s) : Clk (offerState old s) :=
  h.of (anchor_offerState _ _)

theorem clk_servoFollows (s : State) (h : Clk s) : Clk (servoFollows s) := h.of (anchor_servoFollows _)

theorem clk_servoSwitches (s : State) (h : Clk s) : Clk (servoSwitches s) := h.of (anchor_servoSwitches _)

theorem clk_servoHolds (s : State) (h : Clk s) : Clk (servoHolds s) := h.of (anchor_servoHolds _)

theorem clk_setSourceState (i : Nat) (st : SourceState) (s : State) (h : Clk s) : Clk (setSourceState i st s) :=
  h.of (anchor_setSourceState _ _ _)

theorem clk_unselect (i : Nat) (s : State) (h : Clk s) : Clk (unselect i s) := h.of (anchor_unselect _ _)

theorem clk_clearHoldoverExpired (s : State) (h : Clk s) : Clk (clearHoldoverExpired s) :=
  h.of (anchor_clearHoldoverExpired _)

theorem clk_offerStateIfChanged (before : ServoState) (s : State) (h : Clk s) : Clk (offerStateIfChanged before s) :=
  h.of (anchor_offerStateIfChanged _ _)

theorem clk_select (old : Option (Nat × SourceEntry)) (new : Nat × SourceEntry) (reason : Reason) (sampled : Bool)
    (s : State) (h : Clk s) :
    Clk (select old new reason sampled s) :=
  h.of (anchor_select _ _ _ _ _)

theorem clk_endSelection (old : Nat × SourceEntry) (reason : Reason) (s : State) (h : Clk s) :
    Clk (endSelection old reason s) :=
  h.of (anchor_endSelection _ _ _)

theorem clk_reevaluate (old : Option (Nat × SourceEntry)) (why : Reason) (own : Option Nat) (s : State) (h : Clk s) :
    Clk (reevaluate old why own s) :=
  h.of (anchor_reevaluate _ _ _ _)

theorem clk_reevaluateOnHold (before : Bool) (s : State) (h : Clk s) : Clk (reevaluateOnHold before s) :=
  h.of (anchor_reevaluateOnHold _ _)

theorem clk_raiseWithHold (k : FaultKind) (subject : Subject) (record : Bool) (d : AlertData) (s : State)
    (h : Clk s) :
    Clk (raiseWithHold k subject record d s) :=
  h.of (anchor_raiseWithHold _ _ _ _ _)

theorem clk_clearWithHold (k : FaultKind) (subject : Subject) (record : Bool) (d : AlertData) (s : State)
    (h : Clk s) :
    Clk (clearWithHold k subject record d s) :=
  h.of (anchor_clearWithHold _ _ _ _ _)

theorem clk_secondPulse (s : State) (h : Clk s) : Clk (secondPulse s) := h.of (anchor_secondPulse _)

theorem clk_performSwap (s : State) (h : Clk s) : Clk (performSwap s) := h.of (anchor_performSwap _)

theorem clk_armedSwap (s : State) (h : Clk s) : Clk (armedSwap s) := h.of (anchor_armedSwap _)

theorem clk_secondBoundary (s : State) (h : Clk s) : Clk (secondBoundary s) := h.of (anchor_secondBoundary _)

theorem clk_uptimeSecond (s : State) (h : Clk s) : Clk (uptimeSecond s) := h.of (anchor_uptimeSecond _)

theorem clk_leaveLocked (s : State) (h : Clk s) : Clk (leaveLocked s) := h.of (anchor_leaveLocked _)

theorem clk_afterStep (amount : Nat) (s : State) (h : Clk s) : Clk (afterStep amount s) := h.of (anchor_afterStep _ _)

theorem clk_servoStep (amount : Nat) (s : State) (h : Clk s) :
    Clk (servoStep amount s) := by
  simp only [servoStep]
  (repeat' split) <;> (repeat' first
      | with_reducible assumption | with_reducible apply clk_forwardStep | with_reducible apply clk_afterStep
      | (refine Clk.of ‹_› ?_; simp; done) | simp)

theorem clk_startCatchDown (s : State) (h : Clk s) : Clk (startCatchDown s) := h.of (anchor_startCatchDown _)

theorem clk_filterUpdate (theta k : Int) (s : State) (h : Clk s) : Clk (filterUpdate theta k s) :=
  h.of (anchor_filterUpdate _ _ _)

theorem clk_lockCounting (theta : Int) (s : State) (h : Clk s) : Clk (lockCounting theta s) :=
  h.of (anchor_lockCounting _ _)

theorem clk_filterAndLock (x : ServoSample) (s : State) (h : Clk s) : Clk (filterAndLock x s) :=
  h.of (anchor_filterAndLock _ _)

theorem clk_sampleInCatchDown (x : ServoSample) (s : State) (h : Clk s) :
    Clk (sampleInCatchDown x s) := by
  simp only [sampleInCatchDown]
  (repeat' split) <;> (repeat' first
      | with_reducible assumption | with_reducible apply clk_handRate | with_reducible apply clk_servoStep
      | with_reducible apply clk_filterAndLock | with_reducible apply clk_setServo
      | (refine Clk.of ‹_› ?_; simp; done) | simp)

theorem clk_sampleOutside (x : ServoSample) (s : State) (h : Clk s) :
    Clk (sampleOutside x s) := by
  simp only [sampleOutside]
  (repeat' split) <;> (repeat' first
      | with_reducible assumption | with_reducible apply clk_servoStep | with_reducible apply clk_startCatchDown
      | with_reducible apply clk_filterAndLock | (refine Clk.of ‹_› ?_; simp; done) | simp)

theorem clk_sampleInFollow (x : ServoSample) (s : State) (h : Clk s) :
    Clk (sampleInFollow x s) := by
  simp only [sampleInFollow]
  (repeat' split) <;> (repeat' first
      | with_reducible assumption | with_reducible apply clk_sampleInCatchDown
      | with_reducible apply clk_sampleOutside | with_reducible apply clk_setServo
      | (refine Clk.of ‹_› ?_; simp; done) | simp)

theorem clk_takeSample (x : ServoSample) (s : State) (h : Clk s) :
    Clk (takeSample x s) := by
  simp only [takeSample]
  (repeat' split) <;> (repeat' first
      | with_reducible assumption | with_reducible apply clk_sampleInUnset
      | with_reducible apply clk_sampleInFollow | (refine Clk.of ‹_› ?_; simp; done) | simp)

theorem clk_expireHoldover (s : State) (h : Clk s) : Clk (expireHoldover s) := h.of (anchor_expireHoldover _)

theorem clk_unexpireHoldover (s : State) (h : Clk s) : Clk (unexpireHoldover s) := h.of (anchor_unexpireHoldover _)

theorem clk_judgeHoldover (s : State) (h : Clk s) : Clk (judgeHoldover s) := h.of (anchor_judgeHoldover _)

theorem clk_clampF (s : State) (h : Clk s) : Clk (clampF s) := h.of (anchor_clampF _)

theorem clk_applyServo (p : ServoParams) (width limit : Nat) (s : State) (h : Clk s) :
    Clk (applyServo p width limit s) :=
  h.of (anchor_applyServo _ _ _ _)

theorem clk_setTrimTo (f : Int) (s : State) (h : Clk s) : Clk (setTrimTo f s).1 := h.of (anchor_setTrimTo _ _)

theorem clk_loadTrim (s : State) (h : Clk s) : Clk (loadTrim s) := h.of (anchor_loadTrim _)

theorem clk_servoSoftReset (s : State) (h : Clk s) : Clk (servoSoftReset s) := h.of (anchor_servoSoftReset _)

theorem clk_forwardWhole (w : Whole) (edit : Edit) (s : State) (h : Clk s) : Clk (forwardWhole w edit s) :=
  h.of (anchor_forwardWhole _ _ _)

theorem clk_takeInterval (p : Port) (s : State) (h : Clk s) : Clk (takeInterval p s) := h.of (anchor_takeInterval _ _)

theorem clk_restartInterval (p : Port) (s : State) (h : Clk s) : Clk (restartInterval p s) :=
  h.of (anchor_restartInterval _ _)

theorem clk_startEcho (p : Port) (s : State) (h : Clk s) : Clk (startEcho p s) := h.of (anchor_startEcho _ _)

theorem clk_takeDelay (p : Port) (x : Nat) (s : State) (h : Clk s) : Clk (takeDelay p x s) :=
  h.of (anchor_takeDelay _ _ _)

theorem clk_endExchange (w : Whole) (s : State) (h : Clk s) : Clk (endExchange w s) := h.of (anchor_endExchange _ _)

theorem clk_answerReceived (w : Whole) (s : State) (h : Clk s) : Clk (answerReceived w s) :=
  h.of (anchor_answerReceived _ _)

theorem clk_echoTimesOut (p : Port) (s : State) (h : Clk s) : Clk (echoTimesOut p s) := h.of (anchor_echoTimesOut _ _)

theorem clk_echoLinkDown (p : Port) (s : State) (h : Clk s) : Clk (echoLinkDown p s) := h.of (anchor_echoLinkDown _ _)

theorem clk_echoLinkUp (p : Port) (s : State) (h : Clk s) : Clk (echoLinkUp p s) := h.of (anchor_echoLinkUp _ _)

theorem clk_echoRewritten (p : Port) (old : PortRec) (s : State) (h : Clk s) : Clk (echoRewritten p old s) :=
  h.of (anchor_echoRewritten _ _ _)

theorem clk_clearStale (p : Port) (s : State) (h : Clk s) : Clk (clearStale p s) := h.of (anchor_clearStale _ _)

theorem clk_answerAsk (w : Whole) (s : State) (h : Clk s) : Clk (answerAsk w s) := h.of (anchor_answerAsk _ _)

theorem clk_handleAsk (w : Whole) (s : State) (h : Clk s) : Clk (handleAsk w s) := h.of (anchor_handleAsk _ _)

theorem clk_handleAnswer (w : Whole) (s : State) (h : Clk s) : Clk (handleAnswer w s) :=
  h.of (anchor_handleAnswer _ _)

theorem clk_afterBeacon (w : Whole) (i p : Nat) (a : Int) (old : Option (Nat × SourceEntry)) (s : State) (h : Clk s) :
    Clk (afterBeacon w i p a old s) := by
  simp only [afterBeacon]
  (repeat' split) <;> (repeat' first
      | with_reducible assumption | with_reducible apply clk_watchSecond | with_reducible apply clk_reevaluate
      | with_reducible apply clk_takeSample | with_reducible apply clk_setSource
      | (refine Clk.of ‹_› ?_; simp; done) | simp)

theorem clk_beaconIntoTable (w : Whole) (s : State) (h : Clk s) :
    Clk (beaconIntoTable w s) := by
  simp only [beaconIntoTable]
  (repeat' split) <;> (repeat' first
      | with_reducible assumption | with_reducible apply clk_afterBeacon | with_reducible apply clk_setSource
      | (refine Clk.of ‹_› ?_; simp; done) | simp)

theorem clk_goStale (i : Nat) (s : State) (h : Clk s) : Clk (goStale i s) := h.of (anchor_goStale _ _)

theorem clk_afterBar (old : Option (Nat × SourceEntry)) (s : State) (h : Clk s) : Clk (afterBar old s) :=
  h.of (anchor_afterBar _ _)

theorem clk_endBar (i : Nat) (e : SourceEntry) (s : State) (h : Clk s) : Clk (endBar i e s) :=
  h.of (anchor_endBar _ _ _)

theorem clk_setBar (i : Nat) (e : SourceEntry) (seconds : Nat) (s : State) (h : Clk s) : Clk (setBar i e seconds s) :=
  h.of (anchor_setBar _ _ _ _)

theorem clk_barEntry (i : Nat) (e : SourceEntry) (seconds : Nat) (s : State) (h : Clk s) :
    Clk (barEntry i e seconds s) :=
  h.of (anchor_barEntry _ _ _ _)

theorem clk_barSelected (seconds : Nat) (s : State) (h : Clk s) : Clk (barSelected seconds s) :=
  h.of (anchor_barSelected _ _)

theorem clk_transitBeacon (w : Whole) (p : Nat) (s : State) (h : Clk s) : Clk (transitBeacon w p s) :=
  h.of (anchor_transitBeacon _ _ _)

theorem clk_beaconUnit (w : Whole) (p : Nat) (s : State) (h : Clk s) : Clk (beaconUnit w p s) :=
  h.of (anchor_beaconUnit _ _ _)

theorem clk_handleBeacon (w : Whole) (s : State) (h : Clk s) :
    Clk (handleBeacon w s) := by
  simp only [handleBeacon]
  (repeat' split) <;> (repeat' first
      | with_reducible assumption | with_reducible apply clk_beaconIntoTable | with_reducible apply clk_beaconUnit
      | (refine Clk.of ‹_› ?_; simp; done) | simp)

theorem clk_recordEmission (l : Lane) (instant : SN) (e : Emission) (s : State) (h : Clk s) :
    Clk (recordEmission l instant e s) :=
  h.of (anchor_recordEmission _ _ _ _)

theorem clk_originate (l : Lane) (instant : SN) (s : State) (h : Clk s) : Clk (originate l instant s) :=
  h.of (anchor_originate _ _ _)

theorem clk_laneInstant (l : Lane) (old new : Date) (s : State) (h : Clk s) : Clk (laneInstant l old new s) :=
  h.of (anchor_laneInstant _ _ _ _)

theorem clk_startReports (s : State) (h : Clk s) : Clk (startReports s) := h.of (anchor_startReports _)

theorem clk_nextSlot (s : State) (h : Clk s) : Clk (nextSlot s) := h.of (anchor_nextSlot _)

theorem clk_reportNotSent (i : Nat) (s : State) (h : Clk s) : Clk (reportNotSent i s) :=
  h.of (anchor_reportNotSent _ _)

theorem clk_reportSent (i : Nat) (s : State) (h : Clk s) : Clk (reportSent i s) := h.of (anchor_reportSent _ _)

theorem clk_sendReport (i : Nat) (s : State) (h : Clk s) : Clk (sendReport i s) := h.of (anchor_sendReport _ _)

theorem clk_setSelfDrift (v : Verdict) (s : State) (h : Clk s) : Clk (setSelfDrift v s) :=
  h.of (anchor_setSelfDrift _ _)

theorem clk_clearSelfDrift (v : Verdict) (e : Episode) (s : State) (h : Clk s) : Clk (clearSelfDrift v e s) :=
  h.of (anchor_clearSelfDrift _ _ _)

theorem clk_judgeSelf (s : State) (h : Clk s) : Clk (judgeSelf s) := h.of (anchor_judgeSelf _)

theorem clk_warnPeer (i : Nat) (vote : Vote) (s : State) (h : Clk s) : Clk (warnPeer i vote s) :=
  h.of (anchor_warnPeer _ _ _)

theorem clk_unwarnPeer (i : Nat) (vote : Vote) (s : State) (h : Clk s) : Clk (unwarnPeer i vote s) :=
  h.of (anchor_unwarnPeer _ _ _)

theorem clk_judgePeer (s : State) (i : Nat) (h : Clk s) : Clk (judgePeer s i) := h.of (anchor_judgePeer _ _)

theorem clk_judgeRack (s : State) (h : Clk s) : Clk (judgeRack s) := h.of (anchor_judgeRack _)

theorem clk_reportReceived (w : Whole) (s : State) (h : Clk s) : Clk (reportReceived w s) :=
  h.of (anchor_reportReceived _ _)

theorem clk_setPeerCfg (i : Nat) (c : PeerCfg) (s : State) (h : Clk s) : Clk (setPeerCfg i c s) :=
  h.of (anchor_setPeerCfg _ _ _)

theorem clk_writePeerAt (i : Nat) (c : PeerCfg) (s : State) (h : Clk s) : Clk (writePeerAt i c s) :=
  h.of (anchor_writePeerAt _ _ _)

theorem clk_clearPeerAt (i : Nat) (s : State) (h : Clk s) : Clk (clearPeerAt i s) := h.of (anchor_clearPeerAt _ _)

theorem clk_applyDrift (p : DriftParams) (holdoff threshold : Nat) (s : State) (h : Clk s) :
    Clk (applyDrift p holdoff threshold s) :=
  h.of (anchor_applyDrift _ _ _ _)

theorem clk_driftSoftReset (s : State) (h : Clk s) : Clk (driftSoftReset s) := h.of (anchor_driftSoftReset _)

theorem clk_freezeTrigger (t : Trigger) (s : State) (h : Clk s) : Clk (freezeTrigger t s) :=
  h.of (anchor_freezeTrigger _ _)

theorem clk_releaseFreeze (s : State) (h : Clk s) : Clk (releaseFreeze s) := h.of (anchor_releaseFreeze _)

theorem clk_settleStamp (p : Port) (written : Bool) (s : State) (h : Clk s) : Clk (settleStamp p written s) :=
  h.of (anchor_settleStamp _ _ _)

theorem clk_loseStamp (p : Port) (s : State) (h : Clk s) : Clk (loseStamp p s) := h.of (anchor_loseStamp _ _)

theorem clk_readyArriving (p : Port) (edit : Edit) (s : State) (h : Clk s) : Clk (readyArriving p edit s) :=
  h.of (anchor_readyArriving _ _ _)

theorem clk_writeStampNow (p : Port) (c : DatingCtx) (bytes : List Byte) (s : State) (h : Clk s) :
    Clk (writeStampNow p c bytes s) :=
  h.of (anchor_writeStampNow _ _ _ _)

theorem clk_closeMark (p : Port) (bytes : List Byte) (stop len : Nat) (badFcs : Bool) (s : State) (h : Clk s) :
    Clk (closeMark p bytes stop len badFcs s) :=
  h.of (anchor_closeMark _ _ _ _ _ _)

theorem clk_cutMark (p : Port) (bytes : List Byte) (len : Nat) (s : State) (h : Clk s) :
    Clk (cutMark p bytes len s) :=
  h.of (anchor_cutMark _ _ _ _)

theorem clk_setRx (p : Port) (r : Option Rx) (s : State) (h : Clk s) : Clk (setRx p r s) := h.of (anchor_setRx _ _ _)

theorem clk_forwardArriving (p : Port) (r : Rx) (ready : Bool) (s : State) (h : Clk s) :
    Clk (forwardArriving p r ready s).1 :=
  h.of (anchor_forwardArriving _ _ _ _)

theorem clk_passFrame (p : Port) (r : Rx) (s : State) (h : Clk s) : Clk (passFrame p r s) :=
  h.of (anchor_passFrame _ _ _)

theorem clk_settleArrived (p : Port) (bytes : List Byte) (s : State) (h : Clk s) : Clk (settleArrived p bytes s) :=
  h.of (anchor_settleArrived _ _ _)

theorem clk_markFrame (p : Port) (r : Rx) (index : Nat) (e : MatchEntry) (s : State) (hr : DateOk r.ingress) (h : Clk s) :
    Clk (markFrame p r index e s) := by
  simp only [markFrame]
  (repeat' split) <;> (repeat' first
      | with_reducible assumption | with_reducible apply clk_arbitrate | with_reducible apply clk_openMark
      | with_reducible apply clk_loseStamp | with_reducible apply clk_forwardArriving
      | with_reducible apply clk_settleArrived | (refine Clk.of ‹_› ?_; simp; done) | simp)

theorem clk_lookupFrame (p : Port) (r : Rx) (ended : Bool) (s : State) (hr : DateOk r.ingress) (h : Clk s) :
    Clk (lookupFrame p r ended s) := by
  simp only [lookupFrame]
  (repeat' split) <;> (repeat' first
      | with_reducible assumption | with_reducible apply clk_setRx | with_reducible apply clk_passFrame
      | with_reducible apply clk_markFrame | (refine Clk.of ‹_› ?_; simp; done) | simp)

theorem clk_growArriving (p : Port) (bytes : List Byte) (s : State) (h : Clk s) : Clk (growArriving p bytes s) :=
  h.of (anchor_growArriving _ _ _)

theorem clk_overrun (p : Port) (r : Rx) (s : State) (h : Clk s) : Clk (overrun p r s) := h.of (anchor_overrun _ _ _)

theorem clk_malformedFrame (w : Whole) (s : State) (h : Clk s) : Clk (malformedFrame w s) :=
  h.of (anchor_malformedFrame _ _)

theorem clk_dispatchL2 (w : Whole) (s : State) (h : Clk s) :
    Clk (dispatchL2 w s) := by
  simp only [dispatchL2]
  (repeat' split) <;> (repeat' first
      | with_reducible assumption | with_reducible apply clk_handleAsk | with_reducible apply clk_handleAnswer
      | with_reducible apply clk_handleBeacon | with_reducible apply clk_malformedFrame
      | (refine Clk.of ‹_› ?_; simp; done) | simp)

theorem clk_acceptControl (w : Whole) (privilege : Privilege) (s : State) (h : Clk s) :
    Clk (acceptControl w privilege s) :=
  h.of (anchor_acceptControl _ _ _)

theorem clk_dispatchUdp (w : Whole) (mgmt utx : Bool) (privilege : Privilege) (s : State) (h : Clk s) :
    Clk (dispatchUdp w mgmt utx privilege s) :=
  h.of (anchor_dispatchUdp _ _ _ _ _)

theorem clk_endForwarded (p : Port) (r : Rx) (inLane : Bool) (s : State) (h : Clk s) :
    Clk (endForwarded p r inLane s) :=
  h.of (anchor_endForwarded _ _ _ _)

theorem clk_endFrame (p : Port) (r : Rx) (s : State) (h : Clk s) :
    Clk (endFrame p r s) := by
  simp only [endFrame]
  (repeat' split) <;> (repeat' first
      | with_reducible assumption | with_reducible apply clk_setRx | with_reducible apply clk_dispatchL2
      | with_reducible apply clk_dispatchUdp | with_reducible apply clk_endForwarded
      | (refine Clk.of ‹_› ?_; simp; done) | simp)

theorem clk_receiveEnd (p : Port) (r : Rx) (s : State) (hr : DateOk r.ingress) (h : Clk s) :
    Clk (receiveEnd p r s) := by
  have hr : DateOk r.upToOversize.ingress := hr
  simp only [receiveEnd]
  generalize r.upToOversize = r at *
  (repeat' split) <;> (repeat' first
      | with_reducible assumption | with_reducible apply clk_setRx | with_reducible apply clk_lookupFrame
      | with_reducible apply clk_overrun | with_reducible apply clk_endFrame | (refine Clk.of ‹_› ?_; simp; done)
      | simp)

theorem clk_oversizeArrives (p : Port) (more : List Byte) (s : State)
    (hr : ∀ r, (s.port p).rx = some r → DateOk r.ingress) (h : Clk s) : Clk (oversizeArrives p more s) := by
  simp only [oversizeArrives]
  split
  · have hr : DateOk _ := hr _ ‹_›
    (repeat' split) <;> (repeat' first
      | with_reducible assumption | with_reducible apply clk_overrun | refine clk_lookupFrame _ _ _ _ ?_ ?_ | exact hr)
  · exact h

theorem clk_applyFull (c : Settings) (bank : Vector MatchEntry 64) (source : LoadSource) (version : Nat)
    (s : State) (h : Clk s) :
    Clk (applyFull c bank source version s) :=
  h.of (anchor_applyFull _ _ _ _ _)

theorem clk_applyReload (c : Settings) (bank : Vector MatchEntry 64) (s : State) (h : Clk s) :
    Clk (applyReload c bank s) :=
  h.of (anchor_applyReload _ _ _)

theorem clk_softResetNow (reload : Bool) (s : State) (h : Clk s) : Clk (softResetNow reload s) :=
  h.of (anchor_softResetNow _ _)

theorem clk_raiseAgain (expired : Bool) (s : State) (h : Clk s) : Clk (raiseAgain expired s) :=
  h.of (anchor_raiseAgain _ _)

theorem clk_completeSoft (expired : Bool) (s : State) (h : Clk s) : Clk (completeSoft expired s) :=
  h.of (anchor_completeSoft _ _)

theorem clk_finishReload (first second : List Byte) (s : State) (h : Clk s) : Clk (finishReload first second s) :=
  h.of (anchor_finishReload _ _ _)

theorem clk_loseReception (p : Port) (more : List Byte) (s : State) (h : Clk s) : Clk (loseReception p more s) :=
  h.of (anchor_loseReception _ _ _)

theorem clk_flushEgress (p : Port) (s : State) (h : Clk s) : Clk (flushEgress p s) := h.of (anchor_flushEgress _ _)

theorem clk_linkBackUp (p : Port) (s : State) (h : Clk s) : Clk (linkBackUp p s) := h.of (anchor_linkBackUp _ _)

theorem clk_linkComesUp (p : Port) (s : State) (h : Clk s) : Clk (linkComesUp p s) := h.of (anchor_linkComesUp _ _)

theorem clk_finishSave (written readBack : List Byte) (s : State) (h : Clk s) : Clk (finishSave written readBack s) :=
  h.of (anchor_finishSave _ _ _)

theorem clk_endMemoryTest (pass : Bool) (s : State) (h : Clk s) : Clk (endMemoryTest pass s) :=
  h.of (anchor_endMemoryTest _ _)

theorem clk_removeRecords (k : Nat) (s : State) (h : Clk s) : Clk (removeRecords k s) :=
  h.of (anchor_removeRecords _ _)

theorem clk_testLog (s : State) (h : Clk s) : Clk (testLog s).1 := h.of (anchor_testLog _)

theorem clk_writeMatch (index : Byte) (a : MatchArg) (s : State) (h : Clk s) : Clk (writeMatch index a s).1 :=
  h.of (anchor_writeMatch _ _ _)

theorem clk_copyActive (s : State) (h : Clk s) : Clk (copyActive s).1 := h.of (anchor_copyActive _)

theorem clk_swapCommand (arg : Byte) (s : State) (h : Clk s) : Clk (swapCommand arg s).1 :=
  h.of (anchor_swapCommand _ _)

theorem clk_writePort (a : PortArg) (s : State) (h : Clk s) : Clk (writePort a s).1 := h.of (anchor_writePort _ _)

theorem clk_writeLane (a : LaneArg) (s : State) (h : Clk s) : Clk (writeLane a s).1 := h.of (anchor_writeLane _ _)

theorem clk_writeOverride (a : OverrideArg) (s : State) (h : Clk s) : Clk (writeOverride a s).1 :=
  h.of (anchor_writeOverride _ _)

theorem clk_writePeer (a : PeerArg) (s : State) (h : Clk s) : Clk (writePeer a s).1 := h.of (anchor_writePeer _ _)

theorem clk_clearPeer (index : Byte) (s : State) (h : Clk s) : Clk (clearPeer index s).1 :=
  h.of (anchor_clearPeer _ _)

theorem clk_writeServo (a : ServoArg) (s : State) (h : Clk s) : Clk (writeServo a s).1 := h.of (anchor_writeServo _ _)

theorem clk_writeDrift (a : DriftArg) (s : State) (h : Clk s) : Clk (writeDrift a s).1 := h.of (anchor_writeDrift _ _)

theorem clk_applyResponse (k : FaultKind) (r : Response) (s : State) (h : Clk s) : Clk (applyResponse k r s) :=
  h.of (anchor_applyResponse _ _ _)

theorem clk_writeFault (kind response : Byte) (s : State) (h : Clk s) : Clk (writeFault kind response s).1 :=
  h.of (anchor_writeFault _ _ _)

theorem clk_clearPosition (mask : BitVec 32) (s : State) (k : FaultKind) (h : Clk s) : Clk (clearPosition mask s k) :=
  h.of (anchor_clearPosition _ _ _)

theorem clk_clearFlags (mask : BitVec 32) (s : State) (h : Clk s) : Clk (clearFlags mask s).1 :=
  h.of (anchor_clearFlags _ _)

theorem clk_barSource (index : Byte) (seconds : BitVec 16) (s : State) (h : Clk s) :
    Clk (barSource index seconds s).1 :=
  h.of (anchor_barSource _ _ _)

theorem clk_saveSettings (s : State) (h : Clk s) : Clk (saveSettings s).1 := h.of (anchor_saveSettings _)

theorem clk_resetCommand (arg : Byte) (s : State) (h : Clk s) : Clk (resetCommand arg s).1 :=
  h.of (anchor_resetCommand _ _)

theorem clk_reset : Clk State.reset := ⟨⟨by decide, by decide, by decide⟩, by decide, by simp [State.reset, Clock.reset]⟩

theorem clk_fullReset (s : State) : Clk (fullReset s) := ⟨clk_reset.date, clk_reset.epoch, clk_reset.stamp⟩

theorem clk_holdReset (s : State) : Clk (holdReset s) := ⟨clk_reset.date, clk_reset.epoch, clk_reset.stamp⟩

theorem clk_takeReset (k : ResetKind) (s : State) (h : Clk s) : Clk (takeReset k s) := by
  cases k
  · exact clk_completeSoft _ _ (clk_softResetNow _ _ h)
  · exact clk_softResetNow _ _ h
  · exact clk_fullReset _

theorem clk_takePendingReset (s : State) (h : Clk s) : Clk (takePendingReset s) := by
  simp only [takePendingReset]; split
  · exact clk_takeReset _ _ h
  · exact h

theorem clk_finishFrame (e : Exec) (s : State) (h : Clk s) : Clk (finishFrame e s) := by
  simp only [finishFrame]
  split
  · exact clk_arbitrate _ _ (clk_offerGeneral _ _ _ _ _ (clk_setAgent _ _ h))
  · exact clk_takePendingReset _ (clk_offerGeneral _ _ _ _ _ (clk_setAgent _ _ h))

theorem clk_advanceFrame (e : Exec) (s : State) (h : Clk s) : Clk (advanceFrame e s) := by
  simp only [advanceFrame]
  split
  · exact clk_finishFrame _ _ h
  · exact clk_setAgent _ _ h

theorem clk_deliver (c : Nat) (out : State × Status × List Byte) (h : Clk out.1) : Clk (deliver c out) := by
  simp only [Machine.deliver, answerInFrame]
  split
  · exact clk_advanceFrame _ _ (clk_setAgent _ _ h)
  · exact clk_takePendingReset _ (clk_setAgent _ _ h)

theorem clk_linkGoesDown (p : Port) (more : List Byte) (s : State) (h : Clk s) : Clk (linkGoesDown p more s) := by
  simp only [linkGoesDown]
  have h1 : Clk (echoLinkDown p (flushEgress p (loseReception p more (s.setPort p { s.port p with up := false })))) := clk_echoLinkDown _ _ (clk_flushEgress _ _ (clk_loseReception _ _ _ (clk_setPort _ _ _ h)))
  generalize (echoLinkDown p (flushEgress p (loseReception p more (s.setPort p { s.port p with up := false })))) = x at *
  have h2 : Clk (if (x.port p).seenUp then raiseWithHold .linkDown (.port p) true .nothing x else x) := by
    split
    · exact clk_raiseWithHold _ _ _ _ _ h1
    · exact h1
  generalize (if (x.port p).seenUp then raiseWithHold .linkDown (.port p) true .nothing x else x) = y at *
  have h3 : Clk (if p.isUplink then reevaluate y.selectedPair .lost none y else y) := by
    split
    · exact clk_reevaluate _ _ _ _ h2
    · exact h2
  split
  · exact clk_takePendingReset _ h3
  · exact h3

theorem clk_logTakeMeaning (n : Byte) (room : Nat) (s : State) (h : Clk s) : Clk (logTakeMeaning n room s).1 := by
  simp only [logTakeMeaning]; (repeat' split) <;> first | exact h | exact clk_removeRecords _ _ h
end Sys2Proof.Machine
end

