-- ==== Sys2Proof/Laws/Faults.lean ====
section
/-! SUPPORT. The fault records under the write rule, raises, clears and the re-evaluation of the selection (R145, R187, R188),
and the HOLD indication, which only a fault with response HOLD moves (R185, R190). -/

namespace Sys2Proof.Machine

/-! ### Single records -/

@[simp] theorem fault_setFault (s : State) (k : FaultKind) (r : FaultRec) : (s.setFault k r).fault k = r := by
  cases k <;> simp [State.setFault, State.fault, State.setFaults, FaultKind.ix]

theorem fault_setFault_ne (s : State) (j k : FaultKind) (r : FaultRec) (h : j ≠ k) :
    (s.setFault k r).fault j = s.fault j := by
  have : k.ix.val ≠ j.ix.val := by
    intro e
    apply h
    cases j <;> cases k <;> first | rfl | (exact absurd e (by decide))
  simp [State.setFault, State.fault, State.setFaults, Vector.getElem_set, this]

theorem fault_of {s t : State} (h : t.faults.recs = s.faults.recs) (k : FaultKind) : t.fault k = s.fault k := by
  simp only [State.fault, h]

/-! ### Alerts and the write rule leave the records -/

@[simp] theorem recs_setForm (s : State) (a : AlertForm) (v : FormState) : (s.setForm a v).faults.recs = s.faults.recs :=
  (rfl)

@[simp] theorem recs_alertEvent (a : AlertForm) (clear : Bool) (subject : Subject) (d : AlertData) (s : State) :
    (alertEvent a clear subject d s).faults.recs = s.faults.recs := by
  simp only [alertEvent, suppressAlert]
  (repeat' split) <;> simp

@[simp] theorem recs_faultAlert (k : FaultKind) (clear : Bool) (subject : Subject) (d : AlertData) (s : State) :
    (faultAlert k clear subject d s).faults.recs = s.faults.recs := by
  simp only [faultAlert]
  split <;> simp

@[simp] theorem recs_levelNotice (s : State) : (levelNotice s).faults.recs = s.faults.recs := by
  simp only [levelNotice]
  split <;> simp

@[simp] theorem recs_offerBare (o : Offer) (s : State) : (offerBare o s).1.faults.recs = s.faults.recs := by
  simp only [offerBare]
  (repeat' split) <;> simp

/-! ### Records of the other kinds under raises and clears -/

@[simp] theorem fault_watchSecond (s : State) (k : FaultKind) : (watchSecond s).fault k = s.fault k :=
  fault_of (by simp) k

@[simp] theorem fault_judgePulse (d : Option Nat) (s : State) (k : FaultKind) : (judgePulse d s).fault k = s.fault k :=
  fault_of (by simp) k

theorem fault_raiseLogFull (s : State) (k : FaultKind) (h : k ≠ .logFull) : (raiseLogFull s).fault k = s.fault k := by
  simp only [raiseLogFull]
  split
  · exact fault_setFault_ne _ _ _ _ h
  · rw [fault_of (recs_faultAlert _ _ _ _ _) k, fault_of (recs_offerBare _ _) k,
      fault_watchSecond]
    exact fault_setFault_ne _ _ _ _ h

theorem fault_clearLogFull (s : State) (k : FaultKind) (h : k ≠ .logFull) : (clearLogFull s).fault k = s.fault k := by
  have hd : ∀ t : State, (deactivate .logFull t).fault k = t.fault k := fun t => fault_setFault_ne _ _ _ _ h
  simp only [clearLogFull]
  split
  · rw [fault_of (recs_faultAlert _ _ _ _ _) k]
    split
    · rw [fault_raiseLogFull _ _ h, fault_of (recs_offerBare _ _) k, hd]
    · rw [fault_of (recs_offerBare _ _) k, hd]
  · rfl

/-- A record offered moves no fault but LOG_FULL (R145). -/
theorem fault_offerRecord (o : Offer) (s : State) (k : FaultKind) (h : k ≠ .logFull) :
    (offerRecord o s).fault k = s.fault k := by
  simp only [offerRecord]
  split
  · rw [fault_raiseLogFull _ _ h, fault_of (recs_offerBare _ _) k]
  · rw [fault_clearLogFull _ _ h, fault_of (recs_offerBare _ _) k]
  · exact fault_of (recs_offerBare _ _) k
  · exact fault_of (recs_offerBare _ _) k

/-- A raise moves its own fault and LOG_FULL alone (R187). -/
theorem fault_raiseFault_ne (j : FaultKind) (subject : Subject) (record : Bool) (d : AlertData) (s : State) (k : FaultKind)
    (h : k ≠ .logFull) (hj : k ≠ j) : (raiseFault j subject record d s).fault k = s.fault k := by
  simp only [raiseFault]
  split
  · exact fault_setFault_ne _ _ _ _ hj
  · rw [fault_of (recs_faultAlert _ _ _ _ _) k]
    split
    · rw [fault_offerRecord _ _ _ h, fault_watchSecond]
      exact fault_setFault_ne _ _ _ _ hj
    · rw [fault_watchSecond]
      exact fault_setFault_ne _ _ _ _ hj

/-- A raise leaves its own fault active, with its count one higher up to 255 (R187). -/
theorem fault_raiseFault_self (k : FaultKind) (subject : Subject) (record : Bool) (d : AlertData) (s : State)
    (h : k ≠ .logFull) :
    (raiseFault k subject record d s).fault k =
      if (s.fault k).active then { s.fault k with count := satAdd 255 (s.fault k).count 1 }
      else { active := true, count := satAdd 255 (s.fault k).count 1, lastRaised := some s.upSeconds,
             lastSubject := some subject } := by
  simp only [raiseFault]
  split
  · exact fault_setFault _ _ _
  · rw [fault_of (recs_faultAlert _ _ _ _ _) k]
    split
    · rw [fault_offerRecord _ _ _ h, fault_watchSecond]
      exact fault_setFault _ _ _
    · rw [fault_watchSecond]
      exact fault_setFault _ _ _

/-- A clear moves its own fault and LOG_FULL alone (R188). -/
theorem fault_clearFault_ne (j : FaultKind) (subject : Subject) (record : Bool) (d : AlertData) (s : State) (k : FaultKind)
    (h : k ≠ .logFull) (hj : k ≠ j) : (clearFault j subject record d s).fault k = s.fault k := by
  simp only [clearFault]
  split
  · rw [fault_of (recs_faultAlert _ _ _ _ _) k]
    split
    · rw [fault_offerRecord _ _ _ h]
      exact fault_setFault_ne _ _ _ _ hj
    · exact fault_setFault_ne _ _ _ _ hj
  · rfl

/-- A clear leaves its own fault as it was but inactive (R188). -/
theorem fault_clearFault_self (k : FaultKind) (subject : Subject) (record : Bool) (d : AlertData) (s : State)
    (h : k ≠ .logFull) : (clearFault k subject record d s).fault k = { s.fault k with active := false } := by
  simp only [clearFault]
  split
  · rw [fault_of (recs_faultAlert _ _ _ _ _) k]
    split
    · rw [fault_offerRecord _ _ _ h]
      exact fault_setFault _ _ _
    · exact fault_setFault _ _ _
  · rename_i hf
    cases hr : s.fault k
    simp_all

/-! ### The re-evaluation moves SOURCE_LOST and HOLDOVER_EXPIRED alone -/

theorem fault_setSourceState (i : Nat) (st : SourceState) (s : State) (k : FaultKind) :
    (setSourceState i st s).fault k = s.fault k := by
  simp only [setSourceState]
  split <;> rfl

theorem fault_unselect (i : Nat) (s : State) (k : FaultKind) : (unselect i s).fault k = s.fault k := by
  simp only [unselect]
  split
  · exact fault_setSourceState _ _ _ _
  · rfl

theorem fault_servoFollows (s : State) (k : FaultKind) : (servoFollows s).fault k = s.fault k :=
  (fault_watchSecond _ _).trans rfl

theorem fault_servoSwitches (s : State) (k : FaultKind) : (servoSwitches s).fault k = s.fault k :=
  (fault_watchSecond _ _).trans rfl

theorem fault_servoHolds (s : State) (k : FaultKind) : (servoHolds s).fault k = s.fault k :=
  (fault_watchSecond _ _).trans rfl

theorem fault_offerStateIfChanged (before : ServoState) (s : State) (k : FaultKind) (h : k ≠ .logFull) :
    (offerStateIfChanged before s).fault k = s.fault k := by
  simp only [offerStateIfChanged, offerState]
  split
  · rfl
  · exact fault_offerRecord _ _ _ h

theorem fault_select (old : Option (Nat × SourceEntry)) (new : Nat × SourceEntry) (reason : Reason) (sampled : Bool)
    (s : State) (k : FaultKind) (h : k ≠ .logFull) (h1 : k ≠ .sourceLost) (h2 : k ≠ .holdoverExpired) :
    (select old new reason sampled s).fault k = s.fault k := by
  simp only [select]
  rw [fault_clearFault_ne _ _ _ _ _ _ h h1, fault_offerStateIfChanged _ _ _ h]
  have hc : ∀ t : State, (clearHoldoverExpired t).fault k = t.fault k := fun t => fault_clearFault_ne _ _ _ _ _ _ h h2
  split
  · rw [hc, fault_offerRecord _ _ _ h]
    (repeat' split) <;> simp [fault_servoSwitches, fault_servoFollows, fault_setSourceState, fault_unselect]
  · rw [fault_offerRecord _ _ _ h]
    (repeat' split) <;> simp [fault_servoSwitches, fault_servoFollows, fault_setSourceState, fault_unselect]

theorem fault_endSelection (old : Nat × SourceEntry) (reason : Reason) (s : State) (k : FaultKind) (h : k ≠ .logFull)
    (h1 : k ≠ .sourceLost) : (endSelection old reason s).fault k = s.fault k := by
  simp only [endSelection]
  rw [fault_raiseFault_ne _ _ _ _ _ _ h h1, fault_offerStateIfChanged _ _ _ h, fault_offerRecord _ _ _ h]
  split <;> simp [fault_servoHolds, fault_unselect]

/-- A re-evaluation moves no fault but SOURCE_LOST, HOLDOVER_EXPIRED and LOG_FULL (R50, R72, R145). -/
theorem fault_reevaluate (old : Option (Nat × SourceEntry)) (why : Reason) (own : Option Nat) (s : State) (k : FaultKind)
    (h : k ≠ .logFull) (h1 : k ≠ .sourceLost) (h2 : k ≠ .holdoverExpired) :
    (reevaluate old why own s).fault k = s.fault k := by
  have hs := fun old new reason sampled => fault_select old new reason sampled s k h h1 h2
  have he := fun old reason => fault_endSelection old reason s k h h1
  unfold reevaluate
  (repeat' split) <;> simp only [hs, he]

theorem fault_reevaluateOnHold (before : Bool) (s : State) (k : FaultKind)
    (h : k ≠ .logFull) (h1 : k ≠ .sourceLost) (h2 : k ≠ .holdoverExpired) :
    (reevaluateOnHold before s).fault k = s.fault k := by
  simp only [reevaluateOnHold]
  split
  · rfl
  · exact fault_reevaluate _ _ _ _ _ h h1 h2

/-! ### HOLD -/

/-- With the responses within their maxima, HOLD stands on FREQ_IMPLAUSIBLE and SELF_DRIFT alone (R185, R190). -/
theorem hold_iff (s : State) (h : ∀ k : FaultKind, (s.response k).rank ≤ k.maxResponse.rank) :
    s.hold = (s.activeAt .hold .freqImplausible || s.activeAt .hold .selfDrift) := by
  have no : ∀ k : FaultKind, k ≠ .freqImplausible → k ≠ .selfDrift → s.activeAt .hold k = false := by
    intro k h1 h2
    have top : k.maxResponse.rank ≤ 2 := by
      cases k <;> simp_all [FaultKind.maxResponse, Response.rank]
    have low : ¬ Response.hold.rank ≤ (s.response k).rank := by
      have := h k
      simp only [show Response.hold.rank = 3 from rfl]
      omega
    rw [State.activeAt, decide_eq_false low, Bool.and_false]
  simp [State.hold, faultKinds, no]

theorem activeAt_of {s t : State} (least : Response) (k : FaultKind) (h : t.fault k = s.fault k) (hc : t.cfg = s.cfg) :
    t.activeAt least k = s.activeAt least k := by
  unfold State.activeAt State.response
  rw [h, hc]

/-- HOLD stands as it stood where its two faults do. -/
theorem hold_of {s t : State} (h : ∀ k : FaultKind, (s.response k).rank ≤ k.maxResponse.rank) (hc : t.cfg = s.cfg)
    (h1 : t.fault .freqImplausible = s.fault .freqImplausible) (h2 : t.fault .selfDrift = s.fault .selfDrift) :
    t.hold = s.hold := by
  rw [hold_iff s h, hold_iff t (by simpa only [State.response, hc] using h), activeAt_of _ _ h1 hc, activeAt_of _ _ h2 hc]

/-- A raise of a fault that cannot have response HOLD is without a re-evaluation. -/
theorem raiseWithHold_plain (k : FaultKind) (subject : Subject) (record : Bool) (d : AlertData) (s : State)
    (h : ∀ k : FaultKind, (s.response k).rank ≤ k.maxResponse.rank) (h1 : k ≠ .freqImplausible) (h2 : k ≠ .selfDrift) :
    raiseWithHold k subject record d s = raiseFault k subject record d s := by
  simp only [raiseWithHold, reevaluateOnHold]
  rw [if_pos]
  exact hold_of h (by simp) (fault_raiseFault_ne _ _ _ _ _ _ (by simp) h1.symm)
    (fault_raiseFault_ne _ _ _ _ _ _ (by simp) h2.symm)

/-- A clear of a fault that cannot have response HOLD is without a re-evaluation. -/
theorem clearWithHold_plain (k : FaultKind) (subject : Subject) (record : Bool) (d : AlertData) (s : State)
    (h : ∀ k : FaultKind, (s.response k).rank ≤ k.maxResponse.rank) (h1 : k ≠ .freqImplausible) (h2 : k ≠ .selfDrift) :
    clearWithHold k subject record d s = clearFault k subject record d s := by
  simp only [clearWithHold, reevaluateOnHold]
  rw [if_pos]
  exact hold_of h (by simp) (fault_clearFault_ne _ _ _ _ _ _ (by simp) h1.symm)
    (fault_clearFault_ne _ _ _ _ _ _ (by simp) h2.symm)

end Sys2Proof.Machine
end

