-- ==== Sys2Proof/Laws/Selection.lean ====
section
/-! SUPPORT. The re-evaluation of the selection, and that every shared operation keeps what R39 says of the Source Table
and the Servo. -/

namespace Sys2Proof.Machine

theorem source_setSource (s : State) (i j : Nat) (v : Option SourceEntry) :
    (s.setSource i v).source j = if i = j ∧ j < 8 then v else s.source j := by
  simp only [State.source, State.setSource, State.setSources, Vector.getElem?_setIfInBounds]
  by_cases h : i = j
  · subst h
    by_cases h8 : i < 8
    · simp [h8]
    · simp [h8]
  · simp [h]

theorem source_lt {s : State} {i : Nat} {e : SourceEntry} (h : s.source i = some e) : i < 8 := by
  by_contra hc
  simp only [State.source] at h
  rw [Vector.getElem?_eq_none (by omega)] at h
  cases h

theorem source_of {s t : State} (h : t.sources = s.sources) (i : Nat) : t.source i = s.source i := by
  simp only [State.source, h]

theorem source_setSourceState (s : State) (i j : Nat) (st : SourceState) :
    (setSourceState i st s).source j = if i = j then (s.source j).map (fun e => { e with st := st }) else s.source j := by
  simp only [setSourceState]
  split
  · rename_i e he
    rw [source_setSource]
    by_cases h : i = j
    · subst h; simp [he, source_lt he]
    · simp [h]
  · rename_i he
    by_cases h : i = j
    · subst h; simp [he]
    · simp [h]

theorem mem_sourceIndices (i : Nat) : i ∈ sourceIndices ↔ i < 8 := by
  simp only [sourceIndices, List.mem_cons, List.not_mem_nil, or_false]; omega

/-- What a fold for the best finds: an entry that is there and may be followed. -/
theorem bestSource_some {s : State} {j : Nat} {b : SourceEntry} (h : bestSource s = some (j, b)) :
    s.source j = some b ∧ selectable s b = true := by
  have key : ∀ (l : List Nat) (acc : Option (Nat × SourceEntry)),
      (∀ j b, acc = some (j, b) → s.source j = some b ∧ selectable s b = true) →
      ∀ j b, l.foldl (betterOf s) acc = some (j, b) → s.source j = some b ∧ selectable s b = true := by
    intro l
    induction l with
    | nil => intro acc ha j b hb; exact ha j b hb
    | cons i rest ih =>
      intro acc ha j b hb
      refine ih _ ?_ j b hb
      intro j b hj
      simp only [betterOf] at hj
      split at hj
      · rename_i e he
        split at hj
        · split at hj
          · split at hj
            · injection hj with hj; injection hj with h1 h2; subst h1; subst h2; exact ⟨he, ‹_›⟩
            · exact ha _ _ hj
          · injection hj with hj; injection hj with h1 h2; subst h1; subst h2; exact ⟨he, ‹_›⟩
        · exact ha _ _ hj
      · exact ha _ _ hj
  exact key _ _ (by simp) j b h

theorem selectable_cls {s : State} {e : SourceEntry} (h : selectable s e = true) : e.cls ≤ 4 := by
  simp only [selectable, Bool.and_eq_true, decide_eq_true_eq] at h
  exact h.1.1.2

/-- The Servo follows a source. -/
def Follows (s : State) : Prop := s.servo.st = .acquiring ∨ s.servo.st = .locked

/-- The state in which a re-evaluation may stand: no entry but that of `old` can be SELECTED, and the Servo follows
exactly where there is an `old`. -/
structure Pre (old : Option (Nat × SourceEntry)) (s : State) : Prop where
  here : ∀ i e, s.source i = some e → e.st = .selected → ∃ x, old = some (i, x)
  key : ∀ i j e e', s.source i = some e → s.source j = some e' → e.sender = e'.sender → e.port = e'.port → i = j
  port : ∀ i e, s.source i = some e → e.port.isUplink = true
  follow : old.isSome = true ↔ Follows s

theorem Pre.of {old s t} (h : Pre old s) (hs : t.sources = s.sources) (hv : t.servo.st = s.servo.st) : Pre old t := by
  refine ⟨?_, ?_, ?_, ?_⟩
  · intro i e; rw [source_of hs]; exact h.here i e
  · intro i j e e'; rw [source_of hs, source_of hs]; exact h.key i j e e'
  · intro i e; rw [source_of hs]; exact h.port i e
  · rw [h.follow]; simp [Follows, hv]

theorem SourcesOk.of {s t : State} (h : SourcesOk s) (hs : t.sources = s.sources) (hv : t.servo.st = s.servo.st) :
    SourcesOk t := by
  refine ⟨?_, ?_, ?_, ?_, ?_⟩
  · intro i j e e'; rw [source_of hs, source_of hs]; exact h.unique i j e e'
  · intro i e; rw [source_of hs]; exact h.cls i e
  · intro i j e e'; rw [source_of hs, source_of hs]; exact h.key i j e e'
  · intro i e; rw [source_of hs]; exact h.port i e
  · simp only [source_of hs, hv]; exact h.follow

theorem SourcesOk.of2 {s t : State} (h : SourcesOk s) (hs : t.sources = s.sources) (hv : t.servo = s.servo) :
    SourcesOk t :=
  h.of hs (by rw [hv])

/-- The index of a SELECTED entry. -/
theorem selectedIndex_some {s : State} {i : Nat} (h : s.selectedIndex = some i) :
    ∃ e, s.source i = some e ∧ e.st = .selected := by
  have := List.find?_some h
  simp only [State.isSelected] at this
  split at this
  · exact ⟨_, ‹_›, by simpa using this⟩
  · cases this

theorem selectedIndex_none {s : State} (h : s.selectedIndex = none) (i : Nat) (e : SourceEntry)
    (he : s.source i = some e) :
    e.st ≠ .selected := by
  intro hs
  have := List.find?_eq_none.mp h i ((mem_sourceIndices i).mpr (source_lt he))
  simp [State.isSelected, he, hs] at this

/-- The pair of the SELECTED entry in a state that meets the invariant. -/
theorem SourcesOk.pre {s : State} (h : SourcesOk s) : Pre s.selectedPair s := by
  refine ⟨?_, h.key, h.port, ?_⟩
  · intro i e he hs
    simp only [State.selectedPair]
    cases hi : s.selectedIndex with
    | none => exact absurd hs (selectedIndex_none hi i e he)
    | some j =>
      obtain ⟨e', he', hs'⟩ := selectedIndex_some hi
      have := h.unique i j e e' he he' hs hs'
      subst this
      exact ⟨e, by simp [he]⟩
  · constructor
    · intro hp
      simp only [State.selectedPair] at hp
      cases hi : s.selectedIndex with
      | none => simp [hi] at hp
      | some j =>
        obtain ⟨e', he', hs'⟩ := selectedIndex_some hi
        exact h.follow.mp ⟨j, e', he', hs'⟩
    · intro hf
      obtain ⟨i, e, he, hs⟩ := h.follow.mpr hf
      simp only [State.selectedPair]
      cases hi : s.selectedIndex with
      | none => exact absurd hs (selectedIndex_none hi i e he)
      | some j =>
        obtain ⟨e', he', hs'⟩ := selectedIndex_some hi
        simp [he']

/-- The entry that is leaving the selection, gone from it. -/
def oldGone (old : Option (Nat × SourceEntry)) (s : State) : State :=
  match old with
  | some (i, _) => unselect i s
  | none => s

/-- A state made of the table and the Servo state of a selection. -/
theorem sourcesOk_selected {s t : State} {old} {j : Nat} {b : SourceEntry} (h : Pre old s) (hb : s.source j = some b)
    (hc : b.cls ≤ 4) (ht : t.sources = (setSourceState j .selected (oldGone old s)).sources)
    (hv : Follows t) : SourcesOk t := by
  have hsrc : ∀ k, t.source k = if j = k then (s.source k).map (fun e => { e with st := .selected }) else
      (match old with | some (i, _) => if s.isSelected i ∧ i = k then (s.source k).map (fun e => { e with st := .candidate }) else s.source k | none => s.source k) := by
    intro k
    rw [source_of ht, source_setSourceState]
    simp only [oldGone]
    cases old with
    | none => simp
    | some x =>
      obtain ⟨i, x⟩ := x
      simp only [unselect]
      by_cases hi : s.isSelected i = true
      · simp only [hi, if_true, source_setSourceState]
        by_cases hjk : j = k <;> by_cases hik : i = k <;> simp [hjk, hik, Option.map_map, Function.comp_def]
      · simp [hi]
  have hsome : ∀ k e, t.source k = some e → ∃ e0, s.source k = some e0 ∧ e.sender = e0.sender ∧ e.port = e0.port ∧ e.cls = e0.cls := by
    intro k e he
    rw [hsrc] at he
    split at he
    · obtain ⟨e0, h0, rfl⟩ := Option.map_eq_some_iff.mp he; exact ⟨e0, h0, rfl, rfl, rfl⟩
    · split at he
      · split at he
        · obtain ⟨e0, h0, rfl⟩ := Option.map_eq_some_iff.mp he; exact ⟨e0, h0, rfl, rfl, rfl⟩
        · exact ⟨e, he, rfl, rfl, rfl⟩
      · exact ⟨e, he, rfl, rfl, rfl⟩
  have hsel : ∀ k e, t.source k = some e → e.st = .selected → k = j := by
    intro k e he hs
    by_contra hne
    rw [hsrc, if_neg (fun h => hne h.symm)] at he
    split at he
    · rename_i i x
      split at he
      · obtain ⟨e0, h0, rfl⟩ := Option.map_eq_some_iff.mp he
        cases hs
      · rename_i hni
        obtain ⟨x', hx⟩ := h.here k e he hs
        injection hx with hx
        injection hx with hx1 hx2
        apply hni
        refine ⟨?_, hx1⟩
        rw [hx1]
        simp [State.isSelected, he, hs]
    · obtain ⟨x', hx⟩ := h.here k e he hs
      cases hx
  have htj : t.source j = some { b with st := .selected } := by rw [hsrc]; simp [hb]
  refine ⟨?_, ?_, ?_, ?_, ?_⟩
  · intro i k e e' he he' hs hs'
    rw [hsel i e he hs, hsel k e' he' hs']
  · intro i e he hs
    have := hsel i e he hs
    subst this
    rw [htj] at he
    injection he with he
    subst he
    exact hc
  · intro i k e e' he he' h1 h2
    obtain ⟨a, ha, ha1, ha2, _⟩ := hsome i e he
    obtain ⟨c, hc', hc1, hc2, _⟩ := hsome k e' he'
    exact h.key i k a c ha hc' (by rw [← ha1, ← hc1]; exact h1) (by rw [← ha2, ← hc2]; exact h2)
  · intro i e he
    obtain ⟨a, ha, _, ha2, _⟩ := hsome i e he
    rw [ha2]; exact h.port i a ha
  · constructor
    · intro _; exact hv
    · intro _; exact ⟨j, _, htj, rfl⟩

@[simp] theorem setServoState_st (st : ServoState) (s : State) : (setServoState st s).servo.st = st := by
  simp [setServoState]
@[simp] theorem handRate_st (r : Int) (s : State) : (handRate r s).servo.st = s.servo.st := rfl

/-- What a selection leaves: the table with the one entry SELECTED, and the Servo following; in UNSET, where the entry's
own beacon follows as a sample, the Servo still waits. -/

theorem select_sources (old : Option (Nat × SourceEntry)) (new : Nat × SourceEntry) (reason : Reason) (sampled : Bool) (s : State) :
    (select old new reason sampled s).sources =
      (setSourceState new.1 .selected (oldGone old s)).sources := by
  rcases old with _ | ⟨i, x⟩ <;> simp only [select] <;> (repeat' split) <;> simp [oldGone]

theorem select_st (old : Option (Nat × SourceEntry)) (new : Nat × SourceEntry) (reason : Reason) (sampled : Bool) (s : State) :
    (select old new reason sampled s).servo.st =
      if old = none ∧ s.servo.st = .unset ∧ sampled = true then .unset else .acquiring := by
  simp only [select]
  cases old with
  | none =>
    by_cases h1 : s.servo.st = .unset
    · cases sampled <;> simp [h1, servoFollows]
    · simp [h1, servoFollows]
      split <;> simp [servoFollows]
  | some x =>
    simp [servoSwitches]
    split <;> simp [servoSwitches]

/-- Re-evaluations leave the invariant, but for an entry that waits for its own beacon's sample in UNSET. -/
structure Waiting (own : Option Nat) (s : State) : Prop where
  unset : s.servo.st = .unset
  ok : SourcesOk (s.setServo { s.servo with st := .acquiring })
  own : ∃ j, own = some j ∧ s.isSelected j = true

theorem select_ok (old : Option (Nat × SourceEntry)) (j : Nat) (b : SourceEntry) (reason : Reason) (own : Option Nat) (s : State) (h : Pre old s)
    (hb : s.source j = some b) (hsel : selectable s b = true) :
    SourcesOk (select old (j, b) reason (own = some j) s) ∨ Waiting own (select old (j, b) reason (own = some j) s) := by
  have hsrc := select_sources old (j, b) reason (own = some j) s
  have hst := select_st old (j, b) reason (own = some j) s
  generalize select old (j, b) reason (own = some j) s = t at *
  by_cases hc : old = none ∧ s.servo.st = .unset ∧ decide (own = some j) = true
  · rw [if_pos hc] at hst
    right
    refine ⟨hst, ?_, j, by simpa using hc.2.2, ?_⟩
    · exact sourcesOk_selected h hb (selectable_cls hsel) hsrc (.inl rfl)
    · obtain ⟨rfl, _⟩ := hc
      simp only [State.isSelected, source_of hsrc, source_setSourceState]
      simp [oldGone, hb]
  · rw [if_neg hc] at hst
    left
    exact sourcesOk_selected h hb (selectable_cls hsel) hsrc (.inl hst)

theorem endSelection_ok (i : Nat) (e : SourceEntry) (reason : Reason) (s : State) (h : Pre (some (i, e)) s) :
    SourcesOk (endSelection (i, e) reason s) := by
  have hf : Follows s := h.follow.mp rfl
  have hsrc : (endSelection (i, e) reason s).sources = (unselect i s).sources := by
    simp only [endSelection]; (repeat' split) <;> simp
  have hst : (endSelection (i, e) reason s).servo.st = .holdover := by
    simp only [endSelection]
    simp only [Follows] at hf
    rw [if_pos hf]
    simp [servoHolds]
  generalize endSelection (i, e) reason s = t at *
  have hk : ∀ k, t.source k = if s.isSelected i ∧ i = k then (s.source k).map (fun e => { e with st := .candidate }) else s.source k := by
    intro k
    rw [source_of hsrc]
    simp only [unselect]
    by_cases hi : s.isSelected i = true
    · simp only [hi, if_true, source_setSourceState, true_and]
    · simp [hi]
  have hsome : ∀ k e, t.source k = some e → ∃ e0, s.source k = some e0 ∧ e.sender = e0.sender ∧ e.port = e0.port := by
    intro k e he
    rw [hk] at he
    split at he
    · obtain ⟨e0, h0, rfl⟩ := Option.map_eq_some_iff.mp he; exact ⟨e0, h0, rfl, rfl⟩
    · exact ⟨e, he, rfl, rfl⟩
  have hsel : ∀ k e, t.source k = some e → e.st ≠ .selected := by
    intro k e he hs
    rw [hk] at he
    split at he
    · obtain ⟨e0, h0, rfl⟩ := Option.map_eq_some_iff.mp he
      cases hs
    · rename_i hn
      obtain ⟨x, hx⟩ := h.here k e he hs
      injection hx with hx
      injection hx with hx1 _
      exact hn ⟨by rw [hx1]; simp [State.isSelected, he, hs], hx1⟩
  refine ⟨?_, ?_, ?_, ?_, ?_⟩
  · intro i k e e' he _ hs _
    exact absurd hs (hsel i e he)
  · intro i e he hs
    exact absurd hs (hsel i e he)
  · intro i k e e' he he' h1 h2
    obtain ⟨a, ha, ha1, ha2⟩ := hsome i e he
    obtain ⟨c, hc', hc1, hc2⟩ := hsome k e' he'
    exact h.key i k a c ha hc' (by rw [← ha1, ← hc1]; exact h1) (by rw [← ha2, ← hc2]; exact h2)
  · intro i e he
    obtain ⟨a, ha, _, ha2⟩ := hsome i e he
    rw [ha2]; exact h.port i a ha
  · constructor
    · intro ⟨k, e, he, hs⟩; exact absurd hs (hsel k e he)
    · rw [hst]; rintro (h | h) <;> cases h

theorem reevaluate_ok (old : Option (Nat × SourceEntry)) (why : Reason) (own : Option Nat) (s : State) (h : Pre old s) :
    SourcesOk (reevaluate old why own s) ∨ Waiting own (reevaluate old why own s) := by
  rcases old with _ | ⟨i, e⟩
  · simp only [reevaluate]
    split
    · rename_i j b hb
      obtain ⟨h1, h2⟩ := bestSource_some hb
      exact select_ok _ _ _ _ _ _ h h1 h2
    · left
      refine ⟨?_, ?_, h.key, h.port, ?_⟩
      · intro i j e e' he _ hs; obtain ⟨x, hx⟩ := h.here i e he hs; cases hx
      · intro i e he hs; obtain ⟨x, hx⟩ := h.here i e he hs; cases hx
      · constructor
        · intro ⟨i, e, he, hs⟩; obtain ⟨x, hx⟩ := h.here i e he hs; cases hx
        · intro hf; have := h.follow.mpr hf; cases this
  · simp only [reevaluate]
    split
    · rename_i now hnow
      split
      · rename_i hk
        have stay : SourcesOk s := by
          have one : ∀ k e, s.source k = some e → e.st = .selected → i = k := by
            intro k e he hs
            obtain ⟨x, hx⟩ := h.here k e he hs
            injection hx with hx; injection hx
          refine ⟨?_, ?_, h.key, h.port, ?_⟩
          · intro a b e e' he he' hs hs'; rw [← one a e he hs, ← one b e' he' hs']
          · intro a e he hs
            have := one a e he hs
            subst this
            rw [hnow] at he
            injection he with he
            subst he
            exact selectable_cls hk.2
          · constructor
            · intro _; exact h.follow.mp rfl
            · intro _; exact ⟨i, now, hnow, hk.1⟩
        split
        · rename_i j b hb
          obtain ⟨h1, h2⟩ := bestSource_some hb
          split
          · exact select_ok _ _ _ _ _ _ h h1 h2
          · exact .inl stay
        · exact .inl stay
      · split
        · rename_i j b hb
          obtain ⟨h1, h2⟩ := bestSource_some hb
          exact select_ok _ _ _ _ _ _ h h1 h2
        · exact .inl (endSelection_ok _ _ _ _ h)
    · split
      · rename_i j b hb
        obtain ⟨h1, h2⟩ := bestSource_some hb
        exact select_ok _ _ _ _ _ _ h h1 h2
      · exact .inl (endSelection_ok _ _ _ _ h)

theorem reevaluate_ok' (old : Option (Nat × SourceEntry)) (why : Reason) (s : State) (h : Pre old s) :
    SourcesOk (reevaluate old why none s) := by
  rcases reevaluate_ok old why none s h with h | h
  · exact h
  · obtain ⟨j, hj, _⟩ := h.own; cases hj

theorem src_reevaluateOnHold (b : Bool) (s : State) (h : SourcesOk s) : SourcesOk (reevaluateOnHold b s) := by
  simp only [reevaluateOnHold]
  split
  · exact h
  · exact reevaluate_ok' _ _ _ h.pre

theorem src_setCfg (s : State) (v : Settings) (h : SourcesOk s) : SourcesOk (s.setCfg v) := h.of rfl rfl

theorem src_setEchos (s : State) (v : Pair Echo) (h : SourcesOk s) : SourcesOk (s.setEchos v) := h.of rfl rfl

theorem src_setLanes (s : State) (v : Pair LaneUnit) (h : SourcesOk s) : SourcesOk (s.setLanes v) := h.of rfl rfl

theorem src_setPorts (s : State) (v : Quad PortUnit) (h : SourcesOk s) : SourcesOk (s.setPorts v) := h.of rfl rfl

theorem src_setMatchTab (s : State) (v : MatchTable) (h : SourcesOk s) : SourcesOk (s.setMatchTab v) := h.of rfl rfl

theorem src_setLog (s : State) (v : EventLog) (h : SourcesOk s) : SourcesOk (s.setLog v) := h.of rfl rfl

theorem src_setFrozen (s : State) (v : Option Frozen) (h : SourcesOk s) : SourcesOk (s.setFrozen v) := h.of rfl rfl

theorem src_setDrift (s : State) (v : DriftMonitor) (h : SourcesOk s) : SourcesOk (s.setDrift v) := h.of rfl rfl

theorem src_setFaults (s : State) (v : FaultUnit) (h : SourcesOk s) : SourcesOk (s.setFaults v) := h.of rfl rfl

theorem src_setAgent (s : State) (v : Agent) (h : SourcesOk s) : SourcesOk (s.setAgent v) := h.of rfl rfl

theorem src_setClock (s : State) (v : Clock) (h : SourcesOk s) : SourcesOk (s.setClock v) := h.of rfl rfl

theorem src_setRun (s : State) (v : RunState) (h : SourcesOk s) : SourcesOk (s.setRun v) := h.of rfl rfl

theorem src_setPort (s : State) (p : Port) (v : PortUnit) (h : SourcesOk s) :
    SourcesOk (s.setPort p v) := h.of rfl rfl

theorem src_setPeer (s : State) (i : Nat) (v : PeerDyn) (h : SourcesOk s) : SourcesOk (s.setPeer i v) := h.of rfl rfl

theorem src_setForm (s : State) (i : AlertForm) (v : FormState) (h : SourcesOk s) :
    SourcesOk (s.setForm i v) := h.of rfl rfl

theorem src_setFault (s : State) (i : FaultKind) (v : FaultRec) (h : SourcesOk s) :
    SourcesOk (s.setFault i v) := h.of rfl rfl

theorem src_setEcho (s : State) (p : Port) (v : Echo) (h : SourcesOk s) : SourcesOk (s.setEcho p v) := h.of rfl rfl

theorem src_setLane (s : State) (p : Lane) (v : LaneUnit) (h : SourcesOk s) :
    SourcesOk (s.setLane p v) := h.of rfl rfl

theorem src_count (s : State) (p : Port) (v : Stats → Stats) (h : SourcesOk s) :
    SourcesOk (s.count p v) := h.of rfl rfl

theorem src_setServo (s : State) (v : Servo) (hv : v.st = s.servo.st) (h : SourcesOk s) :
    SourcesOk (s.setServo v) := h.of rfl hv

theorem src_clearCounts_st (v : Servo) : v.clearCounts.st = v.st := rfl

theorem src_foldl {α : Type} (f : State → α → State) (hf : ∀ t a, SourcesOk t → SourcesOk (f t a)) (s : State)
    (l : List α) (h : SourcesOk s) : SourcesOk (l.foldl f s) := by
  induction l generalizing s with
  | nil => exact h
  | cons a rest ih => exact ih _ (hf _ _ h)
/-- A change of Servo state between following states, or between others. -/
theorem src_setServoState (st : ServoState) (s : State) (h : SourcesOk s) (hf : (st = .acquiring ∨ st = .locked) ↔ Follows s) :
    SourcesOk (setServoState st s) := by
  have hs : (setServoState st s).sources = s.sources := by simp
  refine ⟨?_, ?_, ?_, ?_, ?_⟩
  · intro i j e e'; rw [source_of hs, source_of hs]; exact h.unique i j e e'
  · intro i e; rw [source_of hs]; exact h.cls i e
  · intro i j e e'; rw [source_of hs, source_of hs]; exact h.key i j e e'
  · intro i e; rw [source_of hs]; exact h.port i e
  · simp only [source_of hs, setServoState_st]; rw [h.follow]; exact hf.symm
/-- One index of the table replaced by an entry that is not SELECTED, or by the same key with the same state. -/
theorem Pre.replace {s : State} (h : SourcesOk s) (i : Nat) (v : Option SourceEntry)
    (hk : ∀ e, v = some e → e.port.isUplink = true ∧ ∀ j e', s.source j = some e' → e.sender = e'.sender → e.port = e'.port → i = j)
    (hs : ∀ e, v = some e → e.st = .selected → ∃ e0, s.source i = some e0 ∧ e0.st = .selected) :
    Pre s.selectedPair (s.setSource i v) := by
  have hp := h.pre
  have hget : ∀ j e, (s.setSource i v).source j = some e → (i = j ∧ v = some e) ∨ (s.source j = some e ∧ ¬ (i = j ∧ j < 8)) := by
    intro j e he
    rw [source_setSource] at he
    split at he
    · exact .inl ⟨(‹_ ∧ _› : i = j ∧ j < 8).1, he⟩
    · exact .inr ⟨he, ‹_›⟩
  refine ⟨?_, ?_, ?_, ?_⟩
  · intro j e he hsel
    rcases hget j e he with ⟨rfl, h2⟩ | ⟨h2, _⟩
    · obtain ⟨e0, h0, h0s⟩ := hs e h2 hsel
      exact hp.here _ _ h0 h0s
    · exact hp.here _ _ h2 hsel
  · intro j k e e' he he' h1 h2
    rcases hget j e he with ⟨rfl, h3⟩ | ⟨h3, _⟩
    · rcases hget k e' he' with ⟨rfl, _⟩ | ⟨h4, _⟩
      · rfl
      · exact (hk e h3).2 k e' h4 h1 h2
    · rcases hget k e' he' with ⟨rfl, h4⟩ | ⟨h4, _⟩
      · exact ((hk e' h4).2 j e h3 h1.symm h2.symm).symm
      · exact h.key j k e e' h3 h4 h1 h2
  · intro j e he
    rcases hget j e he with ⟨rfl, h3⟩ | ⟨h3, _⟩
    · exact (hk e h3).1
    · exact h.port j e h3
  · exact hp.follow
/-- The entry at an index with another state or figures, its key kept. -/
theorem Pre.update {s : State} (h : SourcesOk s) (i : Nat) (e : SourceEntry) (he : s.source i = some e) (f : SourceEntry)
    (h1 : f.sender = e.sender) (h2 : f.port = e.port) (h3 : f.st = .selected → e.st = .selected) :
    Pre s.selectedPair (s.setSource i (some f)) := by
  apply Pre.replace h
  · intro g hg
    injection hg with hg
    subst hg
    refine ⟨by rw [h2]; exact h.port i e he, ?_⟩
    intro j e' he' h4 h5
    exact h.key i j e e' he he' (by rw [← h1]; exact h4) (by rw [← h2]; exact h5)
  · intro g hg hs
    injection hg with hg
    subst hg
    exact ⟨e, he, h3 hs⟩
/-- A table changed at one index where neither the old nor the new entry is SELECTED. -/
theorem SourcesOk.quiet {s : State} (h : SourcesOk s) (i : Nat) (v : Option SourceEntry) (hp : Pre s.selectedPair (s.setSource i v))
    (h0 : ∀ e, s.source i = some e → e.st ≠ .selected) (h1 : ∀ e, v = some e → e.st ≠ .selected) : SourcesOk (s.setSource i v) := by
  have hget : ∀ j e, (s.setSource i v).source j = some e → e.st = .selected → s.source j = some e := by
    intro j e he hs
    rw [source_setSource] at he
    split at he
    · exact absurd hs (h1 e he)
    · exact he
  refine ⟨?_, ?_, hp.key, hp.port, ?_⟩
  · intro j k e e' he he' hs hs'; exact h.unique j k e e' (hget _ _ he hs) (hget _ _ he' hs') hs hs'
  · intro j e he hs; exact h.cls j e (hget _ _ he hs) hs
  · constructor
    · intro ⟨j, e, he, hs⟩; exact h.follow.mp ⟨j, e, hget _ _ he hs, hs⟩
    · intro hf
      obtain ⟨j, e, he, hs⟩ := h.follow.mpr hf
      refine ⟨j, e, ?_, hs⟩
      rw [source_setSource]
      split
      · rename_i hij
        obtain ⟨rfl, _⟩ := hij
        exact absurd hs (h0 e he)
      · exact he
/-- A removal of an entry that is not SELECTED. -/
theorem src_remove (s : State) (i : Nat) (h : SourcesOk s) (h0 : ∀ e, s.source i = some e → e.st ≠ .selected) :
    SourcesOk (s.setSource i none) :=
  h.quiet i none (Pre.replace h i none (by simp) (by simp)) h0 (by simp)
/-- No entries, and a Servo that follows none. -/
theorem src_empty (s : State) (hs : ∀ i, s.source i = none) (hf : ¬ Follows s) : SourcesOk s := by
  refine ⟨?_, ?_, ?_, ?_, ?_⟩
  · intro i j e e' he; rw [hs] at he; cases he
  · intro i e he; rw [hs] at he; cases he
  · intro i j e e' he; rw [hs] at he; cases he
  · intro i e he; rw [hs] at he; cases he
  · constructor
    · intro ⟨i, e, he, _⟩; rw [hs] at he; cases he
    · intro h; exact absurd h hf

theorem src_watchSecond (s : State) (h : SourcesOk s) : SourcesOk (watchSecond s) :=
  h.of2 (sources_watchSecond _) (servo_watchSecond _)

theorem src_judgePulse (d : Option Nat) (s : State) (h : SourcesOk s) : SourcesOk (judgePulse d s) :=
  h.of2 (sources_judgePulse _ _) (servo_judgePulse _ _)

theorem src_admitFrame (p : Port) (need : Nat) (f : FwdFrame) (s : State) (h : SourcesOk s) :
    SourcesOk (admitFrame p need f s).1 :=
  h.of2 (sources_admitFrame _ _ _ _) (servo_admitFrame _ _ _ _)

theorem src_offerTiming (p : Port) (tag : OrigTag) (header : Nat) (bytes : List Byte) (s : State) (h : SourcesOk s) :
    SourcesOk (offerTiming p tag header bytes s).1 :=
  h.of2 (sources_offerTiming _ _ _ _ _) (servo_offerTiming _ _ _ _ _)

theorem src_offerGeneral (p : Port) (tag : OrigTag) (header : Nat) (bytes : List Byte) (s : State) (h : SourcesOk s) :
    SourcesOk (offerGeneral p tag header bytes s).1 :=
  h.of2 (sources_offerGeneral _ _ _ _ _) (servo_offerGeneral _ _ _ _ _)

theorem src_askPassesEgress (p : Port) (id : Nat) (s : State) (h : SourcesOk s) :
    SourcesOk (askPassesEgress p id s) :=
  h.of2 (sources_askPassesEgress _ _ _) (servo_askPassesEgress _ _ _)

theorem src_reportPassesEgress (i : Nat) (rack ip : BitVec 32) (s : State) (h : SourcesOk s) :
    SourcesOk (reportPassesEgress i rack ip s) :=
  h.of2 (sources_reportPassesEgress _ _ _ _) (servo_reportPassesEgress _ _ _ _)

theorem src_recordEgress (p : Port) (tag : OrigTag) (s : State) (h : SourcesOk s) :
    SourcesOk (recordEgress p tag s) :=
  h.of2 (sources_recordEgress _ _ _) (servo_recordEgress _ _ _)

theorem src_grantQueued (p : Port) (o : TxFrom) (q : QFrame) (s : State) (h : SourcesOk s) :
    SourcesOk (grantQueued p o q s) :=
  h.of2 (sources_grantQueued _ _ _ _) (servo_grantQueued _ _ _ _)

theorem src_grantForwarded (p : Port) (f : FwdFrame) (s : State) (h : SourcesOk s) :
    SourcesOk (grantForwarded p f s) :=
  h.of2 (sources_grantForwarded _ _ _) (servo_grantForwarded _ _ _)

theorem src_arbitrate (p : Port) (s : State) (h : SourcesOk s) : SourcesOk (arbitrate p s) :=
  h.of2 (sources_arbitrate _ _) (servo_arbitrate _ _)

theorem src_finishTx (p : Port) (t : Tx) (s : State) (h : SourcesOk s) : SourcesOk (finishTx p t s) :=
  h.of2 (sources_finishTx _ _ _) (servo_finishTx _ _ _)

theorem src_suppressAlert (a : AlertForm) (s : State) (h : SourcesOk s) : SourcesOk (suppressAlert a s) :=
  h.of2 (sources_suppressAlert _ _) (servo_suppressAlert _ _)

theorem src_alertEvent (a : AlertForm) (clear : Bool) (subject : Subject) (d : AlertData) (s : State)
    (h : SourcesOk s) :
    SourcesOk (alertEvent a clear subject d s) :=
  h.of2 (sources_alertEvent _ _ _ _ _) (servo_alertEvent _ _ _ _ _)

theorem src_levelNotice (s : State) (h : SourcesOk s) : SourcesOk (levelNotice s) :=
  h.of2 (sources_levelNotice _) (servo_levelNotice _)

theorem src_offerBare (o : Offer) (s : State) (h : SourcesOk s) : SourcesOk (offerBare o s).1 :=
  h.of2 (sources_offerBare _ _) (servo_offerBare _ _)

theorem src_activate (k : FaultKind) (subject : Subject) (s : State) (h : SourcesOk s) :
    SourcesOk (activate k subject s) :=
  h.of2 (sources_activate _ _ _) (servo_activate _ _ _)

theorem src_countRaise (k : FaultKind) (s : State) (h : SourcesOk s) : SourcesOk (countRaise k s) :=
  h.of2 (sources_countRaise _ _) (servo_countRaise _ _)

theorem src_deactivate (k : FaultKind) (s : State) (h : SourcesOk s) : SourcesOk (deactivate k s) :=
  h.of2 (sources_deactivate _ _) (servo_deactivate _ _)

theorem src_faultAlert (k : FaultKind) (clear : Bool) (subject : Subject) (d : AlertData) (s : State)
    (h : SourcesOk s) :
    SourcesOk (faultAlert k clear subject d s) :=
  h.of2 (sources_faultAlert _ _ _ _ _) (servo_faultAlert _ _ _ _ _)

theorem src_raiseLogFull (s : State) (h : SourcesOk s) : SourcesOk (raiseLogFull s) :=
  h.of2 (sources_raiseLogFull _) (servo_raiseLogFull _)

theorem src_clearLogFull (s : State) (h : SourcesOk s) : SourcesOk (clearLogFull s) :=
  h.of2 (sources_clearLogFull _) (servo_clearLogFull _)

theorem src_offerRecord (o : Offer) (s : State) (h : SourcesOk s) : SourcesOk (offerRecord o s) :=
  h.of2 (sources_offerRecord _ _) (servo_offerRecord _ _)

theorem src_raiseLogFullAgain (s : State) (h : SourcesOk s) : SourcesOk (raiseLogFullAgain s) :=
  h.of2 (sources_raiseLogFullAgain _) (servo_raiseLogFullAgain _)

theorem src_raiseFault (k : FaultKind) (subject : Subject) (record : Bool) (d : AlertData) (s : State)
    (h : SourcesOk s) :
    SourcesOk (raiseFault k subject record d s) :=
  h.of2 (sources_raiseFault _ _ _ _ _) (servo_raiseFault _ _ _ _ _)

theorem src_clearFault (k : FaultKind) (subject : Subject) (record : Bool) (d : AlertData) (s : State)
    (h : SourcesOk s) :
    SourcesOk (clearFault k subject record d s) :=
  h.of2 (sources_clearFault _ _ _ _ _) (servo_clearFault _ _ _ _ _)

theorem src_handRate (r : Int) (s : State) (h : SourcesOk s) :
    SourcesOk (handRate r s) := by
  simp only [handRate]
  (repeat' split) <;> (repeat' first
      | with_reducible assumption | with_reducible apply src_setClock | with_reducible apply src_setServo
      | with_reducible exact src_clearCounts_st _ | with_reducible rfl
      | (refine SourcesOk.of2 ‹_› ?_ ?_ <;> (simp; done)) | simp)

theorem src_offerState (old : ServoState) (s : State) (h : SourcesOk s) : SourcesOk (offerState old s) :=
  h.of2 (sources_offerState _ _) (servo_offerState _ _)

theorem src_clearHoldoverExpired (s : State) (h : SourcesOk s) : SourcesOk (clearHoldoverExpired s) :=
  h.of2 (sources_clearHoldoverExpired _) (servo_clearHoldoverExpired _)

theorem src_offerStateIfChanged (before : ServoState) (s : State) (h : SourcesOk s) :
    SourcesOk (offerStateIfChanged before s) :=
  h.of2 (sources_offerStateIfChanged _ _) (servo_offerStateIfChanged _ _)

theorem src_servoFieldsOnly (s : State) (v : Servo) (hv : v.st = s.servo.st) (h : SourcesOk s) :
    SourcesOk (s.setServo v) := h.of rfl hv

theorem src_raiseWithHold (k : FaultKind) (subject : Subject) (record : Bool) (d : AlertData) (s : State) (h : SourcesOk s) :
    SourcesOk (raiseWithHold k subject record d s) := by
  simp only [raiseWithHold]
  (repeat' split) <;> (repeat' first
      | with_reducible assumption | with_reducible apply src_raiseFault
      | with_reducible apply src_reevaluateOnHold | with_reducible exact src_clearCounts_st _ | with_reducible rfl
      | (refine SourcesOk.of2 ‹_› ?_ ?_ <;> (simp; done)) | simp)

theorem src_clearWithHold (k : FaultKind) (subject : Subject) (record : Bool) (d : AlertData) (s : State) (h : SourcesOk s) :
    SourcesOk (clearWithHold k subject record d s) := by
  simp only [clearWithHold]
  (repeat' split) <;> (repeat' first
      | with_reducible assumption | with_reducible apply src_clearFault
      | with_reducible apply src_reevaluateOnHold | with_reducible exact src_clearCounts_st _ | with_reducible rfl
      | (refine SourcesOk.of2 ‹_› ?_ ?_ <;> (simp; done)) | simp)

theorem src_secondPulse (s : State) (h : SourcesOk s) : SourcesOk (secondPulse s) :=
  h.of2 (sources_secondPulse _) (servo_secondPulse _)

theorem src_performSwap (s : State) (h : SourcesOk s) : SourcesOk (performSwap s) :=
  h.of2 (sources_performSwap _) (servo_performSwap _)

theorem src_armedSwap (s : State) (h : SourcesOk s) : SourcesOk (armedSwap s) :=
  h.of2 (sources_armedSwap _) (servo_armedSwap _)

theorem src_secondBoundary (s : State) (h : SourcesOk s) : SourcesOk (secondBoundary s) :=
  h.of2 (sources_secondBoundary _) (servo_secondBoundary _)

theorem src_stepTo (moved : Date × Bool) (s : State) (h : SourcesOk s) : SourcesOk (stepTo moved s) :=
  h.of2 (sources_stepTo _ _) (servo_stepTo _ _)

theorem src_forwardStep (amount : Nat) (s : State) (h : SourcesOk s) : SourcesOk (forwardStep amount s) :=
  h.of2 (sources_forwardStep _ _) (servo_forwardStep _ _)

theorem src_load (d : Date) (s : State) (h : SourcesOk s) : SourcesOk (load d s) :=
  h.of2 (sources_load _ _) (servo_load _ _)

theorem source_map (s : State) (f : SourceEntry → SourceEntry) (i : Nat) :
    (s.setSources (s.sources.map (fun e => e.map f))).source i = (s.source i).map f := by
  simp only [State.source, State.setSources_sources, Vector.getElem?_map]
  cases s.sources[i]? with
  | none => rfl
  | some o => cases o <;> rfl

theorem src_uptimeSecond (s : State) (h : SourcesOk s) : SourcesOk (uptimeSecond s) := by
  have h0 : SourcesOk (s.setSources (s.sources.map (fun e => e.map countBar))) := by
    have hc : ∀ e : SourceEntry, (countBar e).st = e.st ∧ (countBar e).cls = e.cls ∧ (countBar e).sender = e.sender ∧ (countBar e).port = e.port := by
      intro e; simp only [countBar]; split <;> simp
    have hg : ∀ i e, (s.setSources (s.sources.map (fun e => e.map countBar))).source i = some e → ∃ e0, s.source i = some e0 ∧ e = countBar e0 := by
      intro i e he
      rw [source_map] at he
      obtain ⟨e0, h0, h1⟩ := Option.map_eq_some_iff.mp he
      exact ⟨e0, h0, h1.symm⟩
    refine ⟨?_, ?_, ?_, ?_, ?_⟩
    · intro i j e e' he he' hs hs'
      obtain ⟨a, ha, rfl⟩ := hg i e he
      obtain ⟨b, hb, rfl⟩ := hg j e' he'
      rw [(hc a).1] at hs; rw [(hc b).1] at hs'
      exact h.unique i j a b ha hb hs hs'
    · intro i e he hs
      obtain ⟨a, ha, rfl⟩ := hg i e he
      rw [(hc a).1] at hs; rw [(hc a).2.1]
      exact h.cls i a ha hs
    · intro i j e e' he he' h1 h2
      obtain ⟨a, ha, rfl⟩ := hg i e he
      obtain ⟨b, hb, rfl⟩ := hg j e' he'
      rw [(hc a).2.2.1, (hc b).2.2.1] at h1; rw [(hc a).2.2.2, (hc b).2.2.2] at h2
      exact h.key i j a b ha hb h1 h2
    · intro i e he
      obtain ⟨a, ha, rfl⟩ := hg i e he
      rw [(hc a).2.2.2]; exact h.port i a ha
    · rw [show (s.setSources (s.sources.map (fun e => e.map countBar))).servo = s.servo from rfl, ← h.follow]
      constructor
      · intro ⟨i, e, he, hs⟩
        obtain ⟨a, ha, rfl⟩ := hg i e he
        rw [(hc a).1] at hs
        exact ⟨i, a, ha, hs⟩
      · intro ⟨i, a, ha, hs⟩
        exact ⟨i, countBar a, by rw [source_map, ha]; rfl, by rw [(hc a).1]; exact hs⟩
  simp only [uptimeSecond]
  split
  · exact src_setServo _ _ rfl h0
  · exact h0

theorem src_rememberStamp (d : SN) (s : State) (h : SourcesOk s) : SourcesOk (rememberStamp d s) :=
  h.of2 (sources_rememberStamp _ _) (servo_rememberStamp _ _)

theorem src_leaveLocked (s : State) (h : SourcesOk s) : SourcesOk (leaveLocked s) := by
  simp only [leaveLocked]
  split
  · rename_i hl
    exact src_offerState _ _ (src_setServoState _ _ (src_setServo _ _ rfl h) (by simp [Follows, hl]))
  · exact h

theorem src_afterStep (amount : Nat) (s : State) (h : SourcesOk s) :
    SourcesOk (afterStep amount s) := by
  simp only [afterStep]
  (repeat' split) <;> (repeat' first
      | with_reducible assumption | with_reducible apply src_offerRecord | with_reducible apply src_leaveLocked
      | with_reducible apply src_setServo | with_reducible exact src_clearCounts_st _ | with_reducible rfl
      | (refine SourcesOk.of2 ‹_› ?_ ?_ <;> (simp; done)) | simp)

theorem src_servoStep (amount : Nat) (s : State) (h : SourcesOk s) :
    SourcesOk (servoStep amount s) := by
  simp only [servoStep]
  (repeat' split) <;> (repeat' first
      | with_reducible assumption | with_reducible apply src_forwardStep | with_reducible apply src_afterStep
      | with_reducible exact src_clearCounts_st _ | with_reducible rfl
      | (refine SourcesOk.of2 ‹_› ?_ ?_ <;> (simp; done)) | simp)

theorem src_startCatchDown (s : State) (h : SourcesOk s) :
    SourcesOk (startCatchDown s) := by
  simp only [startCatchDown]
  (repeat' split) <;> (repeat' first
      | with_reducible assumption | with_reducible apply src_handRate | with_reducible apply src_leaveLocked
      | with_reducible apply src_setServo | with_reducible exact src_clearCounts_st _ | with_reducible rfl
      | (refine SourcesOk.of2 ‹_› ?_ ?_ <;> (simp; done)) | simp)

theorem src_filterUpdate (theta k : Int) (s : State) (h : SourcesOk s) :
    SourcesOk (filterUpdate theta k s) := by
  simp only [filterUpdate]
  (repeat' split) <;> (repeat' first
      | with_reducible assumption | with_reducible apply src_handRate | with_reducible apply src_raiseWithHold
      | with_reducible apply src_setServo | with_reducible exact src_clearCounts_st _ | with_reducible rfl
      | (refine SourcesOk.of2 ‹_› ?_ ?_ <;> (simp; done)) | simp)

theorem src_lockCounting (theta : Int) (s : State) (h : SourcesOk s) : SourcesOk (lockCounting theta s) := by
  simp only [lockCounting]
  split
  · rename_i hl
    generalize (if decide (theta.natAbs ≤ s.cfg.servo.lockWindow) = true then satAdd 32 s.servo.lockCtr 1 else 0) = n
    split
    · refine src_offerState _ _ (src_setServoState _ (State.setServo _ _) (src_setServo _ _ rfl (src_setServo _ _ rfl h)) ?_)
      simp [Follows, hl]
    · exact src_setServo _ _ rfl h
  · generalize (if decide (theta.natAbs ≤ s.cfg.servo.lockWindow) = true then 0 else satAdd 32 s.servo.unlockCtr 1) = n
    split
    · exact src_leaveLocked _ (src_setServo _ _ rfl h)
    · exact src_setServo _ _ rfl h
  all_goals exact h

theorem src_filterAndLock (x : ServoSample) (s : State) (h : SourcesOk s) :
    SourcesOk (filterAndLock x s) := by
  simp only [filterAndLock]
  (repeat' split) <;> (repeat' first
      | with_reducible assumption | with_reducible apply src_filterUpdate | with_reducible apply src_lockCounting
      | with_reducible exact src_clearCounts_st _ | with_reducible rfl
      | (refine SourcesOk.of2 ‹_› ?_ ?_ <;> (simp; done)) | simp)

theorem src_sampleInCatchDown (x : ServoSample) (s : State) (h : SourcesOk s) :
    SourcesOk (sampleInCatchDown x s) := by
  simp only [sampleInCatchDown]
  (repeat' split) <;> (repeat' first
      | with_reducible assumption | with_reducible apply src_handRate | with_reducible apply src_servoStep
      | with_reducible apply src_filterAndLock | with_reducible apply src_setServo
      | with_reducible exact src_clearCounts_st _ | with_reducible rfl
      | (refine SourcesOk.of2 ‹_› ?_ ?_ <;> (simp; done)) | simp)

theorem src_sampleOutside (x : ServoSample) (s : State) (h : SourcesOk s) :
    SourcesOk (sampleOutside x s) := by
  simp only [sampleOutside]
  (repeat' split) <;> (repeat' first
      | with_reducible assumption | with_reducible apply src_servoStep | with_reducible apply src_startCatchDown
      | with_reducible apply src_filterAndLock | with_reducible exact src_clearCounts_st _ | with_reducible rfl
      | (refine SourcesOk.of2 ‹_› ?_ ?_ <;> (simp; done)) | simp)

theorem src_sampleInFollow (x : ServoSample) (s : State) (h : SourcesOk s) : SourcesOk (sampleInFollow x s) := by
  simp only [sampleInFollow]
  split
  · exact src_sampleInCatchDown _ _ (src_setServo _ _ rfl h)
  · exact src_sampleOutside _ _ (src_setServo _ _ rfl h)

theorem src_sampleInUnset (x : ServoSample) (s : State) (h : SourcesOk (s.setServo { s.servo with st := .acquiring })) : SourcesOk (sampleInUnset x s) := by
  have hs : (sampleInUnset x s).sources = s.sources := by simp
  have hv : (sampleInUnset x s).servo.st = .acquiring := by simp [sampleInUnset]
  exact h.of (by rw [hs]; rfl) (by rw [hv]; rfl)

theorem src_takeSample (x : ServoSample) (s : State) (h : SourcesOk s) (hu : s.servo.st ≠ .unset) :
    SourcesOk (takeSample x s) := by
  simp only [takeSample]
  split
  · exact absurd ‹_› hu
  · exact src_sampleInFollow _ _ h
  · exact src_sampleInFollow _ _ h
  · exact h
  · exact h

theorem src_expireHoldover (s : State) (h : SourcesOk s) :
    SourcesOk (expireHoldover s) := by
  simp only [expireHoldover]
  (repeat' split) <;> (repeat' first
      | with_reducible assumption | with_reducible apply src_watchSecond | with_reducible apply src_offerState
      | with_reducible apply src_raiseWithHold | with_reducible apply src_setServo
      | with_reducible exact src_clearCounts_st _ | with_reducible rfl
      | (refine SourcesOk.of2 ‹_› ?_ ?_ <;> (simp; done)) | simp)

theorem src_unexpireHoldover (s : State) (h : SourcesOk s) :
    SourcesOk (unexpireHoldover s) := by
  simp only [unexpireHoldover]
  (repeat' split) <;> (repeat' first
      | with_reducible assumption | with_reducible apply src_offerState | with_reducible apply src_clearWithHold
      | with_reducible apply src_setServo | with_reducible exact src_clearCounts_st _ | with_reducible rfl
      | (refine SourcesOk.of2 ‹_› ?_ ?_ <;> (simp; done)) | simp)

theorem src_judgeHoldover (s : State) (h : SourcesOk s) :
    SourcesOk (judgeHoldover s) := by
  simp only [judgeHoldover]
  (repeat' split) <;> (repeat' first
      | with_reducible assumption | with_reducible apply src_expireHoldover
      | with_reducible apply src_unexpireHoldover | with_reducible exact src_clearCounts_st _ | with_reducible rfl
      | (refine SourcesOk.of2 ‹_› ?_ ?_ <;> (simp; done)) | simp)

theorem src_clampF (s : State) (h : SourcesOk s) :
    SourcesOk (clampF s) := by
  simp only [clampF]
  (repeat' split) <;> (repeat' first
      | with_reducible assumption | with_reducible apply src_handRate | with_reducible apply src_setServo
      | with_reducible exact src_clearCounts_st _ | with_reducible rfl
      | (refine SourcesOk.of2 ‹_› ?_ ?_ <;> (simp; done)) | simp)

theorem src_applyServo (p : ServoParams) (width limit : Nat) (s : State) (h : SourcesOk s) :
    SourcesOk (applyServo p width limit s) := by
  simp only [applyServo]
  (repeat' split) <;> (repeat' first
      | with_reducible assumption | with_reducible apply src_judgePulse | with_reducible apply src_handRate
      | with_reducible apply src_judgeHoldover | with_reducible apply src_clampF | with_reducible apply src_setCfg
      | with_reducible exact src_clearCounts_st _ | with_reducible rfl
      | (refine SourcesOk.of2 ‹_› ?_ ?_ <;> (simp; done)) | simp)

theorem src_setDateTo (d : SN) (s : State) (h : SourcesOk s) : SourcesOk (setDateTo d s).1 := by
  simp only [setDateTo]
  split
  · rename_i hu
    refine src_offerState _ _ (src_setServoState _ _ (src_load _ _ h) ?_)
    simp [Follows, hu]
  · split
    · exact h
    · split
      · exact h
      · exact src_offerRecord _ _ (src_forwardStep _ _ h)
  all_goals exact h

theorem src_setTrimTo (f : Int) (s : State) (h : SourcesOk s) :
    SourcesOk (setTrimTo f s).1 := by
  simp only [setTrimTo]
  (repeat' split) <;> (repeat' first
      | with_reducible assumption | with_reducible apply src_handRate | with_reducible apply src_setCfg
      | with_reducible apply src_setServo | with_reducible exact src_clearCounts_st _ | with_reducible rfl
      | (refine SourcesOk.of2 ‹_› ?_ ?_ <;> (simp; done)) | simp)

theorem src_loadTrim (s : State) (h : SourcesOk s) :
    SourcesOk (loadTrim s) := by
  simp only [loadTrim]
  (repeat' split) <;> (repeat' first
      | with_reducible assumption | with_reducible apply src_handRate | with_reducible apply src_setCfg
      | with_reducible apply src_setServo | with_reducible exact src_clearCounts_st _ | with_reducible rfl
      | (refine SourcesOk.of2 ‹_› ?_ ?_ <;> (simp; done)) | simp)

theorem src_forwardWhole (w : Whole) (edit : Edit) (s : State) (h : SourcesOk s) :
    SourcesOk (forwardWhole w edit s) :=
  h.of2 (sources_forwardWhole _ _ _) (servo_forwardWhole _ _ _)

theorem src_takeInterval (p : Port) (s : State) (h : SourcesOk s) : SourcesOk (takeInterval p s) :=
  h.of2 (sources_takeInterval _ _) (servo_takeInterval _ _)

theorem src_restartInterval (p : Port) (s : State) (h : SourcesOk s) : SourcesOk (restartInterval p s) :=
  h.of2 (sources_restartInterval _ _) (servo_restartInterval _ _)

theorem src_startEcho (p : Port) (s : State) (h : SourcesOk s) : SourcesOk (startEcho p s) :=
  h.of2 (sources_startEcho _ _) (servo_startEcho _ _)

theorem src_takeDelay (p : Port) (x : Nat) (s : State) (h : SourcesOk s) : SourcesOk (takeDelay p x s) :=
  h.of2 (sources_takeDelay _ _ _) (servo_takeDelay _ _ _)

theorem src_endExchange (w : Whole) (s : State) (h : SourcesOk s) : SourcesOk (endExchange w s) :=
  h.of2 (sources_endExchange _ _) (servo_endExchange _ _)

theorem src_answerReceived (w : Whole) (s : State) (h : SourcesOk s) : SourcesOk (answerReceived w s) :=
  h.of2 (sources_answerReceived _ _) (servo_answerReceived _ _)

theorem src_echoTimesOut (p : Port) (s : State) (h : SourcesOk s) : SourcesOk (echoTimesOut p s) :=
  h.of2 (sources_echoTimesOut _ _) (servo_echoTimesOut _ _)

theorem src_echoLinkDown (p : Port) (s : State) (h : SourcesOk s) : SourcesOk (echoLinkDown p s) :=
  h.of2 (sources_echoLinkDown _ _) (servo_echoLinkDown _ _)

theorem src_echoLinkUp (p : Port) (s : State) (h : SourcesOk s) : SourcesOk (echoLinkUp p s) :=
  h.of2 (sources_echoLinkUp _ _) (servo_echoLinkUp _ _)

theorem src_echoRewritten (p : Port) (old : PortRec) (s : State) (h : SourcesOk s) :
    SourcesOk (echoRewritten p old s) :=
  h.of2 (sources_echoRewritten _ _ _) (servo_echoRewritten _ _ _)

theorem src_clearStale (p : Port) (s : State) (h : SourcesOk s) : SourcesOk (clearStale p s) :=
  h.of2 (sources_clearStale _ _) (servo_clearStale _ _)

theorem src_answerAsk (w : Whole) (s : State) (h : SourcesOk s) : SourcesOk (answerAsk w s) :=
  h.of2 (sources_answerAsk _ _) (servo_answerAsk _ _)

theorem src_handleAsk (w : Whole) (s : State) (h : SourcesOk s) : SourcesOk (handleAsk w s) :=
  h.of2 (sources_handleAsk _ _) (servo_handleAsk _ _)

theorem src_handleAnswer (w : Whole) (s : State) (h : SourcesOk s) : SourcesOk (handleAnswer w s) :=
  h.of2 (sources_handleAnswer _ _) (servo_handleAnswer _ _)

theorem src_afterBeacon (w : Whole) (i p : Nat) (a : Int) (old : Option (Nat × SourceEntry)) (s : State)
    (h : Pre old s) :
    SourcesOk (afterBeacon w i p a old s) := by
  simp only [afterBeacon]
  have hw : ∀ x, SourcesOk x → SourcesOk (watchSecond x) := fun x hx => src_watchSecond x hx
  have key : SourcesOk (watchSecond (reevaluate old .lost (some i) s)) ∨ Waiting (some i) (watchSecond (reevaluate old .lost (some i) s)) := by
    rcases reevaluate_ok old .lost (some i) s h with h | h
    · exact .inl (hw _ h)
    · right
      refine ⟨by simpa using h.unset, ?_, ?_⟩
      · exact h.ok.of (by simp) rfl
      · obtain ⟨j, h1, h2⟩ := h.own
        exact ⟨j, h1, by simpa [State.isSelected, source_of (sources_watchSecond _)] using h2⟩
  generalize watchSecond (reevaluate old .lost (some i) s) = x at *
  have flag : ∀ (y : State) (e : SourceEntry), y.source i = some e → SourcesOk y → SourcesOk (y.setSource i (some { e with epochChanged := false })) := by
    intro y e he hy
    have hp : Pre y.selectedPair (y.setSource i (some { e with epochChanged := false })) := Pre.update hy i e he _ rfl rfl (fun h => h)
    have hg : ∀ j e', (y.setSource i (some { e with epochChanged := false })).source j = some e' → ∃ e0, y.source j = some e0 ∧ e'.st = e0.st ∧ e'.cls = e0.cls := by
      intro j e' he'
      rw [source_setSource] at he'
      split at he'
      · rename_i hc; obtain ⟨rfl, _⟩ := hc; injection he' with he'; subst he'; exact ⟨e, he, rfl, rfl⟩
      · exact ⟨e', he', rfl, rfl⟩
    refine ⟨?_, ?_, hp.key, hp.port, ?_⟩
    · intro j k a b ha hb hs hs'
      obtain ⟨a0, h1, h2, _⟩ := hg j a ha
      obtain ⟨b0, h3, h4, _⟩ := hg k b hb
      exact hy.unique j k a0 b0 h1 h3 (by rw [← h2]; exact hs) (by rw [← h4]; exact hs')
    · intro j a ha hs
      obtain ⟨a0, h1, h2, h3⟩ := hg j a ha
      rw [h3]; exact hy.cls j a0 h1 (by rw [← h2]; exact hs)
    · rw [show (y.setSource i (some { e with epochChanged := false })).servo = y.servo from rfl, ← hy.follow]
      constructor
      · intro ⟨j, a, ha, hs⟩
        obtain ⟨a0, h1, h2, _⟩ := hg j a ha
        exact ⟨j, a0, h1, by rw [← h2]; exact hs⟩
      · intro ⟨j, a, ha, hs⟩
        by_cases hj : i = j
        · subst hj
          rw [he] at ha; injection ha with ha; subst ha
          exact ⟨i, { e with epochChanged := false }, by rw [source_setSource, if_pos ⟨rfl, source_lt he⟩], hs⟩
        · exact ⟨j, a, by rw [source_setSource, if_neg (fun h => hj h.1)]; exact ha, hs⟩
  split
  · rename_i hsel
    split
    · rename_i e he
      rcases key with h | h
      · apply src_takeSample _ _ (flag x e he h)
        intro hu
        have : Follows x := h.follow.mp ⟨i, e, he, by simpa [State.isSelected, he] using hsel⟩
        simp only [Follows, show x.servo.st = .unset from hu] at this
        rcases this with h | h <;> cases h
      · simp only [takeSample]
        have hu : (x.setSource i (some { e with epochChanged := false })).servo.st = .unset := h.unset
        rw [hu]
        exact src_sampleInUnset _ _ (flag (x.setServo { x.servo with st := .acquiring }) e he h.ok)
    · rename_i he
      simp [State.isSelected, he] at hsel
  · rename_i hsel
    rcases key with h | h
    · exact h
    · obtain ⟨j, h1, h2⟩ := h.own
      injection h1 with h1
      subst h1
      exact absurd h2 hsel

theorem findSource_some {s : State} {p : Port} {k : BitVec 64} {i : Nat} (h : findSource s p k = some i) :
    ∃ e, s.source i = some e ∧ e.sender = k ∧ e.port = p := by
  have := List.find?_some h
  split at this
  · exact ⟨_, ‹_›, by simpa using this⟩
  · cases this

theorem findSource_none {s : State} {p : Port} {k : BitVec 64} (h : findSource s p k = none) (i : Nat)
    (e : SourceEntry) (he : s.source i = some e) :
    ¬ (e.sender = k ∧ e.port = p) := by
  have := List.find?_eq_none.mp h i ((mem_sourceIndices i).mpr (source_lt he))
  simpa [he] using this

theorem freeSource_some {s : State} {i : Nat} (h : freeSource s = some i) : s.source i = none := by
  simpa using List.find?_some h

theorem replaceSource_some {s : State} {i : Nat} (h : replaceSource s = some i) :
    ∃ e, s.source i = some e ∧ e.st = .stale := by
  simp only [replaceSource] at h
  obtain ⟨⟨j, t⟩, hj, rfl⟩ := Option.map_eq_some_iff.mp h
  have key : ∀ (l : List Nat) (acc : Option (Nat × Nat)), (∀ j t, acc = some (j, t) → ∃ e, s.source j = some e ∧ e.st = .stale) →
      ∀ j t, l.foldl (longerStale s) acc = some (j, t) → ∃ e, s.source j = some e ∧ e.st = .stale := by
    intro l
    induction l with
    | nil => intro acc ha j t hb; exact ha j t hb
    | cons i rest ih =>
      intro acc ha j t hb
      refine ih _ ?_ j t hb
      intro j t hj
      simp only [longerStale] at hj
      split at hj
      · rename_i e he
        split at hj
        · split at hj
          · split at hj
            · injection hj with hj; injection hj with h1 h2; subst h1; exact ⟨e, he, ‹_›⟩
            · exact ha _ _ hj
          · injection hj with hj; injection hj with h1 h2; subst h1; exact ⟨e, he, ‹_›⟩
        · exact ha _ _ hj
      · exact ha _ _ hj
  exact key _ _ (by simp) j t hj

theorem src_beaconIntoTable (w : Whole) (s : State) (hp : w.port.isUplink = true) (h : SourcesOk s) :
    SourcesOk (beaconIntoTable w s) := by
  simp only [beaconIntoTable]
  split
  · exact src_count _ _ _ h
  · split
    · rename_i i hi
      obtain ⟨e, he, h1, h2⟩ := findSource_some hi
      simp only [he]
      apply src_afterBeacon
      refine Pre.update h i e he _ rfl rfl ?_
      simp only [updateEntry]
      split
      · intro hc; cases hc
      · exact fun h => h
    · rename_i hn
      split
      · rename_i i hi
        apply src_afterBeacon
        apply Pre.replace h
        · intro f hf
          injection hf with hf
          subst hf
          refine ⟨hp, ?_⟩
          intro j e' he' h1 h2
          exact absurd ⟨h1.symm, h2.symm⟩ (findSource_none hn j e' he')
        · intro f hf hs
          injection hf with hf
          subst hf
          cases hs
      · exact src_count _ _ _ h

theorem src_goStale (i : Nat) (s : State) (h : SourcesOk s) : SourcesOk (goStale i s) := by
  simp only [goStale, setSourceState]
  split
  · rename_i e he
    exact reevaluate_ok' _ _ _ (Pre.update h i e he _ rfl rfl (by intro hc; cases hc))
  · exact reevaluate_ok' _ _ _ h.pre

theorem src_endBar (i : Nat) (e : SourceEntry) (s : State) (h : SourcesOk s) (he : s.source i = some e) :
    SourcesOk (endBar i e s) := by
  simp only [endBar, afterBar]
  refine reevaluate_ok' _ _ _ ?_
  (repeat' split)
  · exact Pre.replace h i none (by simp) (by simp)
  · exact Pre.update h i e he _ rfl rfl (by intro hc; cases hc)
  · exact Pre.update h i e he _ rfl rfl (by intro hc; cases hc)

theorem src_setBar (i : Nat) (e : SourceEntry) (n : Nat) (s : State) (h : SourcesOk s) (he : s.source i = some e) :
    SourcesOk (setBar i e n s) := by
  simp only [setBar, afterBar]
  have hp : Pre s.selectedPair (s.setSource i (some { e with st := .barred, bar := n })) := Pre.update h i e he _ rfl rfl (by intro hc; cases hc)
  split
  · rename_i hb
    refine h.quiet i _ hp ?_ ?_
    · intro e' he'; rw [he] at he'; injection he' with he'; subst he'; rw [hb]; decide
    · intro e' he'; injection he' with he'; subst he'; simp
  · exact reevaluate_ok' _ _ _ hp

theorem src_barEntry (i : Nat) (e : SourceEntry) (n : Nat) (s : State) (h : SourcesOk s) (he : s.source i = some e) :
    SourcesOk (barEntry i e n s) := by
  simp only [barEntry]
  (repeat' split)
  · exact src_endBar _ _ _ h he
  · exact h
  · exact src_setBar _ _ _ _ h he

theorem src_barSelected (n : Nat) (s : State) (h : SourcesOk s) : SourcesOk (barSelected n s) := by
  simp only [barSelected]
  split
  · rename_i i e hp
    refine src_barEntry _ _ _ _ h ?_
    simp only [State.selectedPair] at hp
    cases hi : s.selectedIndex with
    | none => simp [hi] at hp
    | some j =>
      simp only [hi, Option.bind_some] at hp
      obtain ⟨e0, h0, h1⟩ := Option.map_eq_some_iff.mp hp
      injection h1 with h1 h2
      subst h1; subst h2
      exact h0
  · exact h

theorem src_barSource (i : Byte) (n : BitVec 16) (s : State) (h : SourcesOk s) : SourcesOk (barSource i n s).1 := by
  simp only [barSource]
  (repeat' split)
  · exact h
  · exact h
  · exact src_barEntry _ _ _ _ h ‹_›

theorem src_transitBeacon (w : Whole) (p : Nat) (s : State) (h : SourcesOk s) : SourcesOk (transitBeacon w p s) :=
  h.of2 (sources_transitBeacon _ _ _) (servo_transitBeacon _ _ _)

theorem src_beaconUnit (w : Whole) (p : Nat) (s : State) (h : SourcesOk s) : SourcesOk (beaconUnit w p s) :=
  h.of2 (sources_beaconUnit _ _ _) (servo_beaconUnit _ _ _)

theorem src_handleBeacon (w : Whole) (s : State) (h : SourcesOk s) : SourcesOk (handleBeacon w s) := by
  simp only [handleBeacon]
  apply src_beaconUnit
  split
  · exact src_beaconIntoTable _ _ ‹_› h
  · exact h

theorem src_recordEmission (l : Lane) (instant : SN) (e : Emission) (s : State) (h : SourcesOk s) :
    SourcesOk (recordEmission l instant e s) :=
  h.of2 (sources_recordEmission _ _ _ _) (servo_recordEmission _ _ _ _)

theorem src_originate (l : Lane) (instant : SN) (s : State) (h : SourcesOk s) : SourcesOk (originate l instant s) :=
  h.of2 (sources_originate _ _ _) (servo_originate _ _ _)

theorem src_laneInstant (l : Lane) (old new : Date) (s : State) (h : SourcesOk s) :
    SourcesOk (laneInstant l old new s) :=
  h.of2 (sources_laneInstant _ _ _ _) (servo_laneInstant _ _ _ _)

theorem src_startReports (s : State) (h : SourcesOk s) : SourcesOk (startReports s) :=
  h.of2 (sources_startReports _) (servo_startReports _)

theorem src_nextSlot (s : State) (h : SourcesOk s) : SourcesOk (nextSlot s) :=
  h.of2 (sources_nextSlot _) (servo_nextSlot _)

theorem src_reportNotSent (i : Nat) (s : State) (h : SourcesOk s) : SourcesOk (reportNotSent i s) :=
  h.of2 (sources_reportNotSent _ _) (servo_reportNotSent _ _)

theorem src_reportSent (i : Nat) (s : State) (h : SourcesOk s) : SourcesOk (reportSent i s) :=
  h.of2 (sources_reportSent _ _) (servo_reportSent _ _)

theorem src_sendReport (i : Nat) (s : State) (h : SourcesOk s) : SourcesOk (sendReport i s) :=
  h.of2 (sources_sendReport _ _) (servo_sendReport _ _)

theorem src_setSelfDrift (v : Verdict) (s : State) (h : SourcesOk s) :
    SourcesOk (setSelfDrift v s) := by
  simp only [setSelfDrift]
  (repeat' split) <;> (repeat' first
      | with_reducible assumption | with_reducible apply src_offerRecord | with_reducible apply src_raiseWithHold
      | with_reducible apply src_barSelected | with_reducible apply src_setDrift
      | with_reducible exact src_clearCounts_st _ | with_reducible rfl
      | (refine SourcesOk.of2 ‹_› ?_ ?_ <;> (simp; done)) | simp)

theorem src_clearSelfDrift (v : Verdict) (e : Episode) (s : State) (h : SourcesOk s) :
    SourcesOk (clearSelfDrift v e s) := by
  simp only [clearSelfDrift]
  (repeat' split) <;> (repeat' first
      | with_reducible assumption | with_reducible apply src_offerRecord | with_reducible apply src_clearWithHold
      | with_reducible apply src_setDrift | with_reducible exact src_clearCounts_st _ | with_reducible rfl
      | (refine SourcesOk.of2 ‹_› ?_ ?_ <;> (simp; done)) | simp)

theorem src_judgeSelf (s : State) (h : SourcesOk s) :
    SourcesOk (judgeSelf s) := by
  simp only [judgeSelf]
  (repeat' split) <;> (repeat' first
      | with_reducible assumption | with_reducible apply src_setSelfDrift
      | with_reducible apply src_clearSelfDrift | with_reducible apply src_setDrift
      | with_reducible exact src_clearCounts_st _ | with_reducible rfl
      | (refine SourcesOk.of2 ‹_› ?_ ?_ <;> (simp; done)) | simp)

theorem src_warnPeer (i : Nat) (vote : Vote) (s : State) (h : SourcesOk s) :
    SourcesOk (warnPeer i vote s) := by
  simp only [warnPeer]
  (repeat' split) <;> (repeat' first
      | with_reducible assumption | with_reducible apply src_offerRecord | with_reducible apply src_raiseWithHold
      | with_reducible apply src_setPeer | with_reducible exact src_clearCounts_st _ | with_reducible rfl
      | (refine SourcesOk.of2 ‹_› ?_ ?_ <;> (simp; done)) | simp)

theorem src_unwarnPeer (i : Nat) (vote : Vote) (s : State) (h : SourcesOk s) : SourcesOk (unwarnPeer i vote s) :=
  h.of2 (sources_unwarnPeer _ _ _) (servo_unwarnPeer _ _ _)

theorem src_judgePeer (s : State) (i : Nat) (h : SourcesOk s) :
    SourcesOk (judgePeer s i) := by
  simp only [judgePeer]
  (repeat' split) <;> (repeat' first
      | with_reducible assumption | with_reducible apply src_warnPeer | with_reducible apply src_unwarnPeer
      | with_reducible exact src_clearCounts_st _ | with_reducible rfl
      | (refine SourcesOk.of2 ‹_› ?_ ?_ <;> (simp; done)) | simp)

theorem src_judgeRack (s : State) (h : SourcesOk s) :
    SourcesOk (judgeRack s) := by
  simp only [judgeRack]
  (repeat' split) <;> (repeat' first
      | with_reducible assumption | (with_reducible apply src_foldl; intro t _ ht)
      | with_reducible apply src_judgeSelf | with_reducible apply src_judgePeer
      | with_reducible exact src_clearCounts_st _ | with_reducible rfl
      | (refine SourcesOk.of2 ‹_› ?_ ?_ <;> (simp; done)) | simp)

theorem src_reportReceived (w : Whole) (s : State) (h : SourcesOk s) :
    SourcesOk (reportReceived w s) := by
  simp only [reportReceived]
  (repeat' split) <;> (repeat' first
      | with_reducible assumption | with_reducible apply src_judgeRack | with_reducible apply src_setPeer
      | with_reducible apply src_count | with_reducible exact src_clearCounts_st _ | with_reducible rfl
      | (refine SourcesOk.of2 ‹_› ?_ ?_ <;> (simp; done)) | simp)

theorem src_setPeerCfg (i : Nat) (c : PeerCfg) (s : State) (h : SourcesOk s) : SourcesOk (setPeerCfg i c s) :=
  h.of2 (sources_setPeerCfg _ _ _) (servo_setPeerCfg _ _ _)

theorem src_voidReports (i : Nat) (s : State) (h : SourcesOk s) : SourcesOk (voidReports i s) := h.of2 rfl rfl

theorem src_writePeerAt (i : Nat) (c : PeerCfg) (s : State) (h : SourcesOk s) :
    SourcesOk (writePeerAt i c s) := by
  simp only [writePeerAt]
  (repeat' split) <;> (repeat' first
      | with_reducible assumption | with_reducible apply src_voidReports | with_reducible apply src_judgeRack | with_reducible apply src_setPeerCfg
      | with_reducible apply src_setPeer | with_reducible exact src_clearCounts_st _ | with_reducible rfl
      | (refine SourcesOk.of2 ‹_› ?_ ?_ <;> (simp; done)) | simp)

theorem src_clearPeerAt (i : Nat) (s : State) (h : SourcesOk s) :
    SourcesOk (clearPeerAt i s) := by
  simp only [clearPeerAt]
  (repeat' split) <;> (repeat' first
      | with_reducible assumption | with_reducible apply src_voidReports | with_reducible apply src_judgeRack | with_reducible apply src_setPeerCfg
      | with_reducible apply src_setPeer | with_reducible exact src_clearCounts_st _ | with_reducible rfl
      | (refine SourcesOk.of2 ‹_› ?_ ?_ <;> (simp; done)) | simp)

theorem src_applyDrift (p : DriftParams) (holdoff threshold : Nat) (s : State) (h : SourcesOk s) :
    SourcesOk (applyDrift p holdoff threshold s) := by
  simp only [applyDrift]
  (repeat' split) <;> (repeat' first
      | with_reducible assumption | with_reducible apply src_startReports | with_reducible apply src_judgeRack
      | with_reducible apply src_setCfg | with_reducible exact src_clearCounts_st _ | with_reducible rfl
      | (refine SourcesOk.of2 ‹_› ?_ ?_ <;> (simp; done)) | simp)

theorem src_driftSoftReset (s : State) (h : SourcesOk s) : SourcesOk (driftSoftReset s) :=
  h.of2 (sources_driftSoftReset _) (servo_driftSoftReset _)

theorem src_freezeTrigger (t : Trigger) (s : State) (h : SourcesOk s) : SourcesOk (freezeTrigger t s) :=
  h.of2 (sources_freezeTrigger _ _) (servo_freezeTrigger _ _)

theorem src_releaseFreeze (s : State) (h : SourcesOk s) : SourcesOk (releaseFreeze s) :=
  h.of2 (sources_releaseFreeze _) (servo_releaseFreeze _)

theorem src_openMark (p : Port) (index : Nat) (e : MatchEntry) (ingress : Date) (s : State) (h : SourcesOk s) :
    SourcesOk (openMark p index e ingress s) :=
  h.of2 (sources_openMark _ _ _ _ _) (servo_openMark _ _ _ _ _)

theorem src_settleStamp (p : Port) (written : Bool) (s : State) (h : SourcesOk s) :
    SourcesOk (settleStamp p written s) :=
  h.of2 (sources_settleStamp _ _ _) (servo_settleStamp _ _ _)

theorem src_loseStamp (p : Port) (s : State) (h : SourcesOk s) : SourcesOk (loseStamp p s) :=
  h.of2 (sources_loseStamp _ _) (servo_loseStamp _ _)

theorem src_readyArriving (p : Port) (edit : Edit) (s : State) (h : SourcesOk s) :
    SourcesOk (readyArriving p edit s) :=
  h.of2 (sources_readyArriving _ _ _) (servo_readyArriving _ _ _)

theorem src_writeStampNow (p : Port) (c : DatingCtx) (bytes : List Byte) (s : State) (h : SourcesOk s) :
    SourcesOk (writeStampNow p c bytes s) :=
  h.of2 (sources_writeStampNow _ _ _ _) (servo_writeStampNow _ _ _ _)

theorem src_closeMark (p : Port) (bytes : List Byte) (stop len : Nat) (badFcs : Bool) (s : State) (h : SourcesOk s) :
    SourcesOk (closeMark p bytes stop len badFcs s) :=
  h.of2 (sources_closeMark _ _ _ _ _ _) (servo_closeMark _ _ _ _ _ _)

theorem src_cutMark (p : Port) (bytes : List Byte) (len : Nat) (s : State) (h : SourcesOk s) :
    SourcesOk (cutMark p bytes len s) :=
  h.of2 (sources_cutMark _ _ _ _) (servo_cutMark _ _ _ _)

theorem src_setRx (p : Port) (r : Option Rx) (s : State) (h : SourcesOk s) : SourcesOk (setRx p r s) :=
  h.of2 (sources_setRx _ _ _) (servo_setRx _ _ _)

theorem src_forwardArriving (p : Port) (r : Rx) (ready : Bool) (s : State) (h : SourcesOk s) :
    SourcesOk (forwardArriving p r ready s).1 :=
  h.of2 (sources_forwardArriving _ _ _ _) (servo_forwardArriving _ _ _ _)

theorem src_passFrame (p : Port) (r : Rx) (s : State) (h : SourcesOk s) : SourcesOk (passFrame p r s) :=
  h.of2 (sources_passFrame _ _ _) (servo_passFrame _ _ _)

theorem src_settleArrived (p : Port) (bytes : List Byte) (s : State) (h : SourcesOk s) :
    SourcesOk (settleArrived p bytes s) :=
  h.of2 (sources_settleArrived _ _ _) (servo_settleArrived _ _ _)

theorem src_markFrame (p : Port) (r : Rx) (index : Nat) (e : MatchEntry) (s : State) (h : SourcesOk s) :
    SourcesOk (markFrame p r index e s) :=
  h.of2 (sources_markFrame _ _ _ _ _) (servo_markFrame _ _ _ _ _)

theorem src_lookupFrame (p : Port) (r : Rx) (ended : Bool) (s : State) (h : SourcesOk s) :
    SourcesOk (lookupFrame p r ended s) :=
  h.of2 (sources_lookupFrame _ _ _ _) (servo_lookupFrame _ _ _ _)

theorem src_growArriving (p : Port) (bytes : List Byte) (s : State) (h : SourcesOk s) :
    SourcesOk (growArriving p bytes s) :=
  h.of2 (sources_growArriving _ _ _) (servo_growArriving _ _ _)

theorem src_overrun (p : Port) (r : Rx) (s : State) (h : SourcesOk s) : SourcesOk (overrun p r s) :=
  h.of2 (sources_overrun _ _ _) (servo_overrun _ _ _)

theorem src_malformedFrame (w : Whole) (s : State) (h : SourcesOk s) : SourcesOk (malformedFrame w s) :=
  h.of2 (sources_malformedFrame _ _) (servo_malformedFrame _ _)

theorem src_dispatchL2 (w : Whole) (s : State) (h : SourcesOk s) : SourcesOk (dispatchL2 w s) := by
  simp only [dispatchL2]
  (repeat' split) <;> first | exact src_handleBeacon _ _ h | exact src_handleAsk _ _ h | exact src_handleAnswer _ _ h | exact src_malformedFrame _ _ h

theorem src_acceptControl (w : Whole) (privilege : Privilege) (s : State) (h : SourcesOk s) :
    SourcesOk (acceptControl w privilege s) :=
  h.of2 (sources_acceptControl _ _ _) (servo_acceptControl _ _ _)

theorem src_dispatchUdp (w : Whole) (mgmt utx : Bool) (privilege : Privilege) (s : State) (h : SourcesOk s) :
    SourcesOk (dispatchUdp w mgmt utx privilege s) := by
  simp only [dispatchUdp]
  (repeat' split) <;> (repeat' first
      | with_reducible assumption | with_reducible apply src_reportReceived
      | with_reducible apply src_malformedFrame | with_reducible apply src_acceptControl
      | with_reducible exact src_clearCounts_st _ | with_reducible rfl
      | (refine SourcesOk.of2 ‹_› ?_ ?_ <;> (simp; done)) | simp)

theorem src_endForwarded (p : Port) (r : Rx) (inLane : Bool) (s : State) (h : SourcesOk s) :
    SourcesOk (endForwarded p r inLane s) :=
  h.of2 (sources_endForwarded _ _ _ _) (servo_endForwarded _ _ _ _)

theorem src_endFrame (p : Port) (r : Rx) (s : State) (h : SourcesOk s) : SourcesOk (endFrame p r s) := by
  simp only [endFrame]
  (repeat' split) <;> (repeat' first | with_reducible assumption | with_reducible apply src_endForwarded | with_reducible apply src_dispatchL2 | with_reducible apply src_dispatchUdp | with_reducible apply src_count | with_reducible apply src_setRx)

theorem src_receiveEnd (p : Port) (r : Rx) (s : State) (h : SourcesOk s) : SourcesOk (receiveEnd p r s) := by
  simp only [receiveEnd]
  generalize r.upToOversize = r
  split
  · exact src_count _ _ _ (src_setRx _ _ _ h)
  · have h1 : SourcesOk (if r.stage = .parsing then lookupFrame p r (decide (r.bytes.length < frameHeader r.bytes + Config.lookupBytes + 4)) s else s) := by
      split
      · exact src_lookupFrame _ _ _ _ h
      · exact h
    generalize (if r.stage = .parsing then lookupFrame p r (decide (r.bytes.length < frameHeader r.bytes + Config.lookupBytes + 4)) s else s) = x at *
    (repeat' split) <;> (repeat' first | with_reducible assumption | with_reducible apply src_setRx | with_reducible apply src_overrun | with_reducible apply src_endFrame)

theorem src_oversizeArrives (p : Port) (more : List Byte) (s : State) (h : SourcesOk s) :
    SourcesOk (oversizeArrives p more s) :=
  h.of2 (sources_oversizeArrives _ _ _) (servo_oversizeArrives _ _ _)

theorem src_applyFull (c : Settings) (bank : Vector MatchEntry 64) (source : LoadSource) (version : Nat)
    (s : State) (h : SourcesOk s) :
    SourcesOk (applyFull c bank source version s) :=
  h.of2 (sources_applyFull _ _ _ _ _) (servo_applyFull _ _ _ _ _)

theorem src_applyReload (c : Settings) (bank : Vector MatchEntry 64) (s : State) (h : SourcesOk s) :
    SourcesOk (applyReload c bank s) := by
  simp only [applyReload]
  exact src_judgePulse _ _ (src_applyServo _ _ _ _ (src_reevaluateOnHold _ _ (src_setAgent _ _ (src_setCfg _ _ (src_setMatchTab _ _ (src_setLanes _ _ (src_setDrift _ _ h)))))))

theorem source_cleared (s : State) (i : Nat) : (s.setSources (Vector.replicate 8 none)).source i = none := by
  simp only [State.source, State.setSources_sources, Vector.getElem?_replicate]
  split <;> rfl

theorem src_servoSoftReset (s : State) (h : ∀ i, s.source i = none) : SourcesOk (servoSoftReset s) := by
  have hs : (servoSoftReset s).sources = s.sources := by simp
  have hf : ¬ Follows (servoSoftReset s) := by
    simp only [servoSoftReset, Follows]
    split
    · simp [servoHolds]
    · rename_i hn; simpa [Servo.clearCounts] using hn
  exact src_empty _ (fun i => by rw [source_of hs]; exact h i) hf

theorem src_softResetNow (reload : Bool) (s : State) : SourcesOk (softResetNow reload s) := by
  simp only [softResetNow]
  apply src_servoSoftReset
  intro i
  simp only [State.source]
  simp [Vector.getElem?_replicate]
  split <;> rfl

theorem src_raiseAgain (expired : Bool) (s : State) (h : SourcesOk s) :
    SourcesOk (raiseAgain expired s) := by
  simp only [raiseAgain]
  (repeat' split) <;> (repeat' first
      | with_reducible assumption | with_reducible apply src_raiseLogFullAgain
      | with_reducible apply src_raiseWithHold | with_reducible exact src_clearCounts_st _ | with_reducible rfl
      | (refine SourcesOk.of2 ‹_› ?_ ?_ <;> (simp; done)) | simp)

theorem src_completeSoft (expired : Bool) (s : State) (h : SourcesOk s) :
    SourcesOk (completeSoft expired s) := by
  simp only [completeSoft]
  (repeat' split) <;> (repeat' first
      | with_reducible assumption | with_reducible apply src_startEcho | with_reducible apply src_startReports
      | with_reducible apply src_raiseAgain | with_reducible exact src_clearCounts_st _ | with_reducible rfl
      | (refine SourcesOk.of2 ‹_› ?_ ?_ <;> (simp; done)) | simp)

theorem src_enterRunning (s : State) (h : SourcesOk s) :
    SourcesOk (enterRunning s) := by
  simp only [enterRunning]
  (repeat' split) <;> (repeat' first
      | with_reducible assumption | with_reducible apply src_loadTrim | with_reducible apply src_startEcho
      | with_reducible apply src_startReports | with_reducible apply src_setPorts
      | with_reducible apply src_setRun | with_reducible exact src_clearCounts_st _ | with_reducible rfl
      | (refine SourcesOk.of2 ‹_› ?_ ?_ <;> (simp; done)) | simp)

theorem src_finishLoad (first second : List Byte) (s : State) (h : SourcesOk s) :
    SourcesOk (finishLoad first second s) := by
  simp only [finishLoad]
  (repeat' split) <;> (repeat' first
      | with_reducible assumption | with_reducible apply src_raiseWithHold | with_reducible apply src_applyFull
      | with_reducible apply src_enterRunning | with_reducible exact src_clearCounts_st _ | with_reducible rfl
      | (refine SourcesOk.of2 ‹_› ?_ ?_ <;> (simp; done)) | simp)

theorem src_finishReload (first second : List Byte) (s : State) (h : SourcesOk s) :
    SourcesOk (finishReload first second s) := by
  simp only [finishReload]
  (repeat' split) <;> (repeat' first
      | with_reducible assumption | with_reducible apply src_raiseWithHold | with_reducible apply src_applyReload
      | with_reducible apply src_completeSoft | with_reducible apply src_setAgent
      | with_reducible exact src_clearCounts_st _ | with_reducible rfl
      | (refine SourcesOk.of2 ‹_› ?_ ?_ <;> (simp; done)) | simp)

theorem src_loseReception (p : Port) (more : List Byte) (s : State) (h : SourcesOk s) :
    SourcesOk (loseReception p more s) :=
  h.of2 (sources_loseReception _ _ _) (servo_loseReception _ _ _)

theorem src_flushEgress (p : Port) (s : State) (h : SourcesOk s) : SourcesOk (flushEgress p s) :=
  h.of2 (sources_flushEgress _ _) (servo_flushEgress _ _)

theorem src_linkBackUp (p : Port) (s : State) (h : SourcesOk s) : SourcesOk (linkBackUp p s) := by
  simp only [linkBackUp]
  have h1 : SourcesOk (if (lostPort (s.setPort p { s.port p with seenUp := true })).isNone then clearWithHold .linkDown (.port p) true .nothing (s.setPort p { s.port p with seenUp := true }) else s.setPort p { s.port p with seenUp := true }) := by
    split
    · exact src_clearWithHold _ _ _ _ _ (src_setPort _ _ _ h)
    · exact src_setPort _ _ _ h
  have h2 := src_echoLinkUp p _ h1
  split
  · exact reevaluate_ok' _ _ _ h2.pre
  · exact h2

theorem src_linkComesUp (p : Port) (s : State) (h : SourcesOk s) :
    SourcesOk (linkComesUp p s) := by
  simp only [linkComesUp]
  (repeat' split) <;> (repeat' first
      | with_reducible assumption | with_reducible apply src_linkBackUp | with_reducible apply src_setPort
      | with_reducible exact src_clearCounts_st _ | with_reducible rfl
      | (refine SourcesOk.of2 ‹_› ?_ ?_ <;> (simp; done)) | simp)

theorem src_periodTo (moved : Date × Bool) (second : Bool) (s : State) (h : SourcesOk s) :
    SourcesOk (periodTo moved second s) := by
  simp only [periodTo]
  (repeat' split) <;> (repeat' first
      | with_reducible assumption | with_reducible apply src_secondBoundary
      | with_reducible apply src_uptimeSecond | with_reducible apply src_laneInstant
      | with_reducible apply src_setPorts | with_reducible apply src_setClock
      | with_reducible exact src_clearCounts_st _ | with_reducible rfl
      | (refine SourcesOk.of2 ‹_› ?_ ?_ <;> (simp; done)) | simp)

theorem src_clockPeriod (s : State) (h : SourcesOk s) :
    SourcesOk (clockPeriod s) := by
  simp only [clockPeriod]
  (repeat' split) <;> (repeat' first
      | with_reducible assumption | with_reducible apply src_periodTo | with_reducible exact src_clearCounts_st _
      | with_reducible rfl | (refine SourcesOk.of2 ‹_› ?_ ?_ <;> (simp; done)) | simp)

theorem src_finishSave (written readBack : List Byte) (s : State) (h : SourcesOk s) :
    SourcesOk (finishSave written readBack s) := by
  simp only [finishSave]
  (repeat' split) <;> (repeat' first
      | with_reducible assumption | with_reducible apply src_raiseWithHold | with_reducible apply src_setAgent
      | with_reducible exact src_clearCounts_st _ | with_reducible rfl
      | (refine SourcesOk.of2 ‹_› ?_ ?_ <;> (simp; done)) | simp)

theorem src_endMemoryTest (pass : Bool) (s : State) (h : SourcesOk s) :
    SourcesOk (endMemoryTest pass s) := by
  simp only [endMemoryTest]
  (repeat' split) <;> (repeat' first
      | with_reducible assumption | with_reducible apply src_raiseWithHold | with_reducible apply src_setLog
      | with_reducible exact src_clearCounts_st _ | with_reducible rfl
      | (refine SourcesOk.of2 ‹_› ?_ ?_ <;> (simp; done)) | simp)

theorem src_removeRecords (k : Nat) (s : State) (h : SourcesOk s) : SourcesOk (removeRecords k s) :=
  h.of2 (sources_removeRecords _ _) (servo_removeRecords _ _)

theorem src_testLog (s : State) (h : SourcesOk s) : SourcesOk (testLog s).1 :=
  h.of2 (sources_testLog _) (servo_testLog _)

theorem src_writeMatch (index : Byte) (a : MatchArg) (s : State) (h : SourcesOk s) :
    SourcesOk (writeMatch index a s).1 :=
  h.of2 (sources_writeMatch _ _ _) (servo_writeMatch _ _ _)

theorem src_copyActive (s : State) (h : SourcesOk s) : SourcesOk (copyActive s).1 :=
  h.of2 (sources_copyActive _) (servo_copyActive _)

theorem src_swapCommand (arg : Byte) (s : State) (h : SourcesOk s) : SourcesOk (swapCommand arg s).1 :=
  h.of2 (sources_swapCommand _ _) (servo_swapCommand _ _)

theorem src_writePort (a : PortArg) (s : State) (h : SourcesOk s) : SourcesOk (writePort a s).1 :=
  h.of2 (sources_writePort _ _) (servo_writePort _ _)

theorem src_writeLane (a : LaneArg) (s : State) (h : SourcesOk s) : SourcesOk (writeLane a s).1 :=
  h.of2 (sources_writeLane _ _) (servo_writeLane _ _)

theorem src_writeOverride (a : OverrideArg) (s : State) (h : SourcesOk s) : SourcesOk (writeOverride a s).1 :=
  h.of2 (sources_writeOverride _ _) (servo_writeOverride _ _)

theorem src_writePeer (a : PeerArg) (s : State) (h : SourcesOk s) :
    SourcesOk (writePeer a s).1 := by
  simp only [writePeer]
  (repeat' split) <;> (repeat' first
      | with_reducible assumption | with_reducible apply src_writePeerAt
      | with_reducible exact src_clearCounts_st _ | with_reducible rfl
      | (refine SourcesOk.of2 ‹_› ?_ ?_ <;> (simp; done)) | simp)

theorem src_clearPeer (index : Byte) (s : State) (h : SourcesOk s) :
    SourcesOk (clearPeer index s).1 := by
  simp only [clearPeer]
  (repeat' split) <;> (repeat' first
      | with_reducible assumption | with_reducible apply src_clearPeerAt
      | with_reducible exact src_clearCounts_st _ | with_reducible rfl
      | (refine SourcesOk.of2 ‹_› ?_ ?_ <;> (simp; done)) | simp)

theorem src_writeServo (a : ServoArg) (s : State) (h : SourcesOk s) :
    SourcesOk (writeServo a s).1 := by
  simp only [writeServo]
  (repeat' split) <;> (repeat' first
      | with_reducible assumption | with_reducible apply src_applyServo
      | with_reducible exact src_clearCounts_st _ | with_reducible rfl
      | (refine SourcesOk.of2 ‹_› ?_ ?_ <;> (simp; done)) | simp)

theorem src_writeDrift (a : DriftArg) (s : State) (h : SourcesOk s) :
    SourcesOk (writeDrift a s).1 := by
  simp only [writeDrift]
  (repeat' split) <;> (repeat' first
      | with_reducible assumption | with_reducible apply src_applyDrift
      | with_reducible exact src_clearCounts_st _ | with_reducible rfl
      | (refine SourcesOk.of2 ‹_› ?_ ?_ <;> (simp; done)) | simp)

theorem src_applyResponse (k : FaultKind) (r : Response) (s : State) (h : SourcesOk s) :
    SourcesOk (applyResponse k r s) := by
  simp only [applyResponse]
  split
  · exact src_reevaluateOnHold _ _ (src_watchSecond _ (src_setCfg _ _ h))
  · exact src_setCfg _ _ h

theorem src_writeFault (kind response : Byte) (s : State) (h : SourcesOk s) :
    SourcesOk (writeFault kind response s).1 := by
  simp only [writeFault]
  (repeat' split) <;> (repeat' first
      | with_reducible assumption | with_reducible apply src_applyResponse
      | with_reducible exact src_clearCounts_st _ | with_reducible rfl
      | (refine SourcesOk.of2 ‹_› ?_ ?_ <;> (simp; done)) | simp)

theorem src_clearPosition (mask : BitVec 32) (s : State) (k : FaultKind) (h : SourcesOk s) :
    SourcesOk (clearPosition mask s k) := by
  simp only [clearPosition]
  (repeat' split) <;> (repeat' first
      | with_reducible assumption | with_reducible apply src_clearWithHold
      | with_reducible exact src_clearCounts_st _ | with_reducible rfl
      | (refine SourcesOk.of2 ‹_› ?_ ?_ <;> (simp; done)) | simp)

theorem src_clearFlags (mask : BitVec 32) (s : State) (h : SourcesOk s) :
    SourcesOk (clearFlags mask s).1 := by
  simp only [clearFlags]
  (repeat' split) <;> (repeat' first
      | with_reducible assumption | (with_reducible apply src_foldl; intro t _ ht)
      | with_reducible apply src_clearStale | with_reducible apply src_clearPosition
      | with_reducible apply src_setServo | with_reducible exact src_clearCounts_st _ | with_reducible rfl
      | (refine SourcesOk.of2 ‹_› ?_ ?_ <;> (simp; done)) | simp)

theorem src_saveSettings (s : State) (h : SourcesOk s) : SourcesOk (saveSettings s).1 :=
  h.of2 (sources_saveSettings _) (servo_saveSettings _)

theorem src_resetCommand (arg : Byte) (s : State) (h : SourcesOk s) : SourcesOk (resetCommand arg s).1 :=
  h.of2 (sources_resetCommand _ _) (servo_resetCommand _ _)

theorem src_reset : SourcesOk State.reset := src_empty _ (fun i => by simp only [State.source, State.reset, Vector.getElem?_replicate]; split <;> rfl) (by simp [Follows, State.reset, Servo.reset])

theorem src_fullReset (s : State) : SourcesOk (fullReset s) := src_reset.of rfl rfl

theorem src_holdReset (s : State) : SourcesOk (holdReset s) := src_reset.of rfl rfl

theorem src_takeReset (k : ResetKind) (s : State) (h : SourcesOk s) : SourcesOk (takeReset k s) := by
  cases k
  · exact src_completeSoft _ _ (src_softResetNow _ _)
  · exact src_softResetNow _ _
  · exact src_fullReset _

theorem src_takePendingReset (s : State) (h : SourcesOk s) : SourcesOk (takePendingReset s) := by
  simp only [takePendingReset]; split
  · exact src_takeReset _ _ h
  · exact h

theorem src_finishFrame (e : Exec) (s : State) (h : SourcesOk s) : SourcesOk (finishFrame e s) := by
  simp only [finishFrame]
  split
  · exact src_arbitrate _ _ (src_offerGeneral _ _ _ _ _ (src_setAgent _ _ h))
  · exact src_takePendingReset _ (src_offerGeneral _ _ _ _ _ (src_setAgent _ _ h))

theorem src_advanceFrame (e : Exec) (s : State) (h : SourcesOk s) : SourcesOk (advanceFrame e s) := by
  simp only [advanceFrame]
  split
  · exact src_finishFrame _ _ h
  · exact src_setAgent _ _ h

theorem src_deliver (c : Nat) (out : State × Status × List Byte) (h : SourcesOk out.1) :
    SourcesOk (deliver c out) := by
  simp only [Machine.deliver, answerInFrame]
  split
  · exact src_advanceFrame _ _ (src_setAgent _ _ h)
  · exact src_takePendingReset _ (src_setAgent _ _ h)

theorem src_linkGoesDown (p : Port) (more : List Byte) (s : State) (h : SourcesOk s) :
    SourcesOk (linkGoesDown p more s) := by
  simp only [linkGoesDown]
  have h1 : SourcesOk (echoLinkDown p (flushEgress p (loseReception p more (s.setPort p { s.port p with up := false })))) := src_echoLinkDown _ _ (src_flushEgress _ _ (src_loseReception _ _ _ (src_setPort _ _ _ h)))
  generalize (echoLinkDown p (flushEgress p (loseReception p more (s.setPort p { s.port p with up := false })))) = x at *
  have h2 : SourcesOk (if (x.port p).seenUp then raiseWithHold .linkDown (.port p) true .nothing x else x) := by
    split
    · exact src_raiseWithHold _ _ _ _ _ h1
    · exact h1
  generalize (if (x.port p).seenUp then raiseWithHold .linkDown (.port p) true .nothing x else x) = y at *
  have h3 : SourcesOk (if p.isUplink then reevaluate y.selectedPair .lost none y else y) := by
    split
    · exact reevaluate_ok' _ _ _ h2.pre
    · exact h2
  split
  · exact src_takePendingReset _ h3
  · exact h3

theorem src_logTakeMeaning (n : Byte) (room : Nat) (s : State) (h : SourcesOk s) :
    SourcesOk (logTakeMeaning n room s).1 := by
  simp only [logTakeMeaning]; (repeat' split) <;> first | exact h | exact src_removeRecords _ _ h
end Sys2Proof.Machine
end

