-- ==== Sys2Proof/Laws/Following.lean ====
section
/-! SUPPORT. What a change of selection does beside the Source Table: to the Servo's registers and the increment (R72, R73, R75), to
the SECOND pulse (R13), and to the Event Log while it has room (R49, R50, R69); and on what of the state a re-evaluation
depends. -/

namespace Sys2Proof.Machine

/-! ### The clock beside its pulse -/

/-- The clock with its pulse left out. -/
def State.steady (s : State) : Clock := { s.clock with secondEnd := none }

theorem steady_of {s t : State} (h : t.clock = s.clock) : t.steady = s.steady := by rw [State.steady, State.steady, h]

theorem clock_of_steady {s t : State} {n : Nat} (h : t.steady = { s.steady with inc := n }) :
    t.clock = { s.clock with inc := n, secondEnd := t.clock.secondEnd } := by
  simp only [State.steady, Clock.mk.injEq] at h
  obtain ⟨h1, h2, h3, h4, h5, -⟩ := h
  cases ht : t.clock
  simp_all

@[simp] theorem steady_watchSecond (s : State) : (watchSecond s).steady = s.steady := by
  simp only [watchSecond]
  split <;> rfl

@[simp] theorem steady_setServoState (st : ServoState) (s : State) : (setServoState st s).steady = s.steady :=
  (steady_watchSecond _).trans rfl

theorem steady_handRate (r : Int) (s : State) : (handRate r s).steady = { s.steady with inc := incrementOf r } := rfl

@[simp] theorem steady_raiseLogFull (s : State) : (raiseLogFull s).steady = s.steady := by
  simp only [raiseLogFull]
  split
  · rfl
  · rw [steady_of (clock_faultAlert _ _ _ _ _), steady_of (clock_offerBare _ _), steady_watchSecond]
    rfl

@[simp] theorem steady_clearLogFull (s : State) : (clearLogFull s).steady = s.steady := by
  simp only [clearLogFull]
  split
  · refine (steady_of (clock_faultAlert _ _ _ _ _)).trans ?_
    split
    · exact (steady_raiseLogFull _).trans (steady_of (by simp))
    · exact steady_of (by simp)
  · rfl

@[simp] theorem steady_offerRecord (o : Offer) (s : State) : (offerRecord o s).steady = s.steady := by
  simp only [offerRecord]
  split <;> simp [steady_of (clock_offerBare o s)]

@[simp] theorem steady_raiseFault (k : FaultKind) (subject : Subject) (record : Bool) (d : AlertData) (s : State) :
    (raiseFault k subject record d s).steady = s.steady := by
  simp only [raiseFault]
  split
  · rfl
  · refine (steady_of (clock_faultAlert _ _ _ _ _)).trans ?_
    split
    · exact (steady_offerRecord _ _).trans ((steady_watchSecond _).trans (steady_of (by simp)))
    · exact (steady_watchSecond _).trans (steady_of (by simp))

@[simp] theorem steady_clearFault (k : FaultKind) (subject : Subject) (record : Bool) (d : AlertData) (s : State) :
    (clearFault k subject record d s).steady = s.steady := by
  simp only [clearFault]
  split
  · refine (steady_of (clock_faultAlert _ _ _ _ _)).trans ?_
    split
    · exact (steady_offerRecord _ _).trans (steady_of (by simp))
    · exact steady_of (by simp)
  · rfl

@[simp] theorem steady_offerStateIfChanged (before : ServoState) (s : State) :
    (offerStateIfChanged before s).steady = s.steady := by
  simp only [offerStateIfChanged, offerState]
  split <;> simp

/-! ### The Servo's own transitions -/

theorem servoFollows_servo (s : State) : (servoFollows s).servo =
    { s.servo with
      st := .acquiring, excSign := .none, excCount := 0, lockCtr := 0, unlockCtr := 0, catchDown := false, expired := false } := by
  simp [servoFollows, setServoState, Servo.clearCounts]

theorem servoSwitches_servo (s : State) : (servoSwitches s).servo =
    { s.servo with st := .acquiring, excSign := .none, excCount := 0, lockCtr := 0, unlockCtr := 0 } := by
  simp [servoSwitches, setServoState, Servo.clearCounts]

theorem servoHolds_servo (s : State) : (servoHolds s).servo =
    { s.servo with
      st := .holdover, r := s.servo.f, excSign := .none, excCount := 0, lockCtr := 0, unlockCtr := 0, catchDown := false
      holdTimer := 0, expired := false } := by
  simp [servoHolds, setServoState, handRate, Servo.clearCounts]

@[simp] theorem steady_servoFollows (s : State) : (servoFollows s).steady = s.steady := (steady_setServoState _ _).trans rfl

@[simp] theorem steady_servoSwitches (s : State) : (servoSwitches s).steady = s.steady := (steady_setServoState _ _).trans rfl

theorem steady_servoHolds (s : State) : (servoHolds s).steady = { s.steady with inc := incrementOf s.servo.f } :=
  (steady_setServoState _ _).trans rfl

/-! ### The changes of selection -/

/-- The selection of an entry leaves the Servo as it follows another (R73), as it follows one after none (R72), or as it was
where in UNSET it waits for the sample (R71). -/
theorem select_servo (old : Option (Nat × SourceEntry)) (new : Nat × SourceEntry) (reason : Reason) (sampled : Bool) (s : State) :
    (select old new reason sampled s).servo =
      if old.isSome then (servoSwitches s).servo
      else if s.servo.st = .unset ∧ sampled = true then s.servo
      else (servoFollows s).servo := by
  cases old <;> simp [select, servoFollows_servo, servoSwitches_servo] <;> (repeat' split) <;>
    simp_all [servoFollows_servo, servoSwitches_servo]

theorem select_steady (old : Option (Nat × SourceEntry)) (new : Nat × SourceEntry) (reason : Reason) (sampled : Bool) (s : State) :
    (select old new reason sampled s).steady = s.steady := by
  have h1 : ∀ i st (t : State), (setSourceState i st t).steady = t.steady := fun i st t => steady_of (by simp)
  have h2 : ∀ i (t : State), (unselect i t).steady = t.steady := fun i t => steady_of (by simp)
  cases old <;> simp [select, clearHoldoverExpired] <;> (repeat' split) <;> simp_all

/-- The end of a selection leaves the Servo as it enters HOLDOVER, from ACQUIRING and LOCKED (R75). -/
theorem endSelection_servo (old : Nat × SourceEntry) (reason : Reason) (s : State) :
    (endSelection old reason s).servo =
      if s.servo.st = .acquiring ∨ s.servo.st = .locked then (servoHolds s).servo else s.servo := by
  simp only [endSelection]
  split <;> simp [servoHolds_servo]

theorem endSelection_steady (old : Nat × SourceEntry) (reason : Reason) (s : State) :
    (endSelection old reason s).steady =
      if s.servo.st = .acquiring ∨ s.servo.st = .locked then { s.steady with inc := incrementOf s.servo.f } else s.steady := by
  have h2 : ∀ i (t : State), (unselect i t).steady = t.steady := fun i t => steady_of (by simp)
  simp only [endSelection]
  split <;> simp [steady_servoHolds, h2]

/-! ### On what a re-evaluation depends -/

/-- Two states alike in what a re-evaluation reads: the Source Table, the Servo, the links and the HOLD indication. -/
structure SeenAlike (s t : State) : Prop where
  sources : t.sources = s.sources
  servo : t.servo = s.servo
  hold : t.hold = s.hold
  up : ∀ p, (t.port p).up = (s.port p).up

theorem SeenAlike.selectable {s t : State} (h : SeenAlike s t) (e : SourceEntry) : selectable t e = selectable s e := by
  unfold Machine.selectable
  rw [h.up, h.hold]

theorem SeenAlike.bestSource {s t : State} (h : SeenAlike s t) : bestSource t = bestSource s := by
  have hb : betterOf t = betterOf s := by
    funext best i
    simp only [betterOf, source_of h.sources, h.selectable]
  unfold Machine.bestSource
  rw [hb]

theorem setSourceState_sources {s t : State} (h : t.sources = s.sources) (i : Nat) (st : SourceState) :
    (setSourceState i st t).sources = (setSourceState i st s).sources := by
  simp only [setSourceState, source_of h]
  split
  · simp only [State.setSource, State.setSources_sources, h]
  · exact h

theorem unselect_sources {s t : State} (h : t.sources = s.sources) (i : Nat) :
    (unselect i t).sources = (unselect i s).sources := by
  have hs : t.isSelected i = s.isSelected i := by unfold State.isSelected; rw [source_of h]
  simp only [unselect, hs]
  split
  · exact setSourceState_sources h _ _
  · exact h

theorem selectedPair_of {s t : State} (h : t.sources = s.sources) : t.selectedPair = s.selectedPair := by
  have hs : t.isSelected = s.isSelected := by funext i; unfold State.isSelected; rw [source_of h]
  unfold State.selectedPair State.selectedIndex
  simp only [hs, source_of h]

theorem endSelection_sources (old : Nat × SourceEntry) (reason : Reason) (s : State) :
    (endSelection old reason s).sources = (unselect old.1 s).sources := by
  simp only [endSelection]
  split <;> simp

theorem SeenAlike.servoSwitches {s t : State} (h : SeenAlike s t) : (servoSwitches t).servo = (servoSwitches s).servo := by
  rw [servoSwitches_servo, servoSwitches_servo, h.servo]

theorem SeenAlike.servoFollows {s t : State} (h : SeenAlike s t) : (servoFollows t).servo = (servoFollows s).servo := by
  rw [servoFollows_servo, servoFollows_servo, h.servo]

theorem SeenAlike.servoHolds {s t : State} (h : SeenAlike s t) : (servoHolds t).servo = (servoHolds s).servo := by
  rw [servoHolds_servo, servoHolds_servo, h.servo]

/-- What a selection does to SOURCE_LOST: it is no longer active (R50). -/
theorem fault_select_lost (old : Option (Nat × SourceEntry)) (new : Nat × SourceEntry) (reason : Reason) (sampled : Bool)
    (s : State) : (select old new reason sampled s).fault .sourceLost = { s.fault .sourceLost with active := false } := by
  simp only [select]
  rw [fault_clearFault_self _ _ _ _ _ (by simp), fault_offerStateIfChanged _ _ _ (by simp)]
  have hc : ∀ t : State, (clearHoldoverExpired t).fault .sourceLost = t.fault .sourceLost :=
    fun t => fault_clearFault_ne _ _ _ _ _ _ (by simp) (by simp)
  split
  · rw [hc, fault_offerRecord _ _ _ (by simp)]
    (repeat' split) <;> simp [fault_servoSwitches, fault_servoFollows, fault_setSourceState, fault_unselect]
  · rw [fault_offerRecord _ _ _ (by simp)]
    (repeat' split) <;> simp [fault_servoSwitches, fault_servoFollows, fault_setSourceState, fault_unselect]

/-- What the end of a selection does to SOURCE_LOST: it is raised, with the port of the entry that was lost (R50). -/
theorem fault_endSelection_lost (old : Nat × SourceEntry) (reason : Reason) (s : State) :
    (endSelection old reason s).fault .sourceLost =
      if (s.fault .sourceLost).active then { s.fault .sourceLost with count := satAdd 255 (s.fault .sourceLost).count 1 }
      else { active := true, count := satAdd 255 (s.fault .sourceLost).count 1, lastRaised := some s.upSeconds,
             lastSubject := some (.port old.2.port) } := by
  have key : ∀ t : State, t.fault .sourceLost = s.fault .sourceLost → t.anchor = s.anchor →
      (raiseFault .sourceLost (.port old.2.port) true .nothing t).fault .sourceLost =
        if (s.fault .sourceLost).active then { s.fault .sourceLost with count := satAdd 255 (s.fault .sourceLost).count 1 }
        else { active := true, count := satAdd 255 (s.fault .sourceLost).count 1, lastRaised := some s.upSeconds,
               lastSubject := some (.port old.2.port) } := fun t h ha => by
    rw [fault_raiseFault_self _ _ _ _ _ (by simp), h]
    simp only [State.upSeconds, anchor_up ha]
  simp only [endSelection]
  refine key _ ?_ ?_
  · rw [fault_offerStateIfChanged _ _ _ (by simp), fault_offerRecord _ _ _ (by simp)]
    split <;> simp [fault_servoHolds, fault_unselect]
  · simp only [offerStateIfChanged, offerState]
    (repeat' split) <;> simp

/-- One Source Table, one Servo, one clock beside its pulse, one SOURCE_LOST. -/
structure OneSelection (a b : State) : Prop where
  sources : b.sources = a.sources
  servo : b.servo = a.servo
  steady : b.steady = a.steady
  lost : b.fault .sourceLost = a.fault .sourceLost

theorem SeenAlike.select {s t : State} (h : SeenAlike s t) (hi : t.steady = s.steady)
    (hl : t.fault .sourceLost = s.fault .sourceLost) (old : Option (Nat × SourceEntry)) (new : Nat × SourceEntry)
    (reason : Reason) (sampled : Bool) : OneSelection (select old new reason sampled s) (select old new reason sampled t) where
  sources := by
    rw [select_sources, select_sources]
    refine setSourceState_sources ?_ _ _
    cases old with
    | none => exact h.sources
    | some x => exact unselect_sources h.sources _
  servo := by rw [select_servo, select_servo, h.servoSwitches, h.servoFollows, h.servo]
  steady := by rw [select_steady, select_steady, hi]
  lost := by rw [fault_select_lost, fault_select_lost, hl]

theorem SeenAlike.endSelection {s t : State} (h : SeenAlike s t) (hi : t.steady = s.steady)
    (hl : t.fault .sourceLost = s.fault .sourceLost) (old : Nat × SourceEntry) (reason : Reason) :
    OneSelection (endSelection old reason s) (endSelection old reason t) where
  sources := by rw [endSelection_sources, endSelection_sources]; exact unselect_sources h.sources _
  servo := by rw [endSelection_servo, endSelection_servo, h.servoHolds, h.servo]
  steady := by rw [endSelection_steady, endSelection_steady, hi, h.servo]
  lost := by
    have up : t.upSeconds = s.upSeconds := by
      show secondsOf t.steady.up = secondsOf s.steady.up
      rw [hi]
    rw [fault_endSelection_lost, fault_endSelection_lost, hl, up]

/-- The re-evaluation gives alike states one Source Table, one Servo, one increment and one SOURCE_LOST. -/
theorem SeenAlike.reevaluate {s t : State} (h : SeenAlike s t) (hi : t.steady = s.steady)
    (hl : t.fault .sourceLost = s.fault .sourceLost) (old : Option (Nat × SourceEntry)) (why : Reason) (own : Option Nat) :
    OneSelection (reevaluate old why own s) (reevaluate old why own t) := by
  have hs := h.select hi hl
  have he := h.endSelection hi hl
  have same : OneSelection s t := ⟨h.sources, h.servo, hi, hl⟩
  unfold Machine.reevaluate
  simp only [source_of h.sources, h.selectable, h.bestSource]
  cases old with
  | none => dsimp only; split; exacts [hs _ _ _ _, same]
  | some x =>
    obtain ⟨i, e⟩ := x
    dsimp only
    split
    · split
      · split
        · split; exacts [hs _ _ _ _, same]
        · exact same
      · split; exacts [hs _ _ _ _, he _ _]
    · split; exacts [hs _ _ _ _, he _ _]

/-! ### The SECOND pulse -/

theorem servoClass_of {s t : State} (hv : t.servo = s.servo) (hs : t.sources = s.sources) : t.servoClass = s.servoClass := by
  have hi : t.isSelected = s.isSelected := by funext i; unfold State.isSelected; rw [source_of hs]
  have hf : t.source = s.source := by funext i; exact source_of hs i
  unfold State.servoClass State.selected State.selectedIndex
  rw [hv, hi, hf]

theorem floor_le (s : State) : s.floor ≤ 4 := by
  unfold State.floor
  split <;> omega

theorem floor_of {s t : State} (hf : t.faults.recs = s.faults.recs) (hc : t.cfg = s.cfg) : t.floor = s.floor := by
  have : t.activeAt .demote = s.activeAt .demote := by funext k; exact activeAt_of _ _ (fault_of hf k) hc
  unfold State.floor
  rw [this]

theorem engineClass_of {s t : State} (hv : t.servo = s.servo) (hs : t.sources = s.sources)
    (hf : t.faults.recs = s.faults.recs) (hc : t.cfg = s.cfg) : t.engineClass = s.engineClass := by
  unfold State.engineClass
  rw [servoClass_of hv hs, floor_of hf hc]

/-- What faults and records do to the pulse: nothing, or its end, which needs a class beyond the limit (R13). -/
structure PulseKept (s t : State) : Prop where
  cfg : t.cfg = s.cfg
  cls : t.servoClass = s.servoClass
  pulse : t.clock.secondEnd = s.clock.secondEnd ∨ (t.clock.secondEnd = none ∧ s.cfg.secLimit < max 4 s.servoClass)

theorem PulseKept.trans {s t u : State} (h : PulseKept s t) (k : PulseKept t u) : PulseKept s u where
  cfg := k.cfg.trans h.cfg
  cls := k.cls.trans h.cls
  pulse := by
    have := k.pulse
    rw [h.cfg, h.cls] at this
    rcases this with e | e
    · rw [e]; exact h.pulse
    · exact .inr e

theorem PulseKept.of {s t : State} (hc : t.cfg = s.cfg) (hv : t.servo = s.servo) (hs : t.sources = s.sources)
    (hk : t.clock = s.clock) : PulseKept s t := ⟨hc, servoClass_of hv hs, .inl (by rw [hk])⟩

theorem pulse_watchSecond (s : State) : PulseKept s (watchSecond s) where
  cfg := by simp
  cls := servoClass_of (by simp) (by simp)
  pulse := by
    simp only [watchSecond]
    split
    · rename_i h
      refine .inr ⟨rfl, lt_of_lt_of_le h ?_⟩
      have := floor_le s
      unfold State.engineClass
      omega
    · exact .inl rfl

theorem pulse_faultAlert (k : FaultKind) (clear : Bool) (subject : Subject) (d : AlertData) (s : State) :
    PulseKept s (faultAlert k clear subject d s) := .of (by simp) (by simp) (by simp) (by simp)

theorem pulse_offerBare (o : Offer) (s : State) : PulseKept s (offerBare o s).1 := .of (by simp) (by simp) (by simp) (by simp)

theorem pulse_activate (k : FaultKind) (subject : Subject) (s : State) : PulseKept s (activate k subject s) :=
  .of (by simp) (by simp) (by simp) (by simp)

theorem pulse_raiseLogFull (s : State) : PulseKept s (raiseLogFull s) := by
  simp only [raiseLogFull]
  split
  · exact .of (by simp) (by simp) (by simp) (by simp)
  · exact (pulse_activate _ _ _).trans ((pulse_watchSecond _).trans ((pulse_offerBare _ _).trans (pulse_faultAlert _ _ _ _ _)))

theorem pulse_clearLogFull (s : State) : PulseKept s (clearLogFull s) := by
  simp only [clearLogFull]
  split
  · have h : PulseKept s (offerBare (faultOffer (deactivate .logFull s) .logFull true .self) (deactivate .logFull s)).1 :=
      .of (by simp) (by simp) (by simp) (by simp)
    split
    · exact h.trans ((pulse_raiseLogFull _).trans (pulse_faultAlert _ _ _ _ _))
    · exact h.trans (pulse_faultAlert _ _ _ _ _)
  · exact .of rfl rfl rfl rfl

theorem pulse_offerRecord (o : Offer) (s : State) : PulseKept s (offerRecord o s) := by
  simp only [offerRecord]
  split
  · exact (pulse_offerBare _ _).trans (pulse_raiseLogFull _)
  · exact (pulse_offerBare _ _).trans (pulse_clearLogFull _)
  · exact pulse_offerBare _ _
  · exact pulse_offerBare _ _

theorem pulse_raiseFault (k : FaultKind) (subject : Subject) (record : Bool) (d : AlertData) (s : State) :
    PulseKept s (raiseFault k subject record d s) := by
  simp only [raiseFault]
  split
  · exact .of (by simp) (by simp) (by simp) (by simp)
  · refine ((pulse_activate k subject s).trans (pulse_watchSecond _)).trans (.trans ?_ (pulse_faultAlert _ _ _ _ _))
    split
    · exact pulse_offerRecord _ _
    · exact .of rfl rfl rfl rfl

theorem pulse_clearFault (k : FaultKind) (subject : Subject) (record : Bool) (d : AlertData) (s : State) :
    PulseKept s (clearFault k subject record d s) := by
  simp only [clearFault]
  split
  · refine .trans (.of (t := deactivate k s) (by simp) (by simp) (by simp) (by simp)) (.trans ?_ (pulse_faultAlert _ _ _ _ _))
    split
    · exact pulse_offerRecord _ _
    · exact .of rfl rfl rfl rfl
  · exact .of rfl rfl rfl rfl

theorem pulse_offerStateIfChanged (before : ServoState) (s : State) : PulseKept s (offerStateIfChanged before s) := by
  simp only [offerStateIfChanged, offerState]
  split
  · exact .of rfl rfl rfl rfl
  · exact pulse_offerRecord _ _

/-! ### Records with room in the log -/

/-- Room in the log for `n` records, one after the other, with no gap pending (R144). -/
def RoomFor (n : Nat) (s : State) : Prop := s.log.mem = .inService ∧ s.log.gap = false ∧ s.log.records.length + n + 1 ≤ 4096

/-- The records held, beside their sequences. -/
def State.told (s : State) : List LogRecord := s.log.records.map (fun r => { r with seq := 0 })

/-- What an offer of a record of the moment gives, with room for it: that record, at the end, and nothing else but a notice. -/
structure Told (n : Nat) (s t : State) (more : List LogRecord) : Prop where
  told : t.told = s.told ++ more
  room : RoomFor n t
  sources : t.sources = s.sources
  servo : t.servo = s.servo
  cfg : t.cfg = s.cfg
  date : t.clock.date = s.clock.date

theorem told_levelNotice (s : State) : (levelNotice s).told = s.told := by
  simp only [levelNotice, State.told]
  split <;> simp

theorem room_levelNotice {n : Nat} {s : State} (h : RoomFor n s) : RoomFor n (levelNotice s) := by
  simp only [levelNotice]
  split
  · simpa [RoomFor] using h
  · exact h

theorem Told.trans {n m : Nat} {s t u : State} {xs ys : List LogRecord} (h : Told n s t xs) (k : Told m t u ys) :
    Told m s u (xs ++ ys) where
  told := by rw [k.told, h.told, List.append_assoc]
  room := k.room
  sources := k.sources.trans h.sources
  servo := k.servo.trans h.servo
  cfg := k.cfg.trans h.cfg
  date := k.date.trans h.date

/-- What comes before the first record, leaving log, sources, Servo, settings and date. -/
theorem Told.after {n : Nat} {s t u : State} {xs : List LogRecord} (k : Told n t u xs) (hl : t.log = s.log)
    (hs : t.sources = s.sources) (hv : t.servo = s.servo) (hc : t.cfg = s.cfg) (hd : t.clock.date = s.clock.date) :
    Told n s u xs where
  told := by rw [k.told, State.told, State.told, hl]
  room := k.room
  sources := k.sources.trans hs
  servo := k.servo.trans hv
  cfg := k.cfg.trans hc
  date := k.date.trans hd

theorem RoomFor.less {n m : Nat} {s : State} (h : RoomFor n s) (hm : m ≤ n) : RoomFor m s :=
  ⟨h.1, h.2.1, by have := h.2.2; omega⟩

theorem RoomFor.of {n : Nat} {s t : State} (h : RoomFor n s) (hl : t.log = s.log) : RoomFor n t := by
  unfold RoomFor
  rw [hl]
  exact h

/-- A record offered with room for it is written (R144). -/
theorem told_offerRecord {n : Nat} {s : State} (h : RoomFor (n + 1) s) (port : Option Port) (body : RecBody) :
    Told n s (offerRecord (.plain port body) s) [⟨0, port, 0, s.engineClass, s.clock.date.sn, body⟩] ∧
    (offerRecord (.plain port body) s).faults.recs = s.faults.recs := by
  obtain ⟨hm, hg, hl⟩ := h
  have acc : logAccepts s.log = true := by
    have : 2 ≤ s.log.free := by simp only [EventLog.free, Config.logSlots]; omega
    simp [logAccepts, hm, this]
  have e : offerRecord (.plain port body) s = levelNotice (s.setLog (s.log.put s (.plain port body))) := by
    simp only [offerRecord, offerBare, acc, hg, if_true, Bool.false_eq_true, if_false]
  rw [e]
  refine ⟨⟨?_, ?_, by simp, by simp, by simp, by simp⟩, by simp⟩
  · rw [told_levelNotice]
    simp [State.told, EventLog.put, Offer.plain, EventLog.append]
  · refine room_levelNotice ⟨?_, ?_, ?_⟩
    · simpa [EventLog.put, Offer.plain, EventLog.append] using hm
    · simpa [EventLog.put, Offer.plain, EventLog.append] using hg
    · simp [EventLog.put, Offer.plain, EventLog.append]
      omega

theorem told_faultAlert {n : Nat} {s : State} (h : RoomFor n s) (k : FaultKind) (clear : Bool) (subject : Subject) (d : AlertData) :
    Told n s (faultAlert k clear subject d s) [] :=
  ⟨by simp [State.told], h.of (by simp), by simp, by simp, by simp, by simp⟩

/-- A fault raised with room for its record: the record of the class with the fault active, or nothing where it was (R187). -/
theorem told_raiseFault {n : Nat} {s : State} (h : RoomFor (n + 1) s) (k : FaultKind) (subject : Subject) (d : AlertData) :
    Told n s (raiseFault k subject true d s)
      (if (s.fault k).active then [] else
        [⟨0, subject.port?, 0, max s.servoClass (s.setFault k { s.fault k with active := true }).floor, s.clock.date.sn,
          .fault k false (s.response k)⟩]) := by
  simp only [raiseFault]
  split
  · exact ⟨by simp [State.told], (h.less (by omega)).of (by simp), by simp, by simp, by simp, by simp⟩
  · rename_i ha
    have hr : RoomFor (n + 1) (watchSecond (activate k subject s)) := h.of (by simp [log_watchSecond])
    have hk := (told_offerRecord hr subject.port? (.fault k false (s.response k))).1
    have hc : (watchSecond (activate k subject s)).engineClass =
        max s.servoClass (s.setFault k { s.fault k with active := true }).floor := by
      unfold State.engineClass
      rw [servoClass_of (s := s) (by simp) (by simp)]
      congr 1
      have act : ∀ j, (watchSecond (activate k subject s)).activeAt .demote j =
          (s.setFault k { s.fault k with active := true }).activeAt .demote j := by
        intro j
        unfold State.activeAt State.response
        rw [fault_watchSecond]
        by_cases hj : j = k
        · subst hj
          simp [activate]
        · rw [activate, fault_setFault_ne _ _ _ _ hj, fault_setFault_ne _ _ _ _ hj]
          simp
      unfold State.floor
      rw [funext act]
    have hd : (watchSecond (activate k subject s)).clock.date = s.clock.date :=
      anchor_date ((anchor_watchSecond _).trans (by simp))
    rw [hc, hd] at hk
    have hresp : (watchSecond (activate k subject s)).response k = s.response k := by simp [State.response]
    simp only [faultOffer, hresp]
    have key := hk.after (s := s) (by simp [log_watchSecond]) (by simp) (by simp) (by simp) hd
    simpa using key.trans (told_faultAlert key.room k false subject d)

/-- A fault cleared with room for its record: the record of the class without the fault, or nothing where it was not active
(R188). -/
theorem told_clearFault {n : Nat} {s : State} (h : RoomFor (n + 1) s) (k : FaultKind) (subject : Subject) (d : AlertData) :
    Told n s (clearFault k subject true d s)
      (if (s.fault k).active then
        [⟨0, subject.port?, 0, max s.servoClass (s.setFault k { s.fault k with active := false }).floor, s.clock.date.sn,
          .fault k true (s.response k)⟩] else []) ∧
    (clearFault k subject true d s).faults.recs = (s.setFault k { s.fault k with active := false }).faults.recs := by
  simp only [clearFault]
  split
  · have hr : RoomFor (n + 1) (deactivate k s) := h.of (by simp)
    obtain ⟨hk, hf⟩ := told_offerRecord hr subject.port? (.fault k true (s.response k))
    have hc : (deactivate k s).engineClass = max s.servoClass (s.setFault k { s.fault k with active := false }).floor := by
      unfold State.engineClass
      rw [servoClass_of (s := s) (by simp) (by simp)]
      rfl
    have hd : (deactivate k s).clock.date = s.clock.date := by simp
    rw [hc, hd] at hk
    have hresp : (deactivate k s).response k = s.response k := by simp [State.response]
    simp only [faultOffer, hresp]
    have key := hk.after (s := s) (by simp) (by simp) (by simp) (by simp) hd
    exact ⟨by simpa using key.trans (told_faultAlert key.room k true subject d), by rw [recs_faultAlert, if_pos trivial, hf]; rfl⟩
  · rename_i ha
    refine ⟨⟨by simp, h.less (by omega), rfl, rfl, rfl, rfl⟩, ?_⟩
    have : { s.fault k with active := false } = s.fault k := by
      cases hr : s.fault k
      simp_all
    rw [this]
    simp [State.setFault, State.fault, State.setFaults]

/-- What the records and faults of a selection give from the state `s2` that the Servo has entered, with room for them: the SOURCE
record, the clear of HOLDOVER_EXPIRED on leaving HOLDOVER, the STATE record, and the clear of SOURCE_LOST (R49, R50, R69, R72). -/
theorem told_selected {s2 : State} (b : SourceEntry) (n : Nat) (h : RoomFor (n + 4) s2) (before : ServoState)
    (old : Option (BitVec 64)) (reason : Reason) :
    let s3 := offerRecord (.plain (some b.port) (.source old (some b.sender) reason)) s2
    let s4 := if before = .holdover then clearHoldoverExpired s3 else s3
    let s5 := offerStateIfChanged before s4
    let s6 := clearFault .sourceLost (.port b.port) true .nothing s5
    let calm := fun (k : FaultKind) (s : State) => s.setFault k { s2.fault k with active := false }
    let left := if before = .holdover then calm .holdoverExpired s2 else s2
    s6.told = s2.told ++ ([⟨0, some b.port, 0, s2.engineClass, s2.clock.date.sn, .source old (some b.sender) reason⟩] ++
      (if before = .holdover ∧ (s2.fault .holdoverExpired).active = true then
        [⟨0, none, 0, max s2.servoClass (calm .holdoverExpired s2).floor, s2.clock.date.sn,
          .fault .holdoverExpired true (s2.response .holdoverExpired)⟩] else []) ++
      (if s2.servo.st = before then [] else
        [⟨0, none, 0, max s2.servoClass left.floor, s2.clock.date.sn,
          .state before s2.servo.st (max s2.servoClass left.floor)⟩]) ++
      (if (s2.fault .sourceLost).active = true then
        [⟨0, some b.port, 0, max s2.servoClass (calm .sourceLost left).floor, s2.clock.date.sn,
          .fault .sourceLost true (s2.response .sourceLost)⟩] else [])) := by
  intro s3 s4 s5 s6 calm left
  obtain ⟨k3, f3⟩ := told_offerRecord (n := n+3) h (some b.port) (.source old (some b.sender) reason)
  change Told _ _ s3 _ at k3
  have k4 : ∃ xs, Told (n+2) s3 s4 xs ∧ xs = (if before = .holdover ∧ (s2.fault .holdoverExpired).active = true then
        [⟨0, none, 0, max s2.servoClass (calm .holdoverExpired s2).floor, s2.clock.date.sn,
          .fault .holdoverExpired true (s2.response .holdoverExpired)⟩] else []) ∧ s4.faults.recs = left.faults.recs := by
    by_cases hb : before = .holdover
    · simp only [s4, left, calm, if_pos hb]
      obtain ⟨q, qf⟩ := told_clearFault (n := n+2) k3.room .holdoverExpired .self .nothing
      have hff := fault_of f3 .holdoverExpired
      have sc : s3.servoClass = s2.servoClass := servoClass_of k3.servo k3.sources
      have fl : ∀ r, (s3.setFault .holdoverExpired r).floor = (s2.setFault .holdoverExpired r).floor := fun r => by
        apply floor_of
        · simp only [State.setFault, State.setFaults]; rw [show s3.faults.recs = s2.faults.recs from f3]
        · simpa using k3.cfg
      refine ⟨_, q, ?_, ?_⟩
      · rw [hff, sc, fl, k3.date]
        simp only [Subject.port?, State.response, k3.cfg]
        split <;> simp_all
      · rw [show (clearHoldoverExpired s3).faults.recs = _ from qf, hff]
        simp only [State.setFault, State.setFaults]
        rw [show s3.faults.recs = s2.faults.recs from f3]
    · simp only [s4, left, calm, if_neg hb]
      exact ⟨[], ⟨by simp, k3.room.less (by omega), rfl, rfl, rfl, rfl⟩, by simp [hb], f3⟩
  obtain ⟨xs, k4, hxs, f4⟩ := k4
  have leftcfg : left.cfg = s2.cfg := by simp only [left, calm]; split <;> simp
  have sv4 : s4.servo = s2.servo := k4.servo.trans k3.servo
  have so4 : s4.sources = s2.sources := k4.sources.trans k3.sources
  have cf4 : s4.cfg = s2.cfg := k4.cfg.trans k3.cfg
  have dt4 : s4.clock.date = s2.clock.date := k4.date.trans k3.date
  have k5 : ∃ ys, Told (n+1) s4 s5 ys ∧ ys = (if s2.servo.st = before then [] else
        [⟨0, none, 0, max s2.servoClass left.floor, s2.clock.date.sn,
          .state before s2.servo.st (max s2.servoClass left.floor)⟩]) ∧ s5.faults.recs = left.faults.recs := by
    simp only [s5, offerStateIfChanged, offerState, sv4]
    split
    · exact ⟨[], ⟨by simp, k4.room.less (by omega), rfl, rfl, rfl, rfl⟩, rfl, f4⟩
    · obtain ⟨q, qf⟩ := told_offerRecord (n := n+1) k4.room none (.state before s2.servo.st s4.engineClass)
      refine ⟨_, q, ?_, qf.trans f4⟩
      have ec : s4.engineClass = max s2.servoClass left.floor := by
        unfold State.engineClass
        rw [servoClass_of sv4 so4, floor_of f4 (by rw [cf4, leftcfg])]
      rw [ec, dt4]
  obtain ⟨ys, k5, hys, f5⟩ := k5
  obtain ⟨k6, -⟩ := told_clearFault (n := n) k5.room .sourceLost (.port b.port) .nothing
  change Told _ _ s6 _ at k6
  have := ((k3.trans k4).trans (k5.trans k6)).told
  rw [this, hxs, hys]
  have hl5 : s5.fault .sourceLost = s2.fault .sourceLost := by
    rw [fault_of f5]
    simp only [left, calm]
    split
    · exact fault_setFault_ne _ _ _ _ (by simp)
    · rfl
  have sc : s5.servoClass = s2.servoClass := servoClass_of (k5.servo.trans sv4) (k5.sources.trans so4)
  have fl : ∀ r, (s5.setFault .sourceLost r).floor = (left.setFault .sourceLost r).floor := fun r => by
    apply floor_of
    · simp only [State.setFault, State.setFaults]; rw [show s5.faults.recs = left.faults.recs from f5]
    · simp [k5.cfg, cf4, leftcfg]
  rw [hl5, sc, fl, k5.date, dt4]
  simp only [Subject.port?, State.response, k5.cfg, cf4, List.append_assoc]
  rfl

end Sys2Proof.Machine
end

