-- ==== Sys2Proof/Laws/Kept.lean ====
section
/-! SUPPORT. What a command can do to the state, said once: a predicate kept by each of the operations that the arms of
`exec` apply, in the situation in which they apply it, is kept by every command. -/

namespace Sys2Proof.Machine

/-- The predicate is kept by what each command that is not a command of a control frame does when it acts; the oscillator
period and the end of a full reset's load stand apart, as hypotheses of `kept_exec`. -/
structure KeptByEvents (P : State → Prop) : Prop where
  pulseEnd : ∀ s, P s → pulseOver s = true → P (s.setClock { s.clock with secondEnd := none })
  fullReset : ∀ s, P s → P (fullReset s)
  holdReset : ∀ s, P s → P (holdReset s)
  linkDown : ∀ s p more, P s → P (linkGoesDown p more s)
  linkUp : ∀ s p, P s → s.run ≠ .held → (s.port p).up = false → P (linkComesUp p s)
  frameStart : ∀ s p, P s → portLive s p = true → (s.port p).rx = none →
    P (setRx p (some { ingress := s.clock.date, up := s.clock.up, loading := s.run == .loading, bytes := [],
                       stage := .parsing }) s)
  lookup : ∀ s p r more ended, P s → portLive s p = true → (s.port p).rx = some r → r.stage = .parsing →
    lookupReached (r.grow more).bytes ended = true → P (lookupFrame p (r.grow more) ended s)
  editHold : ∀ s p r c more, P s → portLive s p = true → (s.port p).rx = some r → (s.port p).ctx = some c →
    r.stage = .forwarding true → c.outcome = .pending →
    P (writeStampNow p c (r.grow more).bytes (growArriving p (r.grow more).bytes (setRx p (some (r.grow more)) s)))
  oversizeLookup : ∀ s p r bytes, P s → portLive s p = true → (s.port p).rx = some r → r.stage = .parsing →
    P (lookupFrame p { r with bytes := bytes } false s)
  oversize : ∀ s p r bytes, P s → (s.port p).rx = some r → P (overrun p { r with bytes := bytes } s)
  frameEnd : ∀ s p r more, P s → portLive s p = true → (s.port p).rx = some r → P (receiveEnd p (r.grow more) s)
  sent : ∀ s p t, P s → portLive s p = true → (s.port p).tx = some t → P (finishTx p t s)
  arbitrate : ∀ s p, P s → P (arbitrate p s)
  pendingReset : ∀ s, P s → P (takePendingReset s)
  controlTake : ∀ s p c, P s → (s.port p).held = some c → agentFree s = true → P (takeFrame p c s)
  reload : ∀ s first second, P s → s.agent.reload = true → P (finishReload first second s)
  save : ∀ s img readBack, P s → s.agent.saving = some img → P (finishSave img readBack s)
  echoInterval : ∀ s p, P s → p.isUplink = true → intervalDue s p = true → P (takeInterval p (restartInterval p s))
  echoTimeout : ∀ s p, P s → p.isUplink = true → timeoutDue s p = true → P (echoTimesOut p s)
  stale : ∀ s i e, P s → s.source i = some e → staleDue s e = true → P (goStale i s)
  removal : ∀ s i e, P s → s.source i = some e → e.st = .stale → P (s.setSource i none)
  barEnd : ∀ s i e, P s → s.source i = some e → e.st = .barred → e.bar = 0 → P (endBar i e s)
  holdover : ∀ s, P s → holdoverDue s = true → P (expireHoldover s)
  slot : ∀ s i, P s → slotDue s i = true → P (nextSlot s)
  report : ∀ s i, P s → (s.peerCfg i).enabled = true → P (sendReport i s)
  silence : ∀ s i, P s → peerSilentDue s i = true → P (judgeRack (s.setPeer i { s.peer i with st := .silent }))
  holdoff : ∀ s a, P s → holdoffOver s a = true → P (s.setForm a { s.form a with holdoff := none })
  testEnd : ∀ s pass start, P s → s.log.mem = .testing start → P (endMemoryTest pass s)

/-- The predicate is kept by what each command of a control frame does, and by the delivery of its result. -/
structure KeptByCommands (P : State → Prop) : Prop where
  deliver : ∀ s code out, P s → commandsTaken s = true → P out.1 → P (deliver code out)
  logTake : ∀ s n room, P s → P (logTakeMeaning n room s).1
  writeMatch : ∀ s i a, P s → P (writeMatch i a s).1
  copyActive : ∀ s, P s → P (copyActive s).1
  swapCommand : ∀ s a, P s → P (swapCommand a s).1
  writePort : ∀ s a, P s → P (writePort a s).1
  writeLane : ∀ s a, P s → P (writeLane a s).1
  writeOverride : ∀ s a, P s → P (writeOverride a s).1
  writePeer : ∀ s a, P s → P (writePeer a s).1
  clearPeer : ∀ s i, P s → P (clearPeer i s).1
  writeServo : ∀ s a, P s → P (writeServo a s).1
  writeDrift : ∀ s a, P s → P (writeDrift a s).1
  writeFault : ∀ s k r, P s → P (writeFault k r s).1
  setDate : ∀ s (d : BitVec 48) (n : BitVec 32), P s → P (setDateTo ⟨d.toNat, n.toNat⟩ s).1
  setTrim : ∀ s (f : BitVec 32), P s → P (setTrimTo f.toInt s).1
  clearFlags : ∀ s m, P s → P (clearFlags m s).1
  barSource : ∀ s i n, P s → P (barSource i n s).1
  freeze : ∀ s, P s → P (freezeTrigger .command s)
  release : ∀ s, P s → P (releaseFreeze s)
  testLog : ∀ s, P s → P (testLog s).1
  saveSettings : ∀ s, P s → P (saveSettings s).1
  resetCommand : ∀ s a, P s → commandsTaken s = true → P (resetCommand a s).1

theorem KeptByCommands.run {P : State → Prop} (k : KeptByCommands P) {s : State} (h : P s) (code : Nat) (i : Instr)
    (m : Meaning) (hm : commandsTaken s = true → P (m (dataRoom s) s).1) : P (runCommand code i m s) := by
  simp only [runCommand]
  split
  · rename_i hturn
    simp only [hasTurn, Bool.and_eq_true] at hturn
    exact k.deliver s _ _ h hturn.1 (hm hturn.1)
  · exact h

theorem block_state (data : State → List Byte) (room : Nat) (s : State) : (Meaning.block data room s).1 = s := by
  simp only [Meaning.block]
  split <;> rfl

/-- A predicate kept by what events do is kept as the frame under reception passes 9,216 bytes. -/
theorem KeptByEvents.oversizeArrives {P : State → Prop} (k : KeptByEvents P) {s : State} (p : Port) (more : List Byte)
    (h : P s) (hp : portLive s p = true) : P (oversizeArrives p more s) := by
  simp only [Machine.oversizeArrives]
  split
  · rename_i r hr
    split
    · have h' : P (if r.stage = .parsing then lookupFrame p (r.grow more).upToOversize false s else s) := by
        split
        · exact k.oversizeLookup s p r _ h hp hr ‹_›
        · exact h
      split
      · exact k.oversize _ _ _ _ h' ‹_›
      · exact h'
    · exact h
  · exact h

/-- A predicate kept by what the commands do is kept by every command. -/
theorem kept_exec {P : State → Prop} (k : KeptByEvents P) (q : KeptByCommands P) {c : Instr} {s t : State} (h : P s)
    (hp : c = .oscillatorPeriod → s.run ≠ .held → P (clockPeriod s))
    (hl : ∀ first second, c = .settingsLoadEnd first second → s.run = .loading → P (finishLoad first second s))
    (he : exec c s = .next t) : P t := by
  cases c <;> simp only [exec] at he <;> injection he with he <;> subst he
  case oscillatorPeriod => split; exacts [h, hp rfl ‹_›]
  case secondPulseEnd => split; exacts [k.pulseEnd s h ‹_›, h]
  case powerOn => exact k.fullReset s h
  case resetLineAssert => exact k.holdReset s h
  case resetLineRelease => split; exacts [k.fullReset s h, h]
  case settingsLoadEnd => split; exacts [hl _ _ rfl ‹_›, h]
  case linkDown => split; exacts [k.linkDown _ _ _ (k.oversizeArrives _ _ h ‹_›), h]
  case linkUp => split; exacts [k.linkUp s _ h (‹_ ∧ _›).1 (‹_ ∧ _›).2, h]
  case frameStart =>
    split
    · rename_i hc
      simp only [Bool.and_eq_true, Option.isNone_iff_eq_none] at hc
      exact k.frameStart s _ h hc.1 hc.2
    · exact h
  case lookupPoint =>
    split
    · simp only []
      split
      · rename_i hc; exact k.lookup s _ _ _ _ h hc.1 ‹_› hc.2.1 hc.2.2
      · exact h
    · exact h
  case editHoldEnd =>
    split
    · simp only []
      split
      · rename_i hc; exact k.editHold s _ _ _ _ h hc.1 ‹_› ‹_› hc.2.1 hc.2.2.1
      · exact h
    · exact h
  case frameOversize p more => split; exacts [k.oversizeArrives p more h ‹_›, h]
  case frameEnd =>
    split
    · split
      · exact k.frameEnd s _ _ _ h ‹_› ‹_›
      · exact h
    · exact h
  case controlFrameTake =>
    split
    · split
      · exact k.controlTake s _ _ h ‹_› ‹_›
      · exact h
    · exact h
  case identify => exact q.run h _ _ _ (fun _ => by rw [block_state]; exact h)
  case readClock => exact q.run h _ _ _ (fun _ => by rw [block_state]; exact h)
  case readTable => exact q.run h _ _ _ (fun _ => h)
  case logStatus => exact q.run h _ _ _ (fun _ => by rw [block_state]; exact h)
  case logTake => exact q.run h _ _ _ (fun _ => q.logTake s _ _ h)
  case writeMatch => exact q.run h _ _ _ (fun _ => q.writeMatch s _ _ h)
  case copyBank => exact q.run h _ _ _ (fun _ => q.copyActive s h)
  case swapBanks => exact q.run h _ _ _ (fun _ => q.swapCommand s _ h)
  case writePort => exact q.run h _ _ _ (fun _ => q.writePort s _ h)
  case writeLane => exact q.run h _ _ _ (fun _ => q.writeLane s _ h)
  case writeOverride => exact q.run h _ _ _ (fun _ => q.writeOverride s _ h)
  case writePeer => exact q.run h _ _ _ (fun _ => q.writePeer s _ h)
  case clearPeer => exact q.run h _ _ _ (fun _ => q.clearPeer s _ h)
  case writeServo => exact q.run h _ _ _ (fun _ => q.writeServo s _ h)
  case writeDrift => exact q.run h _ _ _ (fun _ => q.writeDrift s _ h)
  case writeFault => exact q.run h _ _ _ (fun _ => q.writeFault s _ _ h)
  case setDate => exact q.run h _ _ _ (fun _ => q.setDate s _ _ h)
  case setTrim => exact q.run h _ _ _ (fun _ => q.setTrim s _ h)
  case clearFlags => exact q.run h _ _ _ (fun _ => q.clearFlags s _ h)
  case barSource => exact q.run h _ _ _ (fun _ => q.barSource s _ _ h)
  case freeze => exact q.run h _ _ _ (fun _ => q.freeze s h)
  case release => exact q.run h _ _ _ (fun _ => q.release s h)
  case testLogMemory => exact q.run h _ _ _ (fun _ => q.testLog s h)
  case saveSettings => exact q.run h _ _ _ (fun _ => q.saveSettings s h)
  case reset => exact q.run h _ _ _ (fun ht => q.resetCommand s _ h ht)
  case softReloadEnd => split; exacts [k.reload s _ _ h ‹_›, h]
  case settingsSaveEnd => split; exacts [k.save s _ _ h ‹_›, h]
  case echoIntervalExpiry =>
    split
    · rename_i hc
      simp only [Bool.and_eq_true] at hc
      exact k.echoInterval s _ h hc.1 hc.2
    · exact h
  case echoTimeout =>
    split
    · rename_i hc
      simp only [Bool.and_eq_true] at hc
      exact k.echoTimeout s _ h hc.1 hc.2
    · exact h
  case sourceStale =>
    split
    · split
      · exact k.stale s _ _ h ‹_› ‹_›
      · exact h
    · exact h
  case sourceRemoval =>
    split
    · split
      · rename_i hc
        simp only [Bool.and_eq_true, beq_iff_eq] at hc
        exact k.removal s _ _ h ‹_› hc.1
      · exact h
    · exact h
  case barExpiry =>
    split
    · split
      · rename_i hc; exact k.barEnd s _ _ h ‹_› hc.1 hc.2
      · exact h
    · exact h
  case holdoverExpiry => split; exacts [k.holdover s h ‹_›, h]
  case reportSlot =>
    split
    · split
      · exact k.report _ _ (k.slot s _ h ‹_›) (by simpa [State.peerCfg, cfg_nextSlot] using ‹_›)
      · exact k.slot s _ h ‹_›
    · exact h
  case peerSilence => split; exacts [k.silence s _ h ‹_›, h]
  case alertHoldoffExpiry =>
    split
    · split
      · exact k.holdoff s _ h ‹_›
      · exact h
    · exact h
  case logMemoryTestEnd =>
    split
    · split
      · exact k.testEnd s _ _ h ‹_›
      · exact h
    · exact h
    · exact h
  case frameSent =>
    split
    · split
      · rename_i hc
        simp only [Bool.and_eq_true] at hc
        split
        · exact k.pendingReset _ (k.sent s _ _ h hc.1 ‹_›)
        · exact k.arbitrate _ _ (k.sent s _ _ h hc.1 ‹_›)
      · exact h
    · exact h

end Sys2Proof.Machine
end

