-- ==== Sys2Proof/Laws/Reception.lean ====
section
/-! SUPPORT. What a port has of its link and of its ingress side: left as it is, on every port, by the arbiter, by alerts, by
records offered to the Event Log, by faults raised and cleared, and by the re-evaluation of the selection. -/

namespace Sys2Proof.Machine

/-- A port's link and ingress side: what its egress side never changes. -/
structure Reception where
  up : Bool
  seenUp : Bool
  rx : Option Rx
  ctx : Option DatingCtx
  held : Option CtlFrame
  stamps : Nat
  malformed : Nat
  transitDrops : Nat
  passed : Nat

def PortUnit.reception (u : PortUnit) : Reception :=
  ⟨u.up, u.seenUp, u.rx, u.ctx, u.held, u.stats.stamps, u.stats.malformed, u.stats.transitDrops, u.stats.passed⟩

def State.reception (s : State) (p : Port) : Reception := (s.port p).reception

theorem reception_of_ports {s t : State} (h : t.ports = s.ports) (p : Port) : t.reception p = s.reception p := by
  simp only [State.reception, State.port, h]

/-- Replacing a port's unit by one of the same link and ingress side leaves those of every port. -/
theorem reception_setPort (s : State) (q p : Port) (u : PortUnit) (h : u.reception = s.reception q) :
    (s.setPort q u).reception p = s.reception p := by
  simp only [State.reception, port_setPort]
  split
  · rename_i e; rw [← e]; exact h
  · rfl

@[simp] theorem reception_setEcho (s : State) (q p : Port) (e : Echo) : (s.setEcho q e).reception p = s.reception p :=
  reception_of_ports rfl p
@[simp] theorem reception_setPeer (s : State) (i : Nat) (p : Port) (d : PeerDyn) :
    (s.setPeer i d).reception p = s.reception p := reception_of_ports rfl p
@[simp] theorem reception_setForm (s : State) (a : AlertForm) (p : Port) (v : FormState) :
    (s.setForm a v).reception p = s.reception p := reception_of_ports rfl p
@[simp] theorem reception_setFault (s : State) (k : FaultKind) (p : Port) (r : FaultRec) :
    (s.setFault k r).reception p = s.reception p := reception_of_ports rfl p
@[simp] theorem reception_setLog (s : State) (l : EventLog) (p : Port) : (s.setLog l).reception p = s.reception p :=
  reception_of_ports rfl p
@[simp] theorem reception_setClock (s : State) (c : Clock) (p : Port) : (s.setClock c).reception p = s.reception p :=
  reception_of_ports rfl p

@[simp] theorem reception_watchSecond (s : State) (p : Port) : (watchSecond s).reception p = s.reception p := by
  simp only [watchSecond]
  split <;> simp

@[simp] theorem reception_recordEgress (q : Port) (tag : OrigTag) (s : State) (p : Port) :
    (recordEgress q tag s).reception p = s.reception p := by
  simp only [recordEgress, askPassesEgress, reportPassesEgress]
  (repeat' split) <;> simp

@[simp] theorem reception_grantQueued (q : Port) (o : TxFrom) (f : QFrame) (s : State) (p : Port) :
    (grantQueued q o f s).reception p = s.reception p := by
  simp only [grantQueued, reception_recordEgress]
  exact reception_setPort _ _ _ _ rfl

@[simp] theorem reception_grantForwarded (q : Port) (f : FwdFrame) (s : State) (p : Port) :
    (grantForwarded q f s).reception p = s.reception p := reception_setPort _ _ _ _ rfl

/-- A decision of an arbiter leaves the link and the ingress side of every port. -/
@[simp] theorem reception_arbitrate (q : Port) (s : State) (p : Port) :
    (arbitrate q s).reception p = s.reception p := by
  simp only [arbitrate]
  (repeat' split) <;> first
    | rfl
    | (simp only [reception_grantQueued, reception_grantForwarded]; exact reception_setPort _ _ _ _ rfl)

@[simp] theorem reception_offerGeneral (q : Port) (tag : OrigTag) (header : Nat) (bytes : List Byte) (s : State) (p : Port) :
    (offerGeneral q tag header bytes s).1.reception p = s.reception p := by
  simp only [offerGeneral, State.count]
  split <;> exact reception_setPort _ _ _ _ rfl

@[simp] theorem reception_alertEvent (a : AlertForm) (clear : Bool) (subject : Subject) (d : AlertData) (s : State) (p : Port) :
    (alertEvent a clear subject d s).reception p = s.reception p := by
  simp only [alertEvent, suppressAlert]
  (repeat' split) <;> simp

@[simp] theorem reception_faultAlert (k : FaultKind) (clear : Bool) (subject : Subject) (d : AlertData) (s : State) (p : Port) :
    (faultAlert k clear subject d s).reception p = s.reception p := by
  simp only [faultAlert]
  split <;> simp

@[simp] theorem reception_offerBare (o : Offer) (s : State) (p : Port) : (offerBare o s).1.reception p = s.reception p := by
  simp only [offerBare, levelNotice]
  (repeat' split) <;> simp

@[simp] theorem reception_raiseLogFull (s : State) (p : Port) : (raiseLogFull s).reception p = s.reception p := by
  simp only [raiseLogFull, countRaise, activate]
  split <;> simp

@[simp] theorem reception_deactivate (k : FaultKind) (s : State) (p : Port) : (deactivate k s).reception p = s.reception p :=
  reception_setFault s k p _

@[simp] theorem reception_clearLogFull (s : State) (p : Port) : (clearLogFull s).reception p = s.reception p := by
  unfold clearLogFull
  split
  · dsimp only
    rw [reception_faultAlert]
    split <;> simp
  · rfl

/-- A record offered to the Event Log leaves the link and the ingress side of every port. -/
@[simp] theorem reception_offerRecord (o : Offer) (s : State) (p : Port) : (offerRecord o s).reception p = s.reception p := by
  simp only [offerRecord]
  split <;> simp

/-- A fault raised leaves the link and the ingress side of every port. -/
@[simp] theorem reception_raiseFault (k : FaultKind) (subject : Subject) (record : Bool) (d : AlertData) (s : State) (p : Port) :
    (raiseFault k subject record d s).reception p = s.reception p := by
  simp only [raiseFault, countRaise, activate]
  (repeat' split) <;> simp

/-- A fault cleared leaves the link and the ingress side of every port. -/
@[simp] theorem reception_clearFault (k : FaultKind) (subject : Subject) (record : Bool) (d : AlertData) (s : State) (p : Port) :
    (clearFault k subject record d s).reception p = s.reception p := by
  simp only [clearFault, deactivate]
  (repeat' split) <;> simp

@[simp] theorem reception_setServo (s : State) (p : Port) (v : Servo) : (s.setServo v).reception p = s.reception p :=
  reception_of_ports rfl p
@[simp] theorem reception_setSource (s : State) (i : Nat) (p : Port) (e : Option SourceEntry) :
    (s.setSource i e).reception p = s.reception p := reception_of_ports rfl p

@[simp] theorem reception_setSourceState (i : Nat) (st : SourceState) (s : State) (p : Port) :
    (setSourceState i st s).reception p = s.reception p := by
  simp only [setSourceState]
  split <;> simp

@[simp] theorem reception_unselect (i : Nat) (s : State) (p : Port) : (unselect i s).reception p = s.reception p := by
  simp only [unselect]
  split <;> simp

@[simp] theorem reception_setServoState (st : ServoState) (s : State) (p : Port) :
    (setServoState st s).reception p = s.reception p := by
  simp [setServoState]

@[simp] theorem reception_handRate (r : Int) (s : State) (p : Port) : (handRate r s).reception p = s.reception p := by
  simp [handRate]

@[simp] theorem reception_servoFollows (s : State) (p : Port) : (servoFollows s).reception p = s.reception p := by
  simp [servoFollows]
@[simp] theorem reception_servoSwitches (s : State) (p : Port) : (servoSwitches s).reception p = s.reception p := by
  simp [servoSwitches]
@[simp] theorem reception_servoHolds (s : State) (p : Port) : (servoHolds s).reception p = s.reception p := by
  simp [servoHolds]

@[simp] theorem reception_offerStateIfChanged (before : ServoState) (s : State) (p : Port) :
    (offerStateIfChanged before s).reception p = s.reception p := by
  simp only [offerStateIfChanged, offerState]
  split <;> simp

@[simp] theorem reception_select (old : Option (Nat × SourceEntry)) (new : Nat × SourceEntry) (reason : Reason)
    (sampled : Bool) (s : State) (p : Port) : (select old new reason sampled s).reception p = s.reception p := by
  simp only [select, clearHoldoverExpired, reception_clearFault, reception_offerStateIfChanged]
  (repeat' split) <;> simp

@[simp] theorem reception_endSelection (old : Nat × SourceEntry) (reason : Reason) (s : State) (p : Port) :
    (endSelection old reason s).reception p = s.reception p := by
  simp only [endSelection, reception_raiseFault, reception_offerStateIfChanged, reception_offerRecord]
  split <;> simp

/-- A re-evaluation leaves the link and the ingress side of every port. -/
@[simp] theorem reception_reevaluate (old : Option (Nat × SourceEntry)) (why : Reason) (own : Option Nat) (s : State)
    (p : Port) : (reevaluate old why own s).reception p = s.reception p := by
  simp only [reevaluate]
  (repeat' split) <;> simp

@[simp] theorem reception_reevaluateOnHold (before : Bool) (s : State) (p : Port) :
    (reevaluateOnHold before s).reception p = s.reception p := by
  simp only [reevaluateOnHold]
  split <;> simp

@[simp] theorem reception_raiseWithHold (k : FaultKind) (subject : Subject) (record : Bool) (d : AlertData) (s : State)
    (p : Port) : (raiseWithHold k subject record d s).reception p = s.reception p := by
  simp [raiseWithHold]

@[simp] theorem reception_clearWithHold (k : FaultKind) (subject : Subject) (record : Bool) (d : AlertData) (s : State)
    (p : Port) : (clearWithHold k subject record d s).reception p = s.reception p := by
  simp [clearWithHold]

/-- The context closes: gone with its record offered, the frame under reception and stamps applied as they were (R135). -/
theorem closeMark_reception (p : Port) (bytes : List Byte) (stop len : Nat) (bad : Bool) (s : State) :
    (closeMark p bytes stop len bad s).reception p = { s.reception p with ctx := none } := by
  simp only [closeMark]
  split
  · split
    · simp only [State.reception, port_setPort, if_true]; rfl
    · rw [reception_offerRecord]; simp only [State.reception, port_setPort, if_true]; rfl
  · rename_i h
    simp only [State.reception, PortUnit.reception, h]

/-- The outcome of a context is settled: stamps applied counted where it was PENDING and is WRITTEN (R132). -/
theorem settleStamp_port (p : Port) (written : Bool) (c : DatingCtx) (s : State) (h : (s.port p).ctx = some c) :
    (settleStamp p written s).reception p =
      if c.outcome = .pending then
        { s.reception p with
          ctx := some { c with outcome := if written then .written else .unstamped }
          stamps := if written then satAdd Config.max32 (s.port p).stats.stamps 1 else (s.port p).stats.stamps }
      else s.reception p := by
  simp only [settleStamp, h]
  split
  · cases written <;> simp [State.reception, PortUnit.reception, State.count, port_setPort, Stats.incStamps]
  · rfl

end Sys2Proof.Machine
end

