-- ==== Sys2Proof/Laws/Links.lean ====
section
/-! SUPPORT. What a link change does before it re-evaluates the selection (R47, R101, R102): all that stands beside the selection,
so that the re-evaluation finds the sources, the Servo and its rate as they were. -/

namespace Sys2Proof.Machine

/-- A change beside the selection: it leaves what a re-evaluation reads and settles, and of the faults all but LOG_FULL and
LINK_DOWN. -/
structure Beside (s t : State) : Prop where
  sources : t.sources = s.sources
  servo : t.servo = s.servo
  cfg : t.cfg = s.cfg
  steady : t.steady = s.steady
  fault : ∀ k, k ≠ .logFull → k ≠ .linkDown → t.fault k = s.fault k
  up : ∀ p, (t.port p).up = (s.port p).up

theorem Beside.refl (s : State) : Beside s s := ⟨rfl, rfl, rfl, rfl, fun _ _ _ => rfl, fun _ => rfl⟩

theorem Beside.trans {s t u : State} (h : Beside s t) (k : Beside t u) : Beside s u :=
  ⟨k.sources.trans h.sources, k.servo.trans h.servo, k.cfg.trans h.cfg, k.steady.trans h.steady,
    fun j h1 h2 => (k.fault j h1 h2).trans (h.fault j h1 h2), fun p => (k.up p).trans (h.up p)⟩

theorem up_of_reception {s t : State} (h : ∀ p, t.reception p = s.reception p) (p : Port) : (t.port p).up = (s.port p).up :=
  congrArg Reception.up (h p)

theorem beside_setPort (s : State) (q : Port) (u : PortUnit) (h : u.up = (s.port q).up) : Beside s (s.setPort q u) :=
  ⟨by simp, by simp, by simp, rfl, fun _ _ _ => rfl, fun p => by
    rw [port_setPort]; split
    · rename_i e; rw [h, e]
    · rfl⟩

theorem beside_setEcho (s : State) (q : Port) (e : Echo) : Beside s (s.setEcho q e) :=
  ⟨by simp, by simp, by simp, rfl, fun _ _ _ => rfl, fun _ => rfl⟩

theorem beside_count (s : State) (q : Port) (f : Stats → Stats) : Beside s (s.count q f) := beside_setPort _ _ _ rfl

theorem beside_arbitrate (q : Port) (s : State) : Beside s (arbitrate q s) :=
  ⟨by simp, by simp, by simp, steady_of (clock_arbitrate _ _), fun k _ _ => by simp [State.fault], up_of_reception (by simp)⟩

theorem beside_offerRecord (o : Offer) (s : State) : Beside s (offerRecord o s) :=
  ⟨by simp, by simp, by simp, by simp, fun k h _ => fault_offerRecord _ _ _ h, up_of_reception (by simp)⟩

theorem beside_raiseLinkDown (subject : Subject) (record : Bool) (d : AlertData) (s : State) :
    Beside s (raiseFault .linkDown subject record d s) :=
  ⟨by simp, by simp, by simp, by simp, fun k h h2 => fault_raiseFault_ne _ _ _ _ _ _ h h2, up_of_reception (by simp)⟩

theorem beside_clearLinkDown (subject : Subject) (record : Bool) (d : AlertData) (s : State) :
    Beside s (clearFault .linkDown subject record d s) :=
  ⟨by simp, by simp, by simp, by simp, fun k h h2 => fault_clearFault_ne _ _ _ _ _ _ h h2, up_of_reception (by simp)⟩

theorem beside_settleStamp (p : Port) (w : Bool) (s : State) : Beside s (settleStamp p w s) := by
  simp only [settleStamp]
  split
  · split
    · split
      · refine .trans ?_ (beside_count _ _ _)
        exact beside_setPort _ _ _ rfl
      · exact beside_setPort _ _ _ rfl
    · exact .refl _
  · exact .refl _

theorem beside_closeMark (p : Port) (bytes : List Byte) (stop len : Nat) (bad : Bool) (s : State) :
    Beside s (closeMark p bytes stop len bad s) := by
  simp only [closeMark]
  split
  · split
    · exact beside_setPort _ _ _ rfl
    · refine .trans ?_ (beside_offerRecord _ _)
      exact beside_setPort _ _ _ rfl
  · exact .refl _

theorem beside_cutMark (p : Port) (bytes : List Byte) (len : Nat) (s : State) : Beside s (cutMark p bytes len s) := by
  simp only [cutMark]
  split
  · exact (beside_settleStamp _ _ _).trans (beside_closeMark _ _ _ _ _ _)
  · exact .refl _

theorem beside_setRx (p : Port) (r : Option Rx) (s : State) : Beside s (setRx p r s) := beside_setPort _ _ _ rfl

theorem beside_loseReception (p : Port) (more : List Byte) (s : State) : Beside s (loseReception p more s) := by
  simp only [loseReception]
  split
  · exact .refl _
  · split
    · exact beside_setRx _ _ _
    · exact beside_setRx _ _ _
    · exact (beside_setRx _ _ _).trans (beside_count _ _ _)
    · exact (beside_setRx _ _ _).trans (beside_count _ _ _)
    · split
      · refine .trans ?_ (beside_count _ _ _)
        refine .trans ?_ (beside_setPort _ _ _ rfl)
        refine .trans ?_ (beside_cutMark _ _ _ _)
        exact beside_setRx _ _ _
      · refine .trans ?_ (beside_cutMark _ _ _ _)
        exact beside_setRx _ _ _

theorem beside_flushEgress (p : Port) (s : State) : Beside s (flushEgress p s) := by
  simp only [flushEgress]
  split
  · refine .trans ?_ (beside_settleStamp _ _ _)
    refine .trans ?_ (beside_setPort _ _ _ rfl)
    exact beside_setPort _ _ _ rfl
  · exact beside_setPort _ _ _ rfl

theorem beside_echoLinkDown (p : Port) (s : State) : Beside s (echoLinkDown p s) := by
  simp only [echoLinkDown]
  split
  · exact beside_setEcho _ _ _
  · exact .refl _

theorem beside_offerTiming (p : Port) (tag : OrigTag) (header : Nat) (bytes : List Byte) (s : State) :
    Beside s (offerTiming p tag header bytes s).1 := by
  simp only [offerTiming]
  split
  · exact beside_setPort _ _ _ rfl
  · exact beside_count _ _ _

theorem beside_takeInterval (p : Port) (s : State) : Beside s (takeInterval p s) := by
  simp only [takeInterval]
  split
  · split
    · refine .trans ?_ (beside_arbitrate _ _)
      refine .trans ?_ (beside_setEcho _ _ _)
      refine .trans ?_ (beside_offerTiming _ _ _ _ _)
      exact beside_setEcho _ _ _
    · refine .trans ?_ (beside_offerTiming _ _ _ _ _)
      exact beside_setEcho _ _ _
  · exact .refl _
  · exact .refl _

theorem beside_echoLinkUp (p : Port) (s : State) : Beside s (echoLinkUp p s) := by
  simp only [echoLinkUp, startEcho]
  split
  · split
    · refine .trans ?_ (beside_takeInterval _ _)
      refine .trans ?_ (beside_setEcho _ _ _)
      exact beside_setEcho _ _ _
    · exact beside_setEcho _ _ _
  · exact .refl _

theorem Beside.seen {s t : State} (h : Beside s t) (m : ∀ k : FaultKind, (s.response k).rank ≤ k.maxResponse.rank) :
    SeenAlike s t :=
  ⟨h.sources, h.servo, hold_of m h.cfg (h.fault _ (by simp) (by simp)) (h.fault _ (by simp) (by simp)), h.up⟩

/-- The re-evaluation after a change beside the selection. -/
theorem Beside.reevaluate {s t : State} (h : Beside s t) (m : ∀ k : FaultKind, (s.response k).rank ≤ k.maxResponse.rank)
    (old : Option (Nat × SourceEntry)) (why : Reason) (own : Option Nat) :
    OneSelection (reevaluate old why own s) (reevaluate old why own t) :=
  (h.seen m).reevaluate h.steady (h.fault _ (by simp) (by simp)) old why own

end Sys2Proof.Machine
end

