-- ==== Sys2Proof/Laws/Log.lean ====
section
/-! SUPPORT. Every shared operation keeps the Event Log's form (R142). -/

namespace Sys2Proof.Machine

/-! ### The ring itself -/

theorem LogOk.append {l : EventLog} (h : LogOk l) (hb : body.isGap = false) (hm : l.mem = .inService)
    (hf : l.records.length + 1 ≤ 4096) (port : Option Port) (domain cls : Nat) (date : SN) :
    LogOk (l.append port domain cls date body) where
  level := by simpa [EventLog.append] using hf
  next := Nat.mod_lt _ (by decide)
  seqs := by
    intro i hi
    simp only [EventLog.append, List.length_append, List.length_cons, List.length_nil] at hi ⊢
    by_cases hlt : i < l.records.length
    · have := h.seqs i hlt
      rw [List.getElem_append_left hlt]
      have e : l.records.length + (0 + 1) - i = (l.records.length - i) + 1 := by omega
      rw [e, ← Nat.add_assoc, Nat.add_mod, this]
    · have e : i = l.records.length := by omega
      subst e
      simp
  gaps := by
    intro i hi hg
    simp only [EventLog.append, List.length_append, List.length_cons, List.length_nil] at hi hg ⊢
    by_cases hlt : i < l.records.length
    · rw [List.getElem_append_left hlt] at hg
      obtain ⟨h', hn⟩ := h.gaps i hlt hg
      exact ⟨by omega, by rw [List.getElem_append_left h']; exact hn⟩
    · have e : i = l.records.length := by omega
      subst e
      simp [hb] at hg
  out := by intro hne; exact absurd hm (by simpa [EventLog.append] using hne)
  missed := by simpa [EventLog.append] using h.missed
  noGap := by simpa [EventLog.append] using h.noGap

/-- A GAP record with a record of another kind behind it. -/
theorem LogOk.appendPair {l : EventLog} (h : LogOk l) (hb : body.isGap = false) (hm : l.mem = .inService)
    (hf : l.records.length + 2 ≤ 4096) (p q : Option Port) (d e c k : Nat) (x y : SN) (n : Nat) :
    LogOk ({ l.append p d c x (.gap n) with gap := false, missed := 0 }.append q e k y body) where
  level := by simp [EventLog.append]; omega
  next := by simp [EventLog.append]; omega
  seqs := by
    intro i hi
    simp only [EventLog.append, List.length_append, List.length_cons, List.length_nil, List.append_assoc] at hi ⊢
    by_cases hlt : i < l.records.length
    · have := h.seqs i hlt
      have := h.next
      rw [List.getElem_append_left hlt]
      omega
    · have : i = l.records.length ∨ i = l.records.length + 1 := by omega
      have := h.next
      rcases ‹i = _ ∨ i = _› with e | e <;> subst e <;> simp [List.getElem_append_right] <;> omega
  gaps := by
    intro i hi hg
    simp only [EventLog.append, List.length_append, List.length_cons, List.length_nil, List.append_assoc] at hi hg ⊢
    by_cases hlt : i < l.records.length
    · rw [List.getElem_append_left hlt] at hg
      obtain ⟨h', hn⟩ := h.gaps i hlt hg
      exact ⟨by omega, by rw [List.getElem_append_left h']; exact hn⟩
    · have : i = l.records.length ∨ i = l.records.length + 1 := by omega
      rcases this with e | e
      · subst e
        exact ⟨by omega, by simp [List.getElem_append_right, hb]⟩
      · subst e
        simp [List.getElem_append_right, hb] at hg
  out := by intro hne; exact absurd hm (by simpa [EventLog.append] using hne)
  missed := by simp [EventLog.append]
  noGap := by simp [EventLog.append]

theorem LogOk.miss {l : EventLog} (h : LogOk l) : LogOk l.miss where
  level := h.level
  next := h.next
  seqs := h.seqs
  gaps := h.gaps
  out := h.out
  missed := by simp [EventLog.miss, satAdd]
  noGap := by simp [EventLog.miss]

theorem LogOk.notice {l : EventLog} (h : LogOk l) (b : Bool) : LogOk { l with noticeSent := b } where
  level := h.level
  next := h.next
  seqs := h.seqs
  gaps := h.gaps
  out := h.out
  missed := h.missed
  noGap := h.noGap

/-- The log emptied, in any memory state (R153, R160). -/
theorem LogOk.emptied {l : EventLog} (h : LogOk l) (m : MemState) (b : Bool) :
    LogOk { l with records := [], mem := m, noticeSent := b } where
  level := by simp
  next := h.next
  seqs := by intro i hi; simp at hi
  gaps := by intro i hi; simp at hi
  out := by simp
  missed := h.missed
  noGap := h.noGap

/-- The oldest records removed (R149). -/
theorem LogOk.removed {l : EventLog} (h : LogOk l) (k : Nat) (b : Bool) :
    LogOk { l with records := l.records.drop k, noticeSent := b } where
  level := by have := h.level; simp; omega
  next := h.next
  seqs := by
    intro i hi
    simp only [List.length_drop, List.getElem_drop] at hi ⊢
    have := h.seqs (k + i) (by omega)
    rw [← this]
    congr 2
    omega
  gaps := by
    intro i hi hg
    simp only [List.length_drop, List.getElem_drop] at hi hg ⊢
    obtain ⟨h', hn⟩ := h.gaps (k + i) (by omega) hg
    exact ⟨by omega, by simpa [Nat.add_assoc] using hn⟩
  out := by intro hne; simp [h.out hne]
  missed := h.missed
  noGap := h.noGap

theorem logOk_reset : LogOk EventLog.reset where
  level := by simp [EventLog.reset]
  next := by simp [EventLog.reset]
  seqs := by intro i hi; simp [EventLog.reset] at hi
  gaps := by intro i hi; simp [EventLog.reset] at hi
  out := by simp [EventLog.reset]
  missed := by simp [EventLog.reset]
  noGap := by simp [EventLog.reset]

/-! ### The write rule -/

theorem logOk_levelNotice (s : State) (h : LogOk s.log) : LogOk (levelNotice s).log := by
  simp only [levelNotice]
  split
  · simpa using h.notice true
  · exact h

theorem logOk_offerBare (o : Offer) (s : State) (h : LogOk s.log) (hb : o.body.isGap = false) :
    LogOk (offerBare o s).1.log := by
  simp only [offerBare]
  split
  · rename_i hacc
    simp only [logAccepts, EventLog.free, Config.logSlots, Bool.and_eq_true, beq_iff_eq, decide_eq_true_eq] at hacc
    split
    · apply logOk_levelNotice
      simp only [State.setLog_log, EventLog.put]
      split <;> exact h.appendPair hb hacc.1 (by have := of_decide_eq_true hacc.2; omega) _ _ _ _ _ _ _ _ _
    · apply logOk_levelNotice
      simp only [State.setLog_log, EventLog.put]
      split <;> exact h.append hb hacc.1 (by have := of_decide_eq_true hacc.2; omega) _ _ _ _
  · simpa using h.miss

theorem logOk_raiseLogFull (s : State) (h : LogOk s.log) : LogOk (raiseLogFull s).log := by
  simp only [raiseLogFull]
  split
  · simpa using h
  · simp only [log_faultAlert]
    exact logOk_offerBare _ _ (by simpa using h) rfl

theorem logOk_clearLogFull (s : State) (h : LogOk s.log) : LogOk (clearLogFull s).log := by
  simp only [clearLogFull]
  split
  · simp only [log_faultAlert]
    split
    · exact logOk_raiseLogFull _ (logOk_offerBare _ _ (by simpa using h) rfl)
    · exact logOk_offerBare _ _ (by simpa using h) rfl
  · exact h

theorem logOk_offerRecord (o : Offer) (s : State) (h : LogOk s.log) (hb : o.body.isGap = false) :
    LogOk (offerRecord o s).log := by
  have hout := logOk_offerBare o s h hb
  simp only [offerRecord]
  split
  · exact logOk_raiseLogFull _ hout
  · exact logOk_clearLogFull _ hout
  · exact hout
  · exact hout

theorem logOk_raiseLogFullAgain (s : State) (h : LogOk s.log) : LogOk (raiseLogFullAgain s).log := by
  simp only [raiseLogFullAgain]
  split
  · simpa using h
  · split
    · apply logOk_clearLogFull
      simp only [log_faultAlert]
      exact logOk_offerBare _ _ (by simpa using h) rfl
    · simp only [log_faultAlert]
      exact logOk_offerBare _ _ (by simpa using h) rfl

theorem logOk_removeRecords (k : Nat) (s : State) (h : LogOk s.log) : LogOk (removeRecords k s).log := by
  simp only [removeRecords]
  split
  · exact h
  · exact h.removed k _

theorem logOk_foldl {α : Type} (f : State → α → State) (hf : ∀ t a, LogOk t.log → LogOk (f t a).log) (s : State)
    (l : List α) (h : LogOk s.log) : LogOk (l.foldl f s).log := by
  induction l generalizing s with
  | nil => exact h
  | cons a rest ih => exact ih _ (hf _ _ h)

theorem logOk_testLog (s : State) (h : LogOk s.log) : LogOk (testLog s).1.log := by
  simp only [testLog]
  (repeat' split) <;> first | exact h | skip
  all_goals
  rename_i hlen
  have e : s.log.records = [] := by
    cases hr : s.log.records with
    | nil => rfl
    | cons a l => simp [hr] at hlen
  have := h.emptied (.testing s.clock.up) s.log.noticeSent
  rw [← e] at this
  exact this

/-! ### Every other operation -/

theorem logOk_raiseFault (k : FaultKind) (subject : Subject) (record : Bool) (d : AlertData) (s : State) (h : LogOk s.log) :
    LogOk (raiseFault k subject record d s).log := by
  simp only [raiseFault]
  (repeat' split) <;> (repeat' first
      | with_reducible assumption | with_reducible apply logOk_offerRecord | (show RecBody.isGap _ = false; rfl)
      | simp)

theorem logOk_clearFault (k : FaultKind) (subject : Subject) (record : Bool) (d : AlertData) (s : State) (h : LogOk s.log) :
    LogOk (clearFault k subject record d s).log := by
  simp only [clearFault]
  (repeat' split) <;> (repeat' first
      | with_reducible assumption | with_reducible apply logOk_offerRecord | (show RecBody.isGap _ = false; rfl)
      | simp)

theorem logOk_offerState (old : ServoState) (s : State) (h : LogOk s.log) :
    LogOk (offerState old s).log := by
  simp only [offerState]
  (repeat' split) <;> (repeat' first
      | with_reducible assumption | with_reducible apply logOk_offerRecord | (show RecBody.isGap _ = false; rfl)
      | simp)

theorem logOk_clearHoldoverExpired (s : State) (h : LogOk s.log) :
    LogOk (clearHoldoverExpired s).log := by
  simp only [clearHoldoverExpired]
  (repeat' split) <;> (repeat' first
      | with_reducible assumption | with_reducible apply logOk_clearFault | (show RecBody.isGap _ = false; rfl)
      | simp)

theorem logOk_offerStateIfChanged (before : ServoState) (s : State) (h : LogOk s.log) :
    LogOk (offerStateIfChanged before s).log := by
  simp only [offerStateIfChanged]
  (repeat' split) <;> (repeat' first
      | with_reducible assumption | with_reducible apply logOk_offerState | (show RecBody.isGap _ = false; rfl)
      | simp)

theorem logOk_select (old : Option (Nat × SourceEntry)) (new : Nat × SourceEntry) (reason : Reason) (sampled : Bool) (s : State) (h : LogOk s.log) :
    LogOk (select old new reason sampled s).log := by
  simp only [select]
  (repeat' split) <;> (repeat' first
      | with_reducible assumption | with_reducible apply logOk_offerRecord | with_reducible apply logOk_clearFault
      | with_reducible apply logOk_clearHoldoverExpired | with_reducible apply logOk_offerStateIfChanged
      | (show RecBody.isGap _ = false; rfl) | simp)

theorem logOk_endSelection (old : Nat × SourceEntry) (reason : Reason) (s : State) (h : LogOk s.log) :
    LogOk (endSelection old reason s).log := by
  simp only [endSelection]
  (repeat' split) <;> (repeat' first
      | with_reducible assumption | with_reducible apply logOk_offerRecord | with_reducible apply logOk_raiseFault
      | with_reducible apply logOk_offerStateIfChanged | (show RecBody.isGap _ = false; rfl) | simp)

theorem logOk_reevaluate (old : Option (Nat × SourceEntry)) (why : Reason) (own : Option Nat) (s : State) (h : LogOk s.log) :
    LogOk (reevaluate old why own s).log := by
  simp only [reevaluate]
  (repeat' split) <;> (repeat' first
      | with_reducible assumption | with_reducible apply logOk_select | with_reducible apply logOk_endSelection
      | (show RecBody.isGap _ = false; rfl) | simp)

theorem logOk_reevaluateOnHold (before : Bool) (s : State) (h : LogOk s.log) :
    LogOk (reevaluateOnHold before s).log := by
  simp only [reevaluateOnHold]
  (repeat' split) <;> (repeat' first
      | with_reducible assumption | with_reducible apply logOk_reevaluate | (show RecBody.isGap _ = false; rfl)
      | simp)

theorem logOk_raiseWithHold (k : FaultKind) (subject : Subject) (record : Bool) (d : AlertData) (s : State) (h : LogOk s.log) :
    LogOk (raiseWithHold k subject record d s).log := by
  simp only [raiseWithHold]
  (repeat' split) <;> (repeat' first
      | with_reducible assumption | with_reducible apply logOk_raiseFault
      | with_reducible apply logOk_reevaluateOnHold | (show RecBody.isGap _ = false; rfl) | simp)

theorem logOk_clearWithHold (k : FaultKind) (subject : Subject) (record : Bool) (d : AlertData) (s : State) (h : LogOk s.log) :
    LogOk (clearWithHold k subject record d s).log := by
  simp only [clearWithHold]
  (repeat' split) <;> (repeat' first
      | with_reducible assumption | with_reducible apply logOk_clearFault
      | with_reducible apply logOk_reevaluateOnHold | (show RecBody.isGap _ = false; rfl) | simp)

theorem logOk_leaveLocked (s : State) (h : LogOk s.log) :
    LogOk (leaveLocked s).log := by
  simp only [leaveLocked]
  (repeat' split) <;> (repeat' first
      | with_reducible assumption | with_reducible apply logOk_offerState | (show RecBody.isGap _ = false; rfl)
      | simp)

theorem logOk_afterStep (amount : Nat) (s : State) (h : LogOk s.log) :
    LogOk (afterStep amount s).log := by
  simp only [afterStep]
  (repeat' split) <;> (repeat' first
      | with_reducible assumption | with_reducible apply logOk_offerRecord
      | with_reducible apply logOk_leaveLocked | (show RecBody.isGap _ = false; rfl) | simp)

theorem logOk_servoStep (amount : Nat) (s : State) (h : LogOk s.log) :
    LogOk (servoStep amount s).log := by
  simp only [servoStep]
  (repeat' split) <;> (repeat' first
      | with_reducible assumption | with_reducible apply logOk_afterStep | (show RecBody.isGap _ = false; rfl)
      | simp)

theorem logOk_startCatchDown (s : State) (h : LogOk s.log) :
    LogOk (startCatchDown s).log := by
  simp only [startCatchDown]
  (repeat' split) <;> (repeat' first
      | with_reducible assumption | with_reducible apply logOk_leaveLocked | (show RecBody.isGap _ = false; rfl)
      | simp)

theorem logOk_filterUpdate (theta k : Int) (s : State) (h : LogOk s.log) :
    LogOk (filterUpdate theta k s).log := by
  simp only [filterUpdate]
  (repeat' split) <;> (repeat' first
      | with_reducible assumption | with_reducible apply logOk_raiseWithHold | (show RecBody.isGap _ = false; rfl)
      | simp)

theorem logOk_lockCounting (theta : Int) (s : State) (h : LogOk s.log) :
    LogOk (lockCounting theta s).log := by
  simp only [lockCounting]
  (repeat' split) <;> (repeat' first
      | with_reducible assumption | with_reducible apply logOk_offerState | with_reducible apply logOk_leaveLocked
      | (show RecBody.isGap _ = false; rfl) | simp)

theorem logOk_sampleInUnset (x : ServoSample) (s : State) (h : LogOk s.log) :
    LogOk (sampleInUnset x s).log := by
  simp only [sampleInUnset]
  (repeat' split) <;> (repeat' first
      | with_reducible assumption | with_reducible apply logOk_offerState | (show RecBody.isGap _ = false; rfl)
      | simp)

theorem logOk_filterAndLock (x : ServoSample) (s : State) (h : LogOk s.log) :
    LogOk (filterAndLock x s).log := by
  simp only [filterAndLock]
  (repeat' split) <;> (repeat' first
      | with_reducible assumption | with_reducible apply logOk_filterUpdate
      | with_reducible apply logOk_lockCounting | (show RecBody.isGap _ = false; rfl) | simp)

theorem logOk_sampleInCatchDown (x : ServoSample) (s : State) (h : LogOk s.log) :
    LogOk (sampleInCatchDown x s).log := by
  simp only [sampleInCatchDown]
  (repeat' split) <;> (repeat' first
      | with_reducible assumption | with_reducible apply logOk_servoStep
      | with_reducible apply logOk_filterAndLock | (show RecBody.isGap _ = false; rfl) | simp)

theorem logOk_sampleOutside (x : ServoSample) (s : State) (h : LogOk s.log) :
    LogOk (sampleOutside x s).log := by
  simp only [sampleOutside]
  (repeat' split) <;> (repeat' first
      | with_reducible assumption | with_reducible apply logOk_servoStep
      | with_reducible apply logOk_startCatchDown | with_reducible apply logOk_filterAndLock
      | (show RecBody.isGap _ = false; rfl) | simp)

theorem logOk_sampleInFollow (x : ServoSample) (s : State) (h : LogOk s.log) :
    LogOk (sampleInFollow x s).log := by
  simp only [sampleInFollow]
  (repeat' split) <;> (repeat' first
      | with_reducible assumption | with_reducible apply logOk_sampleInCatchDown
      | with_reducible apply logOk_sampleOutside | (show RecBody.isGap _ = false; rfl) | simp)

theorem logOk_takeSample (x : ServoSample) (s : State) (h : LogOk s.log) :
    LogOk (takeSample x s).log := by
  simp only [takeSample]
  (repeat' split) <;> (repeat' first
      | with_reducible assumption | with_reducible apply logOk_sampleInUnset
      | with_reducible apply logOk_sampleInFollow | (show RecBody.isGap _ = false; rfl) | simp)

theorem logOk_expireHoldover (s : State) (h : LogOk s.log) :
    LogOk (expireHoldover s).log := by
  simp only [expireHoldover]
  (repeat' split) <;> (repeat' first
      | with_reducible assumption | with_reducible apply logOk_offerState
      | with_reducible apply logOk_raiseWithHold | (show RecBody.isGap _ = false; rfl) | simp)

theorem logOk_unexpireHoldover (s : State) (h : LogOk s.log) :
    LogOk (unexpireHoldover s).log := by
  simp only [unexpireHoldover]
  (repeat' split) <;> (repeat' first
      | with_reducible assumption | with_reducible apply logOk_offerState
      | with_reducible apply logOk_clearWithHold | (show RecBody.isGap _ = false; rfl) | simp)

theorem logOk_judgeHoldover (s : State) (h : LogOk s.log) :
    LogOk (judgeHoldover s).log := by
  simp only [judgeHoldover]
  (repeat' split) <;> (repeat' first
      | with_reducible assumption | with_reducible apply logOk_expireHoldover
      | with_reducible apply logOk_unexpireHoldover | (show RecBody.isGap _ = false; rfl) | simp)

theorem logOk_applyServo (p : ServoParams) (width limit : Nat) (s : State) (h : LogOk s.log) :
    LogOk (applyServo p width limit s).log := by
  simp only [applyServo]
  (repeat' split) <;> (repeat' first
      | with_reducible assumption | with_reducible apply logOk_judgeHoldover | (show RecBody.isGap _ = false; rfl)
      | simp)

theorem logOk_setDateTo (d : SN) (s : State) (h : LogOk s.log) :
    LogOk (setDateTo d s).1.log := by
  simp only [setDateTo]
  (repeat' split) <;> (repeat' first
      | with_reducible assumption | with_reducible apply logOk_offerRecord | with_reducible apply logOk_offerState
      | (show RecBody.isGap _ = false; rfl) | simp)

theorem logOk_servoSoftReset (s : State) (h : LogOk s.log) :
    LogOk (servoSoftReset s).log := by
  simp only [servoSoftReset]
  (repeat' split) <;> (repeat' first
      | with_reducible assumption | with_reducible apply logOk_offerState | (show RecBody.isGap _ = false; rfl)
      | simp)

theorem logOk_afterBeacon (w : Whole) (i p : Nat) (a : Int) (old : Option (Nat × SourceEntry)) (s : State) (h : LogOk s.log) :
    LogOk (afterBeacon w i p a old s).log := by
  simp only [afterBeacon]
  (repeat' split) <;> (repeat' first
      | with_reducible assumption | with_reducible apply logOk_reevaluate | with_reducible apply logOk_takeSample
      | (show RecBody.isGap _ = false; rfl) | simp)

theorem logOk_beaconIntoTable (w : Whole) (s : State) (h : LogOk s.log) :
    LogOk (beaconIntoTable w s).log := by
  simp only [beaconIntoTable]
  (repeat' split) <;> (repeat' first
      | with_reducible assumption | with_reducible apply logOk_afterBeacon | (show RecBody.isGap _ = false; rfl)
      | simp)

theorem logOk_goStale (i : Nat) (s : State) (h : LogOk s.log) :
    LogOk (goStale i s).log := by
  simp only [goStale]
  (repeat' split) <;> (repeat' first
      | with_reducible assumption | with_reducible apply logOk_reevaluate | (show RecBody.isGap _ = false; rfl)
      | simp)

theorem logOk_afterBar (old : Option (Nat × SourceEntry)) (s : State) (h : LogOk s.log) :
    LogOk (afterBar old s).log := by
  simp only [afterBar]
  (repeat' split) <;> (repeat' first
      | with_reducible assumption | with_reducible apply logOk_reevaluate | (show RecBody.isGap _ = false; rfl)
      | simp)

theorem logOk_endBar (i : Nat) (e : SourceEntry) (s : State) (h : LogOk s.log) :
    LogOk (endBar i e s).log := by
  simp only [endBar]
  (repeat' split) <;> (repeat' first
      | with_reducible assumption | with_reducible apply logOk_afterBar | (show RecBody.isGap _ = false; rfl)
      | simp)

theorem logOk_setBar (i : Nat) (e : SourceEntry) (seconds : Nat) (s : State) (h : LogOk s.log) :
    LogOk (setBar i e seconds s).log := by
  simp only [setBar]
  (repeat' split) <;> (repeat' first
      | with_reducible assumption | with_reducible apply logOk_afterBar | (show RecBody.isGap _ = false; rfl)
      | simp)

theorem logOk_barEntry (i : Nat) (e : SourceEntry) (seconds : Nat) (s : State) (h : LogOk s.log) :
    LogOk (barEntry i e seconds s).log := by
  simp only [barEntry]
  (repeat' split) <;> (repeat' first
      | with_reducible assumption | with_reducible apply logOk_endBar | with_reducible apply logOk_setBar
      | (show RecBody.isGap _ = false; rfl) | simp)

theorem logOk_barSelected (seconds : Nat) (s : State) (h : LogOk s.log) :
    LogOk (barSelected seconds s).log := by
  simp only [barSelected]
  (repeat' split) <;> (repeat' first
      | with_reducible assumption | with_reducible apply logOk_barEntry | (show RecBody.isGap _ = false; rfl)
      | simp)

theorem logOk_handleBeacon (w : Whole) (s : State) (h : LogOk s.log) :
    LogOk (handleBeacon w s).log := by
  simp only [handleBeacon]
  (repeat' split) <;> (repeat' first
      | with_reducible assumption | with_reducible apply logOk_beaconIntoTable
      | (show RecBody.isGap _ = false; rfl) | simp)

theorem logOk_setSelfDrift (v : Verdict) (s : State) (h : LogOk s.log) :
    LogOk (setSelfDrift v s).log := by
  simp only [setSelfDrift]
  (repeat' split) <;> (repeat' first
      | with_reducible assumption | with_reducible apply logOk_offerRecord
      | with_reducible apply logOk_raiseWithHold | with_reducible apply logOk_barSelected
      | (show RecBody.isGap _ = false; rfl) | simp)

theorem logOk_clearSelfDrift (v : Verdict) (e : Episode) (s : State) (h : LogOk s.log) :
    LogOk (clearSelfDrift v e s).log := by
  simp only [clearSelfDrift]
  (repeat' split) <;> (repeat' first
      | with_reducible assumption | with_reducible apply logOk_offerRecord
      | with_reducible apply logOk_clearWithHold | (show RecBody.isGap _ = false; rfl) | simp)

theorem logOk_judgeSelf (s : State) (h : LogOk s.log) :
    LogOk (judgeSelf s).log := by
  simp only [judgeSelf]
  (repeat' split) <;> (repeat' first
      | with_reducible assumption | with_reducible apply logOk_setSelfDrift
      | with_reducible apply logOk_clearSelfDrift | (show RecBody.isGap _ = false; rfl) | simp)

theorem logOk_warnPeer (i : Nat) (vote : Vote) (s : State) (h : LogOk s.log) :
    LogOk (warnPeer i vote s).log := by
  simp only [warnPeer]
  (repeat' split) <;> (repeat' first
      | with_reducible assumption | with_reducible apply logOk_offerRecord
      | with_reducible apply logOk_raiseWithHold | (show RecBody.isGap _ = false; rfl) | simp)

theorem logOk_unwarnPeer (i : Nat) (vote : Vote) (s : State) (h : LogOk s.log) :
    LogOk (unwarnPeer i vote s).log := by
  simp only [unwarnPeer]
  (repeat' split) <;> (repeat' first
      | with_reducible assumption | with_reducible apply logOk_offerRecord | (show RecBody.isGap _ = false; rfl)
      | simp)

theorem logOk_judgePeer (s : State) (i : Nat) (h : LogOk s.log) :
    LogOk (judgePeer s i).log := by
  simp only [judgePeer]
  (repeat' split) <;> (repeat' first
      | with_reducible assumption | with_reducible apply logOk_warnPeer | with_reducible apply logOk_unwarnPeer
      | (show RecBody.isGap _ = false; rfl) | simp)

theorem logOk_judgeRack (s : State) (h : LogOk s.log) :
    LogOk (judgeRack s).log := by
  simp only [judgeRack]
  (repeat' split) <;> (repeat' first
      | with_reducible assumption | (with_reducible apply logOk_foldl; intro t _ ht)
      | with_reducible apply logOk_judgeSelf | with_reducible apply logOk_judgePeer
      | (show RecBody.isGap _ = false; rfl) | simp)

theorem logOk_reportReceived (w : Whole) (s : State) (h : LogOk s.log) :
    LogOk (reportReceived w s).log := by
  simp only [reportReceived]
  (repeat' split) <;> (repeat' first
      | with_reducible assumption | with_reducible apply logOk_judgeRack | (show RecBody.isGap _ = false; rfl)
      | simp)

theorem logOk_voidReports (i : Nat) (s : State) (h : LogOk s.log) : LogOk (voidReports i s).log := h

theorem logOk_writePeerAt (i : Nat) (c : PeerCfg) (s : State) (h : LogOk s.log) :
    LogOk (writePeerAt i c s).log := by
  simp only [writePeerAt]
  (repeat' split) <;> (repeat' first
      | with_reducible assumption | with_reducible apply logOk_voidReports | with_reducible apply logOk_judgeRack | (show RecBody.isGap _ = false; rfl)
      | simp)

theorem logOk_clearPeerAt (i : Nat) (s : State) (h : LogOk s.log) :
    LogOk (clearPeerAt i s).log := by
  simp only [clearPeerAt]
  (repeat' split) <;> (repeat' first
      | with_reducible assumption | with_reducible apply logOk_voidReports | with_reducible apply logOk_judgeRack | (show RecBody.isGap _ = false; rfl)
      | simp)

theorem logOk_applyDrift (p : DriftParams) (holdoff threshold : Nat) (s : State) (h : LogOk s.log) :
    LogOk (applyDrift p holdoff threshold s).log := by
  simp only [applyDrift]
  (repeat' split) <;> (repeat' first
      | with_reducible assumption | with_reducible apply logOk_judgeRack | (show RecBody.isGap _ = false; rfl)
      | simp)

theorem logOk_freezeTrigger (t : Trigger) (s : State) (h : LogOk s.log) :
    LogOk (freezeTrigger t s).log := by
  simp only [freezeTrigger]
  (repeat' split) <;> (repeat' first
      | with_reducible assumption | with_reducible apply logOk_offerRecord | (show RecBody.isGap _ = false; rfl)
      | simp)

theorem logOk_releaseFreeze (s : State) (h : LogOk s.log) :
    LogOk (releaseFreeze s).log := by
  simp only [releaseFreeze]
  (repeat' split) <;> (repeat' first
      | with_reducible assumption | with_reducible apply logOk_offerRecord | (show RecBody.isGap _ = false; rfl)
      | simp)

theorem logOk_openMark (p : Port) (index : Nat) (e : MatchEntry) (ingress : Date) (s : State) (h : LogOk s.log) :
    LogOk (openMark p index e ingress s).log := by
  simp only [openMark]
  (repeat' split) <;> (repeat' first
      | with_reducible assumption | with_reducible apply logOk_freezeTrigger | (show RecBody.isGap _ = false; rfl)
      | simp)

theorem logOk_closeMark (p : Port) (bytes : List Byte) (stop len : Nat) (badFcs : Bool) (s : State) (h : LogOk s.log) :
    LogOk (closeMark p bytes stop len badFcs s).log := by
  simp only [closeMark]
  (repeat' split) <;> (repeat' first
      | with_reducible assumption | with_reducible apply logOk_offerRecord | (show RecBody.isGap _ = false; rfl)
      | simp)

theorem logOk_cutMark (p : Port) (bytes : List Byte) (len : Nat) (s : State) (h : LogOk s.log) :
    LogOk (cutMark p bytes len s).log := by
  simp only [cutMark]
  (repeat' split) <;> (repeat' first
      | with_reducible assumption | with_reducible apply logOk_closeMark | (show RecBody.isGap _ = false; rfl)
      | simp)

theorem logOk_markFrame (p : Port) (r : Rx) (index : Nat) (e : MatchEntry) (s : State) (h : LogOk s.log) :
    LogOk (markFrame p r index e s).log := by
  simp only [markFrame]
  (repeat' split) <;> (repeat' first
      | with_reducible assumption | with_reducible apply logOk_openMark | (show RecBody.isGap _ = false; rfl)
      | simp)

theorem logOk_lookupFrame (p : Port) (r : Rx) (ended : Bool) (s : State) (h : LogOk s.log) :
    LogOk (lookupFrame p r ended s).log := by
  simp only [lookupFrame]
  (repeat' split) <;> (repeat' first
      | with_reducible assumption | with_reducible apply logOk_markFrame | (show RecBody.isGap _ = false; rfl)
      | simp)

theorem logOk_overrun (p : Port) (r : Rx) (s : State) (h : LogOk s.log) :
    LogOk (overrun p r s).log := by
  simp only [overrun]
  (repeat' split) <;> (repeat' first
      | with_reducible assumption | with_reducible apply logOk_cutMark | (show RecBody.isGap _ = false; rfl)
      | simp)

theorem logOk_dispatchL2 (w : Whole) (s : State) (h : LogOk s.log) :
    LogOk (dispatchL2 w s).log := by
  simp only [dispatchL2]
  (repeat' split) <;> (repeat' first
      | with_reducible assumption | with_reducible apply logOk_handleBeacon | (show RecBody.isGap _ = false; rfl)
      | simp)

theorem logOk_dispatchUdp (w : Whole) (mgmt utx : Bool) (privilege : Privilege) (s : State) (h : LogOk s.log) :
    LogOk (dispatchUdp w mgmt utx privilege s).log := by
  simp only [dispatchUdp]
  (repeat' split) <;> (repeat' first
      | with_reducible assumption | with_reducible apply logOk_reportReceived
      | (show RecBody.isGap _ = false; rfl) | simp)

theorem logOk_endForwarded (p : Port) (r : Rx) (inLane : Bool) (s : State) (h : LogOk s.log) :
    LogOk (endForwarded p r inLane s).log := by
  simp only [endForwarded]
  (repeat' split) <;> (repeat' first
      | with_reducible assumption | with_reducible apply logOk_closeMark | (show RecBody.isGap _ = false; rfl)
      | simp)

theorem logOk_endFrame (p : Port) (r : Rx) (s : State) (h : LogOk s.log) :
    LogOk (endFrame p r s).log := by
  simp only [endFrame]
  (repeat' split) <;> (repeat' first
      | with_reducible assumption | with_reducible apply logOk_dispatchL2 | with_reducible apply logOk_dispatchUdp
      | with_reducible apply logOk_endForwarded | (show RecBody.isGap _ = false; rfl) | simp)

theorem logOk_receiveEnd (p : Port) (r : Rx) (s : State) (h : LogOk s.log) :
    LogOk (receiveEnd p r s).log := by
  simp only [receiveEnd]
  (repeat' split) <;> (repeat' first
      | with_reducible assumption | with_reducible apply logOk_lookupFrame | with_reducible apply logOk_overrun
      | with_reducible apply logOk_endFrame | (show RecBody.isGap _ = false; rfl) | simp)

theorem logOk_oversizeArrives (p : Port) (more : List Byte) (s : State) (h : LogOk s.log) :
    LogOk (oversizeArrives p more s).log := by
  simp only [oversizeArrives]
  (repeat' split) <;> (repeat' first
      | with_reducible assumption | with_reducible apply logOk_lookupFrame | with_reducible apply logOk_overrun)

theorem logOk_applyReload (c : Settings) (bank : Vector MatchEntry 64) (s : State) (h : LogOk s.log) :
    LogOk (applyReload c bank s).log := by
  simp only [applyReload]
  (repeat' split) <;> (repeat' first
      | with_reducible assumption | with_reducible apply logOk_reevaluateOnHold
      | with_reducible apply logOk_applyServo | (show RecBody.isGap _ = false; rfl) | simp)

theorem logOk_softReset {l : EventLog} (h : LogOk l) : LogOk l.softReset := by
  simp only [EventLog.softReset]
  split
  · exact h.emptied .inService false
  · exact h
  · exact h

theorem logOk_softResetNow (reload : Bool) (s : State) (h : LogOk s.log) : LogOk (softResetNow reload s).log := by
  simp only [softResetNow]
  apply logOk_servoSoftReset
  simpa using logOk_softReset h

theorem logOk_raiseAgain (expired : Bool) (s : State) (h : LogOk s.log) :
    LogOk (raiseAgain expired s).log := by
  simp only [raiseAgain]
  (repeat' split) <;> (repeat' first
      | with_reducible assumption | with_reducible apply logOk_raiseLogFullAgain
      | with_reducible apply logOk_raiseWithHold | (show RecBody.isGap _ = false; rfl) | simp)

theorem logOk_completeSoft (expired : Bool) (s : State) (h : LogOk s.log) :
    LogOk (completeSoft expired s).log := by
  simp only [completeSoft]
  (repeat' split) <;> (repeat' first
      | with_reducible assumption | with_reducible apply logOk_raiseAgain | (show RecBody.isGap _ = false; rfl)
      | simp)

theorem logOk_fullReset (s : State) : LogOk (fullReset s).log := logOk_reset

theorem logOk_takeReset (k : ResetKind) (s : State) (h : LogOk s.log) :
    LogOk (takeReset k s).log := by
  simp only [takeReset]
  (repeat' split) <;> (repeat' first
      | with_reducible assumption | with_reducible apply logOk_softResetNow
      | with_reducible apply logOk_completeSoft | with_reducible apply logOk_fullReset
      | (show RecBody.isGap _ = false; rfl) | simp)

theorem logOk_takePendingReset (s : State) (h : LogOk s.log) :
    LogOk (takePendingReset s).log := by
  simp only [takePendingReset]
  (repeat' split) <;> (repeat' first
      | with_reducible assumption | with_reducible apply logOk_takeReset | (show RecBody.isGap _ = false; rfl)
      | simp)

theorem logOk_finishLoad (first second : List Byte) (s : State) (h : LogOk s.log) :
    LogOk (finishLoad first second s).log := by
  simp only [finishLoad]
  (repeat' split) <;> (repeat' first
      | with_reducible assumption | with_reducible apply logOk_raiseWithHold | (show RecBody.isGap _ = false; rfl)
      | simp)

theorem logOk_finishReload (first second : List Byte) (s : State) (h : LogOk s.log) :
    LogOk (finishReload first second s).log := by
  simp only [finishReload]
  (repeat' split) <;> (repeat' first
      | with_reducible assumption | with_reducible apply logOk_raiseWithHold
      | with_reducible apply logOk_applyReload | with_reducible apply logOk_completeSoft
      | (show RecBody.isGap _ = false; rfl) | simp)

theorem logOk_loseReception (p : Port) (more : List Byte) (s : State) (h : LogOk s.log) :
    LogOk (loseReception p more s).log := by
  simp only [loseReception]
  (repeat' split) <;> (repeat' first
      | with_reducible assumption | with_reducible apply logOk_cutMark | (show RecBody.isGap _ = false; rfl)
      | simp)

theorem logOk_linkGoesDown (p : Port) (more : List Byte) (s : State) (h : LogOk s.log) :
    LogOk (linkGoesDown p more s).log := by
  simp only [linkGoesDown]
  (repeat' split) <;> (repeat' first
      | with_reducible assumption | with_reducible apply logOk_reevaluate
      | with_reducible apply logOk_raiseWithHold | with_reducible apply logOk_takePendingReset
      | with_reducible apply logOk_loseReception | (show RecBody.isGap _ = false; rfl) | simp)

theorem logOk_linkBackUp (p : Port) (s : State) (h : LogOk s.log) :
    LogOk (linkBackUp p s).log := by
  simp only [linkBackUp]
  (repeat' split) <;> (repeat' first
      | with_reducible assumption | with_reducible apply logOk_reevaluate
      | with_reducible apply logOk_clearWithHold | (show RecBody.isGap _ = false; rfl) | simp)

theorem logOk_linkComesUp (p : Port) (s : State) (h : LogOk s.log) :
    LogOk (linkComesUp p s).log := by
  simp only [linkComesUp]
  (repeat' split) <;> (repeat' first
      | with_reducible assumption | with_reducible apply logOk_linkBackUp | (show RecBody.isGap _ = false; rfl)
      | simp)

theorem logOk_finishFrame (e : Exec) (s : State) (h : LogOk s.log) :
    LogOk (finishFrame e s).log := by
  simp only [finishFrame]
  (repeat' split) <;> (repeat' first
      | with_reducible assumption | with_reducible apply logOk_takePendingReset
      | (show RecBody.isGap _ = false; rfl) | simp)

theorem logOk_advanceFrame (e : Exec) (s : State) (h : LogOk s.log) :
    LogOk (advanceFrame e s).log := by
  simp only [advanceFrame]
  (repeat' split) <;> (repeat' first
      | with_reducible assumption | with_reducible apply logOk_finishFrame | (show RecBody.isGap _ = false; rfl)
      | simp)

theorem logOk_takeFrame (p : Port) (c : CtlFrame) (s : State) (h : LogOk s.log) :
    LogOk (takeFrame p c s).log := by
  simp only [takeFrame]
  (repeat' split) <;> (repeat' first
      | with_reducible assumption | with_reducible apply logOk_advanceFrame | (show RecBody.isGap _ = false; rfl)
      | simp)

theorem logOk_answerInFrame (e : Exec) (r : Result) (s : State) (h : LogOk s.log) :
    LogOk (answerInFrame e r s).log := by
  simp only [answerInFrame]
  (repeat' split) <;> (repeat' first
      | with_reducible assumption | with_reducible apply logOk_advanceFrame | (show RecBody.isGap _ = false; rfl)
      | simp)

theorem logOk_finishSave (written readBack : List Byte) (s : State) (h : LogOk s.log) :
    LogOk (finishSave written readBack s).log := by
  simp only [finishSave]
  (repeat' split) <;> (repeat' first
      | with_reducible assumption | with_reducible apply logOk_raiseWithHold | (show RecBody.isGap _ = false; rfl)
      | simp)

theorem logOk_endMemoryTest (pass : Bool) (s : State) (h : LogOk s.log) : LogOk (endMemoryTest pass s).log := by
  simp only [endMemoryTest]
  split
  · exact h.emptied .inService false
  · exact logOk_raiseWithHold _ _ _ _ _ (h.emptied .failed s.log.noticeSent)

theorem logOk_writePeer (a : PeerArg) (s : State) (h : LogOk s.log) :
    LogOk (writePeer a s).1.log := by
  simp only [writePeer]
  (repeat' split) <;> (repeat' first
      | with_reducible assumption | with_reducible apply logOk_writePeerAt | (show RecBody.isGap _ = false; rfl)
      | simp)

theorem logOk_clearPeer (index : Byte) (s : State) (h : LogOk s.log) :
    LogOk (clearPeer index s).1.log := by
  simp only [clearPeer]
  (repeat' split) <;> (repeat' first
      | with_reducible assumption | with_reducible apply logOk_clearPeerAt | (show RecBody.isGap _ = false; rfl)
      | simp)

theorem logOk_writeServo (a : ServoArg) (s : State) (h : LogOk s.log) :
    LogOk (writeServo a s).1.log := by
  simp only [writeServo]
  (repeat' split) <;> (repeat' first
      | with_reducible assumption | with_reducible apply logOk_applyServo | (show RecBody.isGap _ = false; rfl)
      | simp)

theorem logOk_writeDrift (a : DriftArg) (s : State) (h : LogOk s.log) :
    LogOk (writeDrift a s).1.log := by
  simp only [writeDrift]
  (repeat' split) <;> (repeat' first
      | with_reducible assumption | with_reducible apply logOk_applyDrift | (show RecBody.isGap _ = false; rfl)
      | simp)

theorem logOk_applyResponse (k : FaultKind) (r : Response) (s : State) (h : LogOk s.log) :
    LogOk (applyResponse k r s).log := by
  simp only [applyResponse]
  (repeat' split) <;> (repeat' first
      | with_reducible assumption | with_reducible apply logOk_reevaluateOnHold
      | (show RecBody.isGap _ = false; rfl) | simp)

theorem logOk_writeFault (kind response : Byte) (s : State) (h : LogOk s.log) :
    LogOk (writeFault kind response s).1.log := by
  simp only [writeFault]
  (repeat' split) <;> (repeat' first
      | with_reducible assumption | with_reducible apply logOk_applyResponse | (show RecBody.isGap _ = false; rfl)
      | simp)

theorem logOk_clearPosition (mask : BitVec 32) (s : State) (k : FaultKind) (h : LogOk s.log) :
    LogOk (clearPosition mask s k).log := by
  simp only [clearPosition]
  (repeat' split) <;> (repeat' first
      | with_reducible assumption | with_reducible apply logOk_clearWithHold | (show RecBody.isGap _ = false; rfl)
      | simp)

theorem logOk_clearFlags (mask : BitVec 32) (s : State) (h : LogOk s.log) :
    LogOk (clearFlags mask s).1.log := by
  simp only [clearFlags]
  (repeat' split) <;> (repeat' first
      | with_reducible assumption | (with_reducible apply logOk_foldl; intro t _ ht)
      | with_reducible apply logOk_clearPosition | (show RecBody.isGap _ = false; rfl) | simp)

theorem logOk_barSource (index : Byte) (seconds : BitVec 16) (s : State) (h : LogOk s.log) :
    LogOk (barSource index seconds s).1.log := by
  simp only [barSource]
  (repeat' split) <;> (repeat' first
      | with_reducible assumption | with_reducible apply logOk_barEntry | (show RecBody.isGap _ = false; rfl)
      | simp)

theorem logOk_deliver (code : Nat) (out : State × Status × List Byte) (h : LogOk out.1.log) :
    LogOk (deliver code out).log := by
  simp only [deliver]
  split
  · exact logOk_answerInFrame _ _ _ (by simpa using h)
  · exact logOk_takePendingReset _ (by simpa using h)

theorem logOk_logTakeMeaning (n : Byte) (room : Nat) (s : State) (h : LogOk s.log) :
    LogOk (logTakeMeaning n room s).1.log := by
  simp only [logTakeMeaning]
  (repeat' split) <;> first | exact h | exact logOk_removeRecords _ _ h

end Sys2Proof.Machine
end

