-- ==== Sys2Proof/Laws/Racks.lean ====
section
/-! SUPPORT. Every shared operation keeps the rack ids of the enabled peers distinct (R161, R162, R183). -/

namespace Sys2Proof.Machine

theorem RacksDistinct.of {s t : State} (h : RacksDistinct s) (hp : t.cfg.peers = s.cfg.peers) : RacksDistinct t := by
  intro i j; simp only [State.peerCfg, hp]; exact h i j

theorem rk_setCfg (s : State) (v : Settings) (hv : v.peers = s.cfg.peers) (h : RacksDistinct s) :
    RacksDistinct (s.setCfg v) := h.of hv

theorem rk_foldl {α : Type} (f : State → α → State) (hf : ∀ t a, RacksDistinct t → RacksDistinct (f t a)) (s : State)
    (l : List α) (h : RacksDistinct s) : RacksDistinct (l.foldl f s) := by
  induction l generalizing s with
  | nil => exact h
  | cons a rest ih => exact ih _ (hf _ _ h)

theorem peerCfg_set (s : State) (i j : Nat) (c : PeerCfg) (hj : j < 32) :
    (setPeerCfg i c s).peerCfg j = if i = j then c else s.peerCfg j := by
  simp only [State.peerCfg, setPeerCfg, State.setCfg]
  simp only [Vector.getD, Vector.toArray_setIfInBounds, Array.getD_eq_getD_getElem?, Array.getElem?_setIfInBounds]
  by_cases h : i = j
  · subst h; simp [hj]
  · simp [h]

theorem rk_setPeerCfg (i : Nat) (c : PeerCfg) (s : State) (hc : c.enabled = true → ∀ j, j < 32 → j ≠ i →
    (s.peerCfg j).enabled = true → (s.peerCfg j).rack ≠ c.rack) (h : RacksDistinct s) :
    RacksDistinct (setPeerCfg i c s) := by
  intro a b ha hb
  rw [peerCfg_set _ _ _ _ ha, peerCfg_set _ _ _ _ hb]
  split
  · split
    · omega
    · rename_i h1 h2
      intro he he' hr
      exact absurd hr.symm (hc he b hb (by omega) he')
  · split
    · rename_i h1 h2
      intro he he' hr
      exact absurd hr (hc he' a ha (by omega) he)
    · exact h a b ha hb

theorem disableRepeats_length (seen : List (BitVec 32)) (l : List PeerCfg) :
    (disableRepeats seen l).length = l.length := by
  induction l generalizing seen with
  | nil => rfl
  | cons c r ih => simp only [disableRepeats]; (repeat' split) <;> simp [ih]

theorem disableRepeats_distinct (l : List PeerCfg) (seen : List (BitVec 32)) :
    (disableRepeats seen l).Pairwise (fun a b => a.enabled = true → b.enabled = true → a.rack ≠ b.rack) ∧
    ∀ c ∈ disableRepeats seen l, c.enabled = true → c.rack ∉ seen := by
  induction l generalizing seen with
  | nil => simp [disableRepeats]
  | cons c r ih =>
    simp only [disableRepeats]
    split
    · split
      · obtain ⟨h1, h2⟩ := ih seen
        refine ⟨List.pairwise_cons.mpr ⟨by simp, h1⟩, ?_⟩
        intro d hd
        rcases List.mem_cons.mp hd with rfl | hd
        · simp
        · exact h2 d hd
      · rename_i hn
        obtain ⟨h1, h2⟩ := ih (c.rack :: seen)
        refine ⟨List.pairwise_cons.mpr ⟨?_, h1⟩, ?_⟩
        · intro d hd _ he hr
          exact h2 d hd he (by simp [hr])
        · intro d hd he
          rcases List.mem_cons.mp hd with rfl | hd
          · simpa using hn
          · have := h2 d hd he; simp at this; exact this.2
    · rename_i hn
      obtain ⟨h1, h2⟩ := ih seen
      refine ⟨List.pairwise_cons.mpr ⟨by intro d hd he; exact absurd he hn, h1⟩, ?_⟩
      intro d hd he
      rcases List.mem_cons.mp hd with rfl | hd
      · exact absurd he hn
      · exact h2 d hd he

theorem imagePeers_distinct (img : List Byte) (i j : Nat) (hi : i < 32) (hj : j < 32) :
    ((imagePeers img).getD i ⟨false, 0, 0, .u0⟩).enabled = true → ((imagePeers img).getD j ⟨false, 0, 0, .u0⟩).enabled = true →
    ((imagePeers img).getD i ⟨false, 0, 0, .u0⟩).rack = ((imagePeers img).getD j ⟨false, 0, 0, .u0⟩).rack → i = j := by
  have h := (disableRepeats_distinct ((List.range 32).map (fun i => imagePeer img (2281 + 24 * i))) []).1
  have hl := disableRepeats_length [] ((List.range 32).map (fun i => imagePeer img (2281 + 24 * i)))
  simp only [List.length_map, List.length_range] at hl
  have hg : ∀ k (hk : k < 32), (imagePeers img).getD k ⟨false, 0, 0, .u0⟩ = (disableRepeats [] ((List.range 32).map (fun i => imagePeer img (2281 + 24 * i))))[k]'(by omega) := by
    intro k hk
    simp [imagePeers, Vector.getD, hk, List.getD_eq_getElem?_getD, hl]
  rw [hg i hi, hg j hj]
  rw [List.pairwise_iff_getElem] at h
  intro h1 h2 h3
  by_contra hne
  rcases Nat.lt_or_gt_of_ne hne with hlt | hgt
  · exact h i j (by omega) (by omega) hlt h1 h2 h3
  · exact h j i (by omega) (by omega) hgt h2 h1 h3.symm

theorem rk_imageSettings (s : State) (img : List Byte) (h : s.cfg.peers = imagePeers img) : RacksDistinct s := by
  intro i j hi hj
  simp only [State.peerCfg, h]
  exact imagePeers_distinct img i j hi hj

theorem rk_defaults (s : State) (h : s.cfg.peers = Vector.replicate 32 ⟨false, 0, 0, .u0⟩) : RacksDistinct s := by
  intro i j hi hj
  simp [State.peerCfg, h, Vector.getD, hi]

theorem rk_setPorts (s : State) (v : Quad PortUnit) (h : RacksDistinct s) : RacksDistinct (s.setPorts v) := h.of rfl

theorem rk_setEchos (s : State) (v : Pair Echo) (h : RacksDistinct s) : RacksDistinct (s.setEchos v) := h.of rfl

theorem rk_setLanes (s : State) (v : Pair LaneUnit) (h : RacksDistinct s) : RacksDistinct (s.setLanes v) := h.of rfl

theorem rk_setServo (s : State) (v : Servo) (h : RacksDistinct s) : RacksDistinct (s.setServo v) := h.of rfl

theorem rk_setMatchTab (s : State) (v : MatchTable) (h : RacksDistinct s) :
    RacksDistinct (s.setMatchTab v) := h.of rfl

theorem rk_setLog (s : State) (v : EventLog) (h : RacksDistinct s) : RacksDistinct (s.setLog v) := h.of rfl

theorem rk_setFrozen (s : State) (v : Option Frozen) (h : RacksDistinct s) : RacksDistinct (s.setFrozen v) := h.of rfl

theorem rk_setDrift (s : State) (v : DriftMonitor) (h : RacksDistinct s) : RacksDistinct (s.setDrift v) := h.of rfl

theorem rk_setFaults (s : State) (v : FaultUnit) (h : RacksDistinct s) : RacksDistinct (s.setFaults v) := h.of rfl

theorem rk_setAgent (s : State) (v : Agent) (h : RacksDistinct s) : RacksDistinct (s.setAgent v) := h.of rfl

theorem rk_setClock (s : State) (v : Clock) (h : RacksDistinct s) : RacksDistinct (s.setClock v) := h.of rfl

theorem rk_setRun (s : State) (v : RunState) (h : RacksDistinct s) : RacksDistinct (s.setRun v) := h.of rfl

theorem rk_setSources (s : State) (v : Vector (Option SourceEntry) 8) (h : RacksDistinct s) :
    RacksDistinct (s.setSources v) := h.of rfl

theorem rk_setSource (s : State) (i : Nat) (v : Option SourceEntry) (h : RacksDistinct s) :
    RacksDistinct (s.setSource i v) := h.of rfl

theorem rk_setPeer (s : State) (i : Nat) (v : PeerDyn) (h : RacksDistinct s) :
    RacksDistinct (s.setPeer i v) := h.of rfl

theorem rk_setForm (s : State) (i : AlertForm) (v : FormState) (h : RacksDistinct s) :
    RacksDistinct (s.setForm i v) := h.of rfl

theorem rk_setFault (s : State) (i : FaultKind) (v : FaultRec) (h : RacksDistinct s) :
    RacksDistinct (s.setFault i v) := h.of rfl

theorem rk_setEcho (s : State) (p : Port) (v : Echo) (h : RacksDistinct s) : RacksDistinct (s.setEcho p v) := h.of rfl

theorem rk_setLane (s : State) (p : Lane) (v : LaneUnit) (h : RacksDistinct s) :
    RacksDistinct (s.setLane p v) := h.of rfl

theorem rk_setPort (s : State) (p : Port) (v : PortUnit) (h : RacksDistinct s) :
    RacksDistinct (s.setPort p v) := h.of rfl

theorem rk_count (s : State) (p : Port) (v : Stats → Stats) (h : RacksDistinct s) :
    RacksDistinct (s.count p v) := h.of rfl

theorem rk_watchSecond (s : State) (h : RacksDistinct s) : RacksDistinct (watchSecond s) :=
  h.of (by rw [cfg_watchSecond])

theorem rk_judgePulse (d : Option Nat) (s : State) (h : RacksDistinct s) : RacksDistinct (judgePulse d s) :=
  h.of (by rw [cfg_judgePulse])

theorem rk_admitFrame (p : Port) (need : Nat) (f : FwdFrame) (s : State) (h : RacksDistinct s) :
    RacksDistinct (admitFrame p need f s).1 :=
  h.of (by rw [cfg_admitFrame])

theorem rk_offerTiming (p : Port) (tag : OrigTag) (header : Nat) (bytes : List Byte) (s : State)
    (h : RacksDistinct s) :
    RacksDistinct (offerTiming p tag header bytes s).1 :=
  h.of (by rw [cfg_offerTiming])

theorem rk_offerGeneral (p : Port) (tag : OrigTag) (header : Nat) (bytes : List Byte) (s : State)
    (h : RacksDistinct s) :
    RacksDistinct (offerGeneral p tag header bytes s).1 :=
  h.of (by rw [cfg_offerGeneral])

theorem rk_askPassesEgress (p : Port) (id : Nat) (s : State) (h : RacksDistinct s) :
    RacksDistinct (askPassesEgress p id s) :=
  h.of (by rw [cfg_askPassesEgress])

theorem rk_reportPassesEgress (i : Nat) (rack ip : BitVec 32) (s : State) (h : RacksDistinct s) :
    RacksDistinct (reportPassesEgress i rack ip s) :=
  h.of (by rw [cfg_reportPassesEgress])

theorem rk_recordEgress (p : Port) (tag : OrigTag) (s : State) (h : RacksDistinct s) :
    RacksDistinct (recordEgress p tag s) :=
  h.of (by rw [cfg_recordEgress])

theorem rk_grantQueued (p : Port) (o : TxFrom) (q : QFrame) (s : State) (h : RacksDistinct s) :
    RacksDistinct (grantQueued p o q s) :=
  h.of (by rw [cfg_grantQueued])

theorem rk_grantForwarded (p : Port) (f : FwdFrame) (s : State) (h : RacksDistinct s) :
    RacksDistinct (grantForwarded p f s) :=
  h.of (by rw [cfg_grantForwarded])

theorem rk_arbitrate (p : Port) (s : State) (h : RacksDistinct s) : RacksDistinct (arbitrate p s) :=
  h.of (by rw [cfg_arbitrate])

theorem rk_finishTx (p : Port) (t : Tx) (s : State) (h : RacksDistinct s) : RacksDistinct (finishTx p t s) :=
  h.of (by rw [cfg_finishTx])

theorem rk_suppressAlert (a : AlertForm) (s : State) (h : RacksDistinct s) : RacksDistinct (suppressAlert a s) :=
  h.of (by rw [cfg_suppressAlert])

theorem rk_alertEvent (a : AlertForm) (clear : Bool) (subject : Subject) (d : AlertData) (s : State)
    (h : RacksDistinct s) :
    RacksDistinct (alertEvent a clear subject d s) :=
  h.of (by rw [cfg_alertEvent])

theorem rk_levelNotice (s : State) (h : RacksDistinct s) : RacksDistinct (levelNotice s) :=
  h.of (by rw [cfg_levelNotice])

theorem rk_offerBare (o : Offer) (s : State) (h : RacksDistinct s) : RacksDistinct (offerBare o s).1 :=
  h.of (by rw [cfg_offerBare])

theorem rk_activate (k : FaultKind) (subject : Subject) (s : State) (h : RacksDistinct s) :
    RacksDistinct (activate k subject s) :=
  h.of (by rw [cfg_activate])

theorem rk_countRaise (k : FaultKind) (s : State) (h : RacksDistinct s) : RacksDistinct (countRaise k s) :=
  h.of (by rw [cfg_countRaise])

theorem rk_deactivate (k : FaultKind) (s : State) (h : RacksDistinct s) : RacksDistinct (deactivate k s) :=
  h.of (by rw [cfg_deactivate])

theorem rk_faultAlert (k : FaultKind) (clear : Bool) (subject : Subject) (d : AlertData) (s : State)
    (h : RacksDistinct s) :
    RacksDistinct (faultAlert k clear subject d s) :=
  h.of (by rw [cfg_faultAlert])

theorem rk_raiseLogFull (s : State) (h : RacksDistinct s) : RacksDistinct (raiseLogFull s) :=
  h.of (by rw [cfg_raiseLogFull])

theorem rk_clearLogFull (s : State) (h : RacksDistinct s) : RacksDistinct (clearLogFull s) :=
  h.of (by rw [cfg_clearLogFull])

theorem rk_offerRecord (o : Offer) (s : State) (h : RacksDistinct s) : RacksDistinct (offerRecord o s) :=
  h.of (by rw [cfg_offerRecord])

theorem rk_raiseLogFullAgain (s : State) (h : RacksDistinct s) : RacksDistinct (raiseLogFullAgain s) :=
  h.of (by rw [cfg_raiseLogFullAgain])

theorem rk_raiseFault (k : FaultKind) (subject : Subject) (record : Bool) (d : AlertData) (s : State)
    (h : RacksDistinct s) :
    RacksDistinct (raiseFault k subject record d s) :=
  h.of (by rw [cfg_raiseFault])

theorem rk_clearFault (k : FaultKind) (subject : Subject) (record : Bool) (d : AlertData) (s : State)
    (h : RacksDistinct s) :
    RacksDistinct (clearFault k subject record d s) :=
  h.of (by rw [cfg_clearFault])

theorem rk_handRate (r : Int) (s : State) (h : RacksDistinct s) : RacksDistinct (handRate r s) :=
  h.of (by rw [cfg_handRate])

theorem rk_setServoState (st : ServoState) (s : State) (h : RacksDistinct s) : RacksDistinct (setServoState st s) :=
  h.of (by rw [cfg_setServoState])

theorem rk_offerState (old : ServoState) (s : State) (h : RacksDistinct s) : RacksDistinct (offerState old s) :=
  h.of (by rw [cfg_offerState])

theorem rk_servoFollows (s : State) (h : RacksDistinct s) : RacksDistinct (servoFollows s) :=
  h.of (by rw [cfg_servoFollows])

theorem rk_servoSwitches (s : State) (h : RacksDistinct s) : RacksDistinct (servoSwitches s) :=
  h.of (by rw [cfg_servoSwitches])

theorem rk_servoHolds (s : State) (h : RacksDistinct s) : RacksDistinct (servoHolds s) :=
  h.of (by rw [cfg_servoHolds])

theorem rk_setSourceState (i : Nat) (st : SourceState) (s : State) (h : RacksDistinct s) :
    RacksDistinct (setSourceState i st s) :=
  h.of (by rw [cfg_setSourceState])

theorem rk_unselect (i : Nat) (s : State) (h : RacksDistinct s) : RacksDistinct (unselect i s) :=
  h.of (by rw [cfg_unselect])

theorem rk_clearHoldoverExpired (s : State) (h : RacksDistinct s) : RacksDistinct (clearHoldoverExpired s) :=
  h.of (by rw [cfg_clearHoldoverExpired])

theorem rk_offerStateIfChanged (before : ServoState) (s : State) (h : RacksDistinct s) :
    RacksDistinct (offerStateIfChanged before s) :=
  h.of (by rw [cfg_offerStateIfChanged])

theorem rk_select (old : Option (Nat × SourceEntry)) (new : Nat × SourceEntry) (reason : Reason) (sampled : Bool)
    (s : State) (h : RacksDistinct s) :
    RacksDistinct (select old new reason sampled s) :=
  h.of (by rw [cfg_select])

theorem rk_endSelection (old : Nat × SourceEntry) (reason : Reason) (s : State) (h : RacksDistinct s) :
    RacksDistinct (endSelection old reason s) :=
  h.of (by rw [cfg_endSelection])

theorem rk_reevaluate (old : Option (Nat × SourceEntry)) (why : Reason) (own : Option Nat) (s : State)
    (h : RacksDistinct s) :
    RacksDistinct (reevaluate old why own s) :=
  h.of (by rw [cfg_reevaluate])

theorem rk_reevaluateOnHold (before : Bool) (s : State) (h : RacksDistinct s) :
    RacksDistinct (reevaluateOnHold before s) :=
  h.of (by rw [cfg_reevaluateOnHold])

theorem rk_raiseWithHold (k : FaultKind) (subject : Subject) (record : Bool) (d : AlertData) (s : State)
    (h : RacksDistinct s) :
    RacksDistinct (raiseWithHold k subject record d s) :=
  h.of (by rw [cfg_raiseWithHold])

theorem rk_clearWithHold (k : FaultKind) (subject : Subject) (record : Bool) (d : AlertData) (s : State)
    (h : RacksDistinct s) :
    RacksDistinct (clearWithHold k subject record d s) :=
  h.of (by rw [cfg_clearWithHold])

theorem rk_secondPulse (s : State) (h : RacksDistinct s) : RacksDistinct (secondPulse s) :=
  h.of (by rw [cfg_secondPulse])

theorem rk_performSwap (s : State) (h : RacksDistinct s) : RacksDistinct (performSwap s) :=
  h.of (by rw [cfg_performSwap])

theorem rk_armedSwap (s : State) (h : RacksDistinct s) : RacksDistinct (armedSwap s) := h.of (by rw [cfg_armedSwap])

theorem rk_secondBoundary (s : State) (h : RacksDistinct s) : RacksDistinct (secondBoundary s) :=
  h.of (by rw [cfg_secondBoundary])

theorem rk_stepTo (moved : Date × Bool) (s : State) (h : RacksDistinct s) : RacksDistinct (stepTo moved s) :=
  h.of (by rw [cfg_stepTo])

theorem rk_forwardStep (amount : Nat) (s : State) (h : RacksDistinct s) : RacksDistinct (forwardStep amount s) :=
  h.of (by rw [cfg_forwardStep])

theorem rk_load (d : Date) (s : State) (h : RacksDistinct s) : RacksDistinct (load d s) := h.of (by rw [cfg_load])

theorem rk_uptimeSecond (s : State) (h : RacksDistinct s) : RacksDistinct (uptimeSecond s) :=
  h.of (by rw [cfg_uptimeSecond])

theorem rk_rememberStamp (d : SN) (s : State) (h : RacksDistinct s) : RacksDistinct (rememberStamp d s) :=
  h.of (by rw [cfg_rememberStamp])

theorem rk_leaveLocked (s : State) (h : RacksDistinct s) : RacksDistinct (leaveLocked s) :=
  h.of (by rw [cfg_leaveLocked])

theorem rk_afterStep (amount : Nat) (s : State) (h : RacksDistinct s) : RacksDistinct (afterStep amount s) :=
  h.of (by rw [cfg_afterStep])

theorem rk_servoStep (amount : Nat) (s : State) (h : RacksDistinct s) : RacksDistinct (servoStep amount s) :=
  h.of (by rw [cfg_servoStep])

theorem rk_startCatchDown (s : State) (h : RacksDistinct s) : RacksDistinct (startCatchDown s) :=
  h.of (by rw [cfg_startCatchDown])

theorem rk_filterUpdate (theta k : Int) (s : State) (h : RacksDistinct s) : RacksDistinct (filterUpdate theta k s) :=
  h.of (by rw [cfg_filterUpdate])

theorem rk_lockCounting (theta : Int) (s : State) (h : RacksDistinct s) : RacksDistinct (lockCounting theta s) :=
  h.of (by rw [cfg_lockCounting])

theorem rk_sampleInUnset (x : ServoSample) (s : State) (h : RacksDistinct s) : RacksDistinct (sampleInUnset x s) :=
  h.of (by rw [cfg_sampleInUnset])

theorem rk_filterAndLock (x : ServoSample) (s : State) (h : RacksDistinct s) : RacksDistinct (filterAndLock x s) :=
  h.of (by rw [cfg_filterAndLock])

theorem rk_sampleInCatchDown (x : ServoSample) (s : State) (h : RacksDistinct s) :
    RacksDistinct (sampleInCatchDown x s) :=
  h.of (by rw [cfg_sampleInCatchDown])

theorem rk_sampleOutside (x : ServoSample) (s : State) (h : RacksDistinct s) : RacksDistinct (sampleOutside x s) :=
  h.of (by rw [cfg_sampleOutside])

theorem rk_sampleInFollow (x : ServoSample) (s : State) (h : RacksDistinct s) : RacksDistinct (sampleInFollow x s) :=
  h.of (by rw [cfg_sampleInFollow])

theorem rk_takeSample (x : ServoSample) (s : State) (h : RacksDistinct s) : RacksDistinct (takeSample x s) :=
  h.of (by rw [cfg_takeSample])

theorem rk_expireHoldover (s : State) (h : RacksDistinct s) : RacksDistinct (expireHoldover s) :=
  h.of (by rw [cfg_expireHoldover])

theorem rk_unexpireHoldover (s : State) (h : RacksDistinct s) : RacksDistinct (unexpireHoldover s) :=
  h.of (by rw [cfg_unexpireHoldover])

theorem rk_judgeHoldover (s : State) (h : RacksDistinct s) : RacksDistinct (judgeHoldover s) :=
  h.of (by rw [cfg_judgeHoldover])

theorem rk_clampF (s : State) (h : RacksDistinct s) : RacksDistinct (clampF s) := h.of (by rw [cfg_clampF])

theorem rk_applyServo (p : ServoParams) (width limit : Nat) (s : State) (h : RacksDistinct s) :
    RacksDistinct (applyServo p width limit s) := by
  simp only [applyServo]
  (repeat' split) <;> (repeat' first
      | with_reducible assumption | with_reducible apply rk_judgePulse | with_reducible apply rk_handRate
      | with_reducible apply rk_judgeHoldover | with_reducible apply rk_clampF | with_reducible apply rk_setCfg
      | with_reducible rfl | simp)

theorem rk_setDateTo (d : SN) (s : State) (h : RacksDistinct s) : RacksDistinct (setDateTo d s).1 :=
  h.of (by rw [cfg_setDateTo])

theorem rk_setTrimTo (f : Int) (s : State) (h : RacksDistinct s) :
    RacksDistinct (setTrimTo f s).1 := by
  simp only [setTrimTo]
  (repeat' split) <;> (repeat' first
      | with_reducible assumption | with_reducible apply rk_handRate | with_reducible apply rk_setServo
      | with_reducible apply rk_setCfg | with_reducible rfl | simp)

theorem rk_loadTrim (s : State) (h : RacksDistinct s) :
    RacksDistinct (loadTrim s) := by
  simp only [loadTrim]
  (repeat' split) <;> (repeat' first
      | with_reducible assumption | with_reducible apply rk_handRate | with_reducible apply rk_setServo
      | with_reducible apply rk_setCfg | with_reducible rfl | simp)

theorem rk_servoSoftReset (s : State) (h : RacksDistinct s) : RacksDistinct (servoSoftReset s) :=
  h.of (by rw [cfg_servoSoftReset])

theorem rk_forwardWhole (w : Whole) (edit : Edit) (s : State) (h : RacksDistinct s) :
    RacksDistinct (forwardWhole w edit s) :=
  h.of (by rw [cfg_forwardWhole])

theorem rk_takeInterval (p : Port) (s : State) (h : RacksDistinct s) : RacksDistinct (takeInterval p s) :=
  h.of (by rw [cfg_takeInterval])

theorem rk_restartInterval (p : Port) (s : State) (h : RacksDistinct s) : RacksDistinct (restartInterval p s) :=
  h.of (by rw [cfg_restartInterval])

theorem rk_startEcho (p : Port) (s : State) (h : RacksDistinct s) : RacksDistinct (startEcho p s) :=
  h.of (by rw [cfg_startEcho])

theorem rk_takeDelay (p : Port) (x : Nat) (s : State) (h : RacksDistinct s) : RacksDistinct (takeDelay p x s) :=
  h.of (by rw [cfg_takeDelay])

theorem rk_endExchange (w : Whole) (s : State) (h : RacksDistinct s) : RacksDistinct (endExchange w s) :=
  h.of (by rw [cfg_endExchange])

theorem rk_answerReceived (w : Whole) (s : State) (h : RacksDistinct s) : RacksDistinct (answerReceived w s) :=
  h.of (by rw [cfg_answerReceived])

theorem rk_echoTimesOut (p : Port) (s : State) (h : RacksDistinct s) : RacksDistinct (echoTimesOut p s) :=
  h.of (by rw [cfg_echoTimesOut])

theorem rk_echoLinkDown (p : Port) (s : State) (h : RacksDistinct s) : RacksDistinct (echoLinkDown p s) :=
  h.of (by rw [cfg_echoLinkDown])

theorem rk_echoLinkUp (p : Port) (s : State) (h : RacksDistinct s) : RacksDistinct (echoLinkUp p s) :=
  h.of (by rw [cfg_echoLinkUp])

theorem rk_echoRewritten (p : Port) (old : PortRec) (s : State) (h : RacksDistinct s) :
    RacksDistinct (echoRewritten p old s) :=
  h.of (by rw [cfg_echoRewritten])

theorem rk_clearStale (p : Port) (s : State) (h : RacksDistinct s) : RacksDistinct (clearStale p s) :=
  h.of (by rw [cfg_clearStale])

theorem rk_answerAsk (w : Whole) (s : State) (h : RacksDistinct s) : RacksDistinct (answerAsk w s) :=
  h.of (by rw [cfg_answerAsk])

theorem rk_handleAsk (w : Whole) (s : State) (h : RacksDistinct s) : RacksDistinct (handleAsk w s) :=
  h.of (by rw [cfg_handleAsk])

theorem rk_handleAnswer (w : Whole) (s : State) (h : RacksDistinct s) : RacksDistinct (handleAnswer w s) :=
  h.of (by rw [cfg_handleAnswer])

theorem rk_afterBeacon (w : Whole) (i p : Nat) (a : Int) (old : Option (Nat × SourceEntry)) (s : State)
    (h : RacksDistinct s) :
    RacksDistinct (afterBeacon w i p a old s) :=
  h.of (by rw [cfg_afterBeacon])

theorem rk_beaconIntoTable (w : Whole) (s : State) (h : RacksDistinct s) : RacksDistinct (beaconIntoTable w s) :=
  h.of (by rw [cfg_beaconIntoTable])

theorem rk_goStale (i : Nat) (s : State) (h : RacksDistinct s) : RacksDistinct (goStale i s) :=
  h.of (by rw [cfg_goStale])

theorem rk_afterBar (old : Option (Nat × SourceEntry)) (s : State) (h : RacksDistinct s) :
    RacksDistinct (afterBar old s) :=
  h.of (by rw [cfg_afterBar])

theorem rk_endBar (i : Nat) (e : SourceEntry) (s : State) (h : RacksDistinct s) : RacksDistinct (endBar i e s) :=
  h.of (by rw [cfg_endBar])

theorem rk_setBar (i : Nat) (e : SourceEntry) (seconds : Nat) (s : State) (h : RacksDistinct s) :
    RacksDistinct (setBar i e seconds s) :=
  h.of (by rw [cfg_setBar])

theorem rk_barEntry (i : Nat) (e : SourceEntry) (seconds : Nat) (s : State) (h : RacksDistinct s) :
    RacksDistinct (barEntry i e seconds s) :=
  h.of (by rw [cfg_barEntry])

theorem rk_barSelected (seconds : Nat) (s : State) (h : RacksDistinct s) : RacksDistinct (barSelected seconds s) :=
  h.of (by rw [cfg_barSelected])

theorem rk_transitBeacon (w : Whole) (p : Nat) (s : State) (h : RacksDistinct s) :
    RacksDistinct (transitBeacon w p s) :=
  h.of (by rw [cfg_transitBeacon])

theorem rk_beaconUnit (w : Whole) (p : Nat) (s : State) (h : RacksDistinct s) : RacksDistinct (beaconUnit w p s) :=
  h.of (by rw [cfg_beaconUnit])

theorem rk_handleBeacon (w : Whole) (s : State) (h : RacksDistinct s) : RacksDistinct (handleBeacon w s) :=
  h.of (by rw [cfg_handleBeacon])

theorem rk_recordEmission (l : Lane) (instant : SN) (e : Emission) (s : State) (h : RacksDistinct s) :
    RacksDistinct (recordEmission l instant e s) :=
  h.of (by rw [cfg_recordEmission])

theorem rk_originate (l : Lane) (instant : SN) (s : State) (h : RacksDistinct s) :
    RacksDistinct (originate l instant s) :=
  h.of (by rw [cfg_originate])

theorem rk_laneInstant (l : Lane) (old new : Date) (s : State) (h : RacksDistinct s) :
    RacksDistinct (laneInstant l old new s) :=
  h.of (by rw [cfg_laneInstant])

theorem rk_startReports (s : State) (h : RacksDistinct s) : RacksDistinct (startReports s) :=
  h.of (by rw [cfg_startReports])

theorem rk_nextSlot (s : State) (h : RacksDistinct s) : RacksDistinct (nextSlot s) := h.of (by rw [cfg_nextSlot])

theorem rk_reportNotSent (i : Nat) (s : State) (h : RacksDistinct s) : RacksDistinct (reportNotSent i s) :=
  h.of (by rw [cfg_reportNotSent])

theorem rk_reportSent (i : Nat) (s : State) (h : RacksDistinct s) : RacksDistinct (reportSent i s) :=
  h.of (by rw [cfg_reportSent])

theorem rk_sendReport (i : Nat) (s : State) (h : RacksDistinct s) : RacksDistinct (sendReport i s) :=
  h.of (by rw [cfg_sendReport])

theorem rk_setSelfDrift (v : Verdict) (s : State) (h : RacksDistinct s) : RacksDistinct (setSelfDrift v s) :=
  h.of (by rw [cfg_setSelfDrift])

theorem rk_clearSelfDrift (v : Verdict) (e : Episode) (s : State) (h : RacksDistinct s) :
    RacksDistinct (clearSelfDrift v e s) :=
  h.of (by rw [cfg_clearSelfDrift])

theorem rk_judgeSelf (s : State) (h : RacksDistinct s) : RacksDistinct (judgeSelf s) := h.of (by rw [cfg_judgeSelf])

theorem rk_warnPeer (i : Nat) (vote : Vote) (s : State) (h : RacksDistinct s) : RacksDistinct (warnPeer i vote s) :=
  h.of (by rw [cfg_warnPeer])

theorem rk_unwarnPeer (i : Nat) (vote : Vote) (s : State) (h : RacksDistinct s) :
    RacksDistinct (unwarnPeer i vote s) :=
  h.of (by rw [cfg_unwarnPeer])

theorem rk_judgePeer (s : State) (i : Nat) (h : RacksDistinct s) : RacksDistinct (judgePeer s i) :=
  h.of (by rw [cfg_judgePeer])

theorem rk_judgeRack (s : State) (h : RacksDistinct s) : RacksDistinct (judgeRack s) := h.of (by rw [cfg_judgeRack])

theorem rk_reportReceived (w : Whole) (s : State) (h : RacksDistinct s) : RacksDistinct (reportReceived w s) :=
  h.of (by rw [cfg_reportReceived])

theorem rk_voidReports (i : Nat) (s : State) (h : RacksDistinct s) : RacksDistinct (voidReports i s) := h.of rfl

theorem rk_writePeerAt (i : Nat) (c : PeerCfg) (s : State) (hc : c.enabled = true → ∀ j, j < 32 → j ≠ i →
    (s.peerCfg j).enabled = true → (s.peerCfg j).rack ≠ c.rack) (h : RacksDistinct s) :
    RacksDistinct (writePeerAt i c s) := by
  simp only [writePeerAt]
  have := rk_setPeerCfg i c s hc h
  have := rk_setPeer _ i (rewrittenPeer (s.peerCfg i) c (s.peer i)).1 this
  (repeat' split) <;> (repeat' first
    | with_reducible assumption | with_reducible apply rk_judgeRack | with_reducible apply rk_voidReports)

theorem rk_clearPeerAt (i : Nat) (s : State) (h : RacksDistinct s) : RacksDistinct (clearPeerAt i s) := by
  simp only [clearPeerAt]
  have := rk_setPeerCfg i ⟨false, 0, 0, .u0⟩ s (by simp) h
  split
  · exact rk_judgeRack _ (rk_voidReports _ _ (rk_setPeer _ _ _ this))
  · exact rk_voidReports _ _ (rk_setPeer _ _ _ this)

theorem rk_applyDrift (p : DriftParams) (holdoff threshold : Nat) (s : State) (h : RacksDistinct s) :
    RacksDistinct (applyDrift p holdoff threshold s) := by
  simp only [applyDrift]
  (repeat' split) <;> (repeat' first
      | with_reducible assumption | with_reducible apply rk_startReports | with_reducible apply rk_judgeRack
      | with_reducible apply rk_setCfg | with_reducible rfl | simp)

theorem rk_driftSoftReset (s : State) (h : RacksDistinct s) : RacksDistinct (driftSoftReset s) :=
  h.of (by rw [cfg_driftSoftReset])

theorem rk_freezeTrigger (t : Trigger) (s : State) (h : RacksDistinct s) : RacksDistinct (freezeTrigger t s) :=
  h.of (by rw [cfg_freezeTrigger])

theorem rk_releaseFreeze (s : State) (h : RacksDistinct s) : RacksDistinct (releaseFreeze s) :=
  h.of (by rw [cfg_releaseFreeze])

theorem rk_openMark (p : Port) (index : Nat) (e : MatchEntry) (ingress : Date) (s : State) (h : RacksDistinct s) :
    RacksDistinct (openMark p index e ingress s) :=
  h.of (by rw [cfg_openMark])

theorem rk_settleStamp (p : Port) (written : Bool) (s : State) (h : RacksDistinct s) :
    RacksDistinct (settleStamp p written s) :=
  h.of (by rw [cfg_settleStamp])

theorem rk_loseStamp (p : Port) (s : State) (h : RacksDistinct s) : RacksDistinct (loseStamp p s) :=
  h.of (by rw [cfg_loseStamp])

theorem rk_readyArriving (p : Port) (edit : Edit) (s : State) (h : RacksDistinct s) :
    RacksDistinct (readyArriving p edit s) :=
  h.of (by rw [cfg_readyArriving])

theorem rk_writeStampNow (p : Port) (c : DatingCtx) (bytes : List Byte) (s : State) (h : RacksDistinct s) :
    RacksDistinct (writeStampNow p c bytes s) :=
  h.of (by rw [cfg_writeStampNow])

theorem rk_closeMark (p : Port) (bytes : List Byte) (stop len : Nat) (badFcs : Bool) (s : State)
    (h : RacksDistinct s) :
    RacksDistinct (closeMark p bytes stop len badFcs s) :=
  h.of (by rw [cfg_closeMark])

theorem rk_cutMark (p : Port) (bytes : List Byte) (len : Nat) (s : State) (h : RacksDistinct s) :
    RacksDistinct (cutMark p bytes len s) :=
  h.of (by rw [cfg_cutMark])

theorem rk_setRx (p : Port) (r : Option Rx) (s : State) (h : RacksDistinct s) : RacksDistinct (setRx p r s) :=
  h.of (by rw [cfg_setRx])

theorem rk_forwardArriving (p : Port) (r : Rx) (ready : Bool) (s : State) (h : RacksDistinct s) :
    RacksDistinct (forwardArriving p r ready s).1 :=
  h.of (by rw [cfg_forwardArriving])

theorem rk_passFrame (p : Port) (r : Rx) (s : State) (h : RacksDistinct s) : RacksDistinct (passFrame p r s) :=
  h.of (by rw [cfg_passFrame])

theorem rk_settleArrived (p : Port) (bytes : List Byte) (s : State) (h : RacksDistinct s) :
    RacksDistinct (settleArrived p bytes s) :=
  h.of (by rw [cfg_settleArrived])

theorem rk_markFrame (p : Port) (r : Rx) (index : Nat) (e : MatchEntry) (s : State) (h : RacksDistinct s) :
    RacksDistinct (markFrame p r index e s) :=
  h.of (by rw [cfg_markFrame])

theorem rk_lookupFrame (p : Port) (r : Rx) (ended : Bool) (s : State) (h : RacksDistinct s) :
    RacksDistinct (lookupFrame p r ended s) :=
  h.of (by rw [cfg_lookupFrame])

theorem rk_growArriving (p : Port) (bytes : List Byte) (s : State) (h : RacksDistinct s) :
    RacksDistinct (growArriving p bytes s) :=
  h.of (by rw [cfg_growArriving])

theorem rk_overrun (p : Port) (r : Rx) (s : State) (h : RacksDistinct s) : RacksDistinct (overrun p r s) :=
  h.of (by rw [cfg_overrun])

theorem rk_malformedFrame (w : Whole) (s : State) (h : RacksDistinct s) : RacksDistinct (malformedFrame w s) :=
  h.of (by rw [cfg_malformedFrame])

theorem rk_dispatchL2 (w : Whole) (s : State) (h : RacksDistinct s) : RacksDistinct (dispatchL2 w s) :=
  h.of (by rw [cfg_dispatchL2])

theorem rk_acceptControl (w : Whole) (privilege : Privilege) (s : State) (h : RacksDistinct s) :
    RacksDistinct (acceptControl w privilege s) :=
  h.of (by rw [cfg_acceptControl])

theorem rk_dispatchUdp (w : Whole) (mgmt utx : Bool) (privilege : Privilege) (s : State) (h : RacksDistinct s) :
    RacksDistinct (dispatchUdp w mgmt utx privilege s) :=
  h.of (by rw [cfg_dispatchUdp])

theorem rk_endForwarded (p : Port) (r : Rx) (inLane : Bool) (s : State) (h : RacksDistinct s) :
    RacksDistinct (endForwarded p r inLane s) :=
  h.of (by rw [cfg_endForwarded])

theorem rk_endFrame (p : Port) (r : Rx) (s : State) (h : RacksDistinct s) : RacksDistinct (endFrame p r s) :=
  h.of (by rw [cfg_endFrame])

theorem rk_receiveEnd (p : Port) (r : Rx) (s : State) (h : RacksDistinct s) : RacksDistinct (receiveEnd p r s) :=
  h.of (by rw [cfg_receiveEnd])

theorem rk_oversizeArrives (p : Port) (more : List Byte) (s : State) (h : RacksDistinct s) :
    RacksDistinct (oversizeArrives p more s) :=
  h.of (by rw [cfg_oversizeArrives])

theorem rk_applyReload (img : List Byte) (bank : Vector MatchEntry 64) (s : State) :
    RacksDistinct (applyReload (imageSettings img) bank s) := by
  simp only [applyReload]
  apply rk_judgePulse
  apply rk_applyServo
  apply rk_reevaluateOnHold
  exact rk_imageSettings _ img rfl

theorem rk_softResetNow (reload : Bool) (s : State) (h : RacksDistinct s) : RacksDistinct (softResetNow reload s) :=
  h.of (by rw [cfg_softResetNow])

theorem rk_raiseAgain (expired : Bool) (s : State) (h : RacksDistinct s) : RacksDistinct (raiseAgain expired s) :=
  h.of (by rw [cfg_raiseAgain])

theorem rk_completeSoft (expired : Bool) (s : State) (h : RacksDistinct s) : RacksDistinct (completeSoft expired s) :=
  h.of (by rw [cfg_completeSoft])

theorem rk_enterRunning (s : State) (h : RacksDistinct s) :
    RacksDistinct (enterRunning s) := by
  simp only [enterRunning]
  (repeat' split) <;> (repeat' first
      | with_reducible assumption | with_reducible apply rk_loadTrim | with_reducible apply rk_startEcho
      | with_reducible apply rk_startReports | with_reducible apply rk_setPorts | with_reducible apply rk_setRun
      | with_reducible rfl | simp)

theorem peers_enterRunning (s : State) : (enterRunning s).cfg.peers = s.cfg.peers := by simp [enterRunning, loadTrim]

theorem rk_finishLoad (f g : List Byte) (s : State) : RacksDistinct (finishLoad f g s) := by
  simp only [finishLoad]
  split
  · rename_i img source _
    exact rk_imageSettings _ img ((peers_enterRunning _).trans rfl)
  · exact rk_raiseWithHold _ _ _ _ _ (rk_defaults _ ((peers_enterRunning _).trans rfl))

theorem rk_finishReload (f g : List Byte) (s : State) (h : RacksDistinct s) : RacksDistinct (finishReload f g s) := by
  simp only [finishReload]
  split
  · exact rk_completeSoft _ _ (rk_applyReload _ _ _)
  · exact rk_raiseWithHold _ _ _ _ _ (rk_completeSoft _ _ (rk_setAgent _ _ h))

theorem rk_loseReception (p : Port) (more : List Byte) (s : State) (h : RacksDistinct s) :
    RacksDistinct (loseReception p more s) :=
  h.of (by rw [cfg_loseReception])

theorem rk_flushEgress (p : Port) (s : State) (h : RacksDistinct s) : RacksDistinct (flushEgress p s) :=
  h.of (by rw [cfg_flushEgress])

theorem rk_linkBackUp (p : Port) (s : State) (h : RacksDistinct s) : RacksDistinct (linkBackUp p s) :=
  h.of (by rw [cfg_linkBackUp])

theorem rk_linkComesUp (p : Port) (s : State) (h : RacksDistinct s) : RacksDistinct (linkComesUp p s) :=
  h.of (by rw [cfg_linkComesUp])

theorem rk_periodTo (moved : Date × Bool) (second : Bool) (s : State) (h : RacksDistinct s) :
    RacksDistinct (periodTo moved second s) :=
  h.of (by rw [cfg_periodTo])

theorem rk_clockPeriod (s : State) (h : RacksDistinct s) : RacksDistinct (clockPeriod s) :=
  h.of (by rw [cfg_clockPeriod])

theorem rk_finishSave (written readBack : List Byte) (s : State) (h : RacksDistinct s) :
    RacksDistinct (finishSave written readBack s) :=
  h.of (by rw [cfg_finishSave])

theorem rk_endMemoryTest (pass : Bool) (s : State) (h : RacksDistinct s) : RacksDistinct (endMemoryTest pass s) :=
  h.of (by rw [cfg_endMemoryTest])

theorem rk_removeRecords (k : Nat) (s : State) (h : RacksDistinct s) : RacksDistinct (removeRecords k s) :=
  h.of (by rw [cfg_removeRecords])

theorem rk_testLog (s : State) (h : RacksDistinct s) : RacksDistinct (testLog s).1 := h.of (by rw [cfg_testLog])

theorem rk_writeMatch (index : Byte) (a : MatchArg) (s : State) (h : RacksDistinct s) :
    RacksDistinct (writeMatch index a s).1 :=
  h.of (by rw [cfg_writeMatch])

theorem rk_copyActive (s : State) (h : RacksDistinct s) : RacksDistinct (copyActive s).1 :=
  h.of (by rw [cfg_copyActive])

theorem rk_swapCommand (arg : Byte) (s : State) (h : RacksDistinct s) : RacksDistinct (swapCommand arg s).1 :=
  h.of (by rw [cfg_swapCommand])

theorem rk_writePort (a : PortArg) (s : State) (h : RacksDistinct s) :
    RacksDistinct (writePort a s).1 := by
  simp only [writePort]
  (repeat' split) <;> (repeat' first
      | with_reducible assumption | with_reducible apply rk_echoRewritten | with_reducible apply rk_setCfg
      | with_reducible rfl | simp)

theorem rk_writeLane (a : LaneArg) (s : State) (h : RacksDistinct s) :
    RacksDistinct (writeLane a s).1 := by
  simp only [writeLane]
  (repeat' split) <;> (repeat' first
      | with_reducible assumption | with_reducible apply rk_setLane | with_reducible apply rk_setCfg
      | with_reducible rfl | simp)

theorem rk_writeOverride (a : OverrideArg) (s : State) (h : RacksDistinct s) :
    RacksDistinct (writeOverride a s).1 := by
  simp only [writeOverride]
  (repeat' split) <;> (repeat' first
      | with_reducible assumption | with_reducible apply rk_setCfg | with_reducible rfl | simp)

theorem rk_writePeer (a : PeerArg) (s : State) (h : RacksDistinct s) : RacksDistinct (writePeer a s).1 := by
  simp only [writePeer]
  (repeat' split)
  · exact h
  · exact h
  · exact h
  · rename_i hn
    refine rk_writePeerAt _ _ _ ?_ h
    intro he j hj hji hej hr
    apply hn
    simp only [he, Bool.true_and, rackInUse, List.any_eq_true]
    refine ⟨j, by simp [hj], ?_⟩
    simp [hji, hej, hr]

theorem rk_clearPeer (index : Byte) (s : State) (h : RacksDistinct s) :
    RacksDistinct (clearPeer index s).1 := by
  simp only [clearPeer]
  (repeat' split) <;> (repeat' first
      | with_reducible assumption | with_reducible apply rk_clearPeerAt | with_reducible rfl | simp)

theorem rk_writeServo (a : ServoArg) (s : State) (h : RacksDistinct s) :
    RacksDistinct (writeServo a s).1 := by
  simp only [writeServo]
  (repeat' split) <;> (repeat' first
      | with_reducible assumption | with_reducible apply rk_applyServo | with_reducible rfl | simp)

theorem rk_writeDrift (a : DriftArg) (s : State) (h : RacksDistinct s) :
    RacksDistinct (writeDrift a s).1 := by
  simp only [writeDrift]
  (repeat' split) <;> (repeat' first
      | with_reducible assumption | with_reducible apply rk_applyDrift | with_reducible rfl | simp)

theorem rk_applyResponse (k : FaultKind) (r : Response) (s : State) (h : RacksDistinct s) :
    RacksDistinct (applyResponse k r s) := by
  simp only [applyResponse]
  (repeat' split) <;> (repeat' first
      | with_reducible assumption | with_reducible apply rk_watchSecond | with_reducible apply rk_reevaluateOnHold
      | with_reducible apply rk_setCfg | with_reducible rfl | simp)

theorem rk_writeFault (kind response : Byte) (s : State) (h : RacksDistinct s) :
    RacksDistinct (writeFault kind response s).1 := by
  simp only [writeFault]
  (repeat' split) <;> (repeat' first
      | with_reducible assumption | with_reducible apply rk_applyResponse | with_reducible rfl | simp)

theorem rk_clearPosition (mask : BitVec 32) (s : State) (k : FaultKind) (h : RacksDistinct s) :
    RacksDistinct (clearPosition mask s k) :=
  h.of (by rw [cfg_clearPosition])

theorem rk_clearFlags (mask : BitVec 32) (s : State) (h : RacksDistinct s) : RacksDistinct (clearFlags mask s).1 :=
  h.of (by rw [cfg_clearFlags])

theorem rk_barSource (index : Byte) (seconds : BitVec 16) (s : State) (h : RacksDistinct s) :
    RacksDistinct (barSource index seconds s).1 :=
  h.of (by rw [cfg_barSource])

theorem rk_saveSettings (s : State) (h : RacksDistinct s) : RacksDistinct (saveSettings s).1 :=
  h.of (by rw [cfg_saveSettings])

theorem rk_resetCommand (arg : Byte) (s : State) (h : RacksDistinct s) : RacksDistinct (resetCommand arg s).1 :=
  h.of (by rw [cfg_resetCommand])

theorem rk_reset : RacksDistinct State.reset := rk_defaults _ rfl

theorem rk_fullReset (s : State) : RacksDistinct (fullReset s) := rk_reset.of rfl

theorem rk_holdReset (s : State) : RacksDistinct (holdReset s) := rk_reset.of rfl

theorem rk_takeReset (k : ResetKind) (s : State) (h : RacksDistinct s) : RacksDistinct (takeReset k s) := by
  cases k
  · exact rk_completeSoft _ _ (rk_softResetNow _ _ h)
  · exact rk_softResetNow _ _ h
  · exact rk_fullReset _

theorem rk_takePendingReset (s : State) (h : RacksDistinct s) : RacksDistinct (takePendingReset s) := by
  simp only [takePendingReset]; split
  · exact rk_takeReset _ _ h
  · exact h

theorem rk_finishFrame (e : Exec) (s : State) (h : RacksDistinct s) : RacksDistinct (finishFrame e s) := by
  simp only [finishFrame]
  split
  · exact rk_arbitrate _ _ (rk_offerGeneral _ _ _ _ _ (rk_setAgent _ _ h))
  · exact rk_takePendingReset _ (rk_offerGeneral _ _ _ _ _ (rk_setAgent _ _ h))

theorem rk_advanceFrame (e : Exec) (s : State) (h : RacksDistinct s) : RacksDistinct (advanceFrame e s) := by
  simp only [advanceFrame]
  split
  · exact rk_finishFrame _ _ h
  · exact rk_setAgent _ _ h

theorem rk_deliver (c : Nat) (out : State × Status × List Byte) (h : RacksDistinct out.1) :
    RacksDistinct (deliver c out) := by
  simp only [Machine.deliver, answerInFrame]
  split
  · exact rk_advanceFrame _ _ (rk_setAgent _ _ h)
  · exact rk_takePendingReset _ (rk_setAgent _ _ h)

theorem rk_linkGoesDown (p : Port) (more : List Byte) (s : State) (h : RacksDistinct s) :
    RacksDistinct (linkGoesDown p more s) := by
  simp only [linkGoesDown]
  have h1 : RacksDistinct (echoLinkDown p (flushEgress p (loseReception p more (s.setPort p { s.port p with up := false })))) := rk_echoLinkDown _ _ (rk_flushEgress _ _ (rk_loseReception _ _ _ (rk_setPort _ _ _ h)))
  generalize (echoLinkDown p (flushEgress p (loseReception p more (s.setPort p { s.port p with up := false })))) = x at *
  have h2 : RacksDistinct (if (x.port p).seenUp then raiseWithHold .linkDown (.port p) true .nothing x else x) := by
    split
    · exact rk_raiseWithHold _ _ _ _ _ h1
    · exact h1
  generalize (if (x.port p).seenUp then raiseWithHold .linkDown (.port p) true .nothing x else x) = y at *
  have h3 : RacksDistinct (if p.isUplink then reevaluate y.selectedPair .lost none y else y) := by
    split
    · exact rk_reevaluate _ _ _ _ h2
    · exact h2
  split
  · exact rk_takePendingReset _ h3
  · exact h3

theorem rk_logTakeMeaning (n : Byte) (room : Nat) (s : State) (h : RacksDistinct s) :
    RacksDistinct (logTakeMeaning n room s).1 := by
  simp only [logTakeMeaning]; (repeat' split) <;> first | exact h | exact rk_removeRecords _ _ h
end Sys2Proof.Machine
end

