-- ==== Sys2Proof/Laws/Ranges.lean ====
section
/-! SUPPORT. Every shared operation keeps the settings in force and both banks within their ranges (R105, R112, R201, R206). -/

namespace Sys2Proof.Machine

/-- The settings in force and both banks are within their ranges. -/
structure Setd (s : State) : Prop where
  cfg : SettingsOk s.cfg
  bank0 : BankOk s.matchTab.bank0
  bank1 : BankOk s.matchTab.bank1

theorem Setd.of {s t : State} (h : Setd s) (hc : t.cfg = s.cfg) (hm : t.matchTab = s.matchTab) : Setd t :=
  ⟨by rw [hc]; exact h.cfg, by rw [hm]; exact h.bank0, by rw [hm]; exact h.bank1⟩

theorem set_setCfg (s : State) (v : Settings) (hv : SettingsOk v) (h : Setd s) :
    Setd (s.setCfg v) := ⟨hv, h.bank0, h.bank1⟩

theorem set_setMatchTab (s : State) (v : MatchTable) (h0 : BankOk v.bank0) (h1 : BankOk v.bank1) (h : Setd s) :
    Setd (s.setMatchTab v) := ⟨h.cfg, h0, h1⟩

theorem set_foldl {α : Type} (f : State → α → State) (hf : ∀ t a, Setd t → Setd (f t a)) (s : State)
    (l : List α) (h : Setd s) : Setd (l.foldl f s) := by
  induction l generalizing s with
  | nil => exact h
  | cons a rest ih => exact ih _ (hf _ _ h)

theorem blank_ok : MatchOk MatchEntry.blank := ⟨by decide, by decide, by decide, by decide, by decide⟩

theorem defaultBank_ok : BankOk defaultBank := by
  have h : ∀ i : Fin 64, defaultBank[i].vlanId ≤ 4094 ∧ defaultBank[i].patOffset ≤ 127 ∧ defaultBank[i].stampOffset ≤ 9188 ∧ defaultBank[i].keyOffset ≤ 9192 ∧ defaultBank[i].domain ≤ 15 := by decide
  intro i
  exact ⟨(h i).1, (h i).2.1, (h i).2.2.1, (h i).2.2.2.1, (h i).2.2.2.2⟩

theorem matchEntryOf_ok (a : MatchArg) (b c d) : MatchOk (matchEntryOf a b c d) := by
  constructor <;> simp only [matchEntryOf, clampNat] <;> omega

theorem imageBank_ok (img : List Byte) : BankOk (imageBank img) := by
  intro i
  simp only [imageBank, Fin.getElem_fin, Vector.getElem_ofFn]
  exact matchEntryOf_ok _ _ _ _

theorem bank_set {b : Vector MatchEntry 64} (h : BankOk b) (i : Nat) {e : MatchEntry} (he : MatchOk e) :
    BankOk (b.setIfInBounds i e) := by
  intro j
  simp only [Fin.getElem_fin, Vector.getElem_setIfInBounds]
  split
  · exact he
  · exact h j

theorem standby_ok {s : State} (h : Setd s) : BankOk s.matchTab.standbyBank := by
  simp only [MatchTable.standbyBank]; split
  · exact h.bank0
  · exact h.bank1

theorem active_ok {s : State} (h : Setd s) : BankOk s.matchTab.activeBank := by
  simp only [MatchTable.activeBank]; split
  · exact h.bank1
  · exact h.bank0

theorem set_setStandby (s : State) (b : Vector MatchEntry 64) (hb : BankOk b) (h : Setd s) :
    Setd (s.setMatchTab (s.matchTab.setStandby b)) := by
  simp only [MatchTable.setStandby]; split
  · exact ⟨h.cfg, hb, h.bank1⟩
  · exact ⟨h.cfg, h.bank0, hb⟩

theorem portRecOf_ok (a : PortArg) (p : Privilege) :
    -4 ≤ (portRecOf a p).k ∧ (portRecOf a p).k ≤ 3 ∧ 1 ≤ (portRecOf a p).timeoutMs ∧ (portRecOf a p).timeoutMs ≤ 100 := by
  simp only [portRecOf, clampInt, clampNat]; omega

theorem portRecOf_asym (a : PortArg) (p : Privilege) :
    -1000000 ≤ (portRecOf a p).asym ∧ (portRecOf a p).asym ≤ 1000000 := by
  simp only [portRecOf, clampInt]; omega

theorem laneRecOf_ok (a : LaneArg) (m : Mode) :
    -4 ≤ (laneRecOf a m).k ∧ (laneRecOf a m).k ≤ 1 ∧ (laneRecOf a m).m ≤ 3 := by
  simp only [laneRecOf, clampInt, clampNat]; omega

theorem overrideOf_ok (a : OverrideArg) (p : Port) :
    -1000000 ≤ (overrideOf a p).asym ∧ (overrideOf a p).asym ≤ 1000000 := by
  simp only [overrideOf, clampInt]; omega

theorem uplinkOf_uplink {n : Nat} {p : Port} (h : uplinkOf n = some p) : p.isUplink = true := by
  simp only [uplinkOf, Option.filter_eq_some_iff] at h; exact h.2

theorem limitResponse_ok (k : FaultKind) (r : Response) : k.maxResponse.within (k.limitResponse r) = true := by
  cases k <;> cases r <;> decide

theorem kindAt_ix (k : FaultKind) : kindAt k.ix = k := by cases k <;> rfl

theorem SettingsOk.ofServo {c : Settings} (h : SettingsOk c) (a : ServoArg) :
    SettingsOk { c with servo := servoParamsOf a, secWidth := secWidthOf a, secLimit := secLimitOf a } := by
  refine ⟨h.manager, h.echo, h.asym, h.lane, h.override, h.uplink, ?_, ?_, ?_, ?_, ?_, ?_, ?_, h.barTime, h.report, h.roundTrip, h.thresholds, h.quorum, h.notices, h.response, h.trim⟩ <;>
    simp only [servoParamsOf, secWidthOf, secLimitOf, clampNat] <;> omega

theorem SettingsOk.ofDrift {c : Settings} (h : SettingsOk c) (a : DriftArg) :
    SettingsOk { c with drift := driftParamsOf a, alertHoldoff := holdoffOf a, logThreshold := thresholdOf a } := by
  refine ⟨h.manager, h.echo, h.asym, h.lane, h.override, h.uplink, h.step, h.window, h.locks, h.shifts, h.rates, h.holdover, h.second, ?_, ?_, ?_, ?_, ?_, ?_, h.response, h.trim⟩ <;>
    simp only [driftParamsOf, holdoffOf, thresholdOf, clampNat, clampInt] <;> omega

theorem SettingsOk.ofPorts {c : Settings} (h : SettingsOk c) (p : Port) (a : PortArg) (pr : Privilege) :
    SettingsOk { c with ports := c.ports.set p (portRecOf a pr) } := by
  refine ⟨h.manager, ?_, ?_, h.lane, h.override, h.uplink, h.step, h.window, h.locks, h.shifts, h.rates, h.holdover, h.second, h.barTime, h.report, h.roundTrip, h.thresholds, h.quorum, h.notices, h.response, h.trim⟩ <;> intro q
  · by_cases hq : q = p
    · subst hq; simp only [Quad.get_set_same]; exact portRecOf_ok _ _
    · simp only [Quad.get_set_other _ _ _ _ hq]; exact h.echo q
  · by_cases hq : q = p
    · subst hq; simp only [Quad.get_set_same]; exact portRecOf_asym _ _
    · simp only [Quad.get_set_other _ _ _ _ hq]; exact h.asym q

theorem SettingsOk.ofLanes {c : Settings} (h : SettingsOk c) (p : Lane) (a : LaneArg) (m : Mode) :
    SettingsOk { c with lanes := c.lanes.set p (laneRecOf a m) } := by
  refine ⟨h.manager, h.echo, h.asym, ?_, h.override, h.uplink, h.step, h.window, h.locks, h.shifts, h.rates, h.holdover, h.second, h.barTime, h.report, h.roundTrip, h.thresholds, h.quorum, h.notices, h.response, h.trim⟩
  intro q
  by_cases hq : q = p
  · subst hq; simp only [Pair.get_set_same]; exact laneRecOf_ok _ _
  · simp only [Pair.get_set_other _ _ _ _ hq]; exact h.lane q

theorem SettingsOk.ofOverride {c : Settings} (h : SettingsOk c) (i : Nat) (a : OverrideArg) (p : Port) :
    SettingsOk { c with overrides := c.overrides.setIfInBounds i (overrideOf a p) } := by
  refine ⟨h.manager, h.echo, h.asym, h.lane, ?_, h.uplink, h.step, h.window, h.locks, h.shifts, h.rates, h.holdover, h.second, h.barTime, h.report, h.roundTrip, h.thresholds, h.quorum, h.notices, h.response, h.trim⟩
  intro j
  simp only [Fin.getElem_fin, Vector.getElem_setIfInBounds]
  split
  · exact overrideOf_ok _ _
  · exact h.override j

theorem SettingsOk.ofPeer {c : Settings} (h : SettingsOk c) (i : Nat) (e : PeerCfg)
    (he : e.preferred.isUplink = true) :
    SettingsOk { c with peers := c.peers.setIfInBounds i e } := by
  refine ⟨h.manager, h.echo, h.asym, h.lane, h.override, ?_, h.step, h.window, h.locks, h.shifts, h.rates, h.holdover, h.second, h.barTime, h.report, h.roundTrip, h.thresholds, h.quorum, h.notices, h.response, h.trim⟩
  intro j
  simp only [Fin.getElem_fin, Vector.getElem_setIfInBounds]
  split
  · exact he
  · exact h.uplink j

theorem ix_inj {k k' : FaultKind} (h : k.ix = k'.ix) : k = k' := by
  rw [← kindAt_ix k, ← kindAt_ix k', h]

theorem SettingsOk.ofResponse {c : Settings} (h : SettingsOk c) (k : FaultKind) (r : Response) :
    SettingsOk { c with responses := c.responses.set k.ix (k.limitResponse r) } := by
  refine ⟨h.manager, h.echo, h.asym, h.lane, h.override, h.uplink, h.step, h.window, h.locks, h.shifts, h.rates, h.holdover, h.second, h.barTime, h.report, h.roundTrip, h.thresholds, h.quorum, h.notices, ?_, h.trim⟩
  intro j
  simp only [Fin.getElem_fin, Vector.getElem_set]
  split
  · rename_i he
    have := ix_inj (Fin.ext he)
    subst this
    exact limitResponse_ok _ _
  · exact h.response j

theorem SettingsOk.ofTrim {c : Settings} (h : SettingsOk c) (v : Int) (h1 : -512000000 ≤ v) (h2 : v ≤ 512000000) :
    SettingsOk { c with trim := v } :=
  ⟨h.manager, h.echo, h.asym, h.lane, h.override, h.uplink, h.step, h.window, h.locks, h.shifts, h.rates, h.holdover, h.second, h.barTime, h.report, h.roundTrip, h.thresholds, h.quorum, h.notices, h.response, ⟨h1, h2⟩⟩

theorem clampTrim {s : State} (h : Setd s) (f : Int) :
    -512000000 ≤ clampInt (-plausibleUnits s) (plausibleUnits s) f ∧ clampInt (-plausibleUnits s) (plausibleUnits s) f ≤ 512000000 := by
  have := h.cfg.rates
  simp only [clampInt, plausibleUnits, Config.unitsPerPpm]
  omega

theorem imagePeers_uplink (img : List Byte) (i : Fin 32) : (imagePeers img)[i].preferred.isUplink = true := by
  have hp : ∀ (l : List PeerCfg) seen, (∀ c ∈ l, c.preferred.isUplink = true) → ∀ c ∈ disableRepeats seen l, c.preferred.isUplink = true := by
    intro l
    induction l with
    | nil => intro _ _ c hc; simp [disableRepeats] at hc
    | cons x r ih =>
      intro seen hx c hc
      simp only [disableRepeats] at hc
      have hr : ∀ c ∈ r, c.preferred.isUplink = true := fun c h => hx c (by simp [h])
      have h0 : x.preferred.isUplink = true := hx x (by simp)
      revert hc
      split
      · split
        · intro hc
          rcases List.mem_cons.mp hc with h | h
          · rw [h]; exact h0
          · exact ih _ hr c h
        · intro hc
          rcases List.mem_cons.mp hc with h | h
          · rw [h]; exact h0
          · exact ih _ hr c h
      · intro hc
        rcases List.mem_cons.mp hc with h | h
        · rw [h]; exact h0
        · exact ih _ hr c h
  have ha : ∀ c ∈ (List.range 32).map (fun i => imagePeer img (2281 + 24 * i)), c.preferred.isUplink = true := by
    intro c hc
    obtain ⟨j, _, rfl⟩ := List.mem_map.mp hc
    simp only [imagePeer, peerCfgOf]
    cases h : uplinkOf (peerArgOf (0 :: slice img (2281 + 24 * j) 24)).preferred.toNat with
    | none => rfl
    | some p => exact uplinkOf_uplink h
  simp only [imagePeers, Fin.getElem_fin, Vector.getElem_ofFn]
  rw [List.getD_eq_getElem?_getD]
  cases h : (disableRepeats [] ((List.range 32).map (fun i => imagePeer img (2281 + 24 * i))))[i.val]? with
  | none => rfl
  | some c => exact hp _ _ ha c (List.mem_of_getElem? h)

theorem imageSettings_ok (img : List Byte) : SettingsOk (imageSettings img) := by
  have hs := servoParamsOf (servoArgOf (slice img 3049 32))
  constructor
  case manager => simp only [imageSettings, clampNat]; omega
  case echo => intro p; cases p <;> exact portRecOf_ok _ _
  case asym => intro p; cases p <;> exact portRecOf_asym _ _
  case lane => intro p; cases p <;> exact laneRecOf_ok _ _
  case override => intro i; simp only [imageSettings, Fin.getElem_fin, Vector.getElem_ofFn, imageOverride]; exact overrideOf_ok _ _
  case uplink => intro i; exact imagePeers_uplink img i
  case response =>
    intro k
    have : (imageSettings img).responses[k.ix] = imageResponse img (kindAt k.ix) (3105 + k.ix.val) := by
      simp only [imageSettings, Fin.getElem_fin, Vector.getElem_ofFn]
    rw [this, kindAt_ix]
    exact limitResponse_ok _ _
  case trim =>
    have h : (servoParamsOf (servoArgOf (slice img 3049 32))).plausibility ≤ 500 := by simp only [servoParamsOf, clampNat]; omega
    simp only [imageSettings, Config.unitsPerPpm]
    generalize (servoParamsOf (servoArgOf (slice img 3049 32))).plausibility = x at h
    simp only [clampInt]
    omega
  all_goals simp only [imageSettings, servoParamsOf, secWidthOf, secLimitOf, driftParamsOf, holdoffOf, thresholdOf, clampNat, clampInt]; omega

theorem defaults_ok : SettingsOk Settings.default := by
  have hp : ∀ p : Port, Settings.default.ports.get p = PortRec.default := by intro p; cases p <;> rfl
  have hl : ∀ p : Lane, Settings.default.lanes.get p = ⟨.boundary, -3, 0⟩ := by intro p; cases p <;> rfl
  constructor
  case echo => intro p; rw [hp]; decide
  case asym => intro p; rw [hp]; decide
  case lane => intro l; rw [hl]; decide
  case override => decide
  case uplink => decide
  case response => intro k; cases k <;> decide
  all_goals decide

theorem set_setPorts (s : State) (v : Quad PortUnit) (h : Setd s) : Setd (s.setPorts v) := h.of rfl rfl

theorem set_setEchos (s : State) (v : Pair Echo) (h : Setd s) : Setd (s.setEchos v) := h.of rfl rfl

theorem set_setLanes (s : State) (v : Pair LaneUnit) (h : Setd s) : Setd (s.setLanes v) := h.of rfl rfl

theorem set_setServo (s : State) (v : Servo) (h : Setd s) : Setd (s.setServo v) := h.of rfl rfl

theorem set_setLog (s : State) (v : EventLog) (h : Setd s) : Setd (s.setLog v) := h.of rfl rfl

theorem set_setFrozen (s : State) (v : Option Frozen) (h : Setd s) : Setd (s.setFrozen v) := h.of rfl rfl

theorem set_setDrift (s : State) (v : DriftMonitor) (h : Setd s) : Setd (s.setDrift v) := h.of rfl rfl

theorem set_setFaults (s : State) (v : FaultUnit) (h : Setd s) : Setd (s.setFaults v) := h.of rfl rfl

theorem set_setAgent (s : State) (v : Agent) (h : Setd s) : Setd (s.setAgent v) := h.of rfl rfl

theorem set_setClock (s : State) (v : Clock) (h : Setd s) : Setd (s.setClock v) := h.of rfl rfl

theorem set_setRun (s : State) (v : RunState) (h : Setd s) : Setd (s.setRun v) := h.of rfl rfl

theorem set_setSources (s : State) (v : Vector (Option SourceEntry) 8) (h : Setd s) :
    Setd (s.setSources v) := h.of rfl rfl

theorem set_setSource (s : State) (i : Nat) (v : Option SourceEntry) (h : Setd s) :
    Setd (s.setSource i v) := h.of rfl rfl

theorem set_setPeer (s : State) (i : Nat) (v : PeerDyn) (h : Setd s) : Setd (s.setPeer i v) := h.of rfl rfl

theorem set_setForm (s : State) (i : AlertForm) (v : FormState) (h : Setd s) : Setd (s.setForm i v) := h.of rfl rfl

theorem set_setFault (s : State) (i : FaultKind) (v : FaultRec) (h : Setd s) : Setd (s.setFault i v) := h.of rfl rfl

theorem set_setEcho (s : State) (p : Port) (v : Echo) (h : Setd s) : Setd (s.setEcho p v) := h.of rfl rfl

theorem set_setLane (s : State) (p : Lane) (v : LaneUnit) (h : Setd s) : Setd (s.setLane p v) := h.of rfl rfl

theorem set_setPort (s : State) (p : Port) (v : PortUnit) (h : Setd s) : Setd (s.setPort p v) := h.of rfl rfl

theorem set_count (s : State) (p : Port) (v : Stats → Stats) (h : Setd s) : Setd (s.count p v) := h.of rfl rfl

theorem set_watchSecond (s : State) (h : Setd s) : Setd (watchSecond s) :=
  h.of (by rw [cfg_watchSecond]) (by rw [matchTab_watchSecond])

theorem set_judgePulse (d : Option Nat) (s : State) (h : Setd s) : Setd (judgePulse d s) :=
  h.of (by rw [cfg_judgePulse]) (by rw [matchTab_judgePulse])

theorem set_admitFrame (p : Port) (need : Nat) (f : FwdFrame) (s : State) (h : Setd s) :
    Setd (admitFrame p need f s).1 :=
  h.of (by rw [cfg_admitFrame]) (by rw [matchTab_admitFrame])

theorem set_offerTiming (p : Port) (tag : OrigTag) (header : Nat) (bytes : List Byte) (s : State) (h : Setd s) :
    Setd (offerTiming p tag header bytes s).1 :=
  h.of (by rw [cfg_offerTiming]) (by rw [matchTab_offerTiming])

theorem set_offerGeneral (p : Port) (tag : OrigTag) (header : Nat) (bytes : List Byte) (s : State) (h : Setd s) :
    Setd (offerGeneral p tag header bytes s).1 :=
  h.of (by rw [cfg_offerGeneral]) (by rw [matchTab_offerGeneral])

theorem set_askPassesEgress (p : Port) (id : Nat) (s : State) (h : Setd s) : Setd (askPassesEgress p id s) :=
  h.of (by rw [cfg_askPassesEgress]) (by rw [matchTab_askPassesEgress])

theorem set_reportPassesEgress (i : Nat) (rack ip : BitVec 32) (s : State) (h : Setd s) :
    Setd (reportPassesEgress i rack ip s) :=
  h.of (by rw [cfg_reportPassesEgress]) (by rw [matchTab_reportPassesEgress])

theorem set_recordEgress (p : Port) (tag : OrigTag) (s : State) (h : Setd s) : Setd (recordEgress p tag s) :=
  h.of (by rw [cfg_recordEgress]) (by rw [matchTab_recordEgress])

theorem set_grantQueued (p : Port) (o : TxFrom) (q : QFrame) (s : State) (h : Setd s) : Setd (grantQueued p o q s) :=
  h.of (by rw [cfg_grantQueued]) (by rw [matchTab_grantQueued])

theorem set_grantForwarded (p : Port) (f : FwdFrame) (s : State) (h : Setd s) : Setd (grantForwarded p f s) :=
  h.of (by rw [cfg_grantForwarded]) (by rw [matchTab_grantForwarded])

theorem set_arbitrate (p : Port) (s : State) (h : Setd s) : Setd (arbitrate p s) :=
  h.of (by rw [cfg_arbitrate]) (by rw [matchTab_arbitrate])

theorem set_finishTx (p : Port) (t : Tx) (s : State) (h : Setd s) : Setd (finishTx p t s) :=
  h.of (by rw [cfg_finishTx]) (by rw [matchTab_finishTx])

theorem set_suppressAlert (a : AlertForm) (s : State) (h : Setd s) : Setd (suppressAlert a s) :=
  h.of (by rw [cfg_suppressAlert]) (by rw [matchTab_suppressAlert])

theorem set_alertEvent (a : AlertForm) (clear : Bool) (subject : Subject) (d : AlertData) (s : State) (h : Setd s) :
    Setd (alertEvent a clear subject d s) :=
  h.of (by rw [cfg_alertEvent]) (by rw [matchTab_alertEvent])

theorem set_levelNotice (s : State) (h : Setd s) : Setd (levelNotice s) :=
  h.of (by rw [cfg_levelNotice]) (by rw [matchTab_levelNotice])

theorem set_offerBare (o : Offer) (s : State) (h : Setd s) : Setd (offerBare o s).1 :=
  h.of (by rw [cfg_offerBare]) (by rw [matchTab_offerBare])

theorem set_activate (k : FaultKind) (subject : Subject) (s : State) (h : Setd s) : Setd (activate k subject s) :=
  h.of (by rw [cfg_activate]) (by rw [matchTab_activate])

theorem set_countRaise (k : FaultKind) (s : State) (h : Setd s) : Setd (countRaise k s) :=
  h.of (by rw [cfg_countRaise]) (by rw [matchTab_countRaise])

theorem set_deactivate (k : FaultKind) (s : State) (h : Setd s) : Setd (deactivate k s) :=
  h.of (by rw [cfg_deactivate]) (by rw [matchTab_deactivate])

theorem set_faultAlert (k : FaultKind) (clear : Bool) (subject : Subject) (d : AlertData) (s : State) (h : Setd s) :
    Setd (faultAlert k clear subject d s) :=
  h.of (by rw [cfg_faultAlert]) (by rw [matchTab_faultAlert])

theorem set_raiseLogFull (s : State) (h : Setd s) : Setd (raiseLogFull s) :=
  h.of (by rw [cfg_raiseLogFull]) (by rw [matchTab_raiseLogFull])

theorem set_clearLogFull (s : State) (h : Setd s) : Setd (clearLogFull s) :=
  h.of (by rw [cfg_clearLogFull]) (by rw [matchTab_clearLogFull])

theorem set_offerRecord (o : Offer) (s : State) (h : Setd s) : Setd (offerRecord o s) :=
  h.of (by rw [cfg_offerRecord]) (by rw [matchTab_offerRecord])

theorem set_raiseLogFullAgain (s : State) (h : Setd s) : Setd (raiseLogFullAgain s) :=
  h.of (by rw [cfg_raiseLogFullAgain]) (by rw [matchTab_raiseLogFullAgain])

theorem set_raiseFault (k : FaultKind) (subject : Subject) (record : Bool) (d : AlertData) (s : State) (h : Setd s) :
    Setd (raiseFault k subject record d s) :=
  h.of (by rw [cfg_raiseFault]) (by rw [matchTab_raiseFault])

theorem set_clearFault (k : FaultKind) (subject : Subject) (record : Bool) (d : AlertData) (s : State) (h : Setd s) :
    Setd (clearFault k subject record d s) :=
  h.of (by rw [cfg_clearFault]) (by rw [matchTab_clearFault])

theorem set_handRate (r : Int) (s : State) (h : Setd s) : Setd (handRate r s) :=
  h.of (by rw [cfg_handRate]) (by rw [matchTab_handRate])

theorem set_setServoState (st : ServoState) (s : State) (h : Setd s) : Setd (setServoState st s) :=
  h.of (by rw [cfg_setServoState]) (by rw [matchTab_setServoState])

theorem set_offerState (old : ServoState) (s : State) (h : Setd s) : Setd (offerState old s) :=
  h.of (by rw [cfg_offerState]) (by rw [matchTab_offerState])

theorem set_servoFollows (s : State) (h : Setd s) : Setd (servoFollows s) :=
  h.of (by rw [cfg_servoFollows]) (by rw [matchTab_servoFollows])

theorem set_servoSwitches (s : State) (h : Setd s) : Setd (servoSwitches s) :=
  h.of (by rw [cfg_servoSwitches]) (by rw [matchTab_servoSwitches])

theorem set_servoHolds (s : State) (h : Setd s) : Setd (servoHolds s) :=
  h.of (by rw [cfg_servoHolds]) (by rw [matchTab_servoHolds])

theorem set_setSourceState (i : Nat) (st : SourceState) (s : State) (h : Setd s) : Setd (setSourceState i st s) :=
  h.of (by rw [cfg_setSourceState]) (by rw [matchTab_setSourceState])

theorem set_unselect (i : Nat) (s : State) (h : Setd s) : Setd (unselect i s) :=
  h.of (by rw [cfg_unselect]) (by rw [matchTab_unselect])

theorem set_clearHoldoverExpired (s : State) (h : Setd s) : Setd (clearHoldoverExpired s) :=
  h.of (by rw [cfg_clearHoldoverExpired]) (by rw [matchTab_clearHoldoverExpired])

theorem set_offerStateIfChanged (before : ServoState) (s : State) (h : Setd s) :
    Setd (offerStateIfChanged before s) :=
  h.of (by rw [cfg_offerStateIfChanged]) (by rw [matchTab_offerStateIfChanged])

theorem set_select (old : Option (Nat × SourceEntry)) (new : Nat × SourceEntry) (reason : Reason) (sampled : Bool)
    (s : State) (h : Setd s) :
    Setd (select old new reason sampled s) :=
  h.of (by rw [cfg_select]) (by rw [matchTab_select])

theorem set_endSelection (old : Nat × SourceEntry) (reason : Reason) (s : State) (h : Setd s) :
    Setd (endSelection old reason s) :=
  h.of (by rw [cfg_endSelection]) (by rw [matchTab_endSelection])

theorem set_reevaluate (old : Option (Nat × SourceEntry)) (why : Reason) (own : Option Nat) (s : State) (h : Setd s) :
    Setd (reevaluate old why own s) :=
  h.of (by rw [cfg_reevaluate]) (by rw [matchTab_reevaluate])

theorem set_reevaluateOnHold (before : Bool) (s : State) (h : Setd s) : Setd (reevaluateOnHold before s) :=
  h.of (by rw [cfg_reevaluateOnHold]) (by rw [matchTab_reevaluateOnHold])

theorem set_raiseWithHold (k : FaultKind) (subject : Subject) (record : Bool) (d : AlertData) (s : State)
    (h : Setd s) :
    Setd (raiseWithHold k subject record d s) :=
  h.of (by rw [cfg_raiseWithHold]) (by rw [matchTab_raiseWithHold])

theorem set_clearWithHold (k : FaultKind) (subject : Subject) (record : Bool) (d : AlertData) (s : State)
    (h : Setd s) :
    Setd (clearWithHold k subject record d s) :=
  h.of (by rw [cfg_clearWithHold]) (by rw [matchTab_clearWithHold])

theorem set_secondPulse (s : State) (h : Setd s) : Setd (secondPulse s) :=
  h.of (by rw [cfg_secondPulse]) (by rw [matchTab_secondPulse])

theorem set_performSwap (s : State) (h : Setd s) : Setd (performSwap s) := set_setMatchTab _ _ h.bank0 h.bank1 h

theorem set_armedSwap (s : State) (h : Setd s) :
    Setd (armedSwap s) := by
  simp only [armedSwap]
  (repeat' split) <;> (repeat' first
      | with_reducible assumption | with_reducible apply set_performSwap | exact limitResponse_ok _ _ | simp)

theorem set_secondBoundary (s : State) (h : Setd s) :
    Setd (secondBoundary s) := by
  simp only [secondBoundary]
  (repeat' split) <;> (repeat' first
      | with_reducible assumption | with_reducible apply set_secondPulse | with_reducible apply set_armedSwap
      | exact limitResponse_ok _ _ | simp)

theorem set_stepTo (moved : Date × Bool) (s : State) (h : Setd s) :
    Setd (stepTo moved s) := by
  simp only [stepTo]
  (repeat' split) <;> (repeat' first
      | with_reducible assumption | with_reducible apply set_secondBoundary | with_reducible apply set_setClock
      | exact limitResponse_ok _ _ | simp)

theorem set_forwardStep (amount : Nat) (s : State) (h : Setd s) :
    Setd (forwardStep amount s) := by
  simp only [forwardStep]
  (repeat' split) <;> (repeat' first
      | with_reducible assumption | with_reducible apply set_stepTo | exact limitResponse_ok _ _ | simp)

theorem set_load (d : Date) (s : State) (h : Setd s) : Setd (load d s) :=
  h.of (by rw [cfg_load]) (by rw [matchTab_load])

theorem set_uptimeSecond (s : State) (h : Setd s) : Setd (uptimeSecond s) :=
  h.of (by rw [cfg_uptimeSecond]) (by rw [matchTab_uptimeSecond])

theorem set_rememberStamp (d : SN) (s : State) (h : Setd s) : Setd (rememberStamp d s) :=
  h.of (by rw [cfg_rememberStamp]) (by rw [matchTab_rememberStamp])

theorem set_leaveLocked (s : State) (h : Setd s) : Setd (leaveLocked s) :=
  h.of (by rw [cfg_leaveLocked]) (by rw [matchTab_leaveLocked])

theorem set_afterStep (amount : Nat) (s : State) (h : Setd s) : Setd (afterStep amount s) :=
  h.of (by rw [cfg_afterStep]) (by rw [matchTab_afterStep])

theorem set_servoStep (amount : Nat) (s : State) (h : Setd s) :
    Setd (servoStep amount s) := by
  simp only [servoStep]
  (repeat' split) <;> (repeat' first
      | with_reducible assumption | with_reducible apply set_forwardStep | with_reducible apply set_afterStep
      | exact limitResponse_ok _ _ | simp)

theorem set_startCatchDown (s : State) (h : Setd s) : Setd (startCatchDown s) :=
  h.of (by rw [cfg_startCatchDown]) (by rw [matchTab_startCatchDown])

theorem set_filterUpdate (theta k : Int) (s : State) (h : Setd s) : Setd (filterUpdate theta k s) :=
  h.of (by rw [cfg_filterUpdate]) (by rw [matchTab_filterUpdate])

theorem set_lockCounting (theta : Int) (s : State) (h : Setd s) : Setd (lockCounting theta s) :=
  h.of (by rw [cfg_lockCounting]) (by rw [matchTab_lockCounting])

theorem set_sampleInUnset (x : ServoSample) (s : State) (h : Setd s) : Setd (sampleInUnset x s) :=
  h.of (by rw [cfg_sampleInUnset]) (by rw [matchTab_sampleInUnset])

theorem set_filterAndLock (x : ServoSample) (s : State) (h : Setd s) : Setd (filterAndLock x s) :=
  h.of (by rw [cfg_filterAndLock]) (by rw [matchTab_filterAndLock])

theorem set_sampleInCatchDown (x : ServoSample) (s : State) (h : Setd s) :
    Setd (sampleInCatchDown x s) := by
  simp only [sampleInCatchDown]
  (repeat' split) <;> (repeat' first
      | with_reducible assumption | with_reducible apply set_handRate | with_reducible apply set_servoStep
      | with_reducible apply set_filterAndLock | with_reducible apply set_setServo | exact limitResponse_ok _ _
      | simp)

theorem set_sampleOutside (x : ServoSample) (s : State) (h : Setd s) :
    Setd (sampleOutside x s) := by
  simp only [sampleOutside]
  (repeat' split) <;> (repeat' first
      | with_reducible assumption | with_reducible apply set_servoStep | with_reducible apply set_startCatchDown
      | with_reducible apply set_filterAndLock | exact limitResponse_ok _ _ | simp)

theorem set_sampleInFollow (x : ServoSample) (s : State) (h : Setd s) :
    Setd (sampleInFollow x s) := by
  simp only [sampleInFollow]
  (repeat' split) <;> (repeat' first
      | with_reducible assumption | with_reducible apply set_sampleInCatchDown
      | with_reducible apply set_sampleOutside | with_reducible apply set_setServo | exact limitResponse_ok _ _
      | simp)

theorem set_takeSample (x : ServoSample) (s : State) (h : Setd s) :
    Setd (takeSample x s) := by
  simp only [takeSample]
  (repeat' split) <;> (repeat' first
      | with_reducible assumption | with_reducible apply set_sampleInUnset
      | with_reducible apply set_sampleInFollow | exact limitResponse_ok _ _ | simp)

theorem set_expireHoldover (s : State) (h : Setd s) : Setd (expireHoldover s) :=
  h.of (by rw [cfg_expireHoldover]) (by rw [matchTab_expireHoldover])

theorem set_unexpireHoldover (s : State) (h : Setd s) : Setd (unexpireHoldover s) :=
  h.of (by rw [cfg_unexpireHoldover]) (by rw [matchTab_unexpireHoldover])

theorem set_judgeHoldover (s : State) (h : Setd s) : Setd (judgeHoldover s) :=
  h.of (by rw [cfg_judgeHoldover]) (by rw [matchTab_judgeHoldover])

theorem set_clampF (s : State) (h : Setd s) : Setd (clampF s) := h.of (by rw [cfg_clampF]) (by rw [matchTab_clampF])

theorem set_applyServo (p : ServoParams) (w l : Nat) (s : State) (hc : SettingsOk { s.cfg with servo := p, secWidth := w, secLimit := l }) (h : Setd s) :
    Setd (applyServo p w l s) := by
  simp only [applyServo]
  apply set_judgePulse
  apply set_judgeHoldover
  have h2 := set_clampF _ (set_setCfg s _ hc h)
  split
  · exact set_handRate _ _ h2
  · exact h2

theorem set_setDateTo (d : SN) (s : State) (h : Setd s) :
    Setd (setDateTo d s).1 := by
  simp only [setDateTo]
  (repeat' split) <;> (repeat' first
      | with_reducible assumption | with_reducible apply set_offerRecord | with_reducible apply set_setServoState
      | with_reducible apply set_offerState | with_reducible apply set_forwardStep | with_reducible apply set_load
      | exact limitResponse_ok _ _ | simp)

theorem set_setTrimTo (f : Int) (s : State) (h : Setd s) : Setd (setTrimTo f s).1 := by
  simp only [setTrimTo]
  have hb := clampTrim h f
  (repeat' split) <;> first | exact h | exact set_handRate _ _ (set_setServo _ _ (set_setCfg _ _ (h.cfg.ofTrim _ hb.1 hb.2) h))

theorem set_loadTrim (s : State) (h : Setd s) : Setd (loadTrim s) := by
  simp only [loadTrim]
  have hb := clampTrim h s.cfg.trim
  exact set_handRate _ _ (set_setServo _ _ (set_setCfg _ _ (h.cfg.ofTrim _ hb.1 hb.2) h))

theorem set_servoSoftReset (s : State) (h : Setd s) : Setd (servoSoftReset s) :=
  h.of (by rw [cfg_servoSoftReset]) (by rw [matchTab_servoSoftReset])

theorem set_forwardWhole (w : Whole) (edit : Edit) (s : State) (h : Setd s) : Setd (forwardWhole w edit s) :=
  h.of (by rw [cfg_forwardWhole]) (by rw [matchTab_forwardWhole])

theorem set_takeInterval (p : Port) (s : State) (h : Setd s) : Setd (takeInterval p s) :=
  h.of (by rw [cfg_takeInterval]) (by rw [matchTab_takeInterval])

theorem set_restartInterval (p : Port) (s : State) (h : Setd s) : Setd (restartInterval p s) :=
  h.of (by rw [cfg_restartInterval]) (by rw [matchTab_restartInterval])

theorem set_startEcho (p : Port) (s : State) (h : Setd s) : Setd (startEcho p s) :=
  h.of (by rw [cfg_startEcho]) (by rw [matchTab_startEcho])

theorem set_takeDelay (p : Port) (x : Nat) (s : State) (h : Setd s) : Setd (takeDelay p x s) :=
  h.of (by rw [cfg_takeDelay]) (by rw [matchTab_takeDelay])

theorem set_endExchange (w : Whole) (s : State) (h : Setd s) : Setd (endExchange w s) :=
  h.of (by rw [cfg_endExchange]) (by rw [matchTab_endExchange])

theorem set_answerReceived (w : Whole) (s : State) (h : Setd s) : Setd (answerReceived w s) :=
  h.of (by rw [cfg_answerReceived]) (by rw [matchTab_answerReceived])

theorem set_echoTimesOut (p : Port) (s : State) (h : Setd s) : Setd (echoTimesOut p s) :=
  h.of (by rw [cfg_echoTimesOut]) (by rw [matchTab_echoTimesOut])

theorem set_echoLinkDown (p : Port) (s : State) (h : Setd s) : Setd (echoLinkDown p s) :=
  h.of (by rw [cfg_echoLinkDown]) (by rw [matchTab_echoLinkDown])

theorem set_echoLinkUp (p : Port) (s : State) (h : Setd s) : Setd (echoLinkUp p s) :=
  h.of (by rw [cfg_echoLinkUp]) (by rw [matchTab_echoLinkUp])

theorem set_echoRewritten (p : Port) (old : PortRec) (s : State) (h : Setd s) : Setd (echoRewritten p old s) :=
  h.of (by rw [cfg_echoRewritten]) (by rw [matchTab_echoRewritten])

theorem set_clearStale (p : Port) (s : State) (h : Setd s) : Setd (clearStale p s) :=
  h.of (by rw [cfg_clearStale]) (by rw [matchTab_clearStale])

theorem set_answerAsk (w : Whole) (s : State) (h : Setd s) : Setd (answerAsk w s) :=
  h.of (by rw [cfg_answerAsk]) (by rw [matchTab_answerAsk])

theorem set_handleAsk (w : Whole) (s : State) (h : Setd s) : Setd (handleAsk w s) :=
  h.of (by rw [cfg_handleAsk]) (by rw [matchTab_handleAsk])

theorem set_handleAnswer (w : Whole) (s : State) (h : Setd s) : Setd (handleAnswer w s) :=
  h.of (by rw [cfg_handleAnswer]) (by rw [matchTab_handleAnswer])

theorem set_afterBeacon (w : Whole) (i p : Nat) (a : Int) (old : Option (Nat × SourceEntry)) (s : State) (h : Setd s) :
    Setd (afterBeacon w i p a old s) := by
  simp only [afterBeacon]
  (repeat' split) <;> (repeat' first
      | with_reducible assumption | with_reducible apply set_watchSecond | with_reducible apply set_reevaluate
      | with_reducible apply set_takeSample | with_reducible apply set_setSource | exact limitResponse_ok _ _
      | simp)

theorem set_beaconIntoTable (w : Whole) (s : State) (h : Setd s) :
    Setd (beaconIntoTable w s) := by
  simp only [beaconIntoTable]
  (repeat' split) <;> (repeat' first
      | with_reducible assumption | with_reducible apply set_afterBeacon | with_reducible apply set_setSource
      | with_reducible apply set_count | exact limitResponse_ok _ _ | simp)

theorem set_goStale (i : Nat) (s : State) (h : Setd s) : Setd (goStale i s) :=
  h.of (by rw [cfg_goStale]) (by rw [matchTab_goStale])

theorem set_afterBar (old : Option (Nat × SourceEntry)) (s : State) (h : Setd s) : Setd (afterBar old s) :=
  h.of (by rw [cfg_afterBar]) (by rw [matchTab_afterBar])

theorem set_endBar (i : Nat) (e : SourceEntry) (s : State) (h : Setd s) : Setd (endBar i e s) :=
  h.of (by rw [cfg_endBar]) (by rw [matchTab_endBar])

theorem set_setBar (i : Nat) (e : SourceEntry) (seconds : Nat) (s : State) (h : Setd s) :
    Setd (setBar i e seconds s) :=
  h.of (by rw [cfg_setBar]) (by rw [matchTab_setBar])

theorem set_barEntry (i : Nat) (e : SourceEntry) (seconds : Nat) (s : State) (h : Setd s) :
    Setd (barEntry i e seconds s) :=
  h.of (by rw [cfg_barEntry]) (by rw [matchTab_barEntry])

theorem set_barSelected (seconds : Nat) (s : State) (h : Setd s) : Setd (barSelected seconds s) :=
  h.of (by rw [cfg_barSelected]) (by rw [matchTab_barSelected])

theorem set_transitBeacon (w : Whole) (p : Nat) (s : State) (h : Setd s) : Setd (transitBeacon w p s) :=
  h.of (by rw [cfg_transitBeacon]) (by rw [matchTab_transitBeacon])

theorem set_beaconUnit (w : Whole) (p : Nat) (s : State) (h : Setd s) : Setd (beaconUnit w p s) :=
  h.of (by rw [cfg_beaconUnit]) (by rw [matchTab_beaconUnit])

theorem set_handleBeacon (w : Whole) (s : State) (h : Setd s) :
    Setd (handleBeacon w s) := by
  simp only [handleBeacon]
  (repeat' split) <;> (repeat' first
      | with_reducible assumption | with_reducible apply set_beaconIntoTable | with_reducible apply set_beaconUnit
      | exact limitResponse_ok _ _ | simp)

theorem set_recordEmission (l : Lane) (instant : SN) (e : Emission) (s : State) (h : Setd s) :
    Setd (recordEmission l instant e s) :=
  h.of (by rw [cfg_recordEmission]) (by rw [matchTab_recordEmission])

theorem set_originate (l : Lane) (instant : SN) (s : State) (h : Setd s) : Setd (originate l instant s) :=
  h.of (by rw [cfg_originate]) (by rw [matchTab_originate])

theorem set_laneInstant (l : Lane) (old new : Date) (s : State) (h : Setd s) : Setd (laneInstant l old new s) :=
  h.of (by rw [cfg_laneInstant]) (by rw [matchTab_laneInstant])

theorem set_startReports (s : State) (h : Setd s) : Setd (startReports s) :=
  h.of (by rw [cfg_startReports]) (by rw [matchTab_startReports])

theorem set_nextSlot (s : State) (h : Setd s) : Setd (nextSlot s) :=
  h.of (by rw [cfg_nextSlot]) (by rw [matchTab_nextSlot])

theorem set_reportNotSent (i : Nat) (s : State) (h : Setd s) : Setd (reportNotSent i s) :=
  h.of (by rw [cfg_reportNotSent]) (by rw [matchTab_reportNotSent])

theorem set_reportSent (i : Nat) (s : State) (h : Setd s) : Setd (reportSent i s) :=
  h.of (by rw [cfg_reportSent]) (by rw [matchTab_reportSent])

theorem set_sendReport (i : Nat) (s : State) (h : Setd s) : Setd (sendReport i s) :=
  h.of (by rw [cfg_sendReport]) (by rw [matchTab_sendReport])

theorem set_setSelfDrift (v : Verdict) (s : State) (h : Setd s) : Setd (setSelfDrift v s) :=
  h.of (by rw [cfg_setSelfDrift]) (by rw [matchTab_setSelfDrift])

theorem set_clearSelfDrift (v : Verdict) (e : Episode) (s : State) (h : Setd s) : Setd (clearSelfDrift v e s) :=
  h.of (by rw [cfg_clearSelfDrift]) (by rw [matchTab_clearSelfDrift])

theorem set_judgeSelf (s : State) (h : Setd s) : Setd (judgeSelf s) :=
  h.of (by rw [cfg_judgeSelf]) (by rw [matchTab_judgeSelf])

theorem set_warnPeer (i : Nat) (vote : Vote) (s : State) (h : Setd s) : Setd (warnPeer i vote s) :=
  h.of (by rw [cfg_warnPeer]) (by rw [matchTab_warnPeer])

theorem set_unwarnPeer (i : Nat) (vote : Vote) (s : State) (h : Setd s) : Setd (unwarnPeer i vote s) :=
  h.of (by rw [cfg_unwarnPeer]) (by rw [matchTab_unwarnPeer])

theorem set_judgePeer (s : State) (i : Nat) (h : Setd s) : Setd (judgePeer s i) :=
  h.of (by rw [cfg_judgePeer]) (by rw [matchTab_judgePeer])

theorem set_judgeRack (s : State) (h : Setd s) : Setd (judgeRack s) :=
  h.of (by rw [cfg_judgeRack]) (by rw [matchTab_judgeRack])

theorem set_reportReceived (w : Whole) (s : State) (h : Setd s) : Setd (reportReceived w s) :=
  h.of (by rw [cfg_reportReceived]) (by rw [matchTab_reportReceived])

theorem set_setPeerCfg (i : Nat) (c : PeerCfg) (s : State) (hc : c.preferred.isUplink = true) (h : Setd s) :
    Setd (setPeerCfg i c s) :=
  set_setCfg _ _ (h.cfg.ofPeer _ _ hc) h

theorem set_voidReports (i : Nat) (s : State) (h : Setd s) : Setd (voidReports i s) := h.of rfl rfl

theorem set_writePeerAt (i : Nat) (c : PeerCfg) (s : State) (hc : c.preferred.isUplink = true) (h : Setd s) :
    Setd (writePeerAt i c s) := by
  simp only [writePeerAt]
  have := set_setPeerCfg i c s hc h
  have := set_setPeer _ i (rewrittenPeer (s.peerCfg i) c (s.peer i)).1 this
  (repeat' split) <;> (repeat' first
    | with_reducible assumption | with_reducible apply set_judgeRack | with_reducible apply set_voidReports)

theorem set_clearPeerAt (i : Nat) (s : State) (h : Setd s) : Setd (clearPeerAt i s) := by
  simp only [clearPeerAt]
  have := set_setPeerCfg i ⟨false, 0, 0, .u0⟩ s (by decide) h
  split
  · exact set_judgeRack _ (set_voidReports _ _ (set_setPeer _ _ _ this))
  · exact set_voidReports _ _ (set_setPeer _ _ _ this)

theorem set_applyDrift (p : DriftParams) (a l : Nat) (s : State) (hc : SettingsOk { s.cfg with drift := p, alertHoldoff := a, logThreshold := l }) (h : Setd s) :
    Setd (applyDrift p a l s) := by
  simp only [applyDrift]
  apply set_judgeRack
  split
  · exact set_startReports _ (set_setCfg _ _ hc h)
  · exact set_setCfg _ _ hc h

theorem set_driftSoftReset (s : State) (h : Setd s) : Setd (driftSoftReset s) :=
  h.of (by rw [cfg_driftSoftReset]) (by rw [matchTab_driftSoftReset])

theorem set_freezeTrigger (t : Trigger) (s : State) (h : Setd s) : Setd (freezeTrigger t s) :=
  h.of (by rw [cfg_freezeTrigger]) (by rw [matchTab_freezeTrigger])

theorem set_releaseFreeze (s : State) (h : Setd s) : Setd (releaseFreeze s) :=
  h.of (by rw [cfg_releaseFreeze]) (by rw [matchTab_releaseFreeze])

theorem set_openMark (p : Port) (index : Nat) (e : MatchEntry) (ingress : Date) (s : State) (h : Setd s) :
    Setd (openMark p index e ingress s) :=
  h.of (by rw [cfg_openMark]) (by rw [matchTab_openMark])

theorem set_settleStamp (p : Port) (written : Bool) (s : State) (h : Setd s) : Setd (settleStamp p written s) :=
  h.of (by rw [cfg_settleStamp]) (by rw [matchTab_settleStamp])

theorem set_loseStamp (p : Port) (s : State) (h : Setd s) : Setd (loseStamp p s) :=
  h.of (by rw [cfg_loseStamp]) (by rw [matchTab_loseStamp])

theorem set_readyArriving (p : Port) (edit : Edit) (s : State) (h : Setd s) : Setd (readyArriving p edit s) :=
  h.of (by rw [cfg_readyArriving]) (by rw [matchTab_readyArriving])

theorem set_writeStampNow (p : Port) (c : DatingCtx) (bytes : List Byte) (s : State) (h : Setd s) :
    Setd (writeStampNow p c bytes s) :=
  h.of (by rw [cfg_writeStampNow]) (by rw [matchTab_writeStampNow])

theorem set_closeMark (p : Port) (bytes : List Byte) (stop len : Nat) (badFcs : Bool) (s : State) (h : Setd s) :
    Setd (closeMark p bytes stop len badFcs s) :=
  h.of (by rw [cfg_closeMark]) (by rw [matchTab_closeMark])

theorem set_cutMark (p : Port) (bytes : List Byte) (len : Nat) (s : State) (h : Setd s) :
    Setd (cutMark p bytes len s) :=
  h.of (by rw [cfg_cutMark]) (by rw [matchTab_cutMark])

theorem set_setRx (p : Port) (r : Option Rx) (s : State) (h : Setd s) : Setd (setRx p r s) :=
  h.of (by rw [cfg_setRx]) (by rw [matchTab_setRx])

theorem set_forwardArriving (p : Port) (r : Rx) (ready : Bool) (s : State) (h : Setd s) :
    Setd (forwardArriving p r ready s).1 :=
  h.of (by rw [cfg_forwardArriving]) (by rw [matchTab_forwardArriving])

theorem set_passFrame (p : Port) (r : Rx) (s : State) (h : Setd s) : Setd (passFrame p r s) :=
  h.of (by rw [cfg_passFrame]) (by rw [matchTab_passFrame])

theorem set_settleArrived (p : Port) (bytes : List Byte) (s : State) (h : Setd s) : Setd (settleArrived p bytes s) :=
  h.of (by rw [cfg_settleArrived]) (by rw [matchTab_settleArrived])

theorem set_markFrame (p : Port) (r : Rx) (index : Nat) (e : MatchEntry) (s : State) (h : Setd s) :
    Setd (markFrame p r index e s) :=
  h.of (by rw [cfg_markFrame]) (by rw [matchTab_markFrame])

theorem set_lookupFrame (p : Port) (r : Rx) (ended : Bool) (s : State) (h : Setd s) :
    Setd (lookupFrame p r ended s) :=
  h.of (by rw [cfg_lookupFrame]) (by rw [matchTab_lookupFrame])

theorem set_growArriving (p : Port) (bytes : List Byte) (s : State) (h : Setd s) : Setd (growArriving p bytes s) :=
  h.of (by rw [cfg_growArriving]) (by rw [matchTab_growArriving])

theorem set_overrun (p : Port) (r : Rx) (s : State) (h : Setd s) : Setd (overrun p r s) :=
  h.of (by rw [cfg_overrun]) (by rw [matchTab_overrun])

theorem set_malformedFrame (w : Whole) (s : State) (h : Setd s) : Setd (malformedFrame w s) :=
  h.of (by rw [cfg_malformedFrame]) (by rw [matchTab_malformedFrame])

theorem set_dispatchL2 (w : Whole) (s : State) (h : Setd s) :
    Setd (dispatchL2 w s) := by
  simp only [dispatchL2]
  (repeat' split) <;> (repeat' first
      | with_reducible assumption | with_reducible apply set_handleAsk | with_reducible apply set_handleAnswer
      | with_reducible apply set_handleBeacon | with_reducible apply set_malformedFrame
      | exact limitResponse_ok _ _ | simp)

theorem set_acceptControl (w : Whole) (privilege : Privilege) (s : State) (h : Setd s) :
    Setd (acceptControl w privilege s) :=
  h.of (by rw [cfg_acceptControl]) (by rw [matchTab_acceptControl])

theorem set_dispatchUdp (w : Whole) (mgmt utx : Bool) (privilege : Privilege) (s : State) (h : Setd s) :
    Setd (dispatchUdp w mgmt utx privilege s) :=
  h.of (by rw [cfg_dispatchUdp]) (by rw [matchTab_dispatchUdp])

theorem set_endForwarded (p : Port) (r : Rx) (inLane : Bool) (s : State) (h : Setd s) :
    Setd (endForwarded p r inLane s) :=
  h.of (by rw [cfg_endForwarded]) (by rw [matchTab_endForwarded])

theorem set_endFrame (p : Port) (r : Rx) (s : State) (h : Setd s) :
    Setd (endFrame p r s) := by
  simp only [endFrame]
  (repeat' split) <;> (repeat' first
      | with_reducible assumption | with_reducible apply set_setRx | with_reducible apply set_dispatchL2
      | with_reducible apply set_dispatchUdp | with_reducible apply set_endForwarded
      | with_reducible apply set_count | exact limitResponse_ok _ _ | simp)

theorem set_receiveEnd (p : Port) (r : Rx) (s : State) (h : Setd s) :
    Setd (receiveEnd p r s) := by
  simp only [receiveEnd]
  (repeat' split) <;> (repeat' first
      | with_reducible assumption | with_reducible apply set_setRx | with_reducible apply set_lookupFrame
      | with_reducible apply set_overrun | with_reducible apply set_endFrame | with_reducible apply set_count
      | exact limitResponse_ok _ _ | simp)

theorem set_oversizeArrives (p : Port) (more : List Byte) (s : State) (h : Setd s) : Setd (oversizeArrives p more s) :=
  h.of (by rw [cfg_oversizeArrives]) (by rw [matchTab_oversizeArrives])

theorem set_applyReload (img : List Byte) (s : State) (h : Setd s) :
    Setd (applyReload (imageSettings img) (imageBank img) s) := by
  simp only [applyReload]
  have hi := imageSettings_ok img
  have h1 : SettingsOk { imageSettings img with servo := s.cfg.servo, secWidth := s.cfg.secWidth, secLimit := s.cfg.secLimit, trim := s.cfg.trim } :=
    ⟨hi.manager, hi.echo, hi.asym, hi.lane, hi.override, hi.uplink, h.cfg.step, h.cfg.window, h.cfg.locks, h.cfg.shifts, h.cfg.rates, h.cfg.holdover, h.cfg.second, hi.barTime, hi.report, hi.roundTrip, hi.thresholds, hi.quorum, hi.notices, hi.response, h.cfg.trim⟩
  generalize hx : (((s.setDrift _).setLanes _).setMatchTab _).setCfg _ = x
  have hX : Setd x := by
    subst hx
    exact ⟨h1, imageBank_ok _, imageBank_ok _⟩
  have hxc : x.cfg = { imageSettings img with servo := s.cfg.servo, secWidth := s.cfg.secWidth, secLimit := s.cfg.secLimit, trim := s.cfg.trim } := by subst hx; rfl
  have hY := set_reevaluateOnHold s.hold _ (set_setAgent _ { x.agent with imageVersion := 1 } hX)
  refine set_judgePulse _ _ (set_applyServo _ _ _ _ ?_ hY)
  have hc : (reevaluateOnHold s.hold (x.setAgent { x.agent with imageVersion := 1 })).cfg = x.cfg := by simp
  rw [hc, hxc]
  exact ⟨hi.manager, hi.echo, hi.asym, hi.lane, hi.override, hi.uplink, hi.step, hi.window, hi.locks, hi.shifts, hi.rates, hi.holdover, hi.second, hi.barTime, hi.report, hi.roundTrip, hi.thresholds, hi.quorum, hi.notices, hi.response, h.cfg.trim⟩

theorem set_softResetNow (r : Bool) (s : State) (h : Setd s) : Setd (softResetNow r s) := by
  simp only [softResetNow]
  apply set_servoSoftReset
  apply set_driftSoftReset
  exact set_setFrozen _ _ (set_setLog _ _ (set_setFaults _ _ (set_setLanes _ _ (set_setSources _ _ (set_setEchos _ _
    (set_setMatchTab _ _ h.bank0 h.bank1 (set_setPorts _ _ (set_setAgent _ _ h))))))))

theorem set_raiseAgain (expired : Bool) (s : State) (h : Setd s) : Setd (raiseAgain expired s) :=
  h.of (by rw [cfg_raiseAgain]) (by rw [matchTab_raiseAgain])

theorem set_completeSoft (expired : Bool) (s : State) (h : Setd s) : Setd (completeSoft expired s) :=
  h.of (by rw [cfg_completeSoft]) (by rw [matchTab_completeSoft])

theorem set_enterRunning (s : State) (h : Setd s) :
    Setd (enterRunning s) := by
  simp only [enterRunning]
  (repeat' split) <;> (repeat' first
      | with_reducible assumption | with_reducible apply set_loadTrim | with_reducible apply set_startEcho
      | with_reducible apply set_startReports | with_reducible apply set_setPorts
      | with_reducible apply set_setRun | exact limitResponse_ok _ _ | simp)

theorem set_finishLoad (f g : List Byte) (s : State) (h : Setd s) : Setd (finishLoad f g s) := by
  simp only [finishLoad]
  split
  · exact set_enterRunning _ ⟨imageSettings_ok _, imageBank_ok _, imageBank_ok _⟩
  · exact set_raiseWithHold _ _ _ _ _ (set_enterRunning _ ⟨defaults_ok, defaultBank_ok, defaultBank_ok⟩)

theorem set_finishReload (f g : List Byte) (s : State) (h : Setd s) : Setd (finishReload f g s) := by
  simp only [finishReload]
  split
  · exact set_completeSoft _ _ (set_applyReload _ _ (set_setAgent _ _ h))
  · exact set_raiseWithHold _ _ _ _ _ (set_completeSoft _ _ (set_setAgent _ _ h))

theorem set_loseReception (p : Port) (more : List Byte) (s : State) (h : Setd s) : Setd (loseReception p more s) :=
  h.of (by rw [cfg_loseReception]) (by rw [matchTab_loseReception])

theorem set_flushEgress (p : Port) (s : State) (h : Setd s) : Setd (flushEgress p s) :=
  h.of (by rw [cfg_flushEgress]) (by rw [matchTab_flushEgress])

theorem set_linkBackUp (p : Port) (s : State) (h : Setd s) : Setd (linkBackUp p s) :=
  h.of (by rw [cfg_linkBackUp]) (by rw [matchTab_linkBackUp])

theorem set_linkComesUp (p : Port) (s : State) (h : Setd s) : Setd (linkComesUp p s) :=
  h.of (by rw [cfg_linkComesUp]) (by rw [matchTab_linkComesUp])

theorem set_periodTo (moved : Date × Bool) (second : Bool) (s : State) (h : Setd s) :
    Setd (periodTo moved second s) := by
  simp only [periodTo]
  (repeat' split) <;> (repeat' first
      | with_reducible assumption | with_reducible apply set_secondBoundary
      | with_reducible apply set_uptimeSecond | with_reducible apply set_laneInstant
      | with_reducible apply set_setPorts | with_reducible apply set_setClock | exact limitResponse_ok _ _ | simp)

theorem set_clockPeriod (s : State) (h : Setd s) :
    Setd (clockPeriod s) := by
  simp only [clockPeriod]
  (repeat' split) <;> (repeat' first
      | with_reducible assumption | with_reducible apply set_periodTo | exact limitResponse_ok _ _ | simp)

theorem set_finishSave (written readBack : List Byte) (s : State) (h : Setd s) :
    Setd (finishSave written readBack s) :=
  h.of (by rw [cfg_finishSave]) (by rw [matchTab_finishSave])

theorem set_endMemoryTest (pass : Bool) (s : State) (h : Setd s) : Setd (endMemoryTest pass s) :=
  h.of (by rw [cfg_endMemoryTest]) (by rw [matchTab_endMemoryTest])

theorem set_removeRecords (k : Nat) (s : State) (h : Setd s) : Setd (removeRecords k s) :=
  h.of (by rw [cfg_removeRecords]) (by rw [matchTab_removeRecords])

theorem set_testLog (s : State) (h : Setd s) : Setd (testLog s).1 :=
  h.of (by rw [cfg_testLog]) (by rw [matchTab_testLog])

theorem set_writeMatch (i : Byte) (a : MatchArg) (s : State) (h : Setd s) : Setd (writeMatch i a s).1 := by
  simp only [writeMatch]
  (repeat' split) <;> first | exact h | exact set_setStandby _ _ (bank_set (standby_ok h) _ (matchEntryOf_ok _ _ _ _)) h

theorem set_copyActive (s : State) (h : Setd s) : Setd (copyActive s).1 := by
  simp only [copyActive]
  split
  · exact h
  · exact set_setStandby _ _ (active_ok h) h

theorem set_swapCommand (a : Byte) (s : State) (h : Setd s) : Setd (swapCommand a s).1 := by
  simp only [swapCommand]
  (repeat' split) <;> first | exact h | exact set_performSwap _ h | exact set_setMatchTab _ _ h.bank0 h.bank1 h

theorem set_writePort (a : PortArg) (s : State) (h : Setd s) : Setd (writePort a s).1 := by
  simp only [writePort]
  split
  · exact set_echoRewritten _ _ _ (set_setCfg _ _ (h.cfg.ofPorts _ _ _) h)
  · exact h

theorem set_writeLane (a : LaneArg) (s : State) (h : Setd s) : Setd (writeLane a s).1 := by
  simp only [writeLane]
  split
  · have := set_setCfg s _ (h.cfg.ofLanes ‹_› a ‹_›) h
    split
    · exact this
    · exact set_setLane _ _ _ this
  · exact h

theorem set_writeOverride (a : OverrideArg) (s : State) (h : Setd s) : Setd (writeOverride a s).1 := by
  simp only [writeOverride]
  split
  · exact h
  · split
    · exact set_setCfg s _ (h.cfg.ofOverride _ a _) h
    · exact h

theorem set_writePeer (a : PeerArg) (s : State) (h : Setd s) : Setd (writePeer a s).1 := by
  simp only [writePeer]
  split
  · exact h
  · split
    · exact h
    · rename_i p hp
      split
      · exact h
      · exact set_writePeerAt _ _ _ (uplinkOf_uplink hp) h

theorem set_clearPeer (index : Byte) (s : State) (h : Setd s) :
    Setd (clearPeer index s).1 := by
  simp only [clearPeer]
  (repeat' split) <;> (repeat' first
      | with_reducible assumption | with_reducible apply set_clearPeerAt | exact limitResponse_ok _ _ | simp)

theorem set_writeServo (a : ServoArg) (s : State) (h : Setd s) :
    Setd (writeServo a s).1 := set_applyServo _ _ _ _ (h.cfg.ofServo a) h

theorem set_writeDrift (a : DriftArg) (s : State) (h : Setd s) :
    Setd (writeDrift a s).1 := set_applyDrift _ _ _ _ (h.cfg.ofDrift a) h

theorem set_applyResponse (k : FaultKind) (r : Response) (s : State) (h : Setd s) :
    Setd (applyResponse k (k.limitResponse r) s) := by
  simp only [applyResponse]
  have := set_setCfg s _ (h.cfg.ofResponse k r) h
  split
  · exact set_reevaluateOnHold _ _ (set_watchSecond _ this)
  · exact this

theorem set_writeFault (kind response : Byte) (s : State) (h : Setd s) :
    Setd (writeFault kind response s).1 := by
  simp only [writeFault]
  (repeat' split) <;> (repeat' first
      | with_reducible assumption | with_reducible apply set_applyResponse | exact limitResponse_ok _ _ | simp)

theorem set_clearPosition (mask : BitVec 32) (s : State) (k : FaultKind) (h : Setd s) :
    Setd (clearPosition mask s k) :=
  h.of (by rw [cfg_clearPosition]) (by rw [matchTab_clearPosition])

theorem set_clearFlags (mask : BitVec 32) (s : State) (h : Setd s) : Setd (clearFlags mask s).1 :=
  h.of (by rw [cfg_clearFlags]) (by rw [matchTab_clearFlags])

theorem set_barSource (index : Byte) (seconds : BitVec 16) (s : State) (h : Setd s) :
    Setd (barSource index seconds s).1 :=
  h.of (by rw [cfg_barSource]) (by rw [matchTab_barSource])

theorem set_saveSettings (s : State) (h : Setd s) : Setd (saveSettings s).1 :=
  h.of (by rw [cfg_saveSettings]) (by rw [matchTab_saveSettings])

theorem set_resetCommand (arg : Byte) (s : State) (h : Setd s) : Setd (resetCommand arg s).1 :=
  h.of (by rw [cfg_resetCommand]) (by rw [matchTab_resetCommand])

theorem set_reset : Setd State.reset := ⟨defaults_ok, defaultBank_ok, defaultBank_ok⟩

theorem set_fullReset (s : State) : Setd (fullReset s) := set_reset.of rfl rfl

theorem set_holdReset (s : State) : Setd (holdReset s) := set_reset.of rfl rfl

theorem set_takeReset (k : ResetKind) (s : State) (h : Setd s) : Setd (takeReset k s) := by
  cases k
  · exact set_completeSoft _ _ (set_softResetNow _ _ h)
  · exact set_softResetNow _ _ h
  · exact set_fullReset _

theorem set_takePendingReset (s : State) (h : Setd s) : Setd (takePendingReset s) := by
  simp only [takePendingReset]; split
  · exact set_takeReset _ _ h
  · exact h

theorem set_finishFrame (e : Exec) (s : State) (h : Setd s) : Setd (finishFrame e s) := by
  simp only [finishFrame]
  split
  · exact set_arbitrate _ _ (set_offerGeneral _ _ _ _ _ (set_setAgent _ _ h))
  · exact set_takePendingReset _ (set_offerGeneral _ _ _ _ _ (set_setAgent _ _ h))

theorem set_advanceFrame (e : Exec) (s : State) (h : Setd s) : Setd (advanceFrame e s) := by
  simp only [advanceFrame]
  split
  · exact set_finishFrame _ _ h
  · exact set_setAgent _ _ h

theorem set_deliver (c : Nat) (out : State × Status × List Byte) (h : Setd out.1) : Setd (deliver c out) := by
  simp only [Machine.deliver, answerInFrame]
  split
  · exact set_advanceFrame _ _ (set_setAgent _ _ h)
  · exact set_takePendingReset _ (set_setAgent _ _ h)

theorem set_linkGoesDown (p : Port) (more : List Byte) (s : State) (h : Setd s) : Setd (linkGoesDown p more s) := by
  simp only [linkGoesDown]
  have h1 : Setd (echoLinkDown p (flushEgress p (loseReception p more (s.setPort p { s.port p with up := false })))) := set_echoLinkDown _ _ (set_flushEgress _ _ (set_loseReception _ _ _ (set_setPort _ _ _ h)))
  generalize (echoLinkDown p (flushEgress p (loseReception p more (s.setPort p { s.port p with up := false })))) = x at *
  have h2 : Setd (if (x.port p).seenUp then raiseWithHold .linkDown (.port p) true .nothing x else x) := by
    split
    · exact set_raiseWithHold _ _ _ _ _ h1
    · exact h1
  generalize (if (x.port p).seenUp then raiseWithHold .linkDown (.port p) true .nothing x else x) = y at *
  have h3 : Setd (if p.isUplink then reevaluate y.selectedPair .lost none y else y) := by
    split
    · exact set_reevaluate _ _ _ _ h2
    · exact h2
  split
  · exact set_takePendingReset _ h3
  · exact h3

theorem set_logTakeMeaning (n : Byte) (room : Nat) (s : State) (h : Setd s) : Setd (logTakeMeaning n room s).1 := by
  simp only [logTakeMeaning]; (repeat' split) <;> first | exact h | exact set_removeRecords _ _ h
end Sys2Proof.Machine
end

