-- ==== Sys2Proof/Laws/Requester.lean ====
section
/-! SUPPORT. What an uplink's requester has (R21, R22, R23) but for the passing of its ask at egress: left as it is by the arbiter, by
alerts, records and faults, and by the re-evaluation of the selection; and what an interval expiry makes of it. -/
namespace Sys2Proof.Machine

/-- An uplink's requester beside the moment its ask passes egress, with the frames its timing queue holds. -/
structure Requester where
  idle : Bool
  nextId : Nat
  window : List Nat
  p : Nat
  run : Nat
  stale : Bool
  sched : Option Nat
  held : Nat

def Echo.requester (e : Echo) (held : Nat) : Requester :=
  ⟨e.st == .idle, e.nextId, e.window, e.p, e.run, e.stale, e.sched, held⟩

def State.requester (s : State) (p : Port) : Requester := (s.echoOf p).requester (timingHeld (s.port p))

theorem requester_of {s t : State} (h : t.echo = s.echo) (k : t.ports = s.ports) (p : Port) : t.requester p = s.requester p := by
  simp only [State.requester, State.echoOf, State.port, h, k]

theorem requester_setPort (s : State) (q p : Port) (u : PortUnit) (h : timingHeld u = timingHeld (s.port q)) :
    (s.setPort q u).requester p = s.requester p := by
  simp only [State.requester, port_setPort]
  split
  · rename_i e; rw [← e, h]; rfl
  · rfl

/-- A port's unit replaced twice over, the second time by one that holds as many timing frames as at first. -/
theorem requester_setPort_twice (s : State) (q p : Port) (a b : PortUnit) (h : timingHeld b = timingHeld (s.port q)) :
    ((s.setPort q a).setPort q b).requester p = s.requester p := by
  simp only [State.requester, port_setPort]
  split
  · rename_i e; rw [← e, h]; rfl
  · rfl

@[simp] theorem requester_setPeer (s : State) (i : Nat) (p : Port) (d : PeerDyn) :
    (s.setPeer i d).requester p = s.requester p := requester_of rfl rfl p
@[simp] theorem requester_setForm (s : State) (a : AlertForm) (p : Port) (v : FormState) :
    (s.setForm a v).requester p = s.requester p := requester_of rfl rfl p
@[simp] theorem requester_setFault (s : State) (k : FaultKind) (p : Port) (r : FaultRec) :
    (s.setFault k r).requester p = s.requester p := requester_of rfl rfl p
@[simp] theorem requester_setLog (s : State) (l : EventLog) (p : Port) : (s.setLog l).requester p = s.requester p :=
  requester_of rfl rfl p
@[simp] theorem requester_setClock (s : State) (c : Clock) (p : Port) : (s.setClock c).requester p = s.requester p :=
  requester_of rfl rfl p
@[simp] theorem requester_setServo (s : State) (p : Port) (v : Servo) : (s.setServo v).requester p = s.requester p :=
  requester_of rfl rfl p
@[simp] theorem requester_setSource (s : State) (i : Nat) (p : Port) (e : Option SourceEntry) :
    (s.setSource i e).requester p = s.requester p := requester_of rfl rfl p

@[simp] theorem requester_watchSecond (s : State) (p : Port) : (watchSecond s).requester p = s.requester p := by
  simp only [watchSecond]
  split <;> simp

theorem echoOf_setEcho (s : State) (q p : Port) (e : Echo) :
    (s.setEcho q e).echoOf p = if q.lane = p.lane then e else s.echoOf p := by
  cases q <;> cases p <;> rfl

@[simp] theorem requester_askPassesEgress (q : Port) (id : Nat) (s : State) (p : Port) :
    (askPassesEgress q id s).requester p = s.requester p := by
  simp only [askPassesEgress]
  split
  · rename_i h
    simp only [State.requester, echoOf_setEcho]
    split
    · rename_i e
      have e : s.echoOf p = s.echoOf q := by simp only [State.echoOf, e]
      simp only [Echo.requester, e, h.1]
      rfl
    · rfl
  · rfl

@[simp] theorem requester_recordEgress (q : Port) (tag : OrigTag) (s : State) (p : Port) :
    (recordEgress q tag s).requester p = s.requester p := by
  simp only [recordEgress, reportPassesEgress]
  (repeat' split) <;> simp

theorem chooseGrant_timing {now : Nat} {u : PortUnit} {q : QFrame} {rest : List QFrame}
    (h : chooseGrant now u = .timing q rest) : u.timing = q :: rest := by
  unfold chooseGrant at h
  (repeat' split at h) <;> simp_all

/-- A decision of an arbiter takes no frame from what a timing queue holds, and no exchange from an uplink. -/
@[simp] theorem requester_arbitrate (q : Port) (s : State) (p : Port) : (arbitrate q s).requester p = s.requester p := by
  simp only [arbitrate]
  split
  · rfl
  · rename_i ht
    have ht : (s.port q).tx = none := by
      cases h : (s.port q).tx with
      | none => rfl
      | some t => simp [h] at ht
    split <;> simp only [grantQueued, grantForwarded, requester_recordEgress]
    · rename_i h
      refine requester_setPort_twice _ _ _ _ _ ?_
      simp [timingHeld, leavingFrom, ht, chooseGrant_timing h]
    · refine requester_setPort_twice _ _ _ _ _ ?_
      simp [timingHeld, leavingFrom, ht]
    · refine requester_setPort_twice _ _ _ _ _ ?_
      simp [timingHeld, leavingFrom, ht]

@[simp] theorem requester_offerGeneral (q : Port) (tag : OrigTag) (header : Nat) (bytes : List Byte) (s : State) (p : Port) :
    (offerGeneral q tag header bytes s).1.requester p = s.requester p := by
  simp only [offerGeneral, State.count]
  split <;> exact requester_setPort _ _ _ _ rfl

@[simp] theorem requester_alertEvent (a : AlertForm) (clear : Bool) (subject : Subject) (d : AlertData) (s : State) (p : Port) :
    (alertEvent a clear subject d s).requester p = s.requester p := by
  simp only [alertEvent, suppressAlert]
  (repeat' split) <;> simp

@[simp] theorem requester_faultAlert (k : FaultKind) (clear : Bool) (subject : Subject) (d : AlertData) (s : State) (p : Port) :
    (faultAlert k clear subject d s).requester p = s.requester p := by
  simp only [faultAlert]
  split <;> simp

@[simp] theorem requester_offerBare (o : Offer) (s : State) (p : Port) : (offerBare o s).1.requester p = s.requester p := by
  simp only [offerBare, levelNotice]
  (repeat' split) <;> simp

@[simp] theorem requester_raiseLogFull (s : State) (p : Port) : (raiseLogFull s).requester p = s.requester p := by
  simp only [raiseLogFull, countRaise, activate]
  split <;> simp

@[simp] theorem requester_deactivate (k : FaultKind) (s : State) (p : Port) : (deactivate k s).requester p = s.requester p :=
  requester_setFault s k p _

@[simp] theorem requester_clearLogFull (s : State) (p : Port) : (clearLogFull s).requester p = s.requester p := by
  unfold clearLogFull
  split
  · dsimp only
    rw [requester_faultAlert]
    split <;> simp
  · rfl

@[simp] theorem requester_activate (k : FaultKind) (subject : Subject) (s : State) (p : Port) :
    (activate k subject s).requester p = s.requester p := requester_setFault s k p _

@[simp] theorem requester_countRaise (k : FaultKind) (s : State) (p : Port) : (countRaise k s).requester p = s.requester p :=
  requester_setFault s k p _

@[simp] theorem requester_raiseLogFullAgain (s : State) (p : Port) : (raiseLogFullAgain s).requester p = s.requester p := by
  simp only [raiseLogFullAgain]
  (repeat' split) <;> simp

@[simp] theorem requester_offerRecord (o : Offer) (s : State) (p : Port) : (offerRecord o s).requester p = s.requester p := by
  simp only [offerRecord]
  split <;> simp

@[simp] theorem requester_raiseFault (k : FaultKind) (subject : Subject) (record : Bool) (d : AlertData) (s : State) (p : Port) :
    (raiseFault k subject record d s).requester p = s.requester p := by
  simp only [raiseFault, countRaise, activate]
  (repeat' split) <;> simp

@[simp] theorem requester_clearFault (k : FaultKind) (subject : Subject) (record : Bool) (d : AlertData) (s : State) (p : Port) :
    (clearFault k subject record d s).requester p = s.requester p := by
  simp only [clearFault, deactivate]
  (repeat' split) <;> simp

@[simp] theorem requester_setSourceState (i : Nat) (st : SourceState) (s : State) (p : Port) :
    (setSourceState i st s).requester p = s.requester p := by
  simp only [setSourceState]
  split <;> simp

@[simp] theorem requester_unselect (i : Nat) (s : State) (p : Port) : (unselect i s).requester p = s.requester p := by
  simp only [unselect]
  split <;> simp

@[simp] theorem requester_setServoState (st : ServoState) (s : State) (p : Port) :
    (setServoState st s).requester p = s.requester p := by
  simp [setServoState]

@[simp] theorem requester_handRate (r : Int) (s : State) (p : Port) : (handRate r s).requester p = s.requester p := by
  simp [handRate]

@[simp] theorem requester_servoFollows (s : State) (p : Port) : (servoFollows s).requester p = s.requester p := by
  simp [servoFollows]
@[simp] theorem requester_servoSwitches (s : State) (p : Port) : (servoSwitches s).requester p = s.requester p := by
  simp [servoSwitches]
@[simp] theorem requester_servoHolds (s : State) (p : Port) : (servoHolds s).requester p = s.requester p := by
  simp [servoHolds]

@[simp] theorem requester_offerStateIfChanged (before : ServoState) (s : State) (p : Port) :
    (offerStateIfChanged before s).requester p = s.requester p := by
  simp only [offerStateIfChanged, offerState]
  split <;> simp

@[simp] theorem requester_select (old : Option (Nat × SourceEntry)) (new : Nat × SourceEntry) (reason : Reason)
    (sampled : Bool) (s : State) (p : Port) : (select old new reason sampled s).requester p = s.requester p := by
  simp only [select, clearHoldoverExpired, requester_clearFault, requester_offerStateIfChanged]
  (repeat' split) <;> simp

@[simp] theorem requester_endSelection (old : Nat × SourceEntry) (reason : Reason) (s : State) (p : Port) :
    (endSelection old reason s).requester p = s.requester p := by
  simp only [endSelection, requester_raiseFault, requester_offerStateIfChanged, requester_offerRecord]
  split <;> simp

/-- A re-evaluation leaves the requester of every uplink. -/
@[simp] theorem requester_reevaluate (old : Option (Nat × SourceEntry)) (why : Reason) (own : Option Nat) (s : State)
    (p : Port) : (reevaluate old why own s).requester p = s.requester p := by
  simp only [reevaluate]
  (repeat' split) <;> simp

@[simp] theorem requester_reevaluateOnHold (before : Bool) (s : State) (p : Port) :
    (reevaluateOnHold before s).requester p = s.requester p := by
  simp only [reevaluateOnHold]
  split <;> simp

@[simp] theorem requester_raiseWithHold (k : FaultKind) (subject : Subject) (record : Bool) (d : AlertData) (s : State)
    (p : Port) : (raiseWithHold k subject record d s).requester p = s.requester p := by
  simp [raiseWithHold]

@[simp] theorem requester_clearWithHold (k : FaultKind) (subject : Subject) (record : Bool) (d : AlertData) (s : State)
    (p : Port) : (clearWithHold k subject record d s).requester p = s.requester p := by
  simp [clearWithHold]

@[simp] theorem requester_raiseAgain (expired : Bool) (s : State) (p : Port) :
    (raiseAgain expired s).requester p = s.requester p := by
  simp only [raiseAgain]
  (repeat' split) <;> simp

/-- An interval expiry on an idle uplink whose timing queue has room: the next id is used, and an ask is on its way (R23). -/
theorem takeInterval_requester (p : Port) (s : State) (h : (s.echoOf p).st = .idle) (up : (s.port p).up = true)
    (room : timingHeld (s.port p) < 8) :
    (takeInterval p s).requester p =
      { s.requester p with idle := false, nextId := ((s.echoOf p).nextId + 1) % 65536, held := timingHeld (s.port p) + 1 } := by
  simp only [takeInterval, h, offerTiming, State.port, State.setEcho] at up room ⊢
  simp only [State.setEchos_ports, up, Config.timingCap, room]
  simp only [decide_true, Bool.and_self, if_true, requester_arbitrate]
  simp [State.requester, Echo.requester, State.echoOf, State.setPort, State.port, timingHeld, leavingFrom, Nat.add_right_comm]

/-- An interval expiry of another uplink. -/
theorem takeInterval_requester_ne (q p : Port) (s : State) (h : q.lane ≠ p.lane) :
    (takeInterval q s).requester p = s.requester p := by
  have hq : q ≠ p := fun e => h (e ▸ rfl)
  have echo : ∀ (t : State) e, (t.setEcho q e).requester p = t.requester p := fun t e => by
    simp only [State.requester, echoOf_setEcho, if_neg h]; rfl
  have unit : ∀ (t : State) u, (t.setPort q u).requester p = t.requester p := fun t u => by
    simp only [State.requester, port_setPort, if_neg hq]; rfl
  simp only [takeInterval, offerTiming, State.count]
  (repeat' split) <;> simp_all

/-- A schedule that starts on an idle uplink: its expiry at once uses the next id, and with room an ask is on its way (R22, R23). -/
theorem startedEcho_requester (p : Port) (s : State) (c : Prop) [Decidable c] (hc : c) (h : (s.echoOf p).st = .idle)
    (up : (s.port p).up = true) :
    let x := if c then takeInterval p (s.setEcho p { s.echoOf p with sched := some s.clock.up }) else s
    (x.requester p).nextId = ((s.echoOf p).nextId + 1) % 65536 ∧
    (timingHeld (s.port p) < 8 → (x.requester p).idle = false) := by
  intro x
  have e : x = takeInterval p (s.setEcho p { s.echoOf p with sched := some s.clock.up }) := if_pos hc
  set y := s.setEcho p { s.echoOf p with sched := some s.clock.up } with hy
  have y1 : (y.echoOf p).st = .idle := by simp only [hy, echoOf_setEcho]; simpa using h
  have y2 : (y.echoOf p).nextId = (s.echoOf p).nextId := by simp only [hy, echoOf_setEcho]; simp
  have y3 : y.port p = s.port p := rfl
  by_cases hr : timingHeld (s.port p) < 8
  · rw [e, takeInterval_requester p y y1 (by rw [y3]; exact up) (by rw [y3]; exact hr)]
    exact ⟨by rw [y2], fun _ => rfl⟩
  · refine ⟨?_, fun q => absurd q hr⟩
    rw [e]
    simp only [takeInterval, y1, offerTiming]
    rw [if_neg, if_neg]
    · simp only [State.requester, Echo.requester, State.count, State.setPort, State.echoOf, State.setEcho,
        State.setPorts_echo]
      have := y2
      simp only [State.echoOf] at this
      simp [this]
    · intro q
      simp only [State.setEcho, State.port, State.setEchos_ports, Bool.and_eq_true, decide_eq_true_eq] at q
      exact hr q.2
    · intro q
      simp only [State.setEcho, State.port, State.setEchos_ports] at q
      split at q
      · rename_i q'
        simp only [Bool.and_eq_true, decide_eq_true_eq] at q'
        exact hr q'.2
      · cases q

/-- An exchange is on its way. -/
theorem State.not_idle {s : State} {p : Port} (h : (s.requester p).idle = false) : (s.echoOf p).st ≠ .idle := by
  intro e
  simp [State.requester, Echo.requester, e] at h

end Sys2Proof.Machine
end

