-- ==== Sys2Proof/Tests/Slice0.lean ====
section
/-! SUPPORT. Tests: ill-formed operands are refused; the worked cases of the spec's chapters; one or two effects of a command
where no worked case shows it; and, for every statement with hypotheses, a state and operands that meet them. Expected values
come from the spec's worked cases and rules, named at each test. -/

namespace Sys2Proof.Tests

open Sys2Proof Sys2Proof.Machine

set_option Elab.async false

/-! ### Ill-formed operands -/

/-- Bytes of no matter. -/
def zeros (n : Nat) : List Byte := List.replicate n 0

theorem test_wf_load_image_too_long : (Instr.settingsLoadEnd (zeros 3123) []).wf = false := by decide +kernel
theorem test_wf_load_retry_too_long : (Instr.settingsLoadEnd [] (zeros 3123)).wf = false := by decide +kernel
theorem test_wf_reload_image_too_long : (Instr.softReloadEnd (zeros 3123) []).wf = false := by decide +kernel
theorem test_wf_reload_retry_too_long : (Instr.softReloadEnd [] (zeros 3123)).wf = false := by decide +kernel
theorem test_wf_save_image_too_long : (Instr.settingsSaveEnd (zeros 3123)).wf = false := by decide +kernel
theorem test_wf_lookup_too_early : (Instr.lookupPoint .u0 (zeros 144) false).wf = false := by decide +kernel
theorem test_wf_lookup_of_nothing : (Instr.lookupPoint .u0 [] true).wf = false := by decide
theorem test_wf_lookup_beyond_a_frame : (Instr.lookupPoint .u0 (zeros 9217) true).wf = false := by decide +kernel
theorem test_wf_oversize_of_nothing : (Instr.frameOversize .d0 []).wf = false := by decide
theorem test_wf_echo_interval_of_downlink : (Instr.echoIntervalExpiry .d0).wf = false := by decide
theorem test_wf_echo_timeout_of_downlink : (Instr.echoTimeout .d1).wf = false := by decide
theorem test_wf_stale_index : (Instr.sourceStale 8).wf = false := by decide
theorem test_wf_removal_index : (Instr.sourceRemoval 8).wf = false := by decide
theorem test_wf_bar_index : (Instr.barExpiry 8).wf = false := by decide
theorem test_wf_report_index : (Instr.reportSlot 32).wf = false := by decide
theorem test_wf_silence_index : (Instr.peerSilence 32).wf = false := by decide
theorem test_wf_holdoff_form : (Instr.alertHoldoffExpiry 10).wf = false := by decide

/-- No row of spec/opcode_table.json has bits. -/
theorem test_no_word_is_a_command : decodeTableWord 32 0 = none ∧ State.reset.withFetchWord 32 0 = State.reset := ⟨rfl, rfl⟩

/-! ### States for the tests -/

/-- The state an outcome gives; the state before is given for the outcomes that give none. -/
def after (c : Instr) (s : State) : State :=
  match exec c s with
  | .next t => t
  | .fault _ => s
  | .refused _ => s

/-- The engine RUNNING with the built-in defaults, every link DOWN. -/
def running : State := { State.reset with run := .running }

/-- The engine RUNNING with all four links UP. -/
def live : State := { running with ports := Quad.all { PortUnit.reset with up := true, seenUp := true } }

/-- One port of a state changed. -/
def onPort (p : Port) (f : PortUnit → PortUnit) (s : State) : State := s.setPort p (f (s.port p))

/-- The Servo of a state in a state. -/
def inState (st : ServoState) (s : State) : State := { s with servo := { s.servo with st := st } }

/-- A date put in the clock. -/
def dated (d : Date) (s : State) : State := { s with clock := { s.clock with date := d } }

/-- An uptime put in the clock. -/
def aged (up : Nat) (s : State) : State := { s with clock := { s.clock with up := up } }

/-- A source entry of class 2, 1 hop, k = -3, last heard at uptime 0. -/
def entry (sender : BitVec 64) (p : Port) (st : SourceState) : SourceEntry :=
  { sender := sender, port := p, origin := sender, cls := 2, hops := 1, k := -3, epoch := 17, epochChanged := false,
    lastHeard := 0, heardAt := 0, beacons := 1, st := st, bar := 0 }

/-- An entry at an index of the Source Table. -/
def withSource (i : Nat) (e : SourceEntry) (s : State) : State := s.setSource i (some e)

/-- A frame on the wire: destination and source address, ethertype, payload padded to 46 bytes, FCS. -/
def wire (dst src : BitVec 48) (ethertype : BitVec 16) (payload : List Byte) : List Byte :=
  let bs := padTo 60 (ethHeader dst src none ethertype ++ payload)
  bs ++ fcsOf bs

/-- A frame of an ethertype that no default entry names. -/
def plainFrame : List Byte := wire 0x0A0000000001 0x0A0000000002 0x9000 []

/-- A frame under reception, all of `bytes` arrived. -/
def receiving (bytes : List Byte) (stage : RxStage) : Rx := ⟨⟨100, 500, 0⟩, 0, false, bytes, stage⟩

/-- A frame of the UTX ethertype and of UDP to the engine's address and management port, by their bytes before the FCS. -/
def utxFrame : List Byte := padTo 60 (ethHeader 0x036A10000001 2 none 0x88B6 ++ utxHeader 2 20 5)

def controlFrame : List Byte := padTo 60 (udpFrame live 0x020000004420 none 0 7421 7421 (utxHeader 5 5 0 ++ be 4 5001 ++ be 1 0))

/-! ### Rack Clock -/

/-- Section 1.1, the worked example's period 3: N carries into S and f is 4,294,944,619. -/
theorem test_period_carries :
    advance ⟨100, 999999997, 4294952178⟩ 17179861625 = (⟨101, 1, 4294944619⟩, true) := by decide

/-- The same period as a command: the date moves, uptime counts, and the SECOND line rises at class 3 for 100 ms (R12). -/
theorem test_oscillator_period :
    let s := dated ⟨100, 999999997, 4294952178⟩ (inState .acquiring
      { running with clock := { running.clock with inc := 17179861625 } })
    let t := after .oscillatorPeriod s
    t.clock.date = ⟨101, 1, 4294944619⟩ ∧ t.clock.up = 1 ∧ t.clock.secondEnd = some 25000001 := by decide

/-- SECOND_PULSE_END before the width has passed leaves the line high, at its end drives it low (R12). -/
theorem test_second_pulse_end :
    (after .secondPulseEnd { (aged 9 running) with clock := { (aged 9 running).clock with secondEnd := some 10 } }).clock.secondEnd
      = some 10 ∧
    (after .secondPulseEnd { (aged 10 running) with clock := { (aged 10 running).clock with secondEnd := some 10 } }).clock.secondEnd
      = none := by decide

/-- Section 1.4, the step across three seconds: date, epoch, the armed swap once, one pulse. -/
theorem test_step_across_three_seconds :
    let s := dated ⟨100, 999000000, 77⟩ (inState .acquiring
      { running with clock := { running.clock with epoch := 41 }, matchTab := { running.matchTab with armed := true } })
    let t := forwardStep 2500000000 s
    t.clock.date = ⟨103, 499000000, 77⟩ ∧ t.clock.epoch = 42 ∧ t.matchTab.active = true ∧ t.matchTab.armed = false ∧
    t.clock.secondEnd = some 25000000 := by decide

/-- Section 1.8, four claims: both orders of the two that come together give 1,004 and 1,006. -/
theorem test_four_claims :
    issueDate (some ⟨500, 1000⟩) ⟨500, 1003, 5⟩ = ⟨500, 1002⟩ ∧
    issueDate (some ⟨500, 1002⟩) ⟨500, 1001, 5⟩ = ⟨500, 1004⟩ ∧ issueDate (some ⟨500, 1004⟩) ⟨500, 1004, 5⟩ = ⟨500, 1006⟩ ∧
    issueDate (some ⟨500, 1002⟩) ⟨500, 1004, 5⟩ = ⟨500, 1004⟩ ∧ issueDate (some ⟨500, 1004⟩) ⟨500, 1001, 5⟩ = ⟨500, 1006⟩ := by
  decide

/-- Section 1.3: the first instant of k = -3 after that step is (103, 500,000,000). -/
theorem test_aligned_instant :
    alignedInstant (-3) ⟨103, 499999998, 0⟩ ⟨103, 500000002, 0⟩ = some ⟨103, 500000000⟩ ∧
    alignedInstant (-3) ⟨103, 500000000, 0⟩ ⟨103, 500000004, 0⟩ = none := by decide

/-! ### Lines and settings -/

/-- POWER_ON puts the date back to 0 and the engine into LOADING (R210). -/
theorem test_power_on : (after .powerOn (dated ⟨5, 6, 7⟩ live)).run = .loading ∧
    (after .powerOn (dated ⟨5, 6, 7⟩ live)).clock.date = ⟨0, 0, 0⟩ := by decide

/-- The line driven low holds the engine; its release begins the load (R210). -/
theorem test_reset_line : (after .resetLineAssert live).run = .held ∧
    (after .resetLineRelease (after .resetLineAssert live)).run = .loading ∧
    (after .resetLineRelease live).run = .running := by decide

/-- A load with two empty reads: the built-in defaults, RUNNING, SETTINGS_FAULT active (R206). -/
theorem test_load_of_an_empty_flash :
    let t := after (.settingsLoadEnd [] []) State.reset
    t.run = .running ∧ t.agent.loadSource = .defaults ∧ (t.fault .settingsFault).active = true := by decide +kernel

/-- A reload with two empty reads keeps the settings (R211). -/
theorem test_reload_of_an_empty_flash :
    let s := { live with agent := { live.agent with reload := true }, cfg := { live.cfg with rackId := 9 } }
    let t := after (.softReloadEnd [] []) s
    t.cfg.rackId = 9 ∧ t.agent.reload = false ∧ (t.fault .settingsFault).active = true := by decide +kernel

/-- A save whose read back gives nothing has FAILED (R208). -/
theorem test_save_read_back_empty :
    let t := after (.settingsSaveEnd []) { live with agent := { live.agent with saving := some (zeros 3122) } }
    t.agent.lastSave = .failed ∧ t.agent.saving = none ∧ (t.fault .settingsFault).active = true := by decide +kernel

/-! ### Links and frames -/

/-- A link goes DOWN with a frame in its buffer and comes UP: one transit drop, LINK_DOWN raised and then cleared (R100, R101,
R102). -/
theorem test_link_down_and_up :
    let s := onPort .d0 (fun u => { u with buffer := [⟨plainFrame, 0, ⟨1, 0, 0⟩, true, true, false, .none⟩] }) live
    let t := after (.linkDown .d0 []) s
    (t.port .d0).up = false ∧ (t.port .d0).buffer = [] ∧ (t.port .d0).stats.transitDrops = 1 ∧
    (t.fault .linkDown).active = true ∧ ((after (.linkUp .d0) t).fault .linkDown).active = false := by decide +kernel

/-- A frame that no entry names crosses lane A whole: 64 bytes in at U0, the same 64 bytes out at D0, counted as passed (R99,
R108, R123). -/
theorem test_a_frame_passes :
    let a := after (.lookupPoint .u0 plainFrame true) (after (.frameStart .u0) live)
    let t := after (.frameSent .d0) (after (.frameEnd .u0 []) a)
    (a.port .d0).tx.isSome = true ∧ (t.port .d0).stats.passed = 1 ∧ (t.port .d0).lastSent = some ⟨plainFrame, false⟩ ∧
    (t.port .u0).rx = none := by decide +kernel

/-- A frame of 63 bytes is discarded and counted on the lane's other port (R103). -/
theorem test_a_short_frame :
    let t := after (.frameEnd .u1 (zeros 63)) (after (.frameStart .u1) live)
    (t.port .d1).stats.transitDrops = 1 ∧ (t.port .u1).rx = none := by decide +kernel

/-- A frame that passes 9,216 bytes is cut there and counted as a transit drop of its egress port (R103). -/
theorem test_a_long_frame :
    let s := onPort .u0 (fun u => { u with rx := some (receiving (zeros 9200) (.forwarding true)) })
      (onPort .d0 (fun u => { u with buffer := [⟨zeros 9200, 0, ⟨100, 500, 0⟩, false, true, false, .none⟩] }) live)
    let t := after (.frameOversize .u0 (zeros 17)) s
    (t.port .d0).stats.transitDrops = 1 ∧ (t.port .d0).stats.passed = 0 ∧
    (t.port .u0).rx.map (fun r => r.stage) = some .discarding := by decide +kernel

/-- The same frame, its end told with no FRAME_OVERSIZE before it, is cut all the same (R103). -/
theorem test_a_long_frame_at_its_end :
    let s := onPort .u0 (fun u => { u with rx := some (receiving (zeros 9200) (.forwarding true)) })
      (onPort .d0 (fun u => { u with buffer := [⟨zeros 9200, 0, ⟨100, 500, 0⟩, false, true, false, .none⟩] }) live)
    let t := after (.frameEnd .u0 (zeros 100)) s
    (t.port .d0).stats.transitDrops = 1 ∧ (t.port .d0).stats.passed = 0 ∧ (t.port .u0).rx = none := by decide +kernel

/-- A frame under way into a buffer, 145 bytes of it told, has brought 320 bytes 14 periods later, 12.5 a period; the command
that tells of 300 bytes sets the count right (R116). -/
theorem test_occupancy_rises_as_bytes_arrive :
    let f : FwdFrame := ⟨zeros 145, 0, ⟨100, 500, 0⟩, false, false, false, .none⟩
    let u := (List.replicate 14 ()).foldl (fun u _ => flowPort u) { PortUnit.reset with buffer := [f] }
    bufferOccupancy u = 320 ∧ bufferOccupancy (onArriving (FwdFrame.upTo (zeros 300)) u) = 300 := by decide +kernel

/-- A frame leaves as it arrives, 12.5 bytes a period: 14 periods after its egress began the buffer holds the 145 bytes that
lie between its arrival and its egress, and, where it proves to have 200 bytes in all, the 25 that have not left (R116). -/
theorem test_bytes_leave_as_they_arrive :
    let f : FwdFrame := ⟨zeros 145, 0, ⟨100, 500, 0⟩, false, true, false, .none⟩
    let u := { PortUnit.reset with tx := some ⟨.buffer, .forwarded f, ⟨100, 500, 0⟩, 0⟩ }
    let v := (List.replicate 14 ()).foldl (fun u _ => flowPort u) u
    bufferOccupancy v = 145 ∧
    bufferOccupancy (onArriving (fun x => { x with bytes := zeros 200, complete := true }) v) = 25 := by decide +kernel

/-- The storage entry of section 7's worked example with its stamp at offset 40: entry 10, domain 3, key at 0. -/
def storageEntry : MatchEntry :=
  { MatchEntry.blank with
    valid := true, action := .storageMark, ethertype := 0x9A10, ports := ⟨false, false, true, true⟩, stampOffset := 40,
    domain := 3 }

/-- The engine LOCKED at class 2 to a source of class 1, with the storage entry at index 10 of both banks. -/
def storing : State :=
  withSource 0 { entry 0xA1 .u0 .selected with cls := 1 } (inState .locked
    { live with matchTab := { live.matchTab with bank0 := defaultBank.set 10 storageEntry, bank1 := defaultBank.set 10 storageEntry } })

/-- A storage frame of 200 bytes: payload bytes 0 to 7 are 1 to 8. -/
def storageFrame : List Byte :=
  let bs := ethHeader 0x0A0000000001 0x0A0000000002 none 0x9A10 ++ [1, 2, 3, 4, 5, 6, 7, 8] ++ zeros 174
  bs ++ fcsOf bs

/-- Section 7's frame A, its payload shortened: claim at (2000, 500,000,000) behind (2000, 400,000,000), stamp and record not
doubted; the record's key, lane, direction, index and flags, and no mark cleared before the frame ends. -/
theorem test_a_storage_mark :
    let s := { storing with clock :=
      { storing.clock with date := ⟨2000, 500000000, 9⟩, lastStamp := some ⟨2000, 400000000⟩ } }
    let a := after (.lookupPoint .d0 (storageFrame.take 145) false) (after (.frameStart .d0) s)
    let t := after (.frameEnd .d0 (storageFrame.drop 145)) a
    a.clock.lastStamp = some ⟨2000, 500000000⟩ ∧
    (a.port .d0).ctx.map (fun c => (c.stamp.cls, c.stamp.doubt, c.outcome)) = some (2, false, .written) ∧
    (a.port .d0).stats.stamps = 1 ∧ (t.port .d0).ctx = none ∧
    t.log.records = [⟨0, some .d0, 3, 2, ⟨2000, 500000000⟩,
      .stamp [1, 2, 3, 4, 5, 6, 7, 8] 200 .a true 10 false false false false false⟩] := by decide +kernel

/-- The stamped frame leaves with the date in payload bytes 40 to 51, class and domain behind it, and a good FCS (R117, R131). -/
theorem test_a_stamp_is_written :
    let f : FwdFrame := ⟨storageFrame, 0, ⟨2000, 500000000, 9⟩, true, true, false, .stamp 54 (stampBytes
      ⟨2000, 500000000, 2, 3, false, false, false, false, false⟩)⟩
    let out := forwardedBytes f ⟨2000, 500003000, 0⟩
    natAt out 54 6 = 2000 ∧ natAt out 60 4 = 500000000 ∧ fcsGood out = true ∧ out.length = 200 := by decide +kernel

/-- The hold of a frame whose stamp bytes had not arrived ends with WRITTEN when four bytes beyond them have (R117, R132). -/
theorem test_edit_hold_end :
    let e := { storageEntry with stampOffset := 150 }
    let s := { storing with matchTab := { storing.matchTab with bank0 := defaultBank.set 10 e } }
    let a := after (.lookupPoint .d0 (storageFrame.take 145) false) (after (.frameStart .d0) s)
    let b := after (.editHoldEnd .d0 ((storageFrame.drop 145).take 34)) a
    let c := after (.editHoldEnd .d0 ((storageFrame.drop 145).take 35)) a
    b = a ∧ (a.port .d0).ctx.map (fun x => x.outcome) = some .pending ∧
    (c.port .d0).ctx.map (fun x => x.outcome) = some .written ∧ (c.port .u0).tx.isSome = true := by decide +kernel

/-- Section 6.7's worked case: an alert of the general queue waits behind a ready frame for 1 ms of uptime, then goes first. -/
theorem test_general_starvation :
    let s := onPort .u0 (fun u => { u with
      general := [⟨.alert, 42, [], 0⟩], buffer := [⟨plainFrame, 0, ⟨1, 0, 0⟩, true, true, false, .none⟩] }) live
    ((arbitrate .u0 (aged 249375 s)).port .u0).tx.map (fun t => t.origin) = some .buffer ∧
    ((arbitrate .u0 (aged 250100 s)).port .u0).tx.map (fun t => t.origin) = some .general := by decide +kernel

/-! ### Path delay -/

/-- Section 2.3's worked case: 40,943,616 units. -/
theorem test_delay_sample :
    delaySample ⟨7, 0⟩ ⟨7, 10000⟩ ⟨7, 10400⟩ ⟨7, 1950⟩ 19693568 = 40943616 := by decide

/-- Section 2.5's worked case: residence 80,904,192 units; and section 5.4's, 64,258,048. -/
theorem test_residence :
    residence ⟨200, 100000000, 1073741824⟩ ⟨200, 100001234, 3221225472⟩ = 80904192 ∧
    residence ⟨300, 125000000, 0⟩ ⟨300, 125000980, 2147483648⟩ = 64258048 := by decide

/-- The uplink U0 with its schedule begun at 0 and next id 7. -/
def asking : State := { live with echo := { live.echo with a := { live.echo.a with nextId := 7, sched := some 0 } } }

/-- Section 2.4's ask id 7: due at 250 ms, it leaves at once and is in flight with a timeout of 10 ms; the timeout ends it with
the run at 1 and one echo timeout. -/
theorem test_an_ask_and_its_timeout :
    let a := after (.echoIntervalExpiry .u0) (aged 62500000 asking)
    let t := after (.echoTimeout .u0) (aged 65000000 a)
    (a.echoOf .u0).st = .inFlight ⟨7, ⟨0, 0⟩, 62500000, 2500000⟩ ∧ (a.echoOf .u0).nextId = 8 ∧
    after (.echoIntervalExpiry .u0) (aged 62499999 asking) = aged 62499999 asking ∧
    (t.echoOf .u0).st = .idle ∧ (t.echoOf .u0).run = 1 ∧ (t.port .u0).stats.echoTimeouts = 1 := by decide +kernel

/-! ### Time sources and the Servo -/

/-- A BEACON by section 12.1's layout. -/
def beaconUtx (sender origin : BitVec 64) (date : SN) (sum : Int) (cls hops : Nat) (k : Int) (epoch : Nat) : List Byte :=
  be 1 1 ++ be 1 1 ++ be 2 32 ++ beBits 8 sender ++ beBits 8 origin ++ be 6 date.s ++ be 4 date.n ++ beInt 8 sum ++
  be 1 cls ++ be 1 hops ++ beInt 1 k ++ be 2 epoch ++ be 1 0

/-- A beacon received whole on a port. -/
def beaconOn (p : Port) (cls hops : Nat) : Whole :=
  ⟨p, ⟨5, 0, 0⟩, 0, wire 0x036A10000001 0x0A0000000002 0x88B6 (beaconUtx 0xA1 0xA9 ⟨5, 0⟩ 0 cls hops (-3) 17), 14⟩

/-- Section 3.10 at 2.000: the first beacon, class 2 and 1 hop, makes an entry, selects it, and is the Servo's first sample, so
the Servo leaves UNSET for ACQUIRING. -/
theorem test_the_first_beacon :
    let t := dispatchL2 (beaconOn .u0 2 1) { live with cfg := { live.cfg with engineId := 1 } }
    (t.source 0).map (fun e => (e.sender, e.port, e.cls, e.hops, e.st)) = some (0xA1, .u0, 2, 1, .selected) ∧
    t.servo.st = .acquiring ∧ (t.source 1).isNone = true := by decide +kernel

/-- Section 3.10 at 9.125: K1 at class 3 gives way to K2 at class 2, reason BETTER. -/
theorem test_a_better_class_is_selected :
    let s := withSource 1 { entry 0xA2 .u1 .candidate with hops := 2 }
      (withSource 0 { entry 0xA1 .u0 .selected with cls := 3 } (inState .locked live))
    let t := reevaluate s.selectedPair .lost none s
    t.isSelected 1 = true ∧ t.isSelected 0 = false ∧
    t.log.records.map (fun r => r.body) = [.source (some 0xA1) (some 0xA2) .better, .state .locked .acquiring 3] := by
  decide +kernel

/-- Section 3.10 at 55.000: nothing selectable is left, so the Servo enters HOLDOVER and SOURCE_LOST is raised. -/
theorem test_the_last_source_is_lost :
    let s := withSource 0 (entry 0xA1 .u0 .selected) (inState .locked live)
    let t := after (.linkDown .u0 []) s
    t.servo.st = .holdover ∧ (t.fault .sourceLost).active = true ∧ t.isSelected 0 = false := by decide +kernel

/-- Section 3.10 at 55.375 and 56.000, intervals of 125 ms: STALE at 3 of silence, gone at 8. -/
theorem test_silence :
    let s := withSource 0 (entry 0xA1 .u0 .candidate) live
    let a := after (.sourceStale 0) (aged 93750000 s)
    after (.sourceStale 0) (aged 93749999 s) = aged 93749999 s ∧ (a.source 0).map (fun e => e.st) = some .stale ∧
    after (.sourceRemoval 0) (aged 249999999 a) = aged 249999999 a ∧
    ((after (.sourceRemoval 0) (aged 250000000 a)).source 0).isNone = true := by decide +kernel

/-- A bar of 600 s at its end with the source heard just before: CANDIDATE, then SELECTED (R53). -/
theorem test_a_bar_ends :
    let s := withSource 1 { entry 0xA2 .u1 .barred with heardAt := 1000 } (inState .holdover (aged 2000 live))
    (after (.barExpiry 1) s).isSelected 1 = true ∧
    (after (.barSource 1 0) s).isSelected 1 = true ∧
    ((after (.barSource 1 600) s).source 1).map (fun e => (e.st, e.bar)) = some (.barred, 600) := by decide +kernel

/-- The sample of section 4.2's worked case. -/
def sample800 : ServoSample :=
  { ingress := ⟨1700000000, 500001688, 26214 * 65536⟩, origin := ⟨1700000000, 500000000⟩, sum := 20463616, p := 40353792,
    asym := -40, k := 0, epochChanged := false }

/-- Section 4.2's worked case: 52,455,014 units, 800 ns, not far. -/
theorem test_offset : thetaExact sample800 = 52455014 ∧ thetaOf sample800 = 800 ∧ thetaFar sample800 = false := by decide

/-- Section 4.4's worked case: F from 10,240 to -40,960, r -450,560, I 17,179,861,625. -/
theorem test_filter :
    let s := inState .acquiring { live with
      servo := { live.servo with f := 10240 }, cfg := { live.cfg with servo := { live.cfg.servo with si := 4, sp := 1 } } }
    let t := takeSample sample800 s
    t.servo.f = -40960 ∧ t.servo.r = -450560 ∧ t.clock.inc = 17179861625 ∧ t.servo.sat = false ∧ t.servo.lockCtr = 1 := by
  decide +kernel

/-- A sample of a θ, k = -3. -/
def sampleOfTheta (theta : Nat) (ahead epochChanged : Bool) : ServoSample :=
  { ingress := if ahead then ⟨100, theta, 0⟩ else ⟨100, 0, 0⟩, origin := if ahead then ⟨100, 0⟩ else ⟨100, theta⟩, sum := 0,
    p := 0, asym := 0, k := -3, epochChanged := epochChanged }

/-- Section 4.6, samples 2 and 3: an excursion AHEAD goes to the filter with e saturated, a second one starts catch-down. -/
theorem test_catch_down :
    let s := inState .locked { live with servo := { live.servo with lastTheta := none } }
    let a := takeSample (sampleOfTheta 200160 true false) s
    let b := takeSample (sampleOfTheta 165004 true false) a
    a.servo.excCount = 1 ∧ a.servo.f = -32000000 ∧ a.servo.r = -288000000 ∧ a.servo.unlockCtr = 1 ∧ a.servo.st = .locked ∧
    b.servo.excCount = 2 ∧ b.servo.f = -32000000 ∧ b.servo.r = -204800000 ∧ b.servo.st = .acquiring ∧
    b.servo.catchDown = true := by decide +kernel

/-- Section 4.6, sample 7: with the epoch flag set, one sample 2,000,400 ns behind steps at once, epoch 42 to 43, with a STEP
and a STATE record. -/
theorem test_a_step_upstream :
    let s := inState .locked { live with clock := { live.clock with epoch := 42, date := ⟨100, 50, 0⟩ } }
    let t := takeSample (sampleOfTheta 2000400 false true) s
    t.clock.epoch = 43 ∧ t.clock.date = ⟨100, 2000450, 0⟩ ∧ t.servo.st = .acquiring ∧
    t.log.records.map (fun r => r.body) = [.step 2000400 43, .state .locked .acquiring 3] := by decide +kernel

/-- HOLDOVER_EXPIRY at the limit: class 4, HOLDOVER_EXPIRED, and the two records (R76). -/
theorem test_holdover_expiry :
    let s := { inState .holdover live with servo := { (inState .holdover live).servo with holdTimer := 3600 } }
    let t := after .holdoverExpiry { s with cfg := { s.cfg with servo := { s.cfg.servo with holdoverLimit := 3600 } } }
    t.servo.expired = true ∧ t.engineClass = 4 ∧
    t.log.records.map (fun r => r.body) = [.fault .holdoverExpired false .alert, .state .holdover .holdover 4] := by
  decide +kernel

/-- Section 5.4's worked case, m = 2: forwarded, consumed three times, forwarded; the sum grows to 125,075,456. -/
theorem test_thinning :
    [0, 1, 2, 3].map (thinNext 2) = [1, 2, 3, 0] ∧
    intAt (forwardedBytes ⟨wire 0 0 0x88B6 (beaconUtx 1 1 ⟨300, 0⟩ 20463616 1 0 (-3) 0), 0, ⟨300, 125000000, 0⟩, true, true, false,
      .transit 44 40353792⟩ ⟨300, 125000980, 2147483648⟩) 44 8 = 125075456 := by decide +kernel

/-- Section 5.3's worked case: an instant with D0 DOWN has outcome LINK, one with 8 frames queued QUEUE. -/
theorem test_emission :
    let s := inState .acquiring live
    ((originate .a ⟨700, 500000000⟩ (onPort .d0 (fun u => { u with up := false }) s)).lane .a).outcome = some .link ∧
    (let t := originate .a ⟨700, 625000000⟩ (onPort .d0 (fun u => { u with timing := List.replicate 8 ⟨.echoAnswer, 14, [], 0⟩ }) s)
     (t.lane .a).outcome = some .queue ∧ (t.port .d0).stats.timingDrops = 1) ∧
    ((originate .a ⟨700, 250000000⟩ s).lane .a).built = 1 := by decide +kernel

/-! ### Event Log -/

/-- A record of no matter with a sequence. -/
def record (seq : Nat) : LogRecord := ⟨seq, none, 0, 2, ⟨1, 0⟩, .freeze false .command⟩

/-- The log of section 8.5 with a shorter run of records: `n` records from 10,000 on. -/
def holding (n : Nat) (s : State) : State :=
  { s with log := { s.log with
    records := (List.range n).map (fun i => record (10000 + i)), nextSeq := 10000 + n, noticeSent := true } }

/-- Section 8.5, step 7: with a gap pending and 4 missed, a record is written behind a GAP record of 4, and both are cleared. -/
theorem test_gap_record :
    let s := holding 3 { live with log := { live.log with gap := true, missed := 4 } }
    let t := (offerBare (.plain none (.freeze true .command)) s).1
    (t.log.records.drop 3).map (fun r => (r.seq, r.body)) = [(10003, .gap 4), (10004, .freeze true .command)] ∧
    t.log.gap = false ∧ t.log.missed = 0 ∧ t.log.nextSeq = 10005 := by decide +kernel

/-- Section 8.5, steps 3 and 4: a record offered to a log that takes none is missed, LOG_FULL is raised, and the FAULT record of
the raise is missed as well. -/
theorem test_missed_records :
    let s := { live with log := { live.log with mem := .failed } }
    let t := offerRecord (.plain none (.freeze true .command)) s
    t.log.gap = true ∧ t.log.missed = 2 ∧ (t.fault .logFull).active = true ∧ t.log.nextSeq = 0 := by decide +kernel

/-- Section 8.5, step 6: LOG_TAKE 40 returns the 40 oldest, 1,281 bytes, DONE. -/
theorem test_log_take :
    let t := after (.logTake 40) (holding 41 live)
    t.log.records.map (fun r => r.seq) = [10040] ∧ t.log.noticeSent = false ∧
    t.agent.lastResult.map (fun r => (r.status, r.data.length)) = some (.done, 1281) := by decide +kernel

/-- LOG_STATUS of a log of 3 records from 10,000: level, oldest and next sequence, no gap, IN_SERVICE, LIVE; and the threshold
3,072 with the notice SENT (section 12.4, R148). -/
theorem test_log_status :
    (after .logStatus (holding 3 live)).agent.lastResult.map (fun r => (r.status, r.data.length, r.data.take 15, r.data.drop 21)) =
      some (.done, 24, [0, 3, 0, 0, 0x27, 0x10, 0, 0, 0x27, 0x13, 0, 0, 0, 0, 0], [0x0C, 0, 1]) := by decide +kernel

/-- TEST_LOG_MEMORY of an empty log, and its end after 20 ms of uptime, either way (R151 to R153). -/
theorem test_memory_test :
    let s := after .testLogMemory live
    s.log.mem = .testing 0 ∧ after (.logMemoryTestEnd true) (aged 4999999 s) = aged 4999999 s ∧
    (after (.logMemoryTestEnd true) (aged 5000000 s)).log.mem = .inService ∧
    (after (.logMemoryTestEnd false) (aged 5000000 s)).log.mem = .failed ∧
    ((after (.logMemoryTestEnd false) (aged 5000000 s)).fault .memoryFault).active = true := by decide +kernel

/-- FREEZE freezes and RELEASE thaws, each with its record (R155, R158). -/
theorem test_freeze_and_release :
    let s := after .freeze live
    s.frozen.isSome = true ∧ (after .release s).frozen.isNone = true ∧
    (after .release s).log.records.map (fun r => r.body) = [.freeze false .command, .freeze true .command] := by decide +kernel

/-! ### Drift Monitor -/

/-- Section 9.4's worked case: δ is 10,000 ns and φ 36,000 ns. -/
theorem test_peer_sample :
    roundTrip ⟨1, 0⟩ ⟨1, 41000⟩ ⟨1, 91000⟩ ⟨1, 60000⟩ = 10000 ∧ peerOffset ⟨1, 0⟩ ⟨1, 41000⟩ ⟨1, 91000⟩ ⟨1, 60000⟩ = 36000 := by
  decide

/-- Section 9.5's worked sequence at +4 s: best offset 36,310, drift 147 ppb. -/
theorem test_window :
    let w : List Sample := [⟨⟨10, 60000⟩, 36000, 10000⟩, ⟨⟨11, 60000⟩, 36140, 14200⟩, ⟨⟨12, 60000⟩, 36310, 9600⟩,
      ⟨⟨14, 60000⟩, 36590, 11000⟩]
    (bestSample w).map (fun b => b.phi) = some 36310 ∧ windowDrift w = some 147 := by decide

/-- An ACTIVE peer by its best offset and drift. -/
def activePeer (best : Int) (drift : Option Int) (warned : Option Vote) : PeerDyn :=
  { PeerDyn.reset with st := .active, best := some best, drift := drift, warned := warned }

/-- Section 9.9 at event 1: six peers, P4's best offset already at 5,900, LOCKED to K2. -/
def verdictState : State :=
  withSource 0 (entry 0xA2 .u0 .selected) (inState .locked { live with
    cfg := { live.cfg with peers := Vector.ofFn (fun i => ⟨decide (i.val < 6), BitVec.ofNat 32 i, 0, .u0⟩) }
    drift := { live.drift with peers := ((((((live.drift.peers.set 0 (activePeer 36310 (some 150) (some .offset))).set 1
      (activePeer 7200 (some 40) (some .offset))).set 2 (activePeer (-1200) none none)).set 3
      (activePeer 5900 (some (-20)) none)).set 4 (activePeer 800 (some 10) none)).set 5
      { activePeer 600 none none with st := .learning }) } })

/-- Section 9.9, event 1: SELF_DRIFT set with vote OFFSET, figures 5,900 and 10, K2 barred for 600 s, HOLDOVER, and the
records: the DRIFT record, the SOURCE record, SOURCE_LOST's and the STATE record. -/
theorem test_verdict_sets_self_drift :
    let t := judgeRack verdictState
    (t.fault .selfDrift).active = true ∧ t.drift.episode = some ⟨.offset, true⟩ ∧
    t.servo.st = .holdover ∧ (t.source 0).map (fun e => (e.st, e.bar)) = some (.barred, 600) ∧
    t.log.records.map (fun r => recKindCode r.body) =
      [.drift none false .offset 5900 (some 10), .source (some 0xA2) none .barred, .state .locked .holdover 4,
       .fault .sourceLost false .alert].map recKindCode ∧
    t.log.records.head?.map (fun r => r.body) = some (.drift none false .offset 5900 (some 10)) := by decide +kernel

/-- Section 9.9, event 3: P5 SILENT and P2 at 2,100, SELF_DRIFT clears with figures 2,100 and 40, P2's warning clears, and P4
is warned; the three records in their order. -/
theorem test_verdict_clears_self_drift :
    let s := { verdictState with
      servo := { verdictState.servo with st := .holdover }, sources := live.sources
      drift := { verdictState.drift with
        episode := some ⟨.offset, true⟩
        peers := (verdictState.drift.peers.set 1 (activePeer 2100 (some 40) (some .offset))).set 4
          { activePeer 800 (some 10) none with st := .silent } } }
    let t := judgeRack s
    (t.fault .selfDrift).active = false ∧ t.drift.episode.isNone = true ∧
    t.log.records.map (fun r => r.body) =
      [.drift none true .offset 2100 (some 40), .drift (some 1) true .offset 2100 (some 40),
       .drift (some 3) false .offset 5900 (some (-20))] := by decide +kernel

/-- REPORT_SLOT 0 sends one report of an enabled peer by its preferred uplink and moves the schedule on (R164, R165); slot 1 is
not due at the same uptime. -/
theorem test_report_slot :
    let s := { verdictState with drift := { verdictState.drift with sched := some ⟨0, 0⟩ } }
    let t := after (.reportSlot 0) s
    (t.peer 0).sent = 1 ∧ t.drift.sched = some ⟨0, 1⟩ ∧ (t.port .u0).tx.isSome = true ∧ after (.reportSlot 1) t = t := by
  decide +kernel

/-- PEER_SILENCE at 4 report intervals of 1 s (R172). -/
theorem test_peer_silence :
    let s := verdictState.setPeer 2 { activePeer (-1200) none none with heardAt := some 0 }
    ((after (.peerSilence 2) (aged 1000000000 s)).peer 2).st = .silent ∧
    after (.peerSilence 2) (aged 999999999 s) = aged 999999999 s := by decide +kernel

/-! ### Faults and alerts -/

/-- Section 10.4's flapping uplink at 100.0 and 100.4: the raise is taken by U0 and starts the holdoff of 10 s, the clear is
held back and counted; at 110.0 the holdoff ends and nothing is sent. -/
theorem test_flapping_uplink :
    let s := aged 25000000000 { live with cfg := { live.cfg with collIp := 1, responses := live.cfg.responses.set 6 .alert } }
    let a := after (.linkDown .u1 []) s
    let b := after (.linkUp .u1) (aged 25100000000 a)
    let c := after (.alertHoldoffExpiry 6) (aged 27500000000 b)
    (a.port .u0).tx.isSome = true ∧ a.form (.fault .linkDown) = ⟨some 27500000000, 0⟩ ∧
    b.form (.fault .linkDown) = ⟨some 27500000000, 1⟩ ∧ (b.fault .linkDown).active = false ∧
    c.form (.fault .linkDown) = ⟨none, 1⟩ ∧ (c.port .u0).general = [] ∧
    c.log.records.map (fun r => r.body) = [.fault .linkDown false .alert, .fault .linkDown true .alert] := by decide +kernel

/-- CLEAR_FLAGS clears an edge fault of its mask and no level fault (R189). -/
theorem test_clear_flags :
    let s := raiseFault .linkDown .self true .nothing (raiseFault .memoryFault .self true .nothing live)
    let t := after (.clearFlags 0xFFF) s
    (t.fault .memoryFault).active = false ∧ (t.fault .linkDown).active = true := by decide +kernel

/-! ### Commands -/

/-- The status of the last result. -/
def lastStatus (s : State) : Option Status := s.agent.lastResult.map (fun r => r.status)

/-- A match entry's argument: the storage ethertype, domain 4, stamp offset 8,900. -/
def storageArg : MatchArg :=
  { valid := 1, action := 1, ethertype := 0x9A10, vlanKind := 0, vlanId := 0, ports := 12, patPresent := 0, patOffset := 0,
    patValue := 0, patMask := 0, stampOffset := 8900, keyOffset := 0, domain := 4, logMode := 0, freeze := 0 }

/-- Section 6.4's worked example: COPY_BANK, WRITE_MATCH 10 into bank 1, SWAP_BANKS NEXT_SECOND, and WRITE_MATCH 11 answered
STATE while the swap is armed. -/
theorem test_a_swap_is_prepared :
    let a := after (.writeMatch 10 storageArg) (after .copyBank live)
    let b := after (.swapBanks 1) a
    let c := after (.writeMatch 11 storageArg) b
    (a.matchTab.bank1.getD 10 MatchEntry.blank).domain = 4 ∧ (a.matchTab.bank0.getD 10 MatchEntry.blank).valid = false ∧
    b.matchTab.armed = true ∧ lastStatus b = some .done ∧ c.matchTab = b.matchTab ∧ lastStatus c = some .state ∧
    (after (.swapBanks 0) c).matchTab.active = true := by decide +kernel

/-- WRITE_MATCH with domain 16 and VLAN id 5,000 is CLAMPED to 15 and 4,094; an action of no name is RANGE (R112, R201). -/
theorem test_write_match_limits :
    let t := after (.writeMatch 63 { storageArg with domain := 16, vlanId := 5000 }) live
    let e := t.matchTab.bank1.getD 63 MatchEntry.blank
    e.domain = 15 ∧ e.vlanId = 4094 ∧ lastStatus t = some .clamped ∧
    lastStatus (after (.writeMatch 63 { storageArg with action := 4 }) live) = some .range := by decide +kernel

/-- WRITE_PORT limits k to 3 and the timeout to 100 ms; port 4 is RANGE (R31, R125). -/
theorem test_write_port :
    let a : PortArg := ⟨1, 2, 0, 1, 4, 200, 0, 7⟩
    let t := after (.writePort a) live
    (t.portRec .u1).k = 3 ∧ (t.portRec .u1).timeoutMs = 100 ∧ (t.portRec .u1).privilege = .full ∧ lastStatus t = some .clamped ∧
    lastStatus (after (.writePort { a with port := 4 }) live) = some .range := by decide +kernel

/-- WRITE_LANE of lane A to TRANSIT with m = 2 starts the thinning anew (R85, section 5.6). -/
theorem test_write_lane :
    let t := after (.writeLane ⟨0, 1, 0xFD, 2⟩) { live with lanes := { live.lanes with a := { live.lanes.a with thin := 1 } } }
    t.cfg.lanes.a = ⟨.transit, -3, 2⟩ ∧ (t.lane .a).thin = 0 ∧ lastStatus t = some .done := by decide +kernel

/-- WRITE_OVERRIDE limits the asymmetry to -1,000,000 (R36). -/
theorem test_write_override :
    let t := after (.writeOverride ⟨3, 1, 0xA1, 0xFF000000, 1⟩) live
    t.cfg.overrides[3] = ⟨.u1, 0xA1, -1000000, true⟩ ∧ lastStatus t = some .clamped := by decide +kernel

/-- WRITE_PEER makes an entry, a rack id in use is STATE, and CLEAR_PEER empties the entry (R162, R163). -/
theorem test_write_and_clear_peer :
    let a := after (.writePeer ⟨5, 1, 77, 0x0A000001, 1⟩) live
    let b := after (.writePeer ⟨6, 1, 77, 0x0A000002, 0⟩) a
    a.peerCfg 5 = ⟨true, 77, 0x0A000001, .u1⟩ ∧ lastStatus b = some .state ∧ b.peerCfg 6 = live.peerCfg 6 ∧
    (after (.clearPeer 5) a).peerCfg 5 = ⟨false, 0, 0, .u0⟩ := by decide +kernel

/-- A report waits on U1 while its entry is cleared and written again as it was: its egress gives no send date (R163). -/
theorem test_a_report_of_a_cleared_peer :
    let a := after (.writePeer ⟨5, 1, 77, 0x0A000001, 1⟩) live
    let w := onPort .u1 (fun u => { u with timing := [⟨.report 5 77 0x0A000001, 42, controlFrame, 0⟩] }) a
    let b := after (.writePeer ⟨5, 1, 77, 0x0A000001, 1⟩) (after (.clearPeer 5) w)
    (w.peerCfg 5 = b.peerCfg 5) ∧ ((arbitrate .u1 w).peer 5).newer = some ⟨0, 0⟩ ∧ ((arbitrate .u1 b).peer 5).newer = none := by
  decide +kernel

/-- WRITE_SERVO limits the lock window below the step threshold and F to the plausibility limit (R80). -/
theorem test_write_servo :
    let t := after (.writeServo ⟨1000, 5000, 8, 4, 1, 4, 200, 10, 3600, 100, 4⟩)
      { live with servo := { live.servo with f := 20000000 } }
    t.cfg.servo.lockWindow = 999 ∧ t.servo.f = 10240000 ∧ t.servo.r = 10240000 ∧ lastStatus t = some .clamped := by
  decide +kernel

/-- WRITE_DRIFT limits the quorum to 3 and restarts the schedule where k changes (R181). -/
theorem test_write_drift :
    let t := after (.writeDrift ⟨600, 1, 200000, 5000, 200, 2, 1, 10, 3072⟩) (aged 9 live)
    t.cfg.drift.quorum = 3 ∧ t.cfg.drift.k = 1 ∧ t.drift.sched = some ⟨9, 0⟩ ∧ lastStatus t = some .clamped := by
  decide +kernel

/-- WRITE_FAULT limits LINK_DOWN to its maximum ALERT (R186). -/
theorem test_write_fault :
    let t := after (.writeFault 6 3) live
    t.response .linkDown = .alert ∧ lastStatus t = some .clamped ∧
    lastStatus (after (.writeFault 9 0) live) = some .range := by decide +kernel

/-- Section 1.8's second case: SET_DATE (3, 0) in UNSET loads the date and enters FREERUN, class 5; there an earlier date is
BACKWARD (R10, R78). -/
theorem test_set_date :
    let s := dated ⟨12, 300, 5⟩ live
    let a := after (.setDate 3 0) s
    a.clock.date = ⟨3, 0, 0⟩ ∧ a.servo.st = .freerun ∧ a.engineClass = 5 ∧
    lastStatus (after (.setDate 2 0) a) = some .backward ∧ (after (.setDate 4 1000000000) a).clock.date = ⟨4, 999999999, 0⟩ := by
  decide +kernel

/-- SET_TRIM sets F, r and the increment in UNSET, and is STATE when a source is followed (R79). -/
theorem test_set_trim :
    let t := after (.setTrim (BitVec.ofInt 32 (-450560))) live
    t.servo.f = -450560 ∧ t.clock.inc = 17179861625 ∧ t.cfg.trim = -450560 ∧
    lastStatus (after (.setTrim 5) (inState .locked live)) = some .state := by decide +kernel

/-- SAVE_SETTINGS begins a save; during it a second one is BUSY (R207). -/
theorem test_save_settings :
    let t := after .saveSettings live
    t.agent.saving.isSome = true ∧ lastStatus t = some .done ∧ lastStatus (after .saveSettings t) = some .busy := by
  decide +kernel

/-- RESET FULL given alone takes effect at once; an argument of 3 is RANGE (R209, log 11). -/
theorem test_reset :
    after (.reset 2) live = State.reset ∧ lastStatus (after (.reset 3) live) = some .range ∧
    (after (.reset 0) (inState .locked live)).servo.st = .holdover := by decide +kernel

/-- IDENTIFY and READ_CLOCK return their blocks; READ_TABLE 9 from 30 for 4 entries returns two and is TRUNCATED (section 11's
worked example, R203). -/
theorem test_reads :
    lastStatus (after .identify live) = some .done ∧
    (after .readClock live).agent.lastResult.map (fun r => r.data) = some (clockStatus live) ∧
    (after (.readTable 9 30 4) live).agent.lastResult.map (fun r => (r.status, r.data.take 5)) =
      some (.truncated, [9, 0, 30, 0, 2]) := by decide +kernel

/-- READ_TABLE beyond its table is RANGE with the header and no entries (R203); a lane entry whose lane has no aligned instant
yet gives its outcome, its instant and its count as zero (R214). -/
theorem test_table_answers :
    (after (.readTable 9 32 1) live).agent.lastResult = some ⟨3, .range, [9, 0, 32, 0, 0, 0, 0, 0]⟩ ∧
    ((after (.readTable 2 0 1) live).agent.lastResult.map (fun r => (r.status, (r.data.drop 11).all (· == 0)))) =
      some (.done, true) := by decide +kernel

/-- Section 11's worked example: a READ frame on D1 of IDENTIFY, WRITE_LANE, READ_TABLE, an unknown code and READ_CLOCK. -/
def readFrame : CtlFrame :=
  ⟨.d1, 0x0A0000000002, none, 0x0A000001, 7421, .read, 5001, 5,
    [1, 0, 10, 9, 0, 1, 0xFD, 2, 0, 0, 0, 0, 0, 3, 5, 9, 0, 30, 0, 4, 99, 0, 2, 0]⟩

/-- The engine with that frame held on D1. -/
def withFrame : State := onPort .d1 (fun u => { u with held := some readFrame }) live

/-- The frame is taken and stands before IDENTIFY; after it WRITE_LANE is DENIED and READ_TABLE is next; READ_CLOCK is out of
its turn. -/
theorem test_a_control_frame_is_taken :
    let a := after (.controlFrameTake .d1) withFrame
    let b := after .identify a
    a.agent.exec.map (fun e => nextCommand e) = some (some (1, .identify)) ∧
    b.agent.exec.map (fun e => (nextCommand e, e.results.map (fun r => r.status))) =
      some (some (3, .readTable 9 30 4), [.done, .denied]) ∧
    hasTurn 2 .readClock b = false := by decide +kernel

/-- Its answer leaves D1: request number 5,001, five results of statuses DONE and DENIED, then TRUNCATED, UNKNOWN, SKIPPED; lane A
stays as it was. -/
theorem test_one_control_frame :
    let b := after .identify (after (.controlFrameTake .d1) withFrame)
    let t := after (.readTable 9 30 4) b
    let last := settleExec 3 ((b.agent.exec.getD ⟨readFrame, [], 0, [], true⟩).push ⟨3, .truncated, []⟩ [99, 0, 2, 0] false)
    t.agent.exec.isNone = true ∧ t.cfg.lanes = live.cfg.lanes ∧ lastStatus t = some .truncated ∧
    last.results.map (fun r => r.status) = [.done, .denied, .truncated, .unknown, .skipped] ∧
    (t.port .d1).tx.map (fun x => (match x.body with
      | .originated tag bs => (x.origin, tag, natAt bs 54 4, byteAt bs 58)
      | .forwarded _ => (x.origin, .alert, 0, 0))) = some (.general, .answer false, 5001, 5) := by decide +kernel

/-! ### What meets the hypotheses of the statements

For each statement with hypotheses, states and operands that meet them together, clause by clause. -/

/-- The engine with one command waiting. -/
def ticking : State := { live with pending := [.oscillatorPeriod] }

theorem witness_ClockOk : ClockOk ticking :=
  ⟨⟨by decide, by decide, by decide⟩, by decide, by decide, (fun d h => by cases h),
    fun p => by cases p <;> exact ⟨fun _ h => (by cases h), fun _ h => (by cases h)⟩⟩

theorem witness_QueuesOk : ∀ p, QueuesOk (ticking.port p) := fun p => by
  cases p <;> exact ⟨by decide, by decide⟩

theorem witness_StepRunsTheFrontCommand :
    ticking.pending = .oscillatorPeriod :: [] ∧ State.reset.pending = [] := ⟨rfl, rfl⟩

theorem witness_EveryStepKeepsTheLogInOrder :
    LogOk ticking.log ∧ step ticking = .next (after .oscillatorPeriod live) := ⟨logOk_reset, rfl⟩

theorem witness_EveryStepKeepsClockAndRatesInRange :
    ClockOk ticking ∧ RateOk ticking ∧ step ticking = .next (after .oscillatorPeriod live) :=
  ⟨witness_ClockOk, ⟨by decide, by decide, by decide, by decide⟩, rfl⟩

theorem witness_EveryStepKeepsOneSelection :
    SourcesOk ticking ∧ step ticking = .next (after .oscillatorPeriod live) := ⟨src_reset.of rfl rfl, rfl⟩

theorem witness_EveryStepKeepsTheQueuesWithinCapacity :
    (∀ p, QueuesOk (ticking.port p)) ∧ step ticking = .next (after .oscillatorPeriod live) := ⟨witness_QueuesOk, rfl⟩

theorem witness_EveryStepKeepsTheSettingsInRange :
    SettingsOk ticking.cfg ∧ BankOk ticking.matchTab.bank0 ∧ BankOk ticking.matchTab.bank1 ∧ RacksDistinct ticking ∧
    step ticking = .next (after .oscillatorPeriod live) :=
  ⟨defaults_ok, defaultBank_ok, defaultBank_ok, rk_defaults _ rfl, rfl⟩

theorem witness_TheDateNeverGoesBackOutsideUnset :
    let s := inState .freerun ticking
    ClockOk s ∧ s.run = .running ∧ s.servo.st ≠ .unset ∧ step s = .next (after .oscillatorPeriod (inState .freerun live)) ∧
    (after .oscillatorPeriod (inState .freerun live)).run = .running :=
  ⟨⟨witness_ClockOk.date, witness_ClockOk.inc, witness_ClockOk.epoch, witness_ClockOk.stamp, witness_ClockOk.captures⟩,
    rfl, by decide, rfl, by decide⟩

theorem witness_UptimeCountsPeriodsFromTheFullReset :
    exec .oscillatorPeriod live = .next (after .oscillatorPeriod live) ∧
    exec (.settingsLoadEnd [] []) State.reset = .next (after (.settingsLoadEnd [] []) State.reset) := ⟨rfl, rfl⟩

theorem witness_TheHeldEngineStandsStill :
    let s := { ticking with pending := [] }
    let h := after .resetLineAssert s
    h = { State.reset with pending := h.pending, run := .held } ∧ Instr.oscillatorPeriod ≠ .powerOn ∧
    Instr.oscillatorPeriod ≠ .resetLineRelease := ⟨rfl, by decide, by decide⟩

theorem witness_LoadingOnlyForwardsTraffic :
    LoadingOk State.reset ∧ exec .oscillatorPeriod State.reset = .next (after .oscillatorPeriod State.reset) ∧
    (after .oscillatorPeriod State.reset).run = .loading := by
  refine ⟨⟨rfl, fun p => ?_⟩, rfl, by decide⟩
  have h : State.reset.port p = PortUnit.reset := by cases p <;> rfl
  rw [h]
  exact ⟨rfl, rfl, rfl, rfl, rfl, (fun _ h => by cases h), (fun _ h => by cases h), (fun _ h => by cases h), rfl⟩

theorem witness_APeriodAddsTheIncrement :
    DateOk ⟨100, 999999997, 4294952178⟩ ∧ 17179861625 < 1000000000 * 4294967296 ∧
    (⟨100, 999999997, 4294952178⟩ : Date).units + 17179861625 < 281474976710656 * 1000000000 * 4294967296 ∧
    DateOk ⟨281474976710655, 999999999, 4294967295⟩ ∧
    281474976710656 * 1000000000 * 4294967296 ≤ (⟨281474976710655, 999999999, 4294967295⟩ : Date).units + 17179869184 :=
  ⟨⟨by decide, by decide, by decide⟩, by decide, by decide, ⟨by decide, by decide, by decide⟩, by decide⟩

theorem witness_OscillatorPeriodDoes :
    let s := dated ⟨100, 999999990, 0⟩ live
    s.run ≠ .held ∧ ∀ l, s.run = .running → (s.laneRec l).mode = .boundary →
      alignedInstant (s.laneRec l).k s.clock.date (advance s.clock.date s.clock.inc).1 = none :=
  ⟨by decide, fun l _ _ => by cases l <;> decide⟩

/-- A period that reaches an instant of lane A, which is then originated. -/
theorem witness_OscillatorPeriodDoes_instant :
    let s := dated ⟨103, 499999998, 0⟩ live
    s.run = .running ∧ (s.laneRec .a).mode = .boundary ∧
    alignedInstant (s.laneRec .a).k s.clock.date (advance s.clock.date s.clock.inc).1 = some ⟨103, 500000000⟩ := by decide +kernel

theorem witness_AlignedInstantsAreTheMultiplesPassed :
    (-4 : Int) ≤ -3 ∧ (-3 : Int) ≤ 1 ∧
    alignedInstant (-3) ⟨103, 499999998, 0⟩ ⟨103, 500000002, 0⟩ = some ⟨103, 500000000⟩ ∧
    alignedInstant (-3) ⟨103, 500000000, 0⟩ ⟨103, 500000004, 0⟩ = none := by decide

theorem witness_AnAlignedInstantDecidesABeacon :
    live.engineClass = 6 ∧
    (let s := inState .acquiring live
     s.engineClass ≠ 6 ∧ (s.port .d0).up = true ∧ timingHeld (s.port .d0) < 8 ∧
     ((onPort .d0 (fun u => { u with up := false }) s).port .d0).up = false ∧
     8 ≤ timingHeld ((onPort .d0 (fun u => { u with timing := List.replicate 8 ⟨.echoAnswer, 14, [], 0⟩ }) s).port .d0)) := by
  decide +kernel

theorem witness_ResetsAreTaken :
    (after .resetLineAssert live).run = .held ∧ live.run ≠ .held ∧ hasTurn 25 (.reset 3) live = true ∧ 2 < (3 : Byte).toNat ∧
    hasTurn 25 (.reset 0) live = true ∧ hasTurn 25 (.reset 2) live = true ∧
    [ResetKind.soft, .softReload, .full][(0 : Byte).toNat]? = some .soft ∧ live.agent.exec = none := by decide +kernel

/-- The responses of the built-in defaults are within their maxima. -/
theorem responses_ok : ∀ k : FaultKind, (live.response k).rank ≤ k.maxResponse.rank := fun k => by cases k <;> decide +kernel

/-- A soft reset leaves ACQUIRING and any other state; and what follows it: a log with a gap and no other fault, and D1, once
UP, the lowest port that is DOWN. -/
theorem witness_ResetsAreTaken_soft :
    let s := onPort .d1 (fun u => { u with up := false })
      ({ live with log := { live.log with gap := true } }.setFault .logFull ⟨true, 1, some 0, some .self⟩)
    live.servo.st ≠ .acquiring ∧ live.servo.st ≠ .locked ∧ (inState .acquiring live).servo.st = .acquiring ∧
    (∀ k, (s.fault k).active = true → k = .logFull ∧ s.log.gap = true) ∧
    (∀ k : FaultKind, (s.response k).rank ≤ k.maxResponse.rank) ∧
    Port.u0.isUplink = true ∧ s.run = .running ∧ s.agent.reload = false ∧ (s.port .u0).up = true ∧
    (s.portRec .u0).echoOn = true ∧ ((s.port .d1).seenUp = true ∧ (s.port .d1).up = false) ∧
    (∀ q, portCode q < portCode .d1 → ¬ ((s.port q).seenUp = true ∧ (s.port q).up = false)) := by
  refine ⟨by decide, by decide, rfl, fun k => ?_, fun k => ?_, rfl, rfl, rfl, rfl, rfl, by decide +kernel, fun q => ?_⟩
  · cases k <;> decide +kernel
  · cases k <;> decide +kernel
  · cases q <;> decide +kernel

/-- The first ask of a completion: an idle requester on an uplink that is UP with echo on, its timing queue with room. -/
theorem witness_ResetsAreTaken_ask :
    Port.u1.isUplink = true ∧ live.run = .running ∧ live.agent.reload = false ∧ (live.port .u1).up = true ∧
    (live.portRec .u1).echoOn = true ∧ (live.echoOf .u1).st = .idle ∧ timingHeld (live.port .u1) < 8 := by decide +kernel

theorem witness_AForwardStepMovesTheDateAhead :
    DateOk ⟨100, 999000000, 77⟩ ∧ 0 < 2500000000 ∧ (⟨100, 999000000, 77⟩ : Date).ns + 2500000000 < 281474976710656 * 1000000000 ∧
    DateOk ⟨281474976710655, 0, 0⟩ ∧ 281474976710656 * 1000000000 ≤ (⟨281474976710655, 0, 0⟩ : Date).ns + 1000000000 :=
  ⟨⟨by decide, by decide, by decide⟩, by decide, by decide, ⟨by decide, by decide, by decide⟩, by decide⟩

theorem witness_TheAllocatorIssuesRisingEvenDates :
    DateOk ⟨500, 1003, 5⟩ ∧ StampOk ⟨500, 1000⟩ ∧ (⟨500, 1000⟩ : SN) ≠ ⟨281474976710655, 999999998⟩ ∧
    StampOk ⟨281474976710655, 999999998⟩ :=
  ⟨⟨by decide, by decide, by decide⟩, ⟨by decide, by decide, by decide⟩, by decide, ⟨by decide, by decide, by decide⟩⟩

/-- Halves: r = -31,250 gives Δ of -524.288, r = 512,000,000 and -512,000,000 are the ends of the range. -/
theorem witness_TheRateGivesTheIncrement :
    (-512000000 : Int) ≤ 512000000 ∧ (512000000 : Int) ≤ 512000000 ∧ (-512000000 : Int) ≤ -512000000 := by decide

theorem witness_ASavedImageLoadsBack :
    SettingsOk Settings.default ∧ BankOk defaultBank ∧
    (∀ i j : Fin 32, Settings.default.peers[i].enabled = true → Settings.default.peers[j].enabled = true →
      Settings.default.peers[i].rack = Settings.default.peers[j].rack → i = j) ∧
    Settings.default.trim.natAbs ≤ Settings.default.servo.plausibility * 1024000 :=
  ⟨defaults_ok, defaultBank_ok, fun i j h => by simp [Settings.default] at h, by decide⟩

/-- The built-in image. -/
def image : List Byte := imageOf Settings.default defaultBank

theorem image_length : image.length = 3122 := by decide +kernel

theorem image_split : image = imageBody Settings.default defaultBank ++ le4 (crc32 (imageBody Settings.default defaultBank)) := rfl

theorem body_length : (imageBody Settings.default defaultBank).length = 3118 := by decide +kernel

theorem flashRead_image : flashRead image = image := by
  have e : List.replicate (Config.imageLen - image.length) (0xFF : Byte) = [] := by rw [image_length]; rfl
  unfold flashRead
  rw [e, List.append_nil]
  exact List.take_of_length_le (by rw [image_length]; decide)

/-- Section 12.5: magic number, version, fill and length. -/
theorem test_the_default_image : image.take 12 = [0x52, 0x54, 0x45, 0x31, 0, 1, 0, 0, 0, 0, 0x0C, 0x32] := by decide +kernel

theorem image_passes : readAttempt image = some image := by
  simp only [readAttempt, flashRead_image]
  rw [if_pos]
  refine ⟨by decide +kernel, by decide +kernel, by decide +kernel, ?_⟩
  have h : Config.imageLen - 4 = (imageBody Settings.default defaultBank).length := by rw [body_length]; rfl
  unfold storedCrc
  rw [h, image_split, List.drop_left, List.take_left]

theorem empty_fails : readAttempt [] = none := by
  simp only [readAttempt]
  rw [if_neg]
  intro h
  exact absurd h.1 (by decide +kernel)

theorem witness_TheLoadOfAFullResetEnds :
    State.reset.run = .loading ∧ live.run ≠ .loading ∧ readAttempt image = some image ∧ readAttempt [] = none ∧
    (State.reset.cfg.ports.u0.echoOn = true ∧ State.reset.agent.reload = false) ∧
    (after (.linkUp .u0) State.reset).run = .loading ∧ ((after (.linkUp .u0) State.reset).port .u0).up = true :=
  ⟨rfl, by decide, image_passes, empty_fails, by decide, by decide, by decide⟩

/-- The first ask as a load ends: an uplink UP in LOADING, its requester idle, its timing queue with room. -/
theorem witness_TheLoadOfAFullResetEnds_ask :
    let s := after (.linkUp .u0) State.reset
    s.run = .loading ∧ s.agent.reload = false ∧ (s.port .u0).up = true ∧ (Settings.default.ports.get .u0).echoOn = true ∧
    (s.echoOf .u0).st = .idle ∧ timingHeld (s.port .u0) < 8 := by decide +kernel

theorem witness_TheReloadOfASoftResetEnds :
    let s := { live with agent := { live.agent with reload := true } }
    live.agent.reload = false ∧ s.agent.reload = true ∧ readAttempt image = some image ∧ readAttempt [] = none :=
  ⟨rfl, rfl, image_passes, empty_fails⟩

theorem witness_ASaveAndItsEnd :
    let s := { live with agent := { live.agent with saving := some image } }
    hasTurn 24 .saveSettings live = true ∧ live.agent.saving = none ∧ hasTurn 24 .saveSettings s = true ∧
    s.agent.saving ≠ none ∧ s.agent.saving = some image ∧
    (∃ back, readAttempt image = some back ∧ back.drop 3118 = image.drop 3118) ∧
    ¬ (∃ back, readAttempt [] = some back ∧ back.drop 3118 = image.drop 3118) := by
  refine ⟨rfl, rfl, rfl, (fun h => by cases h), rfl, ?_, ?_⟩
  · exact ⟨image, image_passes, rfl⟩
  · rintro ⟨back, h, -⟩
    rw [empty_fails] at h
    cases h

theorem witness_LinkUpDoes :
    (after .resetLineAssert live).run = .held ∧ (live.port .u0).up = true ∧ State.reset.run = .loading ∧
    (State.reset.port .u0).up = false ∧ running.run = .running ∧ (running.port .u0).up = false ∧ Port.u0.isUplink = true ∧
    running.agent.reload = false ∧ (running.portRec .u0).echoOn = true ∧
    (∀ q, q ≠ Port.u0 → (running.port q).seenUp = true → (running.port q).up = true) ∧
    (let s := onPort .d1 (fun u => { u with seenUp := true }) running
     (s.port .u0).up = false ∧ (s.port .d1).seenUp = true ∧ (s.port .d1).up = false) :=
  ⟨rfl, rfl, rfl, rfl, rfl, rfl, rfl, rfl, rfl, (fun q _ h => by cases q <;> cases h), by decide⟩

/-- A candidate heard on U0 while its link is DOWN: the re-evaluation that the link UP calls for can select it; the requester is
idle with room for its ask; and a downlink that comes UP. -/
theorem witness_LinkUpDoes_reevaluation :
    let s := onPort .u0 (fun u => { u with up := false }) (withSource 3 (entry 0xA1 .u0 .candidate) live)
    let d := onPort .d0 (fun u => { u with up := false }) live
    s.run = .running ∧ (s.port .u0).up = false ∧ (s.echoOf .u0).st = .idle ∧ timingHeld (s.port .u0) < 8 ∧
    (∀ k ∈ faultKinds, (s.response k).rank ≤ k.maxResponse.rank) ∧ bestSource s = none ∧
    bestSource (after (.linkUp .u0) s) ≠ none ∧
    d.run = .running ∧ (d.port .d0).up = false ∧ Port.d0.isUplink = false := by decide +kernel

/-- A state with a frame under reception on a port. -/
def withRx (p : Port) (r : Rx) (s : State) : State := onPort p (fun u => { u with rx := some r }) s

/-- A leaving frame that carries the answer a RESET waits for. -/
def resetAnswer : Tx := ⟨.general, .originated (.answer true) [], ⟨1, 0, 0⟩, 0⟩

theorem witness_LinkDownDoes :
    (after .resetLineAssert live).run = .held ∧ (running.port .u0).up = false ∧ live.run ≠ .held ∧ (live.port .u0).up = true ∧
    (losesResetAnswer (live.port .u0) = true → live.agent.resetPending = none) ∧ (live.port .u0).seenUp = true ∧
    ((withRx .u0 (receiving plainFrame (.forwarding true)) live).port .u0).rx =
      some (receiving plainFrame (.forwarding true)) ∧
    (let s := onPort .u0 (fun u => { u with tx := some resetAnswer }) live
     losesResetAnswer (s.port .u0) = true ∧ s.agent.resetPending = none) ∧
    (let r := receiving (zeros 9200) (.forwarding true)
     let s := withRx .u0 r live
     (s.port .u0).rx = some r ∧ r.stage ≠ .discarding ∧ 9216 < (r.bytes ++ zeros 17).length ∧
       (r.bytes ++ zeros 16).length ≤ 9216 ∧ ∃ t, exec (.frameOversize .u0 (zeros 17)) s = .next t) :=
  ⟨rfl, rfl, by decide, rfl, by decide, rfl, rfl, by decide, rfl, by decide, by decide +kernel, by decide +kernel, _, rfl⟩

/-- The selected entry's link goes DOWN: it is no longer selectable, and the Servo leaves LOCKED; and a downlink goes DOWN. -/
theorem witness_LinkDownDoes_reevaluation :
    let s := inState .locked (withSource 0 (entry 0xA1 .u0 .selected) live)
    s.run ≠ .held ∧ (s.port .u0).up = true ∧ (s.port .u0).rx = none ∧ losesResetAnswer (s.port .u0) = false ∧
    (∀ k ∈ faultKinds, (s.response k).rank ≤ k.maxResponse.rank) ∧ Port.u0.isUplink = true ∧
    s.selectedPair = some (0, entry 0xA1 .u0 .selected) ∧ (after (.linkDown .u0 []) s).servo.st = .holdover ∧
    (after (.linkDown .u0 []) s).selectedPair = none ∧ (s.port .d0).up = true ∧ Port.d0.isUplink = false := by decide +kernel

/-- The record clause: a logged storage mark under reception as the link goes DOWN, with room in the log. -/
theorem witness_LinkDownDoes_record :
    let r := receiving (zeros 40) (.forwarding true)
    let s := onPort .d0 (fun u => { u with rx := some r, ctx := some (openContext 10 storageEntry ⟨2000, 0, 9⟩
        ⟨2000, 500000000, 2, 3, false, false, false, false, false⟩) }) live
    s.run ≠ .held ∧ (s.port .d0).up = true ∧ (s.port .d0).rx = some r ∧ (r.bytes ++ zeros 10).length ≤ 9216 ∧
    ((s.port .d0).ctx.map (fun c => c.logMode)) = some .stampAndLog ∧ s.log.mem = .inService ∧ s.log.gap = false ∧
    s.log.records.length + 2 ≤ 4096 := by decide +kernel

/-- A link that goes DOWN with bytes beyond 9,216 in hand: the record of the frame cut at 9,216 bytes (R103, R136, log 37). -/
theorem test_link_down_beyond_9216_bytes :
    let s := onPort .d0 (fun u =>
      { u with rx := some (receiving (zeros 9200) (.forwarding true)), ctx := some (openContext 10 storageEntry ⟨2000, 0, 9⟩
        ⟨2000, 500000000, 2, 3, false, false, false, false, false⟩) }) live
    (after (.linkDown .d0 (zeros 100)) s).log.records.head?.map (fun r => match r.body with
      | .stamp _ len _ _ _ _ _ badFcs _ _ => (len, badFcs)
      | _ => (0, false)) = some (9216, true) := by decide +kernel

theorem witness_FrameStartTakesTheIngressCapture :
    live.run ≠ .held ∧ (live.port .u0).up = true ∧ (live.port .u0).rx = none ∧ (running.port .u0).up = false ∧
    ((withRx .u0 (receiving [] .parsing) live).port .u0).rx ≠ none ∧ (after .resetLineAssert live).run = .held := by
  decide +kernel

theorem witness_TheLookupSendsAFrameItsWay :
    let started := receiving [] .parsing
    let s := withRx .u0 started live
    let crowd : List FwdFrame := List.replicate 3 ⟨List.replicate 8000 0, 0, ⟨1, 0, 0⟩, true, false, false, .none⟩
    let full := onPort .d0 (fun u => { u with buffer := crowd }) s
    s.run ≠ .held ∧ (s.port .u0).up = true ∧ (s.port .u0).rx = some started ∧ started.stage = .parsing ∧
    started.loading = false ∧
    lookupReached plainFrame true = true ∧ lookup s .u0 (plainFrame.take 60) = .pass ∧
    (s.port .d0).up = true ∧ 9216 + bufferOccupancy (s.port .d0) ≤ 32768 ∧
    (full.port .d0).up = true ∧ ¬ (9216 + bufferOccupancy (full.port .d0) ≤ 32768) ∧
    lookup full .u0 (plainFrame.take 60) = .pass ∧
    lookupReached (utxFrame ++ zeros 4) true = true ∧ lookup s .u0 utxFrame = .utxL2 ∧
    lookup s .u0 controlFrame = .utxUdp true false ∧ lookupReached (zeros 100) false = false := by decide +kernel

/-- Whether a frame received on a port meets an entry: ethertype, VLAN condition, port set and pattern (R104, R106). -/
def meetsEntry (bytes : List Byte) (p : Port) (e : MatchEntry) : Bool :=
  let tagged := natAt bytes 12 2 == 0x8100
  let payload := if tagged then 18 else 14
  e.valid && e.ethertype.toNat == natAt bytes (payload - 2) 2 &&
  (match e.vlanKind with | .any => true | .none => !tagged | .id => tagged && natAt bytes 14 2 % 4096 == e.vlanId) &&
  e.ports.get p &&
  (!e.patPresent || (payload + e.patOffset + 4 ≤ bytes.length &&
    BitVec.ofNat 32 (natAt bytes (payload + e.patOffset) 4) &&& e.patMask == e.patValue &&& e.patMask))

/-- The four actions of a lookup, each by the lowest entry met, and a frame that meets none; UTX_UDP to the engine's address and
to another's, and UTX_L2 of an ethertype that is not the engine's. -/
theorem witness_TheLookupSendsAFrameItsWay_actions :
    let plain := plainFrame.take 60
    let passing := { MatchEntry.blank with valid := true, action := .pass, ethertype := 0x88B6, ports := Quad.all true }
    let early := defaultBank.set 5 passing
    let moved := { live with cfg := { live.cfg with ip := 1 } }
    let other := { live with cfg := { live.cfg with utxEther := 0x9000 } }
    (∀ i : Fin 64, meetsEntry plain .u0 defaultBank[i] = false) ∧ lookup live .u0 plain = .pass ∧
    (meetsEntry utxFrame .u0 early[5] = true ∧ meetsEntry utxFrame .u0 early[62] = true ∧
      (∀ j : Fin 64, j < 5 → meetsEntry utxFrame .u0 early[j] = false) ∧ early[5].action = .pass) ∧
    (meetsEntry (storageFrame.take 145) .d0 (defaultBank.set 10 storageEntry)[10] = true ∧
      meetsEntry (storageFrame.take 145) .u0 (defaultBank.set 10 storageEntry)[10] = false ∧
      (∀ j : Fin 64, j < 10 → meetsEntry (storageFrame.take 145) .d0 (defaultBank.set 10 storageEntry)[j] = false)) ∧
    (meetsEntry utxFrame .u0 defaultBank[62] = true ∧
      (∀ j : Fin 64, j < 62 → meetsEntry utxFrame .u0 defaultBank[j] = false) ∧ lookup live .u0 utxFrame = .utxL2 ∧
      lookup other .u0 utxFrame = .pass) ∧
    (meetsEntry controlFrame .u0 defaultBank[63] = true ∧
      (∀ j : Fin 64, j < 63 → meetsEntry controlFrame .u0 defaultBank[j] = false) ∧
      lookup live .u0 controlFrame = .utxUdp true false ∧ lookup moved .u0 controlFrame = .pass) := by decide +kernel

/-- The engine that stores, its allocator and clock at section 7's dates, a storage frame begun on D0. -/
def storingFrame : State := withRx .d0 (receiving [] .parsing) storing

theorem witness_AStorageMarkClaimsItsStamp :
    let bytes := storageFrame.take 145
    storingFrame.run ≠ .held ∧ (storingFrame.port .d0).up = true ∧
    (storingFrame.port .d0).rx = some (receiving [] .parsing) ∧ lookupReached ([] ++ bytes) false = true ∧
    lookup storingFrame .d0 ([] ++ bytes) = .mark 10 storageEntry ∧
    (storingFrame.port .u0).up = true ∧ 9216 + bufferOccupancy (storingFrame.port .u0) ≤ 32768 ∧
    storageEntry.logMode ≠ .logOnly ∧ storageEntry.freeze = false := by decide +kernel

/-- The other clauses: LOG_ONLY, a freeze-on-match in LIVE, and a refused frame. -/
theorem witness_AStorageMarkClaimsItsStamp_other :
    let e := { storageEntry with logMode := .logOnly, freeze := true }
    let s := { storingFrame with matchTab := { storingFrame.matchTab with bank0 := defaultBank.set 10 e } }
    let down := onPort .u0 (fun u => { u with up := false }) storingFrame
    lookup s .d0 (storageFrame.take 145) = .mark 10 e ∧ e.logMode = .logOnly ∧ e.freeze = true ∧ s.frozen = none ∧
    lookup down .d0 (storageFrame.take 145) = .mark 10 storageEntry ∧ (down.port .u0).up = false := by decide +kernel

/-- A storage mark's context, its outcome PENDING, stamp at an offset. -/
def context (off : Nat) : DatingCtx :=
  openContext 10 { storageEntry with stampOffset := off } ⟨2000, 500000000, 9⟩ ⟨2000, 500000000, 2, 3, false, false, false, false, false⟩

theorem witness_TheEditHoldEndsWithTheStampWritten :
    let r := receiving (storageFrame.take 145) (.forwarding true)
    let s := onPort .d0 (fun u => { u with rx := some r, ctx := some (context 150) }) live
    let more := (storageFrame.drop 145).take 35
    s.run ≠ .held ∧ (s.port .d0).up = true ∧ (s.port .d0).rx = some r ∧ (s.port .d0).ctx = some (context 150) ∧
    r.stage = .forwarding true ∧ (context 150).outcome = .pending ∧
    frameHeader (r.bytes ++ more) + (context 150).stampOffset + 16 ≤ (r.bytes ++ more).length ∧
    (r.bytes ++ more).length ≤ 9216 := by decide +kernel

/-- No hold that can end: the frame not in hand, the outcome settled, too few bytes, too many. -/
theorem witness_TheEditHoldEndsWithTheStampWritten_left :
    let r := receiving (storageFrame.take 145) (.forwarding false)
    let s := onPort .d0 (fun u => { u with rx := some r, ctx := some (context 150) }) live
    (s.port .d0).rx = some r ∧ (s.port .d0).ctx = some (context 150) ∧ r.stage ≠ .forwarding true ∧
    ({ context 150 with outcome := .written } : DatingCtx).outcome ≠ .pending ∧
    (r.bytes ++ []).length < frameHeader (r.bytes ++ []) + (context 150).stampOffset + 16 ∧
    9216 < (r.bytes ++ zeros 9100).length ∧ (live.port .d0).rx = none ∧ (live.port .d0).ctx = none := by
  refine ⟨rfl, rfl, by decide, by decide, by decide +kernel, by decide +kernel, rfl, rfl⟩

/-- Section 12.3, the stamp: S, N with the doubt mark, class, domain 3 with CATCH, FLOOR, PUSHED and NOLOG. -/
theorem test_stamp_bytes :
    stampBytes ⟨2000, 500000000, 4, 3, true, true, true, true, true⟩ =
      [0, 0, 0, 0, 0x07, 0xD0, 0x1D, 0xCD, 0x65, 0x01, 4, 0x3F] ∧
    stampBytes ⟨2000, 500000000, 2, 3, false, false, false, true, false⟩ =
      [0, 0, 0, 0, 0x07, 0xD0, 0x1D, 0xCD, 0x65, 0x00, 2, 0x32] := by decide

theorem witness_AFrameBeyond9216Bytes :
    let r := fun (st : RxStage) => receiving (zeros 9200) st
    let s := fun (st : RxStage) => withRx .u0 (r st) live
    live.run ≠ .held ∧ (live.port .u0).up = true ∧ ((s .storingL2).port .u0).rx = some (r .storingL2) ∧
    9216 < ((r .storingL2).bytes ++ zeros 17).length ∧ ((r .storingL2).bytes ++ zeros 16).length ≤ 9216 ∧
    ((s (.forwarding true)).port .u0).ctx = none ∧
    ((onPort .u0 (fun u => { u with ctx := some (context 40) }) (s (.forwarding true))).port .u0).ctx ≠ none ∧
    (r .discarding).stage = .discarding := by
  refine ⟨by decide, rfl, rfl, by decide +kernel, by decide +kernel, rfl, (fun h => by cases h), rfl⟩

/-- A context whose mark is not logged and one whose mark is, with room in the log. -/
theorem witness_AFrameBeyond9216Bytes_record :
    (openContext 10 { storageEntry with logMode := .stampOnly } ⟨2000, 0, 9⟩
      ⟨2000, 500000000, 2, 3, false, false, false, false, true⟩).logMode = .stampOnly ∧
    (context 40).logMode ≠ .stampOnly ∧ (context 9300).outcome = .pending ∧ live.log.mem = .inService ∧
    live.log.gap = false ∧ live.log.records.length + 2 ≤ 4096 := by decide +kernel

theorem witness_FrameEndDoes :
    let s := fun (r : Rx) => withRx .u0 r live
    live.run ≠ .held ∧ (live.port .u0).up = true ∧
    ((s (receiving [] .parsing)).port .u0).rx = some (receiving [] .parsing) ∧ ([] ++ zeros 63 : List Byte).length < 64 ∧
    fcsGood plainFrame = true ∧ fcsGood (zeros 64) = false ∧ ([] ++ plainFrame : List Byte).length ≤ 9216 ∧
    (receiving [] (.storingUdp true false .full)).stage = .storingUdp true false .full ∧
    ((s (receiving [] (.forwarding true))).port .u0).ctx = none := by decide +kernel

/-- A frame of more than 9,216 bytes whose end is told. -/
theorem witness_FrameEndDoes_long :
    9216 < ((receiving (zeros 9200) .storingL2).bytes ++ zeros 17).length ∧
    ((withRx .u0 (receiving (zeros 9200) (.forwarding true)) live).port .u0).rx =
      some (receiving (zeros 9200) (.forwarding true)) := ⟨by decide +kernel, rfl⟩

/-- A frame that its buffer refused, and a long one whose FRAME_OVERSIZE has a next state. -/
theorem witness_FrameEndDoes_refused :
    let r := receiving plainFrame (.forwarding false)
    let long := withRx .u0 (receiving (zeros 9200) (.forwarding true)) live
    ((withRx .u0 r live).port .u0).rx = some r ∧ (r.bytes ++ []).length ≤ 9216 ∧ ((withRx .u0 r live).port .u0).ctx = none ∧
    (receiving (zeros 9200) (.forwarding true)).stage ≠ .discarding ∧
    ∃ t, exec (.frameOversize .u0 (zeros 17)) long = .next t :=
  ⟨rfl, by decide +kernel, rfl, by decide, _, rfl⟩

/-- A whole CONTROL frame on D0 from address 0. -/
def controlOn : Whole := ⟨.d0, ⟨5, 0, 0⟩, 0, controlFrame ++ fcsOf controlFrame, 42⟩

theorem witness_WholeFramesGoByTheirKind :
    let cut : Whole := ⟨.u0, ⟨5, 0, 0⟩, 0, utxFrame ++ fcsOf utxFrame, 40⟩
    let transit := { live with cfg := { live.cfg with lanes := ⟨⟨.transit, -3, 0⟩, ⟨.transit, -3, 0⟩⟩ } }
    utxFits cut.utx (availableL2 cut.bytes) = false ∧
    utxFits (beaconOn .d0 2 1).utx (availableL2 (beaconOn .d0 2 1).bytes) = true ∧ byteAt (beaconOn .d0 2 1).utx 1 = 1 ∧
    (live.cfg.lanes.get .a).mode = .boundary ∧ (transit.cfg.lanes.get .a).mode = .transit ∧
    bitsAt 8 (beaconOn .u0 2 1).utx 12 = ({ live with cfg := { live.cfg with engineId := 0xA9 } } : State).cfg.engineId ∧
    utxFits controlOn.utx (availableUdp controlOn.bytes) = true ∧ byteAt controlOn.utx 1 = 5 ∧ Privilege.full ≠ .none ∧
    withinPrefix live (bitsAt 4 controlOn.bytes (controlOn.header - 16)) = true ∧ live.run = .running ∧
    live.agent.reload = false ∧ (live.port .d0).held = none := by decide +kernel

/-- A CONTROL frame whose UTX bytes it holds whole; an address within a prefix of 24 bits and one without. -/
theorem witness_WholeFramesGoByTheirKind_control :
    let utx := (controlOn.bytes.take (controlOn.bytes.length - 4)).drop controlOn.header
    let near := { live with cfg := { live.cfg with mgrAddr := 0x0A000100, mgrLen := 24 } }
    17 ≤ utx.length ∧ 12 + natAt utx 2 2 ≤ utx.length ∧ (controlOf controlOn .full).request = 5001 ∧
    (controlOf controlOn .full).count = 0 ∧ (controlOf controlOn .full).srcPort = 7421 ∧
    withinPrefix near 0x0A0001FE = true ∧ withinPrefix near 0x0A000201 = false := by decide +kernel

/-- A UTX frame of 60 bytes and an FCS on a port, to a MAC, of a kind with a body of some length. -/
def utxOn (p : Port) (dst : BitVec 48) (kind body : Nat) : Whole :=
  ⟨p, ⟨5, 0, 0⟩, 0, wire dst 2 0x88B6 (utxHeader kind body 5 ++ zeros body), 14⟩

/-- A UDP frame of the engine's address that holds a UTX frame. -/
def udpOn (p : Port) (utx : List Byte) : Whole :=
  let bs := udpFrame live 0x020000004420 none 0 7421 7421 utx
  ⟨p, ⟨10, 60000, 0⟩, 0, bs ++ fcsOf bs, 42⟩

/-- Kinds, destinations and carriages: the five well-formed forms; asks and answers to the group, to the engine and to another;
CONTROL on Ethernet; a beacon by UDP; a report with an echo; a frame of room and one of none. -/
theorem witness_WholeFramesGoByTheirKind_other :
    let fits := fun (w : Whole) => utxFits w.utx (availableL2 w.bytes)
    let fitsUdp := fun (w : Whole) => utxFits w.utx (availableUdp w.bytes)
    let group := live.cfg.group
    let mine := { live with cfg := { live.cfg with mac := 0x0A0000000001 } }
    let crowd : List FwdFrame := List.replicate 4 ⟨zeros 8190, 0, ⟨1, 0, 0⟩, true, false, false, .none⟩
    let full := onPort .d0 (fun u => { u with buffer := crowd }) live
    (fits (utxOn .u0 group 2 20) = true ∧ (utxOn .u0 group 2 20).dst = group ∧ group ≠ live.cfg.mac ∧
      fits (utxOn .d0 0x0A0000000001 2 20) = true ∧ (utxOn .d0 0x0A0000000001 2 20).dst = mine.cfg.mac ∧
      (utxOn .d0 0x0A0000000001 2 20).dst ≠ mine.cfg.group ∧ fits (utxOn .u0 7 3 40) = true ∧ (utxOn .u0 7 3 40).dst ≠ group ∧
      (utxOn .u0 7 3 40).dst ≠ live.cfg.mac ∧ byteAt (utxOn .u0 7 3 40).utx 1 = 3 ∧
      byteAt (utxOn .u0 group 5 5).utx 1 = 5 ∧ (utxOn .u0 7 2 20).port.isUplink = true) ∧
    (live.run = .running ∧ (live.port .d0).up = true ∧
      (utxOn .u0 7 2 20).bytes.length + bufferOccupancy (live.port .d0) ≤ 32768 ∧
      ¬ ((utxOn .u0 7 2 20).bytes.length + bufferOccupancy (full.port .d0) ≤ 32768)) ∧
    (fitsUdp (udpOn .u0 (utxHeader 1 32 5 ++ zeros 32)) = true ∧
      byteAt (udpOn .u0 (utxHeader 1 32 5 ++ zeros 32)).utx 1 = 1 ∧
      fitsUdp (udpOn .u0 (utxHeader 4 46 5 ++ zeros 24 ++ [1] ++ zeros 21)) = true ∧
      byteAt (udpOn .u0 (utxHeader 4 46 5 ++ zeros 24 ++ [1] ++ zeros 21)).utx 1 = 4 ∧
      fitsUdp (udpOn .u0 (utxHeader 4 46 5 ++ zeros 46)) = false) := by decide +kernel

theorem witness_AStorageMarkEndsInItsRecord :
    let r := receiving (storageFrame.take 145) (.forwarding true)
    let s := onPort .d0 (fun u => { u with rx := some r, ctx := some (context 40) }) live
    let more := storageFrame.drop 145
    s.run ≠ .held ∧ (s.port .d0).up = true ∧ (s.port .d0).rx = some r ∧ (s.port .d0).ctx = some (context 40) ∧
    r.stage = .forwarding true ∧ (r.bytes ++ more).length ≤ 9216 ∧ (context 40).logMode ≠ .stampOnly ∧
    s.log.mem = .inService ∧ s.log.gap = false ∧ s.log.records.length + 2 ≤ 4096 := by decide +kernel

/-- A mark that is STAMP_ONLY, PENDING with its stamp fitting, of a frame that its buffer took, and one of a frame refused. -/
theorem witness_AStorageMarkEndsInItsRecord_stampOnly :
    let only := { context 40 with logMode := .stampOnly }
    let r := receiving (storageFrame.take 145)
    let s := fun (inLane : Bool) => onPort .d0 (fun u => { u with rx := some (r (.forwarding inLane)), ctx := some only }) live
    ((s true).port .d0).rx = some (r (.forwarding true)) ∧ ((s false).port .d0).rx = some (r (.forwarding false)) ∧
    ((s true).port .d0).ctx = some only ∧ only.logMode = .stampOnly ∧ only.outcome = .pending ∧
    ((r (.forwarding true)).bytes ++ storageFrame.drop 145).length ≤ 9216 ∧
    frameHeader storageFrame + only.stampOffset + 16 ≤ storageFrame.length := by decide +kernel

theorem witness_FrameSentFreesThePort :
    let f : FwdFrame := ⟨plainFrame, 0, ⟨1, 0, 0⟩, true, true, false, .none⟩
    let s := fun (x : Tx) => onPort .d0 (fun u => { u with tx := some x }) live
    let waits := fun (k : ResetKind) => { s resetAnswer with agent := { live.agent with resetPending := some k } }
    let whole : Tx := ⟨.buffer, .forwarded f, ⟨1, 0, 0⟩, 0⟩
    let part : Tx := ⟨.buffer, .forwarded { f with complete := false }, ⟨1, 0, 0⟩, 0⟩
    let ask : Tx := ⟨.timing, .originated (.ask 7) [], ⟨1, 0, 0⟩, 0⟩
    (s whole).run ≠ .held ∧ ((s whole).port .d0).up = true ∧ ((s whole).port .d0).tx = some whole ∧ f.complete = true ∧
    ((s part).port .d0).tx = some part ∧ ((s ask).port .d0).tx = some ask ∧ OrigTag.ask 7 ≠ .answer true ∧
    ((s resetAnswer).port .d0).tx = some resetAnswer ∧ (s resetAnswer).agent.resetPending = none ∧
    (waits .full).agent.resetPending = some .full ∧ (waits .softReload).agent.resetPending = some .softReload ∧
    (waits .soft).agent.resetPending = some .soft := by decide +kernel

/-- Frames that were not edited, cut, stamped and of transit; and stamps in frames that carry no UDP, UDP over IPv4 and IPv6
whose checksum follows, a stamp over the checksum, and UDP over IPv4 without one. -/
theorem witness_FrameSentFreesThePort_bytes :
    let f : FwdFrame := ⟨plainFrame, 0, ⟨1, 0, 0⟩, true, true, false, .none⟩
    let v4 := (controlOn.bytes.take 40) ++ [0x12, 0x34] ++ controlOn.bytes.drop 42
    let v6 := ethHeader 1 2 none 0x86DD ++ zeros 6 ++ [17] ++ zeros 33 ++ [0, 7, 0, 8, 0, 60, 0x12, 0x34] ++ zeros 60
    let stamp := stampBytes ⟨2000, 500000000, 2, 3, false, false, false, false, false⟩
    (f.cut = false ∧ f.edit = .none ∧ { f with cut := true }.cut = true ∧
      { f with edit := .stamp 14 stamp }.edit = .stamp 14 stamp ∧ { f with edit := .transit 14 5 }.edit = .transit 14 5 ∧
      14 + 8 ≤ (f.bytes.take (f.bytes.length - 4)).length) ∧
    (stamp.length = 12 ∧ 42 + 12 ≤ v4.length ∧ udpSpan plainFrame = none) ∧
    (udpSpan v4 = some (34, 59, true) ∧ 34 + 8 ≤ v4.length ∧ natAt v4 40 2 ≠ 0 ∧ 34 + 6 + 2 ≤ 42 ∧
      (39 < 34 + 6 + 2 ∧ 34 + 6 < 39 + 12)) ∧
    (udpSpan controlOn.bytes = some (34, 59, true) ∧ natAt controlOn.bytes 40 2 = 0) ∧
    (udpSpan v6 = some (54, 114, false) ∧ 54 + 8 ≤ v6.length ∧ 70 + 12 ≤ v6.length ∧ 54 + 6 + 2 ≤ 70) := by decide +kernel

/-- The one's-complement sum over the UDP datagram of a frame without VLAN tag and its pseudo-header: the addresses, the protocol
and the UDP length; 0xFFFF where its checksum is correct. -/
def datagramSum (bs : List Byte) (start : Nat) (v4 : Bool) : Nat :=
  let length := natAt bs (start + 4) 2
  let addresses := if v4 then slice bs 26 8 else slice bs 22 32
  fold16 (sum16 addresses + byteAt bs (if v4 then 23 else 20) + length + sum16 (slice bs start length))

/-- UDP over IPv4 and IPv6, its checksum correct by `datagramSum`, the IPv4 datagram of an odd length. -/
def correct4 : List Byte := patch controlOn.bytes 40 (be 2 (0xFFFF - datagramSum controlOn.bytes 34 true))
def correct6 : List Byte :=
  let plain := ethHeader 1 2 none 0x86DD ++ zeros 6 ++ [17] ++ zeros 33 ++ [0, 7, 0, 8, 0, 60, 0, 0] ++ zeros 60
  patch plain 60 (be 2 (0xFFFF - datagramSum plain 54 false))
def aStamp : List Byte := stampBytes ⟨2000, 500000000, 2, 3, false, false, false, false, false⟩

/-- Stamps that lie wholly or in part over the addresses of the IP header, before the checksum, and so count in it by the
pseudo-header. -/
theorem witness_FrameSentFreesThePort_addresses :
    aStamp.length = 12 ∧ udpSpan correct4 = some (34, 59, true) ∧ 34 + 8 ≤ correct4.length ∧ natAt correct4 40 2 ≠ 0 ∧
    26 + 12 ≤ correct4.length ∧ 26 + 12 ≤ 34 + 6 ∧ udpSpan correct6 = some (54, 114, false) ∧ 54 + 8 ≤ correct6.length ∧
    30 + 12 ≤ correct6.length ∧ 30 + 12 ≤ 54 + 6 := by decide +kernel

/-- A datagram whose checksum is correct on arrival is correct when it leaves (R119): its stamp over the protocol and addresses,
the addresses and ports, the addresses alone, and in the payload at an even and an odd place. -/
theorem test_stamped_datagrams_stay_correct :
    (datagramSum correct4 34 true = 0xFFFF ∧ datagramSum correct6 54 false = 0xFFFF) ∧
    (∀ off ∈ [22, 26, 42, 43, 47], datagramSum (writeStamp correct4 off aStamp) 34 true = 0xFFFF) ∧
    (∀ off ∈ [17, 30, 45, 62, 71], datagramSum (writeStamp correct6 off aStamp) 54 false = 0xFFFF) := by decide +kernel

theorem witness_TheArbiterGrantsInItsOrder :
    let f : FwdFrame := ⟨plainFrame, 0, ⟨1, 0, 0⟩, true, true, false, .none⟩
    let u := live.port .u0
    let q : QFrame := ⟨.ask 7, 14, [], 0⟩
    let g : QFrame := ⟨.alert, 42, [], 0⟩
    u.tx = none ∧ u.up = true ∧ { u with tx := some resetAnswer }.tx ≠ none ∧ (running.port .u0).up = false ∧
    { u with timing := [q] }.timing = q :: [] ∧ { u with general := [g] }.timing = [] ∧
    { u with general := [g] }.general = g :: [] ∧ g.joined + 250000 ≤ (aged 250000 live).clock.up ∧
    { u with buffer := [f] }.buffer = f :: [] ∧ f.ready = true ∧ (aged 249999 live).clock.up < g.joined + 250000 ∧
    { f with ready := false }.ready = false := by decide +kernel

/-- The exec of the read frame, and of a frame of no commands. -/
theorem witness_TheFreeAgentTakesAControlFrame :
    let e : Exec := { frame := readFrame, rest := readFrame.body, left := readFrame.count, results := [], ended := false }
    let unknown : CtlFrame := { readFrame with body := [99, 0], count := 1 }
    let x : Exec := { frame := unknown, rest := unknown.body, left := unknown.count, results := [], ended := false }
    (live.port .d1).held = none ∧ (withFrame.port .d1).held = some readFrame ∧ withFrame.run = .running ∧
    withFrame.agent.reload = false ∧ withFrame.agent.resetPending = none ∧ withFrame.agent.exec = none ∧
    nextCommand e ≠ none ∧ 0 < unknown.count ∧ nextCommand x = none ∧
    ({ readFrame with body := [], count := 0 } : CtlFrame).count = 0 := by decide +kernel

theorem witness_AnEchoIntervalBuildsOneAsk :
    let s := aged 62500000 asking
    let out := s.setEcho .u0 { s.echoOf .u0 with st := .queued }
    let full := onPort .u0 (fun u => { u with timing := List.replicate 8 ⟨.echoAnswer, 14, [], 0⟩ }) s
    Port.u0.isUplink = true ∧ s.run = .running ∧ s.agent.reload = false ∧ (s.port .u0).up = true ∧
    (s.portRec .u0).echoOn = true ∧ (s.echoOf .u0).sched = some 0 ∧ 0 + intervalPeriods (s.portRec .u0).k ≤ s.clock.up ∧
    (s.echoOf .u0).st = .idle ∧ timingHeld (s.port .u0) < 8 ∧ (out.echoOf .u0).st ≠ .idle ∧ (out.echoOf .u0).sched = some 0 ∧
    8 ≤ timingHeld (full.port .u0) ∧ (full.echoOf .u0).st = .idle ∧ Port.d0.isUplink ≠ true ∧
    (-4 : Int) ≤ -4 ∧ (3 : Int) ≤ 3 := by decide +kernel

/-- The expiry at once of a schedule that starts: idle with room, not idle, link DOWN, and the queue full. -/
theorem witness_AnEchoIntervalBuildsOneAsk_start :
    let out := live.setEcho .u0 { live.echoOf .u0 with st := .queued }
    let full := onPort .u0 (fun u => { u with timing := List.replicate 8 ⟨.echoAnswer, 14, [], 0⟩ }) live
    (live.echoOf .u0).st = .idle ∧ (live.port .u0).up = true ∧ timingHeld (live.port .u0) < 8 ∧ (out.echoOf .u0).st ≠ .idle ∧
    (running.echoOf .u0).st = .idle ∧ (running.port .u0).up = false ∧ (full.echoOf .u0).st = .idle ∧
    8 ≤ timingHeld (full.port .u0) := by decide +kernel

/-- The ask id 7 in flight from uptime 100 with a timeout of 10 ms. -/
def inFlight : State := live.setEcho .u0 { live.echoOf .u0 with st := .inFlight ⟨7, ⟨1, 0⟩, 100, 2500000⟩ }

theorem witness_AnEchoTimeoutAbandonsTheExchange :
    Port.u0.isUplink = true ∧ (inFlight.echoOf .u0).st = .inFlight ⟨7, ⟨1, 0⟩, 100, 2500000⟩ ∧
    100 + 2500000 ≤ (aged 2500100 inFlight).clock.up ∧ (aged 2500099 inFlight).clock.up < 100 + 2500000 ∧
    Port.d0.isUplink = false := by decide +kernel

/-- An ECHO_ANSWER on U0 to the ask in flight, with section 2.3's dates, by section 12.1's layout. -/
def answerOn (p : Port) (sum : Int) : Whole :=
  ⟨p, ⟨1, 1950, 0⟩, 0, zeros 14 ++ (be 1 1 ++ be 1 3 ++ be 2 40 ++ be 8 5 ++ be 2 7 ++ snBytes ⟨1, 0⟩ ++ snBytes ⟨1, 10000⟩ ++
    snBytes ⟨1, 10400⟩ ++ beInt 8 sum) ++ zeros 4, 14⟩

theorem witness_AMatchingAnswerGivesASample :
    let w := answerOn .u0 19693568
    let x : Int := ((((w.ingress.ns : Int) - (snAt w.utx 14).ns) - (((snAt w.utx 34).ns : Int) - (snAt w.utx 24).ns)) * 65536 -
      intAt w.utx 44 8) / 2
    let y : Int := ((((w.ingress.ns : Int) - (snAt w.utx 14).ns) - (((snAt w.utx 34).ns : Int) - (snAt w.utx 24).ns)) * 65536 -
      intAt (answerOn .u0 200000000).utx 44 8) / 2
    w.port.isUplink = true ∧ (inFlight.echoOf w.port).st = .inFlight ⟨7, ⟨1, 0⟩, 100, 2500000⟩ ∧ natAt w.utx 12 2 = 7 ∧
    snAt w.utx 14 = ⟨1, 0⟩ ∧ 0 ≤ x ∧ y < 0 ∧ (answerOn .d0 0).port.isUplink = false := by decide +kernel

theorem witness_AMatchingAnswerGivesASample_ask :
    let w := utxOn .d0 live.cfg.group 2 20
    let full := onPort .d0 (fun u => { u with timing := List.replicate 8 ⟨.echoAnswer, 14, [], 0⟩ }) live
    (live.port w.port).up = true ∧ timingHeld (live.port w.port) < 8 ∧ 8 ≤ timingHeld (full.port w.port) := by decide +kernel

/-- Beacons: the engine's own; of an entry at 0; a first one; with the table full and a STALE entry in it, and none. -/
theorem witness_SilenceMakesASourceStaleAndRemovesIt_beacon :
    let w := beaconOn .u0 2 1
    let foreign := { live with cfg := { live.cfg with engineId := 1 } }
    let own := { live with cfg := { live.cfg with engineId := 0xA9 } }
    let known := withSource 0 (entry 0xA1 .u0 .candidate) foreign
    let all := { foreign with sources := Vector.replicate 8 (some (entry 0xB0 .u0 .candidate)) }
    let aged7 := withSource 7 (entry 0xB7 .u1 .stale) all
    w.port.isUplink = true ∧ bitsAt 8 w.utx 12 = own.cfg.engineId ∧
    (bitsAt 8 w.utx 4 ≠ foreign.cfg.engineId ∧ bitsAt 8 w.utx 12 ≠ foreign.cfg.engineId) ∧
    (known.source 0 = some (entry 0xA1 .u0 .candidate) ∧ (entry 0xA1 .u0 .candidate).sender = bitsAt 8 w.utx 4) ∧
    (∀ j : Fin 8, foreign.source j = none) ∧
    (∀ j : Fin 8, ∃ e, all.source j = some e ∧ e.st ≠ .stale ∧ e.sender ≠ bitsAt 8 w.utx 4) ∧
    (aged7.source 7 = some (entry 0xB7 .u1 .stale) ∧ (entry 0xB7 .u1 .stale).st = .stale ∧
      ∀ j : Fin 8, (aged7.source j).map (fun e => decide (e.st = .stale)) = some (decide (j = 7))) ∧
    (let t := beaconIntoTable w foreign
     (t.source 0).map (fun e => e.st) = some .selected ∧ t.servo.st = .acquiring) := by
  refine ⟨rfl, by decide +kernel, by decide +kernel, by decide +kernel, fun j => ?_, fun j => ?_, by decide +kernel,
    by decide +kernel⟩
  · revert j; decide +kernel
  · exact ⟨entry 0xB0 .u0 .candidate, by revert j; decide +kernel, by decide, by decide +kernel⟩

theorem witness_SilenceMakesASourceStaleAndRemovesIt :
    let e := entry 0xA1 .u0 .candidate
    let s := withSource 7 e live
    let t := withSource 7 { e with st := .stale } live
    s.source 7 = some e ∧ e.st = .candidate ∧
    e.heardAt + 3 * intervalPeriods (max (-4) (min 3 e.k)) ≤ (aged 93750000 s).clock.up ∧
    ¬ (e.heardAt + 3 * intervalPeriods (max (-4) (min 3 e.k)) ≤ (aged 93749999 s).clock.up) ∧
    t.source 7 = some { e with st := .stale } ∧
    e.heardAt + 8 * intervalPeriods (max (-4) (min 3 e.k)) ≤ (aged 250000000 t).clock.up ∧
    s.source 0 = none := by decide +kernel

theorem witness_BarsAreSetLiftedAndEnd :
    let s := withSource 7 (entry 0xA1 .u0 .candidate) live
    let b := withSource 7 (entry 0xA1 .u0 .barred) live
    hasTurn 20 (.barSource 8 5) s = true ∧ 7 < (8 : Byte).toNat ∧ hasTurn 20 (.barSource 0 5) s = true ∧ s.source 0 = none ∧
    hasTurn 20 (.barSource 7 5) s = true ∧ hasTurn 20 (.barSource 7 0) s = true ∧ (7 : Byte).toNat ≤ 7 ∧
    s.source 7 = some (entry 0xA1 .u0 .candidate) ∧ (5 : BitVec 16) ≠ 0 ∧ (entry 0xA1 .u0 .candidate).st ≠ .barred ∧
    hasTurn 20 (.barSource 7 5) b = true ∧ b.source 7 = some (entry 0xA1 .u0 .barred) ∧
    (entry 0xA1 .u0 .barred).st = .barred ∧ (entry 0xA1 .u0 .barred).bar = 0 := by decide +kernel

theorem witness_TheSecondPulseAndTheHoldoverRunOut :
    let h := { live with clock := { live.clock with up := 10, secondEnd := some 10 } }
    let s := inState .holdover { live with servo := { live.servo with holdTimer := 86400 } }
    (h.clock.secondEnd = some 10 ∧ 10 ≤ h.clock.up ∧ (aged 9 h).clock.up < 10 ∧ live.clock.secondEnd = none ∧
      s.servo.st = .holdover ∧ s.servo.expired = false ∧ s.cfg.servo.holdoverLimit ≤ s.servo.holdTimer ∧
      (s.fault .holdoverExpired).active = false ∧ s.log.mem = .inService ∧ s.log.gap = false ∧
      s.log.records.length + 3 ≤ 4096 ∧ live.servo.st ≠ .holdover) ∧
    ∀ k : FaultKind, (s.response k).rank ≤ k.maxResponse.rank := by
  refine ⟨by decide +kernel, fun k => ?_⟩
  cases k <;> decide +kernel

/-- A collector is configured. -/
def collecting : State := { live with cfg := { live.cfg with collIp := 1 } }

theorem witness_AlertsLeaveOncePerHoldoff :
    let full := onPort .u0 (fun u => { u with general := List.replicate 16 ⟨.alert, 42, [], 0⟩ }) collecting
    let held := collecting.setForm .logLevel ⟨some 10, 0⟩
    (held.form .logLevel).holdoff ≠ none ∧ live.cfg.collIp = 0 ∧ (collecting.form .logLevel).holdoff = none ∧
    collecting.cfg.collIp ≠ 0 ∧ (collecting.port .u0).up = true ∧ generalHeld (collecting.port .u0) < 16 ∧
    16 ≤ generalHeld (full.port .u0) ∧ (onPort .u0 (fun u => { u with up := false }) collecting |>.port .u0).up = false ∧
    AlertForm.ofIndex 9 = some .logLevel ∧ (held.form .logLevel).holdoff = some 10 ∧ 10 ≤ (aged 10 held).clock.up ∧
    (aged 9 held).clock.up < 10 := by decide +kernel

theorem witness_ReportsLeaveInTheirSlotsAndPeersFallSilent :
    let s := { verdictState with drift := { verdictState.drift with sched := some ⟨0, 0⟩ } }
    let last := { s with drift := { s.drift with sched := some ⟨0, 31⟩ } }
    let down := onPort .u0 (fun u => { u with up := false }) (onPort .u1 (fun u => { u with up := false }) s)
    let full := onPort .u0 (fun u => { u with timing := List.replicate 8 ⟨.echoAnswer, 14, [], 0⟩ }) s
    let heard := s.setPeer 2 { activePeer (-1200) none none with heardAt := some 0 }
    s.drift.sched = some ⟨0, 0⟩ ∧ s.run = .running ∧ (s.peerCfg 0).enabled = true ∧ (s.peerCfg 0).preferred = .u0 ∧
    (s.port .u0).up = true ∧ timingHeld (s.port .u0) < 8 ∧ 8 ≤ timingHeld (full.port .u0) ∧
    (down.port (down.peerCfg 0).preferred).up = false ∧ (down.port (otherUplink (down.peerCfg 0).preferred)).up = false ∧
    last.drift.sched = some ⟨0, 31⟩ ∧ (last.peerCfg 31).enabled = false ∧
    0 + 31 * (intervalPeriods last.cfg.drift.k / 32) ≤ (aged 242187500 last).clock.up ∧
    (aged 242187499 last).clock.up < 0 + 31 * (intervalPeriods last.cfg.drift.k / 32) ∧
    (heard.peerCfg 2).enabled = true ∧ (heard.peer 2).st = .active ∧ (heard.peer 2).heardAt = some 0 ∧
    0 + 4 * intervalPeriods heard.cfg.drift.k ≤ (aged 1000000000 heard).clock.up ∧ (live.peer 31).st = .unheard := by
  decide +kernel

/-- A report of rack 2 that echoes a send date of (10, 0), received at (10, 60,000), and reports of an unknown rack. -/
def reportOn (rack : Nat) (echoes : Bool) (t1 : SN) : Whole :=
  udpOn .u0 (utxHeader 4 46 5 ++ be 4 rack ++ snBytes ⟨10, 91000⟩ ++ be 1 2 ++ be 1 3 ++ be 8 5 ++
    be 1 (if echoes then 1 else 0) ++ be 1 0 ++ snBytes t1 ++ snBytes ⟨10, 41000⟩)

theorem witness_ReportsLeaveInTheirSlots_report :
    let d := { activePeer (-1200) none none with newer := some ⟨10, 0⟩ }
    let s := (verdictState.setPeer 2 d)
    let wide := { s with cfg := { s.cfg with drift := { s.cfg.drift with roundTrip := 9999 } } }
    let w := reportOn 2 true ⟨10, 0⟩
    let ip := bitsAt 4 w.bytes (w.header - 16)
    let known := fun (rack : BitVec 32) (i : Nat) =>
      (s.peerCfg i).enabled && decide ((s.peerCfg i).ip = ip) && decide ((s.peerCfg i).rack = rack)
    ((List.range 32).filter (known (bitsAt 4 w.utx 12)) = [2] ∧
      (List.range 32).filter (known (bitsAt 4 (reportOn 99 true ⟨10, 0⟩).utx 12)) = []) ∧
    byteAt w.utx 36 = 1 ∧ (s.peer 2).newer = some (snAt w.utx 38) ∧ byteAt (reportOn 2 false ⟨10, 0⟩).utx 36 = 0 ∧
    (s.peer 2).newer ≠ some (snAt (reportOn 2 true ⟨10, 1⟩).utx 38) ∧ (s.peer 2).older = none ∧
    (10000 ≤ s.cfg.drift.roundTrip ∧ wide.cfg.drift.roundTrip < 10000) ∧
    ((reportReceived w s).peer 2).best = some 36000 ∧ ((reportReceived w wide).peer 2).rejected = 1 := by decide +kernel

theorem witness_TheMemoryTestRunsForTwentyMilliseconds :
    let t := after .testLogMemory live
    hasTurn 23 .testLogMemory live = true ∧ live.frozen = none ∧ live.log.records = [] ∧ live.log.mem = .inService ∧
    hasTurn 23 .testLogMemory t = true ∧ t.log.mem = .testing 0 ∧ 0 + 5000000 ≤ (aged 5000000 t).clock.up ∧
    (aged 4999999 t).clock.up < 0 + 5000000 ∧ (holding 1 live).log.records ≠ [] ∧ (holding 1 live).frozen = none := by
  decide +kernel

theorem witness_TheMemoryTest_frozen :
    let f := after .freeze live
    hasTurn 23 .testLogMemory f = true ∧ f.frozen ≠ none ∧ f.log.mem = .inService :=
  ⟨rfl, (fun h => by cases h), rfl⟩

theorem witness_ACommandIsTakenInItsTurnAndGetsOneResult :
    let a := after (.controlFrameTake .d1) withFrame
    commandOf 2 [] = some .readClock ∧ hasTurn 2 .readClock a = false ∧ live.agent.exec = none ∧
    live.agent.resetPending = none ∧ a.agent.exec.isSome = true ∧
    (a.agent.exec.bind (fun e => parseNext e.rest)).isSome = true ∧
    (a.agent.exec.map (fun e => (settleExec e.left e).left)) = some 5 := by decide +kernel

/-- Codes: one that names none, one of a wrong length, a write under READ, a command; ends of the body; a frame that has ended;
and answers kept, and dropped with each reset that waits. -/
theorem witness_ACommandIsTakenInItsTurn_judged :
    let e : Exec := { frame := readFrame, rest := readFrame.body, left := readFrame.count, results := [], ended := false }
    let past : Exec := { e with rest := [], ended := true }
    let waits := fun (k : ResetKind) =>
      onPort .d1 (fun u => { u with up := false }) { live with agent := { live.agent with resetPending := some k } }
    commandLength 99 = none ∧ commandLength 10 = some 9 ∧ commandLength 1 = some 0 ∧ readFrame.privilege = .read ∧
    e.left = 4 + 1 ∧ (parseNext e.rest).isSome = true ∧ past.ended = true ∧ parseNext past.rest = none ∧
    parseNext [(1 : Byte)] = some ⟨1, none, []⟩ ∧
    (live.port readFrame.port).up = true ∧ generalHeld (live.port readFrame.port) < 16 ∧
    ((waits .soft).port readFrame.port).up = false ∧ (waits .soft).agent.resetPending = some .soft ∧
    (waits .full).agent.resetPending = some .full ∧ (waits .softReload).agent.resetPending = some .softReload := by
  decide +kernel

/-- A frame of three commands whose first two results leave no room for the third's data. -/
def tightExec : Exec :=
  { frame := { readFrame with count := 3 }
    rest := [3, 5, 9, 0, 0, 0, 1]
    left := 1
    results := [⟨1, .done, zeros 700⟩, ⟨1, .done, zeros 720⟩]
    ended := false }

/-- A LOG_TAKE that has its turn in a frame whose data leave no room. -/
theorem witness_ReadsChangeNothing_noRoom :
    let e : Exec := { tightExec with
      frame := { tightExec.frame with privilege := .full }, rest := [5, 1, 1]
      results := [⟨1, .done, zeros 700⟩, ⟨1, .done, zeros 743⟩] }
    let full := { live with agent := { live.agent with exec := some e } }
    hasTurn 5 (.logTake 1) full = true ∧ full.log.mem = .inService ∧ dataRoom full = 0 ∧ full.agent.exec = some e ∧
    hasTurn 5 (.logTake 1) { full with log := { full.log with mem := .failed } } = true ∧
    live.agent.exec = none := by decide +kernel

theorem witness_ReadsChangeNothingAndATakeRemovesWhatItReturns :
    let tight := { live with agent := { live.agent with exec := some tightExec } }
    hasTurn 4 .logStatus live = true ∧ (logStatusBlock live).length ≤ dataRoom live ∧
    hasTurn 3 (.readTable 9 30 4) live = true ∧ tableSize 9 = some 32 ∧ (30 : BitVec 16).toNat < 32 ∧ (9 : Byte).toNat < 16 ∧
    8 ≤ dataRoom live ∧ tableSize 200 = none ∧ hasTurn 3 (.readTable 9 32 1) live = true ∧ 32 ≤ (32 : BitVec 16).toNat ∧
    hasTurn 3 (.readTable 9 0 1) tight = true ∧ dataRoom tight < 72 ∧
    hasTurn 3 (.readTable 17 8 1) live = true ∧ tableSize 17 = some 8 ∧ 8 ≤ (8 : BitVec 16).toNat ∧ live.frozen = none ∧
    hasTurn 3 (.readTable 17 7 1) live = true ∧ (7 : BitVec 16).toNat < 8 ∧ 16 ≤ (17 : Byte).toNat ∧
    ¬ ((3 = 3 ∨ 3 = 4) ∧ live.matchTab.armed = true) ∧
    hasTurn 5 (.logTake 0) live = true ∧ hasTurn 5 (.logTake 41) live = true ∧ (41 : Byte) ≠ 0 ∧ live.log.mem = .inService ∧
    0 < dataRoom live ∧ hasTurn 5 (.logTake 1) (after .testLogMemory live) = true ∧
    (after .testLogMemory live).log.mem = .testing 0 ∧ (after .freeze live).frozen ≠ none ∧ (0 : Nat) < 4 := by decide +kernel

theorem witness_TheStandbyBankIsWrittenAndSwapped :
    let armed := after (.swapBanks 1) live
    hasTurn 6 (.writeMatch 63 storageArg) live = true ∧ live.matchTab.armed = false ∧ (63 : Byte).toNat < 64 ∧
    storageArg.action.toNat ≤ 3 ∧ storageArg.vlanKind.toNat ≤ 2 ∧ storageArg.logMode.toNat ≤ 2 ∧
    hasTurn 6 (.writeMatch 64 storageArg) live = true ∧ 63 < (64 : Byte).toNat ∧
    hasTurn 6 (.writeMatch 0 storageArg) armed = true ∧ armed.matchTab.armed = true ∧
    hasTurn 7 .copyBank live = true ∧ hasTurn 7 .copyBank armed = true ∧
    hasTurn 8 (.swapBanks 0) live = true ∧ hasTurn 8 (.swapBanks 1) live = true ∧ hasTurn 8 (.swapBanks 2) live = true := by
  decide +kernel

/-- A port argument for U0 with echo on or off and an exponent. -/
def portArg (echo exponent : Byte) : PortArg := ⟨0, 1, 0, echo, exponent, 10, 0, 0⟩

theorem witness_PortLaneAndOverrideRecordsAreWrittenWhole :
    let off := { asking with cfg := { asking.cfg with ports := asking.cfg.ports.set .u0 { PortRec.default with echoOn := false } } }
    hasTurn 9 (.writePort (portArg 1 0xFE)) asking = true ∧ (asking.cfg.ports.get .u0).echoOn = true ∧
    (asking.cfg.ports.get .u0).k = max (-4) (min 3 (portArg 1 0xFE).exponent.toInt) ∧
    (asking.cfg.ports.get .u0).k ≠ max (-4) (min 3 (portArg 1 3).exponent.toInt) ∧ (asking.port .u0).up = true ∧
    hasTurn 9 (.writePort (portArg 0 0xFE)) asking = true ∧ hasTurn 9 (.writePort (portArg 1 0xFE)) off = true ∧
    (off.cfg.ports.get .u0).echoOn = false ∧ [Port.u0, .u1, .d0, .d1][(portArg 1 3).port.toNat]? = some .u0 ∧
    [Privilege.none, .read, .full][(portArg 1 3).privilege.toNat]? = some .read ∧
    hasTurn 9 (.writePort { portArg 1 3 with port := 4 }) asking = true ∧ 3 < ({ portArg 1 3 with port := 4 } : PortArg).port.toNat ∧
    hasTurn 10 (.writeLane ⟨1, 1, 0xFD, 3⟩) live = true ∧ hasTurn 10 (.writeLane ⟨2, 1, 0xFD, 3⟩) live = true ∧
    [Lane.a, .b][(1 : Byte).toNat]? = some .b ∧ [Mode.boundary, .transit][(1 : Byte).toNat]? = some .transit ∧
    hasTurn 11 (.writeOverride ⟨3, 1, 5, 0, 1⟩) live = true ∧ hasTurn 11 (.writeOverride ⟨4, 1, 5, 0, 1⟩) live = true ∧
    (3 : Byte).toNat < 4 := by decide +kernel

theorem witness_PeerEntriesAreWrittenAndCleared :
    let a : PeerArg := ⟨31, 1, 77, 5, 1⟩
    let s := after (.writePeer a) live
    hasTurn 12 (.writePeer a) live = true ∧ a.index.toNat ≤ 31 ∧ [Port.u0, .u1][a.preferred.toNat]? = some .u1 ∧
    (∀ j : Fin 32, (live.peerCfg j).enabled = false) ∧ (live.peerCfg 31).rack ≠ a.rack ∧
    hasTurn 12 (.writePeer a) s = true ∧ (s.peerCfg 31).rack = a.rack ∧ (s.peerCfg 31).ip = a.ip ∧
    (s.peerCfg 31).enabled = true ∧ hasTurn 12 (.writePeer { a with enabled := 0 }) s = true ∧
    hasTurn 12 (.writePeer { a with index := 0 }) s = true ∧ (0 : Nat) ≠ 31 ∧
    hasTurn 12 (.writePeer { a with index := 32 }) live = true ∧ hasTurn 13 (.clearPeer 31) s = true ∧
    hasTurn 13 (.clearPeer 32) s = true ∧ hasTurn 12 (.writePeer { a with rack := 78, enabled := 0 }) s = true ∧
    (s.peerCfg 31).rack ≠ 78 := by decide +kernel

theorem witness_ParametersAreWrittenAndActAtOnce :
    let a : ServoArg := ⟨1000, 5000, 8, 4, 1, 4, 200, 10, 3600, 100, 4⟩
    let held := inState .holdover { live with servo := { live.servo with holdTimer := 3600 } }
    let expired := inState .holdover { live with servo := { live.servo with holdTimer := 9, expired := true } }
    let raised := raiseFault .selfDrift .self true .nothing live
    hasTurn 14 (.writeServo a) live = true ∧ live.servo.catchDown = false ∧ live.servo.st ≠ .holdover ∧
    hasTurn 14 (.writeServo a) { live with servo := { live.servo with catchDown := true } } = true ∧
    hasTurn 14 (.writeServo { a with catchRate := 500 }) live = true ∧ 500 ≠ live.cfg.servo.catchRate ∧
    held.servo.st = .holdover ∧ held.servo.expired = false ∧
    max 10 (min 86400 a.holdoverLimit.toNat) ≤ held.servo.holdTimer ∧ expired.servo.expired = true ∧
    expired.servo.holdTimer < max 10 (min 86400 a.holdoverLimit.toNat) ∧
    hasTurn 15 (.writeDrift ⟨600, 0, 200000, 5000, 200, 3, 1, 10, 3072⟩) live = true ∧
    hasTurn 16 (.writeFault 9 0) live = true ∧ 8 < (9 : Byte).toNat ∧ hasTurn 16 (.writeFault 3 3) live = true ∧
    FaultKind.ofIndex (3 : Byte).toNat = some .selfDrift ∧
    [Response.note, .alert, .demote, .hold][(3 : Byte).toNat]? = some .hold ∧ (live.fault .selfDrift).active = false ∧
    (raised.fault .selfDrift).active = true ∧ hasTurn 16 (.writeFault 3 3) raised = true ∧ raised.hold = false ∧
    ({ raised with cfg := { raised.cfg with responses := raised.cfg.responses.set 3 .hold } } : State).hold = true ∧
    (∀ k ∈ faultKinds, (held.response k).rank ≤ k.maxResponse.rank) := by
  decide +kernel

/-- Room in the log for both records of a holdover that expires or is within its limit again, its fault not active or active; F
beyond the new plausibility limit in a state where r follows it, and in one where it does not; and catch-down with a new rate. -/
theorem witness_ParametersAreWrittenAndActAtOnce_records :
    let a : ServoArg := ⟨1000, 5000, 8, 4, 1, 4, 500, 10, 3600, 100, 2⟩
    let held := inState .holdover { live with servo := { live.servo with holdTimer := 3600 } }
    let expired := raiseFault .holdoverExpired .self true .nothing
      (inState .holdover { live with servo := { live.servo with holdTimer := 9, expired := true } })
    let fast := { live with servo := { live.servo with f := 20000000 } }
    let down := inState .acquiring { fast with servo := { fast.servo with catchDown := true } }
    let roomy := fun (s : State) => s.log.mem = .inService ∧ s.log.gap = false ∧ s.log.records.length + 3 ≤ 4096
    hasTurn 14 (.writeServo a) held = true ∧ (held.fault .holdoverExpired).active = false ∧ roomy held ∧
    hasTurn 14 (.writeServo a) expired = true ∧ (expired.fault .holdoverExpired).active = true ∧ roomy expired ∧
    (∀ k ∈ faultKinds, (expired.response k).rank ≤ k.maxResponse.rank) ∧
    hasTurn 14 (.writeServo a) fast = true ∧ fast.servo.st = .unset ∧ fast.servo.catchDown = false ∧
    max (-(10 * 1024000)) (min (10 * 1024000) fast.servo.f) ≠ fast.servo.f ∧ (inState .locked fast).servo.catchDown = false ∧
    hasTurn 14 (.writeServo a) down = true ∧ down.servo.catchDown = true ∧ 500 ≠ down.cfg.servo.catchRate ∧
    2 < down.engineClass := by
  decide +kernel

/-- A holdover that the new limit neither expires nor ends the expiry of: unexpired below it, and expired at it. -/
theorem witness_ParametersAreWrittenAndActAtOnce_holdover :
    let a : ServoArg := ⟨1000, 5000, 8, 4, 1, 4, 200, 10, 3600, 100, 4⟩
    let held := fun (timer : Nat) (expired : Bool) =>
      inState .holdover { live with servo := { live.servo with holdTimer := timer, expired := expired } }
    let limit := max 10 (min 86400 a.holdoverLimit.toNat)
    hasTurn 14 (.writeServo a) (held 3599 false) = true ∧ (held 3599 false).servo.st = .holdover ∧
    ((held 3599 false).servo.expired = true ↔ limit ≤ (held 3599 false).servo.holdTimer) ∧
    hasTurn 14 (.writeServo a) (held 3600 true) = true ∧ (held 3600 true).servo.st = .holdover ∧
    ((held 3600 true).servo.expired = true ↔ limit ≤ (held 3600 true).servo.holdTimer) := by
  decide +kernel

/-- A reload that raises the floor to 4 and the class limit from 3 to 4 keeps a pulse that runs, and one that leaves the limit
at 3 ends it (R13, R20, log 48). -/
theorem test_reload_judges_the_pulse_once :
    let s := setServoState .acquiring (raiseFault .peerDrift .self true .nothing { live with
      cfg := { live.cfg with secLimit := 3, responses := live.cfg.responses.set 4 .alert } })
    let s := { s with clock := { s.clock with secondEnd := some 5 } }
    let pulse := fun (limit : Nat) =>
      (applyReload { s.cfg with secLimit := limit, responses := s.cfg.responses.set 4 .demote } defaultBank s).clock.secondEnd
    s.engineClass = 3 ∧ pulse 4 = some 5 ∧ pulse 3 = none := by decide +kernel

theorem witness_SetDateAndSetTrimByTheServoState :
    let s := dated ⟨12, 300, 5⟩ (inState .freerun live)
    hasTurn 17 (.setDate 3 0) live = true ∧ live.servo.st = .unset ∧ hasTurn 17 (.setDate 3 0) s = true ∧
    s.servo.st = .freerun ∧ 3 * 1000000000 + 0 < s.clock.date.ns ∧ hasTurn 17 (.setDate 12 300) s = true ∧
    12 * 1000000000 + 300 = s.clock.date.ns ∧ hasTurn 17 (.setDate 12 301) s = true ∧
    s.clock.date.ns < 12 * 1000000000 + 301 ∧ hasTurn 17 (.setDate 3 0) (inState .locked live) = true ∧
    (inState .locked live).servo.st ≠ .unset ∧ (inState .locked live).servo.st ≠ .freerun ∧
    hasTurn 18 (.setTrim 5) live = true ∧ hasTurn 18 (.setTrim 5) (inState .locked live) = true := by decide +kernel

theorem witness_FreezeAndRelease :
    hasTurn 21 .freeze live = true ∧ live.frozen = none ∧ hasTurn 22 .release live = true ∧
    hasTurn 22 .release (after .freeze live) = true ∧ (after .freeze live).frozen ≠ none :=
  ⟨rfl, rfl, rfl, rfl, fun h => by cases h⟩

theorem witness_ARecordIsWrittenOrMissed :
    let gap := holding 3 { live with log := { live.log with gap := true, missed := 4 } }
    live.log.mem = .inService ∧ live.log.records.length + 2 ≤ 4096 ∧ live.log.gap = false ∧ live.log.noticeSent = false ∧
    gap.log.mem = .inService ∧ gap.log.records.length + 2 ≤ 4096 ∧ gap.log.gap = true ∧
    ({ live with log := { live.log with mem := .failed } } : State).log.mem ≠ .inService ∧
    (live.fault .logFull).active = live.log.gap := by decide +kernel

theorem witness_FaultsAreRaisedAndCleared :
    let s := raiseFault .memoryFault .self true .nothing live
    FaultKind.memoryFault ≠ .logFull ∧ (live.fault .memoryFault).active = false ∧ (s.fault .memoryFault).active = true ∧
    2 ≤ (live.response .freqImplausible).rank ∧ live.log.mem = .inService ∧ live.log.gap = false ∧
    live.log.records.length + 2 ≤ 4096 ∧ hasTurn 19 (.clearFlags 0xFFF) s = true ∧ FaultKind.memoryFault.isEdge = true := by
  decide +kernel

/-- A mask of no active edge fault, and an active FREQ_IMPLAUSIBLE whose response is not HOLD. -/
theorem witness_FaultsAreRaisedAndCleared_clear :
    let s := raiseFault .freqImplausible .self true .nothing
      { live with cfg := { live.cfg with responses := live.cfg.responses.set 2 .alert } }
    (∀ k ∈ faultKinds, k.isEdge = true → (0xFF8 : BitVec 32).getLsbD k.ix.val = true → (live.fault k).active = false) ∧
    (0xFFF : BitVec 32).getLsbD 2 = true ∧ (s.fault .freqImplausible).active = true ∧
    s.response .freqImplausible ≠ .hold ∧ hasTurn 19 (.clearFlags 0xFFF) s = true ∧
    FaultKind.sourceLost.isEdge = false := by decide +kernel

/-- The floor and the classes: an active DEMOTE fault, an active HOLD fault and neither; each Servo state, LOCKED with a selected
entry and none below it; an inactive fault whose response is NOTE and one above it. -/
theorem witness_FaultsAreRaisedAndCleared_class :
    let demoted := raiseFault .selfDrift .self true .nothing live
    let held := raiseFault .freqImplausible .self true .nothing live
    ((demoted.fault .selfDrift).active = true ∧ demoted.response .selfDrift = .demote ∧ demoted.hold = false ∧
      demoted.floor = 4) ∧
    ((held.fault .freqImplausible).active = true ∧ held.response .freqImplausible = .hold ∧ held.hold = true) ∧
    (∀ k ∈ faultKinds, (live.fault k).active = false) ∧ live.floor = 0 ∧ live.servo.st = .unset ∧
    (storing.servo.st = .locked ∧ storing.source 0 = some { entry 0xA1 .u0 .selected with cls := 1 } ∧
      storing.servoClass = 2) ∧
    (inState .freerun live).engineClass = 5 ∧ (inState .acquiring live).engineClass = 3 ∧
    (inState .holdover live).engineClass = 3 ∧
    live.response .logFull = .alert ∧ live.response .linkDown = .note := by decide +kernel

/-! ### One entry in the Source Table -/

theorem source_of_one (i j : Nat) (e : SourceEntry) (h : i < 8) :
    (withSource i e live).source j = if j = i then some e else none := by
  have hl : ∀ j, live.source j = none := fun j => by
    simp only [State.source, live, running, State.reset, Vector.getElem?_replicate]
    split <;> rfl
  by_cases hj : j = i
  · subst hj
    simp [withSource, State.setSource, State.source, State.setSources, Vector.getElem?_setIfInBounds, h]
  · have := hl j
    simp only [withSource, State.setSource, State.source, State.setSources, Vector.getElem?_setIfInBounds] at this ⊢
    rw [if_neg (fun x => hj x.symm), this, if_neg hj]

theorem selected_of_one (i j : Nat) (e : SourceEntry) (h : i < 8) (hs : e.st ≠ .selected) :
    (withSource i e live).isSelected j = false := by
  unfold State.isSelected
  rw [source_of_one i j e h]
  split
  · rename_i x hx
    split at hx
    · cases hx; simp [hs]
    · cases hx
  · rfl

theorem witness_TheSelectionFollowsTheRank :
    let e := entry 0xA1 .u0 .candidate
    SourcesOk (withSource 3 e live) ∧ bestSource (withSource 3 e live) = some (3, e) := by
  refine ⟨⟨?_, ?_, ?_, ?_, ?_⟩, by decide +kernel⟩
  · intro i j a b hi _ ha
    rw [source_of_one 3 _ _ (by decide)] at hi
    split at hi
    · cases hi; cases ha
    · cases hi
  · intro i a hi ha
    rw [source_of_one 3 _ _ (by decide)] at hi
    split at hi
    · cases hi; cases ha
    · cases hi
  · intro i j a b hi hj _ _
    rw [source_of_one 3 _ _ (by decide)] at hi hj
    split at hi <;> split at hj <;> simp_all
  · intro i a hi
    rw [source_of_one 3 _ _ (by decide)] at hi
    split at hi
    · cases hi; rfl
    · cases hi
  · constructor
    · rintro ⟨i, a, hi, ha⟩
      rw [source_of_one 3 _ _ (by decide)] at hi
      split at hi
      · cases hi; cases ha
      · cases hi
    · intro h
      rcases h with h | h <;> cases h

/-- The clauses of a re-evaluation: the selected entry stays; a better class takes its place; it is no longer selectable and
another is; nothing is selectable. -/
theorem witness_TheSelectionFollowsTheRank_reevaluation :
    let one := withSource 0 (entry 0xA1 .u0 .selected) live
    let two := withSource 1 { entry 0xA2 .u1 .candidate with cls := 1 } one
    let other := withSource 1 (entry 0xA2 .u1 .candidate) (withSource 0 (entry 0xA1 .u0 .stale) live)
    let gone := withSource 0 (entry 0xA1 .u0 .stale) live
    (one.source 0 = some (entry 0xA1 .u0 .selected) ∧ selectable one (entry 0xA1 .u0 .selected) = true ∧
      bestSource one = some (0, entry 0xA1 .u0 .selected)) ∧
    (selectable two (entry 0xA1 .u0 .selected) = true ∧ bestSource two = some (1, { entry 0xA2 .u1 .candidate with cls := 1 })) ∧
    (other.source 0 = some (entry 0xA1 .u0 .stale) ∧ bestSource other = some (1, entry 0xA2 .u1 .candidate)) ∧
    (gone.source 0 = some (entry 0xA1 .u0 .stale) ∧ bestSource gone = none) ∧ bestSource live = none := by decide +kernel

/-- The record and the leaving entry: room in the log; an entry still SELECTED that is no longer selectable by its class, with
another in its place; a BARRED one; and the Servo in UNSET as its own beacon's entry is selected, and otherwise. -/
theorem witness_TheSelectionFollowsTheRank_record :
    let worse := { entry 0xA1 .u0 .selected with cls := 5 }
    let other := withSource 1 (entry 0xA2 .u1 .candidate) (withSource 0 worse live)
    let first := withSource 3 (entry 0xA1 .u0 .candidate) live
    other.log.mem = .inService ∧ other.log.gap = false ∧ other.log.records.length + 2 ≤ 4096 ∧
    (other.source 0 = some worse ∧ worse.st = .selected ∧ selectable other worse = false ∧
      bestSource other = some (1, entry 0xA2 .u1 .candidate)) ∧
    ((withSource 0 (entry 0xA1 .u0 .barred) live).source 0 = some (entry 0xA1 .u0 .barred)) ∧
    (first.servo.st = .unset ∧ bestSource first = some (3, entry 0xA1 .u0 .candidate)) ∧
    ((inState .acquiring first).servo.st ≠ .unset ∧
      bestSource (inState .acquiring first) = some (3, entry 0xA1 .u0 .candidate)) := by decide +kernel

/-- What the Servo does: an entry in the place of another from ACQUIRING and from LOCKED, with room for the records, SOURCE_LOST
active and not, a class limit that ends a pulse and one that keeps it; the end of a selection in LOCKED and in UNSET; and the
first of none: waiting in UNSET, from FREERUN, and from an expired HOLDOVER. -/
theorem witness_TheSelectionFollowsTheRank_servo :
    let two := withSource 1 { entry 0xA2 .u1 .candidate with cls := 1 } (withSource 0 (entry 0xA1 .u0 .selected) live)
    let strict := { two with cfg := { two.cfg with secLimit := 2 } }
    let gone := withSource 0 (entry 0xA1 .u0 .stale) live
    let first := withSource 3 (entry 0xA1 .u0 .candidate) live
    let lost := raiseFault .sourceLost (.port .u0) true .nothing
    let expired := raiseFault .holdoverExpired .self true .nothing
      (inState .holdover { first with servo := { first.servo with expired := true } })
    let roomy := fun (s : State) => s.log.mem = .inService ∧ s.log.gap = false ∧ s.log.records.length + 5 ≤ 4096
    ((inState .acquiring two).servo.st = .acquiring ∧ roomy (inState .acquiring two) ∧
      bestSource (inState .acquiring two) = some (1, { entry 0xA2 .u1 .candidate with cls := 1 }) ∧
      ((inState .acquiring two).fault .sourceLost).active = false ∧ 4 ≤ two.cfg.secLimit) ∧
    ((lost (inState .locked strict)).servo.st = .locked ∧ roomy (lost (inState .locked strict)) ∧
      bestSource (lost (inState .locked strict)) = some (1, { entry 0xA2 .u1 .candidate with cls := 1 }) ∧
      ((lost (inState .locked strict)).fault .sourceLost).active = true ∧ strict.cfg.secLimit < max 3 strict.floor) ∧
    ((inState .locked gone).servo.st = .locked ∧ bestSource (inState .locked gone) = none ∧ roomy (inState .locked gone) ∧
      gone.servo.st = .unset ∧ bestSource gone = none ∧ roomy (lost gone)) ∧
    (first.servo.st = .unset ∧ (some 3 : Option Nat) = some 3 ∧ roomy first ∧ (inState .freerun first).servo.st = .freerun ∧
      roomy (inState .freerun first)) ∧
    (expired.servo.st = .holdover ∧ bestSource expired = some (3, entry 0xA1 .u0 .candidate) ∧
      (expired.fault .holdoverExpired).active = true ∧ roomy expired) := by decide +kernel

theorem witness_TheSelectionFollowsTheRank_none :
    ∀ j, j ≠ 0 → (withSource 0 (entry 0xA1 .u0 .stale) live).isSelected j = false :=
  fun j _ => selected_of_one 0 j _ (by decide) (by decide)

theorem witness_ASampleIsJudgedByItsOffset :
    let s := inState .locked live
    let theta := fun (x : ServoSample) => max (-999999999) (min 999999999 (thetaRounded x))
    let down := { s with servo := { s.servo with catchDown := true } }
    s.servo.st = .locked ∧ (-(s.cfg.servo.stepThreshold : Int) ≤ theta sample800 ∧ theta sample800 ≤ s.cfg.servo.stepThreshold) ∧
    theta (sampleOfTheta 100001 false false) < -(s.cfg.servo.stepThreshold : Int) ∧ s.servo.catchDown = false ∧
    (s.cfg.servo.stepThreshold : Int) < theta (sampleOfTheta 100001 true false) ∧ down.servo.catchDown = true ∧
    -(s.cfg.servo.stepThreshold : Int) ≤ theta (sampleOfTheta 100000 false false) ∧
    theta (sampleOfTheta 100000 true false) ≤ (s.cfg.servo.stepThreshold : Int) := by decide +kernel

/-- The counters of lock and unlock below and at their counts, by a θ within and beyond the window; a sample in UNSET of a date
within the range, below and beyond it. -/
theorem witness_ASampleIsJudgedByItsOffset_lock :
    let a := inState .acquiring live
    let l := inState .locked live
    let near := { a with servo := { a.servo with lockCtr := 31 } }
    let far := { l with servo := { l.servo with unlockCtr := 31 } }
    ((((0 : Int).natAbs : Int) ≤ a.cfg.servo.lockWindow ∧ ¬ ((((999999999 : Int).natAbs : Int)) ≤ a.cfg.servo.lockWindow)) ∧
      min 32 (a.servo.lockCtr + 1) < a.cfg.servo.lockCount ∧ a.cfg.servo.lockCount ≤ min 32 (near.servo.lockCtr + 1) ∧
      min 32 (l.servo.unlockCtr + 1) < l.cfg.servo.unlockCount ∧ l.cfg.servo.unlockCount ≤ min 32 (far.servo.unlockCtr + 1)) ∧
    live.servo.st = .unset ∧ DateOk live.clock.date ∧ (live.clock.date.ns : Int) - thetaRounded (sampleOfTheta 5 true false) < 0 ∧
    0 ≤ (live.clock.date.ns : Int) - thetaRounded (sampleOfTheta 5 false false) ∧
    (live.clock.date.ns : Int) - thetaRounded (sampleOfTheta 5 false false) < 281474976710656 * 1000000000 ∧
    281474976710656 * 1000000000 ≤ ((dated ⟨281474976710655, 999999999, 0⟩ live).clock.date.ns : Int) -
      thetaRounded (sampleOfTheta 5 false false) := by
  refine ⟨by decide +kernel, rfl, ⟨by decide, by decide, by decide⟩, by decide +kernel, by decide +kernel, by decide +kernel,
    by decide +kernel⟩

/-- The integral stays, and with F at the limit and θ of -800 ns at k = -3 it would pass it. -/
theorem witness_TheFilterSetsIntegralAndRate :
    let limit : Int := live.cfg.servo.plausibility * 1024000
    (-4 : Int) ≤ -3 ∧ (-3 : Int) ≤ 1 ∧ -limit ≤ integralNew live (errorRate 800 (-3)) ∧
    integralNew live (errorRate 800 (-3)) ≤ limit ∧
    limit < integralNew { live with servo := { live.servo with f := limit } } (errorRate (-800) (-3)) := by decide +kernel

theorem witness_TheVerdictIsThatOfTheMajority :
    let s := verdictState
    let p := s.cfg.drift
    let full := votes s p.offsetThreshold p.driftThreshold
    let set := { s with drift := { s.drift with episode := some ⟨.offset, true⟩ } }
    let quiet := (set.drift.peers.set 0 (activePeer 0 none none)).set 1 (activePeer 0 none none)
    let calm := { set with drift := { set.drift with peers := quiet } }
    let half := votes calm (p.offsetThreshold / 2) (p.driftThreshold / 2)
    s.drift.episode = none ∧ p.quorum ≤ full.n ∧ full.n < 2 * full.behindOffset ∧ ([1, 2] : List Int) ≠ [] ∧
    ¬ (live.cfg.drift.quorum ≤ (votes live 5000 200).n) ∧ live.drift.episode = none ∧ set.drift.episode ≠ none ∧
    p.quorum ≤ half.n ∧ ¬ (half.n < 2 * half.behindOffset ∨ half.n < 2 * half.aheadOffset ∨ half.n < 2 * half.behindDrift ∨
      half.n < 2 * half.aheadDrift) ∧ full.n < 2 * (votes set (p.offsetThreshold / 2) 100).behindOffset ∧
    (∀ i : Fin 5, (s.peer i).best ≠ none) ∧ 0 < p.barTime ∧ s.servo.st = .locked ∧ p.barOn = true ∧
    s.selectedPair = some (0, entry 0xA2 .u0 .selected) ∧ calm.drift.episode = some ⟨.offset, true⟩ := by decide +kernel

/-- A warned peer within and beyond half the thresholds, and one not warned beyond the offset, beyond the drift and beyond
neither, with SELF_DRIFT set and clear. -/
theorem witness_TheVerdictIsThatOfTheMajority_peer :
    let s := verdictState
    let p := s.cfg.drift
    let set := { s with drift := { s.drift with episode := some ⟨.offset, true⟩ } }
    let calm := s.setPeer 1 (activePeer 2100 (some 40) (some .offset))
    let swift := s.setPeer 3 (activePeer 10 (some (-1000)) none)
    ((calm.peer 1).warned = some .offset ∧ ((calm.peer 1).best.getD 0).natAbs ≤ p.offsetThreshold / 2 ∧
      (calm.peer 1).drift = some 40 ∧ (40 : Int).natAbs ≤ p.driftThreshold / 2) ∧
    ((s.peer 1).warned = some .offset ∧ p.offsetThreshold / 2 < ((s.peer 1).best.getD 0).natAbs) ∧
    ((s.peer 3).warned = none ∧ set.drift.episode ≠ none ∧ s.drift.episode = none ∧
      p.offsetThreshold < ((s.peer 3).best.getD 0).natAbs) ∧
    ((swift.peer 3).warned = none ∧ ((swift.peer 3).best.getD 0).natAbs ≤ p.offsetThreshold ∧
      (swift.peer 3).drift = some (-1000) ∧ p.driftThreshold < (-1000 : Int).natAbs) ∧
    ((s.peer 4).warned = none ∧ ((s.peer 4).best.getD 0).natAbs ≤ p.offsetThreshold ∧ (s.peer 4).drift = some 10 ∧
      (10 : Int).natAbs ≤ p.driftThreshold) := by decide +kernel

end Sys2Proof.Tests
end

section
/-! The stamp allocator: what a claim issues after each last issued date, and that the storage mark's claim remembers it
(R16). -/

namespace Sys2Proof.Machine

/-! ### Dates as nanoseconds -/

@[simp] theorem ns_snOfNs (t : Nat) : (snOfNs t).ns = t := Nat.div_add_mod' t Config.nsPerSec

/-- Within the range of a date, the number of nanoseconds tells the maximum even date from every other candidate. -/
theorem candidateOf_eq_maxEven {d : Date} (hd : DateOk d) (h : maxEven.ns ≤ (candidateOf d).ns) :
    candidateOf d = maxEven := by
  obtain ⟨hs, hn, -⟩ := hd
  simp only [candidateOf, maxEven, SN.ns, Config.nsPerSec, Config.maxS] at h
  simp only [candidateOf, maxEven, SN.mk.injEq, Config.maxS]
  omega

/-! ### The issued date, case by case of the last issued one -/

@[simp] theorem issueDate_none (d : Date) : issueDate none d = candidateOf d := rfl

theorem issueDate_some_of_ne {l : SN} (hl : l ≠ maxEven) (d : Date) :
    issueDate (some l) d = if (candidateOf d).ns < l.ns + 2 then snOfNs (l.ns + 2) else candidateOf d := by
  simp only [issueDate, if_neg hl, ns_snOfNs]

theorem issueDate_maxEven {d : Date} (hd : DateOk d) : issueDate (some maxEven) d = maxEven := by
  simp only [issueDate, if_true]
  split
  case isTrue => rfl
  case isFalse h => exact candidateOf_eq_maxEven hd (Nat.le_of_not_lt h)

/-- Below the maximum even date a claim rises by at least 2 ns, to no earlier than its candidate, and to nothing later than
one of the two. -/
theorem issueDate_rises {l : SN} (hl : l ≠ maxEven) (d : Date) :
    l.ns + 2 ≤ (issueDate (some l) d).ns ∧ (candidateOf d).ns ≤ (issueDate (some l) d).ns ∧
      ((issueDate (some l) d).ns = l.ns + 2 ∨ issueDate (some l) d = candidateOf d) := by
  rw [issueDate_some_of_ne hl]
  split
  case isTrue h => simpa using h.le
  case isFalse h => exact ⟨Nat.le_of_not_lt h, le_rfl, .inr rfl⟩

/-! ### The claim of a storage mark -/

/-- Beyond remembering the issued date, the claim's context and freeze keep the anchor. -/
theorem anchor_openMark (p : Port) (index : Nat) (e : MatchEntry) (ingress : Date) (s : State) :
    (openMark p index e ingress s).anchor = (rememberStamp (issueDate s.clock.lastStamp ingress) s).anchor := by
  simp only [openMark]
  split
  case isTrue => rw [anchor_freezeTrigger, anchor_setPort]
  case isFalse => rw [anchor_setPort]

theorem lastStamp_openMark (p : Port) (index : Nat) (e : MatchEntry) (ingress : Date) (s : State) :
    (openMark p index e ingress s).clock.lastStamp = some (issueDate s.clock.lastStamp ingress) :=
  anchor_lastStamp (anchor_openMark p index e ingress s)

/-- Settles O19, by the cases of the last issued date: none, below the maximum even date, and that date itself. -/
theorem theAllocatorIssuesRisingEvenDates : Obligations.TheAllocatorIssuesRisingEvenDates := by
  refine ⟨fun last ingress hd hlast => ⟨issue_ok last ingress hd hlast, ?empty, ?below, ?atMaximum⟩, lastStamp_openMark⟩
  case empty =>
    rintro rfl
    exact issueDate_none ingress
  case below =>
    rintro l rfl hne
    exact issueDate_rises hne ingress
  case atMaximum =>
    rintro l rfl rfl
    exact issueDate_maxEven hd

end Sys2Proof.Machine
end

section
/-! SET_DATE and SET_TRIM by the state of the Servo (R78, R79): the two commands where they have their turn, FREERUN's class
and what entering it does, and one equation for each outcome. -/

namespace Sys2Proof.Machine

/-! ### The two commands in their turn -/

theorem runCommand_of_hasTurn {code : Nat} {i : Instr} {s : State} (h : hasTurn code i s = true) (m : Meaning) :
    runCommand code i m s = deliver code (m (dataRoom s) s) := if_pos h

theorem exec_setDate {sec : BitVec 48} {nano : BitVec 32} {s : State} (h : hasTurn 17 (.setDate sec nano) s = true) :
    exec (.setDate sec nano) s = .next (deliver 17
      ((setDateTo ⟨sec.toNat, nano.toNat⟩ s).1, (setDateTo ⟨sec.toNat, nano.toNat⟩ s).2, [])) :=
  congrArg Host.Outcome.next (runCommand_of_hasTurn h _)

theorem exec_setTrim {f : BitVec 32} {s : State} (h : hasTurn 18 (.setTrim f) s = true) :
    exec (.setTrim f) s = .next (deliver 18 ((setTrimTo f.toInt s).1, (setTrimTo f.toInt s).2, [])) :=
  congrArg Host.Outcome.next (runCommand_of_hasTurn h _)

/-! ### The answer to a value limited or not -/

theorem doneOr_decide_lt (limit n : Nat) : doneOr (decide (limit < n)) = if n ≤ limit then .done else .clamped := by
  by_cases h : n ≤ limit
  · simp [doneOr, h]
  · simp [doneOr, h, Nat.lt_of_not_le h]

theorem doneOr_bne (v f : Int) : doneOr (v != f) = if v = f then .done else .clamped := by
  by_cases h : v = f <;> simp [doneOr, h]

/-! ### FREERUN -/

/-- No floor reaches FREERUN's own class (R81). -/
theorem engineClass_freerun {s : State} (h : s.servo.st = .freerun) : s.engineClass = 5 := by
  have hc : s.servoClass = 5 := by rw [State.servoClass, h]
  rw [State.engineClass, hc]
  exact max_eq_left ((floor_le s).trans (by decide))

theorem setServoState_freerun (s : State) :
    setServoState .freerun s = { s with
      clock := { s.clock with secondEnd := if s.cfg.secLimit < 5 then none else s.clock.secondEnd }
      servo := { s.servo with st := .freerun } } := by
  rw [setServoState, watchSecond, engineClass_freerun rfl, State.setServo_cfg]
  split <;> rfl

theorem offerState_freerun (old : ServoState) {s : State} (h : s.servo.st = .freerun) :
    offerState old s = offerRecord (.plain none (.state old .freerun 5)) s := by
  rw [offerState, engineClass_freerun h, h]

theorem load_unset (d : Date) {s : State} (h : s.servo.st = .unset) : load d s = s.setClock { s.clock with date := d } :=
  if_pos h

/-- A forward step is one step for the epoch, however far it goes (R8). -/
theorem epoch_forwardStep (amount : Nat) (s : State) :
    (forwardStep amount s).clock.epoch = (s.clock.epoch + 1) % 65536 := by
  rw [forwardStep, stepTo]
  split
  · exact anchor_epoch (anchor_secondBoundary _)
  · rfl

/-! ### SET_DATE, outcome by outcome -/

/-- A date with its N limited (R78). -/
def limitedDate (d : SN) : SN := ⟨d.s, min d.n 999999999⟩

theorem ns_limitedDate (s n : Nat) : (limitedDate ⟨s, n⟩).ns = s * 1000000000 + min n 999999999 := rfl

/-- The answer to a SET_DATE that is taken (R78). -/
def limitedStatus (d : SN) : Status := if d.n ≤ 999999999 then .done else .clamped

theorem setDateTo_unset (d : SN) {s : State} (h : s.servo.st = .unset) :
    setDateTo d s = (offerRecord (.plain none (.state .unset .freerun 5)) { s with
      clock := { s.clock with
        date := ⟨d.s, min d.n 999999999, 0⟩
        secondEnd := if s.cfg.secLimit < 5 then none else s.clock.secondEnd }
      servo := { s.servo with st := .freerun } }, limitedStatus d) := by
  simp only [setDateTo, h, load_unset _ h, setServoState_freerun, doneOr_decide_lt]
  rw [offerState_freerun _ rfl]
  rfl

theorem setDateTo_freerun_of_lt {d : SN} {s : State} (h : s.servo.st = .freerun) (hd : (limitedDate d).ns < s.clock.date.ns) :
    setDateTo d s = (s, .backward) := by
  simp only [setDateTo, h]
  exact if_pos hd

theorem setDateTo_freerun_of_eq {d : SN} {s : State} (h : s.servo.st = .freerun) (hd : (limitedDate d).ns = s.clock.date.ns) :
    setDateTo d s = (s, limitedStatus d) := by
  simp only [setDateTo, h, doneOr_decide_lt]
  exact (if_neg hd.not_lt).trans (if_pos hd)

theorem setDateTo_freerun_of_gt {d : SN} {s : State} (h : s.servo.st = .freerun) (hd : s.clock.date.ns < (limitedDate d).ns) :
    setDateTo d s =
      (offerRecord (.plain none
          (.step (((limitedDate d).ns - s.clock.date.ns : Nat) : Int) ((s.clock.epoch + 1) % 65536)))
        (forwardStep ((limitedDate d).ns - s.clock.date.ns) s), limitedStatus d) := by
  simp only [setDateTo, h, doneOr_decide_lt, epoch_forwardStep]
  exact (if_neg hd.not_gt).trans (if_neg hd.ne')

theorem setDateTo_refused (d : SN) {s : State} (hu : s.servo.st ≠ .unset) (hf : s.servo.st ≠ .freerun) :
    setDateTo d s = (s, .state) := by
  cases h : s.servo.st with
  | unset => exact absurd h hu
  | freerun => exact absurd h hf
  | acquiring | locked | holdover => simp only [setDateTo, h]

/-! ### SET_TRIM, taken or refused -/

theorem setTrimTo_taken (f : Int) {s : State} (h : s.servo.st = .unset ∨ s.servo.st = .freerun) :
    setTrimTo f s =
      let v := clampInt (-plausibleUnits s) (plausibleUnits s) f
      (handRate v { s with cfg := { s.cfg with trim := v }, servo := { s.servo with f := v } },
        if v = f then .done else .clamped) := by
  simp only [setTrimTo, doneOr_bne]
  split
  next => rfl
  next => rfl
  all_goals next other => exact absurd (other ▸ h) (by decide)

theorem setTrimTo_refused (f : Int) {s : State} (hu : s.servo.st ≠ .unset) (hf : s.servo.st ≠ .freerun) :
    setTrimTo f s = (s, .state) := by
  cases h : s.servo.st with
  | unset => exact absurd h hu
  | freerun => exact absurd h hf
  | acquiring | locked | holdover => simp only [setTrimTo, h]

/-- The plausibility limit in units of a rate, as an integer product (R67). -/
theorem plausibleUnits_eq (s : State) : plausibleUnits s = (s.cfg.servo.plausibility : Int) * 1024000 :=
  Int.natCast_mul _ _

/-- Settles O53, by the state of the Servo and, in FREERUN, by the date against the present one. -/
theorem setDateAndSetTrimByTheServoState : Obligations.SetDateAndSetTrimByTheServoState := by
  refine ⟨fun sec nano s turn => ⟨?unset, ?earlier, ?same, ?later, ?refused⟩, fun f s turn => ⟨?trim, ?trimRefused⟩⟩
  case unset =>
    intro h
    rw [exec_setDate turn, setDateTo_unset _ h]
    rfl
  case earlier =>
    intro h hd
    rw [← ns_limitedDate] at hd
    rw [exec_setDate turn, setDateTo_freerun_of_lt h hd]
  case same =>
    intro h hd
    rw [← ns_limitedDate] at hd
    rw [exec_setDate turn, setDateTo_freerun_of_eq h hd]
    rfl
  case later =>
    intro h hd
    rw [← ns_limitedDate] at hd
    rw [exec_setDate turn, setDateTo_freerun_of_gt h hd]
    rfl
  case refused =>
    intro hu hf
    rw [exec_setDate turn, setDateTo_refused _ hu hf]
  case trim =>
    intro h
    rw [exec_setTrim turn, setTrimTo_taken _ h, plausibleUnits_eq]
    rfl
  case trimRefused =>
    intro hu hf
    rw [exec_setTrim turn, setTrimTo_refused _ hu hf]

end Sys2Proof.Machine
end

section
/-! The freeze (R155, R156, R158): the trigger and RELEASE by the freeze state, and the two commands where they have their
turn. -/

namespace Sys2Proof.Machine

/-! ### The trigger and RELEASE by the freeze state -/

/-- The statistics of a frozen view, port by port (R155). -/
theorem frozenView_stats (t : Trigger) (s : State) :
    (frozenView t s).stats = ⟨(s.port .u0).stats, (s.port .u1).stats, (s.port .d0).stats, (s.port .d1).stats⟩ := rfl

theorem freezeTrigger_live (t : Trigger) {s : State} (h : s.frozen = none) :
    freezeTrigger t s = offerRecord (.plain none (.freeze false t)) (s.setFrozen (some (frozenView t s))) :=
  if_neg (by simp [h])

theorem freezeTrigger_frozen (t : Trigger) {s : State} (h : s.frozen ≠ none) : freezeTrigger t s = s :=
  if_pos (Option.isSome_iff_ne_none.mpr h)

theorem releaseFreeze_frozen {s : State} (h : s.frozen ≠ none) :
    releaseFreeze s = offerRecord (.plain none (.freeze true .command)) (s.setFrozen none) :=
  if_pos (Option.isSome_iff_ne_none.mpr h)

theorem releaseFreeze_live {s : State} (h : s.frozen = none) : releaseFreeze s = s :=
  if_neg (by simp [h])

/-! ### The two commands in their turn -/

theorem exec_freeze {s : State} (h : hasTurn 21 .freeze s = true) :
    exec .freeze s = .next (deliver 21 (freezeTrigger .command s, .done, [])) :=
  congrArg Host.Outcome.next (runCommand_of_hasTurn h _)

theorem exec_release {s : State} (h : hasTurn 22 .release s = true) :
    exec .release s = .next (deliver 22 (releaseFreeze s, .done, [])) :=
  congrArg Host.Outcome.next (runCommand_of_hasTurn h _)

/-- Settles O54, by the freeze state before the trigger or the command. -/
theorem freezeAndRelease : Obligations.FreezeAndRelease := by
  refine ⟨fun t s => ⟨?capture, freezeTrigger_frozen t⟩, fun s => exec_freeze, fun s turn => ⟨?release, ?live⟩⟩
  case capture =>
    intro h
    rw [← frozenView_stats t s]
    exact freezeTrigger_live t h
  case release =>
    intro h
    rw [exec_release turn, releaseFreeze_frozen h]
    rfl
  case live =>
    intro h
    rw [exec_release turn, releaseFreeze_live h]

end Sys2Proof.Machine
end

section
/-! The write rule of the Event Log (R142 to R147): what becomes of one offered record, by room and pending gap, and that
LOG_FULL follows the gap through the records its own raise and clear offer. -/

namespace Sys2Proof.Machine

/-! ### The log with a record more -/

/-- The record an offer becomes: its own domain, class and date, or those of the moment (R143). -/
def Offer.record (o : Offer) (s : State) (seq : Nat) : LogRecord :=
  match o.own with
  | some (domain, cls, date) => ⟨seq, o.port, domain, cls, date, o.body⟩
  | none => ⟨seq, o.port, 0, s.engineClass, s.clock.date.sn, o.body⟩

theorem EventLog.put_eq (l : EventLog) (s : State) (o : Offer) :
    l.put s o = { l with
      records := l.records ++ [o.record s l.nextSeq]
      nextSeq := (l.nextSeq + 1) % 4294967296 } :=
  match o with
  | ⟨_, _, some _⟩ => rfl
  | ⟨_, _, none⟩ => rfl

/-- The log with the GAP record of the missed count, the gap ended (R145). -/
def EventLog.closeGap (l : EventLog) (s : State) : EventLog :=
  { l.append none 0 s.engineClass s.clock.date.sn (.gap l.missed) with gap := false, missed := 0 }

theorem logAccepts_iff (l : EventLog) : logAccepts l = true ↔ l.mem = .inService ∧ l.records.length + 2 ≤ 4096 := by
  rw [logAccepts, Bool.and_eq_true, beq_iff_eq, decide_eq_true_iff, EventLog.free, Config.logSlots]
  exact and_congr_right fun _ => by omega

/-- A missed record takes no slot and leaves the memory as it is. -/
@[simp] theorem logAccepts_miss (l : EventLog) : logAccepts l.miss = logAccepts l := rfl

/-! ### The notice of a level -/

theorem log_levelNotice (s : State) :
    (levelNotice s).log =
      { s.log with noticeSent := s.log.noticeSent || decide (s.cfg.logThreshold ≤ s.log.records.length) } := by
  unfold levelNotice
  split
  case isTrue sent =>
    obtain ⟨-, reached⟩ : s.log.noticeSent = false ∧ s.cfg.logThreshold ≤ s.log.records.length := by simpa using sent
    simp [reached]
  case isFalse unsent =>
    have same : (s.log.noticeSent || decide (s.cfg.logThreshold ≤ s.log.records.length)) = s.log.noticeSent := by
      cases hn : s.log.noticeSent with
      | true => rfl
      | false => simpa [hn] using unsent
    rw [same]

/-! ### What becomes of an offer -/

section
variable {s : State} (o : Offer)

theorem offerBare_written (ha : logAccepts s.log = true) (hg : s.log.gap = false) :
    offerBare o s = (levelNotice (s.setLog (s.log.put s o)), .written) := by
  simp [offerBare, ha, hg]

theorem offerBare_writtenAfterGap (ha : logAccepts s.log = true) (hg : s.log.gap = true) :
    offerBare o s = (levelNotice (s.setLog ((s.log.closeGap s).put s o)), .writtenAfterGap) := by
  simp [offerBare, ha, hg, EventLog.closeGap]

theorem offerBare_refused (ha : logAccepts s.log = false) :
    offerBare o s = (s.setLog s.log.miss, if s.log.gap then .missed else .missedFirst) := by
  simp [offerBare, ha]

/-- A missed record leaves a gap pending (R145). -/
theorem gap_offerBare_refused (ha : logAccepts s.log = false) : (offerBare o s).1.log.gap = true := by
  rw [offerBare_refused o ha]
  rfl

theorem noticeSent_offerBare (ha : logAccepts s.log = true) (hn : s.log.noticeSent = false) :
    (offerBare o s).1.log.noticeSent = true ↔ s.cfg.logThreshold ≤ (offerBare o s).1.log.records.length := by
  cases hg : s.log.gap with
  | false => simp [offerBare_written o ha hg, log_levelNotice, EventLog.put_eq, hn]
  | true =>
    simp [offerBare_writtenAfterGap o ha hg, log_levelNotice, EventLog.put_eq, EventLog.closeGap, EventLog.append, hn]

theorem offerRecord_written (ha : logAccepts s.log = true) (hg : s.log.gap = false) :
    offerRecord o s = levelNotice (s.setLog (s.log.put s o)) := by
  simp [offerRecord, offerBare_written o ha hg]

theorem offerRecord_writtenAfterGap (ha : logAccepts s.log = true) (hg : s.log.gap = true) :
    offerRecord o s = clearLogFull (levelNotice (s.setLog ((s.log.closeGap s).put s o))) := by
  simp [offerRecord, offerBare_writtenAfterGap o ha hg]

theorem offerRecord_missed (ha : logAccepts s.log = false) (hg : s.log.gap = true) :
    offerRecord o s = s.setLog s.log.miss := by
  simp [offerRecord, offerBare_refused o ha, hg]

theorem offerRecord_missedFirst (ha : logAccepts s.log = false) (hg : s.log.gap = false) :
    offerRecord o s = raiseLogFull (s.setLog s.log.miss) := by
  simp [offerRecord, offerBare_refused o ha, hg]

end

/-! ### LOG_FULL follows the gap -/

/-- LOG_FULL is active exactly while a gap is pending (R145). -/
def LogFullAtGap (s : State) : Prop := (s.fault .logFull).active = s.log.gap

theorem LogFullAtGap.of {s t : State} (h : LogFullAtGap s) (hf : t.faults.recs = s.faults.recs)
    (hl : t.log.gap = s.log.gap) : LogFullAtGap t :=
  (congrArg FaultRec.active (fault_of hf .logFull)).trans (h.trans hl.symm)

theorem logFullAtGap_faultAlert {s : State} (h : LogFullAtGap s) (k : FaultKind) (clear : Bool) (subject : Subject)
    (d : AlertData) : LogFullAtGap (faultAlert k clear subject d s) :=
  h.of (recs_faultAlert k clear subject d s) (congrArg EventLog.gap (log_faultAlert k clear subject d s))

theorem active_raiseLogFull (s : State) : ((raiseLogFull s).fault .logFull).active = true := by
  unfold raiseLogFull
  split
  case isTrue h => simpa [countRaise] using h
  case isFalse => simp [fault_of (recs_faultAlert ..), fault_of (recs_offerBare ..), activate]

/-- The FAULT record of the raise is refused like the record before it, so the gap stays (R145). -/
theorem gap_raiseLogFull {s : State} (ha : logAccepts s.log = false) (hg : s.log.gap = true) :
    (raiseLogFull s).log.gap = true := by
  unfold raiseLogFull
  split
  case isTrue => simpa using hg
  case isFalse =>
    rw [log_faultAlert]
    exact gap_offerBare_refused _ (by simpa using ha)

/-- With no gap pending a record is written and none begins, or it is missed and LOG_FULL raised (R144, R145). -/
theorem logFullAtGap_offerRecord_of_noGap (o : Offer) {s : State} (h : LogFullAtGap s) (hg : s.log.gap = false) :
    LogFullAtGap (offerRecord o s) := by
  cases ha : logAccepts s.log with
  | true =>
    rw [offerRecord_written o ha hg]
    exact h.of (by simp) (by simp [log_levelNotice, EventLog.put_eq])
  | false =>
    rw [offerRecord_missedFirst o ha hg]
    exact (active_raiseLogFull _).trans (gap_raiseLogFull (by simpa using ha) rfl).symm

/-- With no gap pending, the clear of LOG_FULL offers its FAULT record as any other is offered (R145, R188). -/
theorem clearLogFull_of_active {s : State} (ha : (s.fault .logFull).active = true) (hg : s.log.gap = false) :
    clearLogFull s = faultAlert .logFull true .self .nothing
      (offerRecord (faultOffer (deactivate .logFull s) .logFull true .self) (deactivate .logFull s)) := by
  have hd : (deactivate .logFull s).log.gap = false := by simpa using hg
  rw [clearLogFull, if_pos ha]
  cases hacc : logAccepts (deactivate .logFull s).log with
  | true => simp [offerBare_written _ hacc hd, offerRecord_written _ hacc hd]
  | false => simp [offerBare_refused _ hacc, offerRecord_missedFirst _ hacc hd, hg]

theorem logFullAtGap_clearLogFull {s : State} (hg : s.log.gap = false) : LogFullAtGap (clearLogFull s) := by
  cases ha : (s.fault .logFull).active with
  | false =>
    rw [clearLogFull, if_neg (by simp [ha])]
    exact ha.trans hg.symm
  | true =>
    have hd : (deactivate .logFull s).log.gap = false := by simpa using hg
    have inactive : LogFullAtGap (deactivate .logFull s) := by simp [LogFullAtGap, deactivate, hg]
    rw [clearLogFull_of_active ha hg]
    exact logFullAtGap_faultAlert (logFullAtGap_offerRecord_of_noGap _ inactive hd) ..

theorem logFullAtGap_offerRecord (o : Offer) {s : State} (h : LogFullAtGap s) : LogFullAtGap (offerRecord o s) := by
  cases hg : s.log.gap with
  | false => exact logFullAtGap_offerRecord_of_noGap o h hg
  | true =>
    cases ha : logAccepts s.log with
    | true =>
      rw [offerRecord_writtenAfterGap o ha hg]
      exact logFullAtGap_clearLogFull (by simp [log_levelNotice, EventLog.put_eq, EventLog.closeGap])
    | false =>
      rw [offerRecord_missed o ha hg]
      exact h.of rfl hg.symm

/-- Settles O55, by room in the log and pending gap. -/
theorem aRecordIsWrittenOrMissed : Obligations.ARecordIsWrittenOrMissed := by
  refine ⟨fun o s => ?_, fun o s => logFullAtGap_offerRecord o⟩
  simp only [← logAccepts_iff]
  refine ⟨?alone, ?behindGap, noticeSent_offerBare o, ?missed⟩
  case alone =>
    intro ha hg
    rw [offerBare_written o ha hg, log_levelNotice, State.setLog_log, EventLog.put_eq]
    exact ⟨rfl, rfl, hg, rfl⟩
  case behindGap =>
    intro ha hg
    rw [offerBare_writtenAfterGap o ha hg, log_levelNotice, State.setLog_log, EventLog.put_eq]
    exact ⟨List.append_assoc .., rfl, rfl, rfl⟩
  case missed =>
    intro ha
    rw [offerBare_refused o (Bool.eq_false_of_not_eq_true ha)]
    rfl

end Sys2Proof.Machine
end

section
/-! What every command and every step keep: the queues, the selection, the settings, clock and rates, and the log, each by
the operations that keep it. -/

namespace Sys2Proof.Machine

/-- A predicate that every command keeps, and in which the waiting queue has no part, is kept by every step. -/
theorem kept_step {P : State → Prop} (k : KeptByEvents P) (q : KeptByCommands P)
    (queue : ∀ s rest, P s → P (s.setPending rest)) (hp : ∀ s, P s → P (clockPeriod s))
    (hl : ∀ s first second, P s → P (finishLoad first second s)) {s t : State} (h : P s) (hs : step s = .next t) :
    P t := by
  unfold step at hs
  split at hs
  case h_1 => cases hs; exact h
  case h_2 c rest _ =>
    have h' := queue s rest h
    exact kept_exec k q h' (fun _ _ => hp _ h') (fun f g _ _ => hl _ f g h') hs

/-! ### The queues of the ports -/

theorem q_takeFrame (p : Port) (c : CtlFrame) (s : State) (h : Queued s) : Queued (takeFrame p c s) :=
  q_advanceFrame _ _ (q_setPort s p { s.port p with held := none } ⟨(h p).timing, (h p).general⟩ h)

theorem queued_keptByEvents : KeptByEvents Queued where
  pulseEnd _ h _ := h
  fullReset s _ := q_fullReset s
  holdReset s _ := q_holdReset s
  linkDown s p more h := q_linkGoesDown p more s h
  linkUp s p h _ _ := q_linkComesUp p s h
  frameStart s p h _ _ := q_setRx p _ s h
  lookup s p _ _ ended h _ _ _ _ := q_lookupFrame p _ ended s h
  editHold s p _ c _ h _ _ _ _ _ := q_writeStampNow p c _ _ (q_growArriving p _ _ (q_setRx p _ s h))
  oversizeLookup s p _ _ h _ _ _ := q_lookupFrame p _ false s h
  oversize s p _ _ h _ := q_overrun p _ s h
  frameEnd s p _ _ h _ _ := q_receiveEnd p _ s h
  sent s p t h _ _ := q_finishTx p t s h
  arbitrate s p h := q_arbitrate p s h
  pendingReset s h := q_takePendingReset s h
  controlTake s p c h _ _ := q_takeFrame p c s h
  reload s first second h _ := q_finishReload first second s h
  save s img readBack h _ := q_finishSave img readBack s h
  echoInterval s p h _ _ := q_takeInterval p _ (q_restartInterval p s h)
  echoTimeout s p h _ _ := q_echoTimesOut p s h
  stale s i _ h _ _ := q_goStale i s h
  removal _ _ _ h _ _ := h
  barEnd s i e h _ _ _ := q_endBar i e s h
  holdover s h _ := q_expireHoldover s h
  slot s _ h _ := q_nextSlot s h
  report s i h _ := q_sendReport i s h
  silence _ _ h _ := q_judgeRack _ h
  holdoff _ _ h _ := h
  testEnd s pass _ h _ := q_endMemoryTest pass s h

theorem queued_keptByCommands : KeptByCommands Queued where
  deliver _ code out _ _ h := q_deliver code out h
  logTake s n room h := q_logTakeMeaning n room s h
  writeMatch s i a h := q_writeMatch i a s h
  copyActive s h := q_copyActive s h
  swapCommand s a h := q_swapCommand a s h
  writePort s a h := q_writePort a s h
  writeLane s a h := q_writeLane a s h
  writeOverride s a h := q_writeOverride a s h
  writePeer s a h := q_writePeer a s h
  clearPeer s i h := q_clearPeer i s h
  writeServo s a h := q_writeServo a s h
  writeDrift s a h := q_writeDrift a s h
  writeFault s k r h := q_writeFault k r s h
  setDate s _ _ h := q_setDateTo _ s h
  setTrim s _ h := q_setTrimTo _ s h
  clearFlags s m h := q_clearFlags m s h
  barSource s i n h := q_barSource i n s h
  freeze s h := q_freezeTrigger .command s h
  release s h := q_releaseFreeze s h
  testLog s h := q_testLog s h
  saveSettings s h := q_saveSettings s h
  resetCommand s a h _ := q_resetCommand a s h

/-- Settles O7: every command keeps the queues within their capacities. -/
theorem everyStepKeepsTheQueuesWithinCapacity : Obligations.EveryStepKeepsTheQueuesWithinCapacity :=
  fun _ _ h hs => kept_step (P := Queued) queued_keptByEvents queued_keptByCommands (fun _ _ h => h)
    q_clockPeriod (fun s f g => q_finishLoad f g s) h hs

/-! ### The selection -/

theorem src_takeFrame (p : Port) (c : CtlFrame) (s : State) (h : SourcesOk s) : SourcesOk (takeFrame p c s) :=
  src_advanceFrame _ _ (src_setPort s p _ h)

theorem sourcesOk_keptByEvents : KeptByEvents SourcesOk where
  pulseEnd _ h _ := h.of2 rfl rfl
  fullReset s _ := src_fullReset s
  holdReset s _ := src_holdReset s
  linkDown s p more h := src_linkGoesDown p more s h
  linkUp s p h _ _ := src_linkComesUp p s h
  frameStart s p h _ _ := src_setRx p _ s h
  lookup s p _ _ ended h _ _ _ _ := src_lookupFrame p _ ended s h
  editHold s p _ c _ h _ _ _ _ _ := src_writeStampNow p c _ _ (src_growArriving p _ _ (src_setRx p _ s h))
  oversizeLookup s p _ _ h _ _ _ := src_lookupFrame p _ false s h
  oversize s p _ _ h _ := src_overrun p _ s h
  frameEnd s p _ _ h _ _ := src_receiveEnd p _ s h
  sent s p t h _ _ := src_finishTx p t s h
  arbitrate s p h := src_arbitrate p s h
  pendingReset s h := src_takePendingReset s h
  controlTake s p c h _ _ := src_takeFrame p c s h
  reload s first second h _ := src_finishReload first second s h
  save s img readBack h _ := src_finishSave img readBack s h
  echoInterval s p h _ _ := src_takeInterval p _ (src_restartInterval p s h)
  echoTimeout s p h _ _ := src_echoTimesOut p s h
  stale s i _ h _ _ := src_goStale i s h
  removal s i e h he hst := src_remove s i h (fun e' he' hsel => by simp_all)
  barEnd s i e h he _ _ := src_endBar i e s h he
  holdover s h _ := src_expireHoldover s h
  slot s _ h _ := src_nextSlot s h
  report s i h _ := src_sendReport i s h
  silence s i h _ := src_judgeRack _ (src_setPeer s i _ h)
  holdoff _ _ h _ := h.of2 rfl rfl
  testEnd s pass _ h _ := src_endMemoryTest pass s h

theorem sourcesOk_keptByCommands : KeptByCommands SourcesOk where
  deliver _ code out _ _ h := src_deliver code out h
  logTake s n room h := src_logTakeMeaning n room s h
  writeMatch s i a h := src_writeMatch i a s h
  copyActive s h := src_copyActive s h
  swapCommand s a h := src_swapCommand a s h
  writePort s a h := src_writePort a s h
  writeLane s a h := src_writeLane a s h
  writeOverride s a h := src_writeOverride a s h
  writePeer s a h := src_writePeer a s h
  clearPeer s i h := src_clearPeer i s h
  writeServo s a h := src_writeServo a s h
  writeDrift s a h := src_writeDrift a s h
  writeFault s k r h := src_writeFault k r s h
  setDate s _ _ h := src_setDateTo _ s h
  setTrim s _ h := src_setTrimTo _ s h
  clearFlags s m h := src_clearFlags m s h
  barSource s i n h := src_barSource i n s h
  freeze s h := src_freezeTrigger .command s h
  release s h := src_releaseFreeze s h
  testLog s h := src_testLog s h
  saveSettings s h := src_saveSettings s h
  resetCommand s a h _ := src_resetCommand a s h

/-- Settles O6: every command keeps one selection, followed by the Servo. -/
theorem everyStepKeepsOneSelection : Obligations.EveryStepKeepsOneSelection :=
  fun _ _ h hs => kept_step sourcesOk_keptByEvents sourcesOk_keptByCommands (fun _ _ h => h.of2 rfl rfl)
    src_clockPeriod (fun s f g => src_finishLoad f g s) h hs

/-! ### The settings -/

theorem rk_takeFrame (p : Port) (c : CtlFrame) (s : State) (h : RacksDistinct s) : RacksDistinct (takeFrame p c s) :=
  rk_advanceFrame _ _ (rk_setPort s p _ h)

theorem set_takeFrame (p : Port) (c : CtlFrame) (s : State) (h : Setd s) : Setd (takeFrame p c s) :=
  set_advanceFrame _ _ (set_setPort s p _ h)

theorem racksDistinct_keptByEvents : KeptByEvents RacksDistinct where
  pulseEnd _ h _ := h
  fullReset s _ := rk_fullReset s
  holdReset s _ := rk_holdReset s
  linkDown s p more h := rk_linkGoesDown p more s h
  linkUp s p h _ _ := rk_linkComesUp p s h
  frameStart s p h _ _ := rk_setRx p _ s h
  lookup s p _ _ ended h _ _ _ _ := rk_lookupFrame p _ ended s h
  editHold s p _ c _ h _ _ _ _ _ := rk_writeStampNow p c _ _ (rk_growArriving p _ _ (rk_setRx p _ s h))
  oversizeLookup s p _ _ h _ _ _ := rk_lookupFrame p _ false s h
  oversize s p _ _ h _ := rk_overrun p _ s h
  frameEnd s p _ _ h _ _ := rk_receiveEnd p _ s h
  sent s p t h _ _ := rk_finishTx p t s h
  arbitrate s p h := rk_arbitrate p s h
  pendingReset s h := rk_takePendingReset s h
  controlTake s p c h _ _ := rk_takeFrame p c s h
  reload s first second h _ := rk_finishReload first second s h
  save s img readBack h _ := rk_finishSave img readBack s h
  echoInterval s p h _ _ := rk_takeInterval p _ (rk_restartInterval p s h)
  echoTimeout s p h _ _ := rk_echoTimesOut p s h
  stale s i _ h _ _ := rk_goStale i s h
  removal _ _ _ h _ _ := h
  barEnd s i e h _ _ _ := rk_endBar i e s h
  holdover s h _ := rk_expireHoldover s h
  slot s _ h _ := rk_nextSlot s h
  report s i h _ := rk_sendReport i s h
  silence _ _ h _ := rk_judgeRack _ h
  holdoff _ _ h _ := h
  testEnd s pass _ h _ := rk_endMemoryTest pass s h

theorem racksDistinct_keptByCommands : KeptByCommands RacksDistinct where
  deliver _ code out _ _ h := rk_deliver code out h
  logTake s n room h := rk_logTakeMeaning n room s h
  writeMatch s i a h := rk_writeMatch i a s h
  copyActive s h := rk_copyActive s h
  swapCommand s a h := rk_swapCommand a s h
  writePort s a h := rk_writePort a s h
  writeLane s a h := rk_writeLane a s h
  writeOverride s a h := rk_writeOverride a s h
  writePeer s a h := rk_writePeer a s h
  clearPeer s i h := rk_clearPeer i s h
  writeServo s a h := rk_writeServo a s h
  writeDrift s a h := rk_writeDrift a s h
  writeFault s k r h := rk_writeFault k r s h
  setDate s _ _ h := rk_setDateTo _ s h
  setTrim s _ h := rk_setTrimTo _ s h
  clearFlags s m h := rk_clearFlags m s h
  barSource s i n h := rk_barSource i n s h
  freeze s h := rk_freezeTrigger .command s h
  release s h := rk_releaseFreeze s h
  testLog s h := rk_testLog s h
  saveSettings s h := rk_saveSettings s h
  resetCommand s a h _ := rk_resetCommand a s h

theorem setd_keptByEvents : KeptByEvents Setd where
  pulseEnd _ h _ := h.of rfl rfl
  fullReset s _ := set_fullReset s
  holdReset s _ := set_holdReset s
  linkDown s p more h := set_linkGoesDown p more s h
  linkUp s p h _ _ := set_linkComesUp p s h
  frameStart s p h _ _ := set_setRx p _ s h
  lookup s p _ _ ended h _ _ _ _ := set_lookupFrame p _ ended s h
  editHold s p _ c _ h _ _ _ _ _ := set_writeStampNow p c _ _ (set_growArriving p _ _ (set_setRx p _ s h))
  oversizeLookup s p _ _ h _ _ _ := set_lookupFrame p _ false s h
  oversize s p _ _ h _ := set_overrun p _ s h
  frameEnd s p _ _ h _ _ := set_receiveEnd p _ s h
  sent s p t h _ _ := set_finishTx p t s h
  arbitrate s p h := set_arbitrate p s h
  pendingReset s h := set_takePendingReset s h
  controlTake s p c h _ _ := set_takeFrame p c s h
  reload s first second h _ := set_finishReload first second s h
  save s img readBack h _ := set_finishSave img readBack s h
  echoInterval s p h _ _ := set_takeInterval p _ (set_restartInterval p s h)
  echoTimeout s p h _ _ := set_echoTimesOut p s h
  stale s i _ h _ _ := set_goStale i s h
  removal _ _ _ h _ _ := h.of rfl rfl
  barEnd s i e h _ _ _ := set_endBar i e s h
  holdover s h _ := set_expireHoldover s h
  slot s _ h _ := set_nextSlot s h
  report s i h _ := set_sendReport i s h
  silence _ _ h _ := set_judgeRack _ (h.of rfl rfl)
  holdoff _ _ h _ := h.of rfl rfl
  testEnd s pass _ h _ := set_endMemoryTest pass s h

theorem setd_keptByCommands : KeptByCommands Setd where
  deliver _ code out _ _ h := set_deliver code out h
  logTake s n room h := set_logTakeMeaning n room s h
  writeMatch s i a h := set_writeMatch i a s h
  copyActive s h := set_copyActive s h
  swapCommand s a h := set_swapCommand a s h
  writePort s a h := set_writePort a s h
  writeLane s a h := set_writeLane a s h
  writeOverride s a h := set_writeOverride a s h
  writePeer s a h := set_writePeer a s h
  clearPeer s i h := set_clearPeer i s h
  writeServo s a h := set_writeServo a s h
  writeDrift s a h := set_writeDrift a s h
  writeFault s k r h := set_writeFault k r s h
  setDate s _ _ h := set_setDateTo _ s h
  setTrim s _ h := set_setTrimTo _ s h
  clearFlags s m h := set_clearFlags m s h
  barSource s i n h := set_barSource i n s h
  freeze s h := set_freezeTrigger .command s h
  release s h := set_releaseFreeze s h
  testLog s h := set_testLog s h
  saveSettings s h := set_saveSettings s h
  resetCommand s a h _ := set_resetCommand a s h

/-- Settles O8: every command keeps settings, banks and rack ids as they have to be. -/
theorem everyStepKeepsTheSettingsInRange : Obligations.EveryStepKeepsTheSettingsInRange := by
  refine ⟨fun s t hc h0 h1 hs => ?settings, fun s t h hs => ?racks⟩
  case settings =>
    have h := kept_step setd_keptByEvents setd_keptByCommands (fun _ _ h => h.of rfl rfl)
      set_clockPeriod (fun s f g => set_finishLoad f g s) ⟨hc, h0, h1⟩ hs
    exact ⟨h.cfg, h.bank0, h.bank1⟩
  case racks =>
    exact kept_step racksDistinct_keptByEvents racksDistinct_keptByCommands (fun _ _ h => h)
      rk_clockPeriod (fun s f g _ => rk_finishLoad f g s) h hs

/-! ### Clock and rates -/

/-- Clock, rates and captures in range: what `ClockOk` and `RateOk` say together, by the parts that the operations keep. -/
structure InRange (s : State) : Prop where
  clk : Clk s
  cap : Captured s
  rated : Rated s

theorem inRange_iff (s : State) : InRange s ↔ ClockOk s ∧ RateOk s :=
  ⟨fun ⟨k, c, r⟩ => ⟨⟨k.date, r.inc, k.epoch, k.stamp, c⟩, r.ok⟩,
   fun ⟨k, r⟩ => ⟨⟨k.date, k.epoch, k.stamp⟩, k.captures, ⟨r, k.inc⟩⟩⟩

theorem InRange.setPending {s : State} (rest : List Instr) (h : InRange s) : InRange (s.setPending rest) :=
  ⟨⟨h.clk.date, h.clk.epoch, h.clk.stamp⟩, h.cap.of rfl, h.rated.of rfl rfl rfl⟩

theorem InRange.of {s t : State} (h : InRange s) (a : t.anchor = s.anchor) (hp : t.ports = s.ports)
    (hs : t.servo = s.servo) (hc : t.clock.inc = s.clock.inc) (hg : t.cfg.servo = s.cfg.servo) : InRange t :=
  ⟨h.clk.of a, h.cap.of hp, h.rated.of hs hc hg⟩

/-- The ingress capture of the frame that a port is receiving is a date (R14). -/
theorem InRange.ingress {s : State} (h : InRange s) {p : Port} {r : Rx} (hr : (s.port p).rx = some r) :
    DateOk r.ingress := (h.cap p).frame r hr

theorem inRange_setRx (p : Port) (r : Option Rx) (s : State) (hr : ∀ x, r = some x → DateOk x.ingress)
    (h : InRange s) : InRange (setRx p r s) :=
  ⟨clk_setRx p r s h.clk, cap_setRx p r s hr h.cap, rated_setRx p r s h.rated⟩

theorem inRange_lookupFrame (p : Port) (r : Rx) (ended : Bool) (s : State) (hr : DateOk r.ingress) (h : InRange s) :
    InRange (lookupFrame p r ended s) :=
  ⟨clk_lookupFrame p r ended s hr h.clk, cap_lookupFrame p r ended s hr h.cap, rated_lookupFrame p r ended s h.rated⟩

theorem inRange_writeStampNow (p : Port) (c : DatingCtx) (bytes : List Byte) (s : State) (h : InRange s) :
    InRange (writeStampNow p c bytes s) :=
  ⟨clk_writeStampNow p c bytes s h.clk, cap_writeStampNow p c bytes s h.cap, rated_writeStampNow p c bytes s h.rated⟩

theorem inRange_growArriving (p : Port) (bytes : List Byte) (s : State) (h : InRange s) :
    InRange (growArriving p bytes s) :=
  ⟨clk_growArriving p bytes s h.clk, cap_growArriving p bytes s h.cap, rated_growArriving p bytes s h.rated⟩

theorem inRange_clockPeriod (s : State) (h : InRange s) : InRange (clockPeriod s) := by
  have hi : s.clock.inc < Config.nsPerSec * Config.fracPerNs := lt_of_le_of_lt h.rated.inc.2 (by decide)
  exact ⟨clk_clockPeriod s h.clk hi, cap_clockPeriod s h.cap, rated_clockPeriod s h.rated⟩

theorem inRange_takeFrame (p : Port) (c : CtlFrame) (s : State) (h : InRange s) : InRange (takeFrame p c s) := by
  have h' : InRange (s.setPort p { s.port p with held := none }) :=
    ⟨clk_setPort s p _ h.clk, cap_setPort s p _ ⟨(h.cap p).frame, (h.cap p).context⟩ h.cap, rated_setPort s p _ h.rated⟩
  exact ⟨clk_advanceFrame _ _ h'.clk, cap_advanceFrame _ _ h'.cap, rated_advanceFrame _ _ h'.rated⟩

theorem inRange_keptByEvents : KeptByEvents InRange where
  pulseEnd _ h _ := h.of rfl rfl rfl rfl rfl
  fullReset s _ := ⟨clk_fullReset s, cap_fullReset s, rated_fullReset s⟩
  holdReset s _ := ⟨clk_holdReset s, cap_holdReset s, rated_holdReset s⟩
  linkDown s p more h :=
    ⟨clk_linkGoesDown p more s h.clk,
      cap_linkGoesDown p more s h.cap,
      rated_linkGoesDown p more s h.rated⟩
  linkUp s p h _ _ :=
    ⟨clk_linkComesUp p s h.clk,
      cap_linkComesUp p s h.cap,
      rated_linkComesUp p s h.rated⟩
  frameStart s p h _ _ := inRange_setRx p _ s (fun _ hx => Option.some.inj hx ▸ h.clk.date) h
  lookup s p r more ended h _ hr _ _ := inRange_lookupFrame p (r.grow more) ended s (h.ingress (r := r) hr) h
  editHold s p r c more h _ hr _ _ _ := inRange_writeStampNow p c _ _ (inRange_growArriving p _ _
    (inRange_setRx p (some (r.grow more)) s (fun _ hx => Option.some.inj hx ▸ h.ingress (r := r) hr) h))
  oversizeLookup s p r bytes h _ hr _ := inRange_lookupFrame p { r with bytes := bytes } false s (h.ingress (r := r) hr) h
  oversize s p r bytes h hr :=
    ⟨clk_overrun p _ s h.clk, cap_overrun p { r with bytes := bytes } s (h.ingress (r := r) hr) h.cap,
      rated_overrun p _ s h.rated⟩
  frameEnd s p r more h _ hr :=
    ⟨clk_receiveEnd p (r.grow more) s (h.ingress (r := r) hr) h.clk,
      cap_receiveEnd p (r.grow more) s (h.ingress (r := r) hr) h.cap,
      rated_receiveEnd p _ s h.rated⟩
  sent s p t h _ _ :=
    ⟨clk_finishTx p t s h.clk,
      cap_finishTx p t s h.cap,
      rated_finishTx p t s h.rated⟩
  arbitrate s p h :=
    ⟨clk_arbitrate p s h.clk,
      cap_arbitrate p s h.cap,
      rated_arbitrate p s h.rated⟩
  pendingReset s h :=
    ⟨clk_takePendingReset s h.clk,
      cap_takePendingReset s h.cap,
      rated_takePendingReset s h.rated⟩
  controlTake s p c h _ _ := inRange_takeFrame p c s h
  reload s first second h _ :=
    ⟨clk_finishReload first second s h.clk,
      cap_finishReload first second s h.cap,
      rated_finishReload first second s h.rated⟩
  save s img readBack h _ :=
    ⟨clk_finishSave img readBack s h.clk,
      cap_finishSave img readBack s h.cap,
      rated_finishSave img readBack s h.rated⟩
  echoInterval s p h _ _ :=
    ⟨clk_takeInterval p _ (clk_restartInterval p s h.clk),
      cap_takeInterval p _ (cap_restartInterval p s h.cap),
      rated_takeInterval p _ (rated_restartInterval p s h.rated)⟩
  echoTimeout s p h _ _ :=
    ⟨clk_echoTimesOut p s h.clk,
      cap_echoTimesOut p s h.cap,
      rated_echoTimesOut p s h.rated⟩
  stale s i _ h _ _ :=
    ⟨clk_goStale i s h.clk,
      cap_goStale i s h.cap,
      rated_goStale i s h.rated⟩
  removal _ _ _ h _ _ := h.of rfl rfl rfl rfl rfl
  barEnd s i e h _ _ _ :=
    ⟨clk_endBar i e s h.clk,
      cap_endBar i e s h.cap,
      rated_endBar i e s h.rated⟩
  holdover s h _ :=
    ⟨clk_expireHoldover s h.clk,
      cap_expireHoldover s h.cap,
      rated_expireHoldover s h.rated⟩
  slot s _ h _ :=
    ⟨clk_nextSlot s h.clk,
      cap_nextSlot s h.cap,
      rated_nextSlot s h.rated⟩
  report s i h _ :=
    ⟨clk_sendReport i s h.clk,
      cap_sendReport i s h.cap,
      rated_sendReport i s h.rated⟩
  silence s i h _ :=
    have h' := h.of (t := s.setPeer i { s.peer i with st := .silent }) rfl rfl rfl rfl rfl
    ⟨clk_judgeRack _ h'.clk, cap_judgeRack _ h'.cap, rated_judgeRack _ h'.rated⟩
  holdoff _ _ h _ := h.of rfl rfl rfl rfl rfl
  testEnd s pass _ h _ :=
    ⟨clk_endMemoryTest pass s h.clk,
      cap_endMemoryTest pass s h.cap,
      rated_endMemoryTest pass s h.rated⟩

theorem inRange_keptByCommands : KeptByCommands InRange where
  deliver _ code out _ _ h :=
    ⟨clk_deliver code out h.clk,
      cap_deliver code out h.cap,
      rated_deliver code out h.rated⟩
  logTake s n room h :=
    ⟨clk_logTakeMeaning n room s h.clk,
      cap_logTakeMeaning n room s h.cap,
      rated_logTakeMeaning n room s h.rated⟩
  writeMatch s i a h :=
    ⟨clk_writeMatch i a s h.clk,
      cap_writeMatch i a s h.cap,
      rated_writeMatch i a s h.rated⟩
  copyActive s h :=
    ⟨clk_copyActive s h.clk,
      cap_copyActive s h.cap,
      rated_copyActive s h.rated⟩
  swapCommand s a h :=
    ⟨clk_swapCommand a s h.clk,
      cap_swapCommand a s h.cap,
      rated_swapCommand a s h.rated⟩
  writePort s a h :=
    ⟨clk_writePort a s h.clk,
      cap_writePort a s h.cap,
      rated_writePort a s h.rated⟩
  writeLane s a h :=
    ⟨clk_writeLane a s h.clk,
      cap_writeLane a s h.cap,
      rated_writeLane a s h.rated⟩
  writeOverride s a h :=
    ⟨clk_writeOverride a s h.clk,
      cap_writeOverride a s h.cap,
      rated_writeOverride a s h.rated⟩
  writePeer s a h :=
    ⟨clk_writePeer a s h.clk,
      cap_writePeer a s h.cap,
      rated_writePeer a s h.rated⟩
  clearPeer s i h :=
    ⟨clk_clearPeer i s h.clk,
      cap_clearPeer i s h.cap,
      rated_clearPeer i s h.rated⟩
  writeServo s a h :=
    ⟨clk_writeServo a s h.clk,
      cap_writeServo a s h.cap,
      rated_writeServo a s h.rated⟩
  writeDrift s a h :=
    ⟨clk_writeDrift a s h.clk,
      cap_writeDrift a s h.cap,
      rated_writeDrift a s h.rated⟩
  writeFault s k r h :=
    ⟨clk_writeFault k r s h.clk,
      cap_writeFault k r s h.cap,
      rated_writeFault k r s h.rated⟩
  setDate s d n h :=
    ⟨clk_setDateTo d n s h.clk,
      cap_setDateTo _ s h.cap,
      rated_setDateTo _ s h.rated⟩
  setTrim s _ h :=
    ⟨clk_setTrimTo _ s h.clk,
      cap_setTrimTo _ s h.cap,
      rated_setTrimTo _ s h.rated⟩
  clearFlags s m h :=
    ⟨clk_clearFlags m s h.clk,
      cap_clearFlags m s h.cap,
      rated_clearFlags m s h.rated⟩
  barSource s i n h :=
    ⟨clk_barSource i n s h.clk,
      cap_barSource i n s h.cap,
      rated_barSource i n s h.rated⟩
  freeze s h :=
    ⟨clk_freezeTrigger .command s h.clk,
      cap_freezeTrigger .command s h.cap,
      rated_freezeTrigger .command s h.rated⟩
  release s h :=
    ⟨clk_releaseFreeze s h.clk,
      cap_releaseFreeze s h.cap,
      rated_releaseFreeze s h.rated⟩
  testLog s h :=
    ⟨clk_testLog s h.clk,
      cap_testLog s h.cap,
      rated_testLog s h.rated⟩
  saveSettings s h :=
    ⟨clk_saveSettings s h.clk,
      cap_saveSettings s h.cap,
      rated_saveSettings s h.rated⟩
  resetCommand s a h _ :=
    ⟨clk_resetCommand a s h.clk,
      cap_resetCommand a s h.cap,
      rated_resetCommand a s h.rated⟩

/-- Settles O5: every command keeps clock, captures and rates in their ranges. -/
theorem everyStepKeepsClockAndRatesInRange : Obligations.EveryStepKeepsClockAndRatesInRange :=
  fun s t hk hr hs => (inRange_iff t).1 (kept_step inRange_keptByEvents inRange_keptByCommands
    (fun _ rest h => h.setPending rest) inRange_clockPeriod
    (fun s f g h => ⟨clk_finishLoad f g s h.clk, cap_finishLoad f g s h.cap, rated_finishLoad f g s⟩)
    ((inRange_iff s).2 ⟨hk, hr⟩) hs)

/-! ### The Event Log -/

/-- An operation that leaves the log as it is keeps its form. -/
theorem LogOk.same {s t : State} (h : LogOk s.log) (hl : t.log = s.log) : LogOk t.log := hl ▸ h

theorem logOk_keptByEvents : KeptByEvents (fun s => LogOk s.log) where
  pulseEnd _ h _ := h
  fullReset s _ := logOk_fullReset s
  holdReset s _ := logOk_fullReset s
  linkDown s p more h := logOk_linkGoesDown p more s h
  linkUp s p h _ _ := logOk_linkComesUp p s h
  frameStart s p h _ _ := h.same (log_setRx p _ s)
  lookup s p _ _ ended h _ _ _ _ := logOk_lookupFrame p _ ended s h
  editHold _ _ _ _ _ h _ _ _ _ _ := h.same (by simp)
  oversizeLookup s p _ _ h _ _ _ := logOk_lookupFrame p _ false s h
  oversize s p _ _ h _ := logOk_overrun p _ s h
  frameEnd s p _ _ h _ _ := logOk_receiveEnd p _ s h
  sent s p t h _ _ := h.same (log_finishTx p t s)
  arbitrate s p h := h.same (log_arbitrate p s)
  pendingReset s h := logOk_takePendingReset s h
  controlTake s p c h _ _ := logOk_takeFrame p c s h
  reload s first second h _ := logOk_finishReload first second s h
  save s img readBack h _ := logOk_finishSave img readBack s h
  echoInterval _ _ h _ _ := h.same (by simp)
  echoTimeout s p h _ _ := h.same (log_echoTimesOut p s)
  stale s i _ h _ _ := logOk_goStale i s h
  removal _ _ _ h _ _ := h
  barEnd s i e h _ _ _ := logOk_endBar i e s h
  holdover s h _ := logOk_expireHoldover s h
  slot s _ h _ := h.same (log_nextSlot s)
  report s i h _ := h.same (log_sendReport i s)
  silence _ _ h _ := logOk_judgeRack _ h
  holdoff _ _ h _ := h
  testEnd s pass _ h _ := logOk_endMemoryTest pass s h

theorem logOk_keptByCommands : KeptByCommands (fun s => LogOk s.log) where
  deliver _ code out _ _ h := logOk_deliver code out h
  logTake s n room h := logOk_logTakeMeaning n room s h
  writeMatch s i a h := h.same (log_writeMatch i a s)
  copyActive s h := h.same (log_copyActive s)
  swapCommand s a h := h.same (log_swapCommand a s)
  writePort s a h := h.same (log_writePort a s)
  writeLane s a h := h.same (log_writeLane a s)
  writeOverride s a h := h.same (log_writeOverride a s)
  writePeer s a h := logOk_writePeer a s h
  clearPeer s i h := logOk_clearPeer i s h
  writeServo s a h := logOk_writeServo a s h
  writeDrift s a h := logOk_writeDrift a s h
  writeFault s k r h := logOk_writeFault k r s h
  setDate s _ _ h := logOk_setDateTo _ s h
  setTrim s _ h := h.same (log_setTrimTo _ s)
  clearFlags s m h := logOk_clearFlags m s h
  barSource s i n h := logOk_barSource i n s h
  freeze s h := logOk_freezeTrigger .command s h
  release s h := logOk_releaseFreeze s h
  testLog s h := logOk_testLog s h
  saveSettings s h := h.same (log_saveSettings s)
  resetCommand s a h _ := h.same (log_resetCommand a s)

/-- Settles O4: every command keeps the form of the log. -/
theorem everyStepKeepsTheLogInOrder : Obligations.EveryStepKeepsTheLogInOrder :=
  fun _ _ h hs => kept_step (P := fun s => LogOk s.log) logOk_keptByEvents logOk_keptByCommands (fun _ _ h => h)
    (fun s h => h.same (log_clockPeriod s)) (fun s f g => logOk_finishLoad f g s) h hs

end Sys2Proof.Machine
end

section
/-! What stands beside a full reset and outside UNSET: no operation sets the date back or brings the Servo to UNSET (R1, R9,
R71), and the commands leave queue, run state and uptime as they are. -/

namespace Sys2Proof.Machine

/-! ### No way back to UNSET: the operations that leave the date as it is -/

section
variable {s : State} (h : s.servo.st ≠ .unset)
include h

@[simp] theorem away_select (old : Option (Nat × SourceEntry)) (new : Nat × SourceEntry) (reason : Reason)
    (sampled : Bool) : (select old new reason sampled s).servo.st ≠ .unset := by
  simp [select_st, h]

@[simp] theorem away_endSelection (old : Nat × SourceEntry) (reason : Reason) :
    (endSelection old reason s).servo.st ≠ .unset := by
  rw [endSelection_servo]
  split
  · simp [servoHolds, setServoState]
  · exact h

@[simp] theorem away_reevaluate (old : Option (Nat × SourceEntry)) (why : Reason) (own : Option Nat) :
    (reevaluate old why own s).servo.st ≠ .unset := by
  simp only [reevaluate]
  repeat' split
  all_goals simp [h]

@[simp] theorem away_reevaluateOnHold (before : Bool) : (reevaluateOnHold before s).servo.st ≠ .unset := by
  unfold reevaluateOnHold
  split <;> simp [h]

@[simp] theorem away_raiseWithHold (k : FaultKind) (subject : Subject) (record : Bool) (d : AlertData) :
    (raiseWithHold k subject record d s).servo.st ≠ .unset := by simp [raiseWithHold, h]

@[simp] theorem away_clearWithHold (k : FaultKind) (subject : Subject) (record : Bool) (d : AlertData) :
    (clearWithHold k subject record d s).servo.st ≠ .unset := by simp [clearWithHold, h]

@[simp] theorem away_leaveLocked : (leaveLocked s).servo.st ≠ .unset := by
  unfold leaveLocked
  split <;> simp [setServoState, h]

@[simp] theorem away_startCatchDown : (startCatchDown s).servo.st ≠ .unset := by
  simp [startCatchDown, handRate, h]

@[simp] theorem away_filterUpdate (theta k : Int) : (filterUpdate theta k s).servo.st ≠ .unset := by
  simp only [filterUpdate]
  repeat' split
  all_goals simp [handRate, h]

@[simp] theorem away_lockCounting (theta : Int) : (lockCounting theta s).servo.st ≠ .unset := by
  simp only [lockCounting]
  repeat' split
  all_goals simp_all [setServoState]

@[simp] theorem away_expireHoldover : (expireHoldover s).servo.st ≠ .unset := by simp [expireHoldover, h]

@[simp] theorem away_unexpireHoldover : (unexpireHoldover s).servo.st ≠ .unset := by simp [unexpireHoldover, h]

@[simp] theorem away_judgeHoldover : (judgeHoldover s).servo.st ≠ .unset := by
  unfold judgeHoldover
  repeat' split
  all_goals simp [h]

@[simp] theorem away_clampF : (clampF s).servo.st ≠ .unset := by
  simp only [clampF]
  repeat' split
  all_goals simp_all [handRate]

@[simp] theorem away_applyServo (p : ServoParams) (width limit : Nat) :
    (applyServo p width limit s).servo.st ≠ .unset := by
  simp only [applyServo]
  split <;> simp [handRate, h]

@[simp] theorem away_setTrimTo (f : Int) : (setTrimTo f s).1.servo.st ≠ .unset := by
  simp only [setTrimTo]
  split <;> simp_all [handRate]

@[simp] theorem away_goStale (i : Nat) : (goStale i s).servo.st ≠ .unset := by simp [goStale, h]

@[simp] theorem away_endBar (i : Nat) (e : SourceEntry) : (endBar i e s).servo.st ≠ .unset := by
  simp [endBar, afterBar, h]

@[simp] theorem away_barEntry (i : Nat) (e : SourceEntry) (seconds : Nat) :
    (barEntry i e seconds s).servo.st ≠ .unset := by
  simp only [barEntry, setBar, afterBar]
  repeat' split
  all_goals simp [h]

@[simp] theorem away_barSelected (seconds : Nat) : (barSelected seconds s).servo.st ≠ .unset := by
  unfold barSelected
  split <;> simp [h]

@[simp] theorem away_setSelfDrift (v : Verdict) : (setSelfDrift v s).servo.st ≠ .unset := by
  simp only [setSelfDrift]
  split <;> simp [h]

@[simp] theorem away_clearSelfDrift (v : Verdict) (e : Episode) : (clearSelfDrift v e s).servo.st ≠ .unset := by
  simp [clearSelfDrift, h]

@[simp] theorem away_judgeSelf : (judgeSelf s).servo.st ≠ .unset := by
  simp only [judgeSelf]
  repeat' split
  all_goals simp [h]

@[simp] theorem away_judgePeer (i : Nat) : (judgePeer s i).servo.st ≠ .unset := by
  simp only [judgePeer, warnPeer, unwarnPeer]
  repeat' split
  all_goals simp [h]

omit h in
theorem away_foldl {α : Type} (f : State → α → State) (hf : ∀ t a, t.servo.st ≠ .unset → (f t a).servo.st ≠ .unset)
    (l : List α) (t : State) (ht : t.servo.st ≠ .unset) : (l.foldl f t).servo.st ≠ .unset :=
  List.foldlRecOn l f ht (fun b hb a _ => hf b a hb)

@[simp] theorem away_judgeRack : (judgeRack s).servo.st ≠ .unset :=
  away_foldl _ (fun _ _ ht => away_judgePeer ht _) _ _ (away_judgeSelf h)

@[simp] theorem away_reportReceived (w : Whole) : (reportReceived w s).servo.st ≠ .unset := by
  simp only [reportReceived]
  repeat' split
  all_goals simp [h]

@[simp] theorem away_writePeerAt (i : Nat) (c : PeerCfg) : (writePeerAt i c s).servo.st ≠ .unset := by
  simp only [writePeerAt]
  repeat' split
  all_goals simp [h]

@[simp] theorem away_clearPeerAt (i : Nat) : (clearPeerAt i s).servo.st ≠ .unset := by
  simp only [clearPeerAt]
  split <;> simp [h]

@[simp] theorem away_applyDrift (p : DriftParams) (holdoff threshold : Nat) :
    (applyDrift p holdoff threshold s).servo.st ≠ .unset := by
  simp only [applyDrift]
  split <;> simp [h]

@[simp] theorem away_applyResponse (k : FaultKind) (r : Response) : (applyResponse k r s).servo.st ≠ .unset := by
  simp only [applyResponse]
  split <;> simp [h]

@[simp] theorem away_clearPosition (mask : BitVec 32) (k : FaultKind) : (clearPosition mask s k).servo.st ≠ .unset := by
  unfold clearPosition
  split <;> simp [h]

@[simp] theorem away_clearFlags (mask : BitVec 32) : (clearFlags mask s).1.servo.st ≠ .unset := by
  have h' := away_foldl (clearPosition mask) (fun _ k ht => away_clearPosition ht mask k) faultKinds s h
  simp only [clearFlags]
  repeat' split
  all_goals simpa using h'

@[simp] theorem away_barSource (i : Byte) (n : BitVec 16) : (barSource i n s).1.servo.st ≠ .unset := by
  unfold barSource
  repeat' split
  all_goals simp [h]

@[simp] theorem away_writePeer (a : PeerArg) : (writePeer a s).1.servo.st ≠ .unset := by
  simp only [writePeer]
  repeat' split
  all_goals simp [h]

@[simp] theorem away_clearPeer (i : Byte) : (clearPeer i s).1.servo.st ≠ .unset := by
  unfold clearPeer
  split <;> simp [h]

@[simp] theorem away_writeFault (k r : Byte) : (writeFault k r s).1.servo.st ≠ .unset := by
  unfold writeFault
  split <;> simp [h]

@[simp] theorem away_applyReload (c : Settings) (bank : Vector MatchEntry 64) : (applyReload c bank s).servo.st ≠ .unset := by
  simp [applyReload, h]

@[simp] theorem away_servoSoftReset : (servoSoftReset s).servo.st ≠ .unset := by
  simp only [servoSoftReset]
  split <;> simp [servoHolds, setServoState, handRate, Servo.clearCounts, h]

@[simp] theorem away_softResetNow (reload : Bool) : (softResetNow reload s).servo.st ≠ .unset := by
  simp [softResetNow, h]

@[simp] theorem away_raiseAgain (expired : Bool) : (raiseAgain expired s).servo.st ≠ .unset := by
  simp only [raiseAgain]
  repeat' split
  all_goals repeat first
    | with_reducible exact h
    | with_reducible refine away_raiseWithHold ?_ _ _ _ _
    | rw [servo_raiseLogFullAgain]

@[simp] theorem away_completeSoft (expired : Bool) : (completeSoft expired s).servo.st ≠ .unset := by
  simp [completeSoft, h]

@[simp] theorem away_finishReload (first second : List Byte) : (finishReload first second s).servo.st ≠ .unset := by
  simp only [finishReload]
  split <;> simp [h]

@[simp] theorem away_linkBackUp (p : Port) : (linkBackUp p s).servo.st ≠ .unset := by
  simp only [linkBackUp]
  repeat' split
  all_goals simp [h]

@[simp] theorem away_linkComesUp (p : Port) : (linkComesUp p s).servo.st ≠ .unset := by
  simp only [linkComesUp]
  split <;> simp [h]

@[simp] theorem away_finishSave (written readBack : List Byte) : (finishSave written readBack s).servo.st ≠ .unset := by
  unfold finishSave
  split <;> simp [h]

@[simp] theorem away_endMemoryTest (pass : Bool) : (endMemoryTest pass s).servo.st ≠ .unset := by
  unfold endMemoryTest
  split <;> simp [h]

end

/-! ### Past a date -/

/-- Outside UNSET, at a date not before `least`, in units of 2^-32 ns. -/
structure Past (least : Nat) (s : State) : Prop where
  away : s.servo.st ≠ .unset
  date : DateOk s.clock.date
  later : least ≤ s.clock.date.units

section
variable {least : Nat} {s : State}

theorem Past.of {t : State} (h : Past least s) (away : t.servo.st ≠ .unset) (a : t.anchor = s.anchor := by simp) :
    Past least t :=
  ⟨away, by rw [anchor_date a]; exact h.date, by rw [anchor_date a]; exact h.later⟩

/-- An operation that leaves the Servo and the anchor as they are. -/
theorem Past.same {t : State} (h : Past least s) (v : t.servo = s.servo := by simp) (a : t.anchor = s.anchor := by simp) :
    Past least t := h.of (v ▸ h.away) a

theorem past_stepTo (m : Date × Bool) (hm : DateOk m.1) (later : s.clock.date.units ≤ m.1.units) (h : Past least s) :
    Past least (stepTo m s) := by
  have moved : Past least (s.setClock { s.clock with date := m.1, epoch := (s.clock.epoch + 1) % 65536 }) :=
    ⟨h.away, hm, h.later.trans later⟩
  simp only [stepTo]
  split
  exacts [moved.same, moved]

theorem past_forwardStep (amount : Nat) (h : Past least s) : Past least (forwardStep amount s) :=
  past_stepTo _ (stepDate_ok h.date amount) (stepDate_le h.date amount) h

theorem past_servoStep (amount : Nat) (h : Past least s) : Past least (servoStep amount s) := by
  have stepped := past_forwardStep amount h
  exact stepped.of (by simp [servoStep, afterStep, h.away]) (by simp [servoStep])

theorem past_filterAndLock (x : ServoSample) (h : Past least s) : Past least (filterAndLock x s) :=
  h.of (by simp [filterAndLock, h.away])

theorem past_sampleInCatchDown (x : ServoSample) (h : Past least s) : Past least (sampleInCatchDown x s) := by
  have released : Past least (s.setServo { s.servo with catchDown := false }) := h.of h.away
  simp only [sampleInCatchDown]
  split
  · exact h.of h.away
  · split
    · exact past_servoStep _ (released.of (by simp [handRate, h.away]))
    · exact past_filterAndLock x released

theorem past_sampleOutside (x : ServoSample) (h : Past least s) : Past least (sampleOutside x s) := by
  unfold sampleOutside
  split
  · exact past_servoStep _ h
  · split
    exacts [h.of (away_startCatchDown h.away), past_filterAndLock x h]

theorem past_takeSample (x : ServoSample) (h : Past least s) : Past least (takeSample x s) := by
  have follow : Past least (sampleInFollow x s) := by
    simp only [sampleInFollow]
    split
    exacts [past_sampleInCatchDown x (h.of h.away), past_sampleOutside x (h.of h.away)]
  unfold takeSample
  split
  case h_1 hu => exact absurd hu h.away
  case h_2 | h_3 => exact follow
  case h_4 | h_5 => exact h

theorem past_setDateTo (d : SN) (h : Past least s) : Past least (setDateTo d s).1 := by
  simp only [setDateTo]
  split
  case h_1 hu => exact absurd hu h.away
  case h_2 =>
    split
    · exact h
    · have stepped := past_forwardStep ((⟨d.s, min d.n 999999999⟩ : SN).ns - s.clock.date.ns) h
      split
      exacts [h, stepped.same]
  all_goals exact h

theorem past_afterBeacon (w : Whole) (i p : Nat) (a : Int) (old : Option (Nat × SourceEntry)) (h : Past least s) :
    Past least (afterBeacon w i p a old s) := by
  have judged : Past least (watchSecond (reevaluate old .lost (some i) s)) := h.of (by simp [h.away])
  simp only [afterBeacon]
  repeat' split
  · exact past_takeSample _ judged.same
  · exact judged
  · exact judged

theorem past_handleBeacon (w : Whole) (h : Past least s) : Past least (handleBeacon w s) := by
  have table : Past least (beaconIntoTable w s) := by
    simp only [beaconIntoTable]
    repeat' split
    · exact h.same
    · exact past_afterBeacon _ _ _ _ _ h.same
    · exact h
    · exact past_afterBeacon _ _ _ _ _ h.same
    · exact h.same
  simp only [handleBeacon]
  split
  exacts [table.same, h.same]

theorem past_dispatchL2 (w : Whole) (h : Past least s) : Past least (dispatchL2 w s) := by
  unfold dispatchL2
  repeat' split
  · exact past_handleBeacon w h
  all_goals exact h.same

theorem past_dispatchUdp (w : Whole) (mgmt utx : Bool) (privilege : Privilege) (h : Past least s) :
    Past least (dispatchUdp w mgmt utx privilege s) := by
  refine h.of ?_
  unfold dispatchUdp
  repeat' split
  all_goals simp [h.away]

theorem past_endFrame (p : Port) (r : Rx) (h : Past least s) : Past least (endFrame p r s) := by
  have gone : Past least (setRx p none s) := h.same
  simp only [endFrame]
  repeat' split
  · exact h.same
  · exact past_dispatchL2 _ gone
  · exact gone.same
  · exact past_dispatchUdp _ _ _ _ gone
  · exact gone.same
  all_goals exact gone

theorem past_lookupFrame (p : Port) (r : Rx) (ended : Bool) (h : Past least s) : Past least (lookupFrame p r ended s) := by
  have mark : ∀ i e, Past least (markFrame p r i e s) := by
    intro i e
    have remembered : Past least (rememberStamp (issueDate s.clock.lastStamp r.ingress) s) := ⟨h.away, h.date, h.later⟩
    have opened : Past least (openMark p i e r.ingress s) := remembered.same (by simp [rememberStamp]) (anchor_openMark ..)
    simp only [markFrame]
    split
    all_goals exact opened.same
  unfold lookupFrame
  repeat' split
  · exact h.same
  · exact h.same
  · exact mark _ _
  · exact h.same
  · exact h.same

theorem past_receiveEnd (p : Port) (r : Rx) (h : Past least s) : Past least (receiveEnd p r s) := by
  simp only [receiveEnd]
  split
  · exact h.same
  · have found : ∀ ended, Past least (if r.upToOversize.stage = .parsing then lookupFrame p r.upToOversize ended s else s) := by
      intro ended
      split
      exacts [past_lookupFrame _ _ _ h, h]
    have found := found (decide (r.upToOversize.bytes.length < frameHeader r.upToOversize.bytes + Config.lookupBytes + 4))
    generalize (if r.upToOversize.stage = .parsing then _ else s) = u at found ⊢
    repeat' split
    · exact found.same
    · exact past_endFrame _ _ found
    · exact found

theorem past_periodTo (m : Date × Bool) (second : Bool) (hm : DateOk m.1) (later : s.clock.date.units ≤ m.1.units)
    (h : Past least s) : Past least (periodTo m second s) := by
  have moved : Past least (s.setClock { s.clock with date := m.1, up := s.clock.up + 1 }) :=
    ⟨h.away, hm, h.later.trans later⟩
  have flowed : Past least ((s.setClock { s.clock with date := m.1, up := s.clock.up + 1 }).setPorts (s.ports.map flowPort)) :=
    moved.same
  have turned : ∀ t, Past least t → Past least (uptimeSecond t) := fun t ht => ht.of (by
    simp only [uptimeSecond]
    split <;> simp [ht.away])
  simp only [periodTo]
  repeat' split
  · exact (turned _ flowed).same
  · exact flowed.same
  · exact (turned _ flowed).same
  · exact flowed.same

theorem past_clockPeriod (hi : s.clock.inc < Config.nsPerSec * Config.fracPerNs) (h : Past least s) :
    Past least (clockPeriod s) := by
  refine past_periodTo _ _ (advance_ok h.date _ hi) ?_ h
  rw [advance_units h.date _ hi]
  have := Date.units_lt h.date
  have := maxDate_units
  split <;> omega

end

/-- While RUNNING, past a date outside UNSET. -/
def Onward (least : Nat) (s : State) : Prop := s.run = .running → Past least s

section
variable {least : Nat} {s : State}

/-- An operation that keeps the run state. -/
theorem Onward.of {t : State} (h : Onward least s) (hp : Past least s → Past least t)
    (hb : t.base = s.base := by simp) : Onward least t := fun hrun => hp (h ((congrArg Base.run hb).symm.trans hrun))

theorem onward_fullReset (s : State) : Onward least (fullReset s) := fun hr => nomatch hr

theorem onward_takePendingReset (h : Onward least s) : Onward least (takePendingReset s) := by
  unfold takePendingReset
  split
  case h_1 k _ =>
    cases k with
    | soft =>
      have completed : Onward least (completeSoft (softResetNow false s).servo.expired (softResetNow false s)) :=
        h.of (fun q => q.of (away_completeSoft (away_softResetNow q.away false) _))
      exact completed
    | softReload =>
      have reset : Onward least (softResetNow true s) := h.of (fun q => q.of (away_softResetNow q.away true))
      exact reset
    | full => exact onward_fullReset s
  case h_2 => exact h

theorem onward_finishFrame (e : Exec) (h : Onward least s) : Onward least (finishFrame e s) := by
  simp only [finishFrame]
  have offered : ∀ p tag off bytes (t : State), Onward least t → Onward least (offerGeneral p tag off bytes t).1 :=
    fun _ _ _ _ _ ht => ht.of (fun q => q.same)
  split
  · exact h.of (fun q => q.same)
  · exact onward_takePendingReset (offered _ _ _ _ _ (h.of (fun q => q.same)))

theorem onward_advanceFrame (e : Exec) (h : Onward least s) : Onward least (advanceFrame e s) := by
  simp only [advanceFrame]
  split
  exacts [onward_finishFrame _ h, h.of (fun q => q.same)]

theorem onward_deliver (code : Nat) (out : State × Status × List Byte) (h : Onward least out.1) :
    Onward least (deliver code out) := by
  simp only [deliver, answerInFrame]
  split
  · exact onward_advanceFrame _ (h.of (fun q => q.same))
  · exact onward_takePendingReset (h.of (fun q => q.same))

theorem onward_logTakeMeaning (n : Byte) (room : Nat) (h : Onward least s) :
    Onward least (logTakeMeaning n room s).1 := by
  simp only [logTakeMeaning]
  split
  · exact h
  · split
    · exact h
    · exact h
    · have removed : ∀ k, Onward least (removeRecords k s) := fun k => h.of (fun q => q.same)
      exact removed _

theorem onward_linkGoesDown (p : Port) (more : List Byte) (h : Onward least s) : Onward least (linkGoesDown p more s) := by
  simp only [linkGoesDown]
  have down : Onward least (echoLinkDown p (flushEgress p (loseReception p more (s.setPort p { s.port p with up := false })))) :=
    h.of (fun q => q.same)
  generalize echoLinkDown p (flushEgress p (loseReception p more (s.setPort p { s.port p with up := false }))) = x at down ⊢
  have raised : Onward least (if (x.port p).seenUp then raiseWithHold .linkDown (.port p) true .nothing x else x) := by
    split
    exacts [down.of (fun q => q.of (away_raiseWithHold q.away _ _ _ _)), down]
  generalize (if (x.port p).seenUp then raiseWithHold .linkDown (.port p) true .nothing x else x) = y at raised ⊢
  have chosen : Onward least (if p.isUplink then reevaluate y.selectedPair .lost none y else y) := by
    split
    exacts [raised.of (fun q => q.of (away_reevaluate q.away _ _ _)), raised]
  split
  exacts [onward_takePendingReset chosen, chosen]

end

theorem onward_keptByEvents {least : Nat} : KeptByEvents (Onward least) where
  pulseEnd _ h _ := h.of (fun q => ⟨q.away, q.date, q.later⟩)
  fullReset s _ := onward_fullReset s
  holdReset _ _ := fun hr => nomatch hr
  linkDown _ p more h := onward_linkGoesDown p more h
  linkUp _ p h _ _ := h.of (fun q => q.of (away_linkComesUp q.away p))
  frameStart _ _ h _ _ := h.of (fun q => q.same)
  lookup _ p _ _ ended h _ _ _ _ := h.of (fun q => past_lookupFrame p _ ended q)
  editHold _ _ _ _ _ h _ _ _ _ _ := h.of (fun q => q.same)
  oversizeLookup _ p _ _ h _ _ _ := h.of (fun q => past_lookupFrame p _ false q)
  oversize _ _ _ _ h _ := h.of (fun q => q.same)
  frameEnd _ p _ _ h _ _ := h.of (fun q => past_receiveEnd p _ q)
  sent _ _ _ h _ _ := h.of (fun q => q.same)
  arbitrate _ _ h := h.of (fun q => q.same)
  pendingReset _ h := onward_takePendingReset h
  controlTake _ _ _ h _ _ := onward_advanceFrame _ (h.of (fun q => q.same))
  reload _ first second h _ := h.of (fun q => q.of (away_finishReload q.away first second))
  save _ img readBack h _ := h.of (fun q => q.of (away_finishSave q.away img readBack))
  echoInterval _ _ h _ _ := h.of (fun q => q.same)
  echoTimeout _ _ h _ _ := h.of (fun q => q.same)
  stale _ i _ h _ _ := h.of (fun q => q.of (away_goStale q.away i))
  removal _ _ _ h _ _ := h.of (fun q => q.same)
  barEnd _ i e h _ _ _ := h.of (fun q => q.of (away_endBar q.away i e))
  holdover _ h _ := h.of (fun q => q.of (away_expireHoldover q.away))
  slot _ _ h _ := h.of (fun q => q.same)
  report _ _ h _ := h.of (fun q => q.same)
  silence _ _ h _ := h.of (fun q => q.of (away_judgeRack q.away))
  holdoff _ _ h _ := h.of (fun q => q.same)
  testEnd _ pass _ h _ := h.of (fun q => q.of (away_endMemoryTest q.away pass))

theorem onward_keptByCommands {least : Nat} : KeptByCommands (Onward least) where
  deliver _ code out _ _ h := onward_deliver code out h
  logTake _ n room h := onward_logTakeMeaning n room h
  writeMatch _ _ _ h := h.of (fun q => q.same)
  copyActive _ h := h.of (fun q => q.same)
  swapCommand _ _ h := h.of (fun q => q.same)
  writePort _ _ h := h.of (fun q => q.same)
  writeLane _ _ h := h.of (fun q => q.same)
  writeOverride _ _ h := h.of (fun q => q.same)
  writePeer s a h := h.of (fun q => q.of (away_writePeer q.away a))
  clearPeer s i h := h.of (fun q => q.of (away_clearPeer q.away i))
  writeServo s a h := h.of (fun q => q.of (away_applyServo q.away _ _ _))
  writeDrift s a h := h.of (fun q => q.of (away_applyDrift q.away _ _ _))
  writeFault s k r h := h.of (fun q => q.of (away_writeFault q.away k r))
  setDate _ _ _ h := h.of (fun q => past_setDateTo _ q)
  setTrim _ _ h := h.of (fun q => q.of (away_setTrimTo q.away _))
  clearFlags _ m h := h.of (fun q => q.of (away_clearFlags q.away m))
  barSource _ i n h := h.of (fun q => q.of (away_barSource q.away i n))
  freeze _ h := h.of (fun q => q.same)
  release _ h := h.of (fun q => q.same)
  testLog _ h := h.of (fun q => q.same)
  saveSettings _ h := h.of (fun q => q.same)
  resetCommand _ a h _ := h.of (fun q => q.same)

/-- Settles O9: from a state outside UNSET, every command goes onward or begins a full reset. -/
theorem theDateNeverGoesBackOutsideUnset : Obligations.TheDateNeverGoesBackOutsideUnset := by
  intro s t hc hrun hu hs ht
  have hi : s.clock.inc < Config.nsPerSec * Config.fracPerNs := lt_of_le_of_lt hc.inc.2 (by decide)
  have onward : Onward s.clock.date.units t := by
    unfold step at hs
    split at hs
    case h_1 => cases hs; exact fun _ => ⟨hu, hc.date, le_rfl⟩
    case h_2 c rest _ =>
      have h : Past s.clock.date.units (s.setPending rest) := ⟨hu, hc.date, le_rfl⟩
      refine kept_exec onward_keptByEvents onward_keptByCommands (fun _ => h) (fun _ _ _ => past_clockPeriod hi h) ?_ hs
      exact fun _ _ _ hl => absurd (hl.symm.trans hrun) (by decide)
  exact ⟨(onward ht).later, (onward ht).away⟩

end Sys2Proof.Machine
end

section
/-! Queue, run state and uptime under every command (R4, R124, R210), and the engine held in reset (R210, log 25). -/

namespace Sys2Proof.Machine

theorem base_logTakeMeaning (n : Byte) (room : Nat) (s : State) : (logTakeMeaning n room s).1.base = s.base := by
  simp only [logTakeMeaning]
  split
  · rfl
  · split
    · rfl
    · rfl
    · exact base_removeRecords _ _

section
variable {P : State → Prop} (same : ∀ s t : State, t.base = s.base → P s → P t) (full : ∀ s, P s → P (fullReset s))
include same full

/-! ### What depends on queue, run state and uptime alone -/

theorem base_kept_takePendingReset (s : State) (h : P s) : P (takePendingReset s) := by
  unfold takePendingReset
  split
  case h_1 k _ =>
    cases k with
    | soft => exact same s (completeSoft (softResetNow false s).servo.expired (softResetNow false s)) (by simp) h
    | softReload => exact same s (softResetNow true s) (by simp) h
    | full => exact full s h
  case h_2 => exact h

theorem base_kept_advanceFrame (e : Exec) (s : State) (h : P s) : P (advanceFrame e s) := by
  simp only [advanceFrame, finishFrame]
  repeat' split
  · exact same s _ (by simp) h
  · exact base_kept_takePendingReset same full _ (same s _ (by simp) h)
  · exact same s _ rfl h

theorem base_kept_deliver (code : Nat) (out : State × Status × List Byte) (h : P out.1) : P (deliver code out) := by
  simp only [deliver, answerInFrame]
  split
  · exact base_kept_advanceFrame same full _ _ (same out.1 _ rfl h)
  · exact base_kept_takePendingReset same full _ (same out.1 _ rfl h)

theorem base_kept_linkGoesDown (p : Port) (more : List Byte) (s : State) (h : P s) : P (linkGoesDown p more s) := by
  simp only [linkGoesDown]
  repeat' split
  all_goals first
    | exact base_kept_takePendingReset same full _ (same s _ (by simp) h)
    | exact same s _ (by simp) h

theorem keptByEvents_of_base (hold : ∀ s, P s → P (holdReset s)) : KeptByEvents P where
  pulseEnd s h _ := same s _ rfl h
  fullReset := full
  holdReset := hold
  linkDown s p more h := base_kept_linkGoesDown same full p more s h
  linkUp s _ h _ _ := same s _ (by simp) h
  frameStart s _ h _ _ := same s _ (by simp) h
  lookup s _ _ _ _ h _ _ _ _ := same s _ (by simp) h
  editHold s _ _ _ _ h _ _ _ _ _ := same s _ (by simp) h
  oversizeLookup s _ _ _ h _ _ _ := same s _ (by simp) h
  oversize s _ _ _ h _ := same s _ (by simp) h
  frameEnd s _ _ _ h _ _ := same s _ (by simp) h
  sent s _ _ h _ _ := same s _ (by simp) h
  arbitrate s _ h := same s _ (by simp) h
  pendingReset := base_kept_takePendingReset same full
  controlTake s _ _ h _ _ := base_kept_advanceFrame same full _ _ (same s _ rfl h)
  reload s _ _ h _ := same s _ (by simp) h
  save s _ _ h _ := same s _ (by simp) h
  echoInterval s _ h _ _ := same s _ (by simp) h
  echoTimeout s _ h _ _ := same s _ (by simp) h
  stale s _ _ h _ _ := same s _ (by simp) h
  removal s _ _ h _ _ := same s _ rfl h
  barEnd s _ _ h _ _ _ := same s _ (by simp) h
  holdover s h _ := same s _ (by simp) h
  slot s _ h _ := same s _ (by simp) h
  report s _ h _ := same s _ (by simp) h
  silence s _ h _ := same s _ (by simp) h
  holdoff s _ h _ := same s _ rfl h
  testEnd s _ _ h _ := same s _ (by simp) h

theorem keptByCommands_of_base : KeptByCommands P where
  deliver _ code out _ _ h := base_kept_deliver same full code out h
  logTake s n room h := same s _ (base_logTakeMeaning n room s) h
  writeMatch s _ _ h := same s _ (by simp) h
  copyActive s h := same s _ (by simp) h
  swapCommand s _ h := same s _ (by simp) h
  writePort s _ h := same s _ (by simp) h
  writeLane s _ h := same s _ (by simp) h
  writeOverride s _ h := same s _ (by simp) h
  writePeer s _ h := same s _ (by simp) h
  clearPeer s _ h := same s _ (by simp) h
  writeServo s _ h := same s _ (by simp) h
  writeDrift s _ h := same s _ (by simp) h
  writeFault s _ _ h := same s _ (by simp) h
  setDate s _ _ h := same s _ (by simp) h
  setTrim s _ h := same s _ (by simp) h
  clearFlags s _ h := same s _ (by simp) h
  barSource s _ _ h := same s _ (by simp) h
  freeze s h := same s _ (by simp) h
  release s h := same s _ (by simp) h
  testLog s h := same s _ (by simp) h
  saveSettings s h := same s _ (by simp) h
  resetCommand s _ h _ := same s _ (by simp) h

end

/-! ### Uptime and run state -/

/-- Queue, run state and uptime as they were, or a full reset begun. -/
def KeptOrReset (b : Base) (s : State) : Prop :=
  s.base = b ∨ s.pending = b.pending ∧ s.clock.up = 0 ∧ (s.run = .loading ∨ s.run = .held)

theorem KeptOrReset.pending {b : Base} {s : State} (h : KeptOrReset b s) : s.pending = b.pending :=
  h.elim (fun hb => congrArg Base.pending hb) (fun hr => hr.1)

theorem KeptOrReset.of {b : Base} {s t : State} (hb : t.base = s.base) (h : KeptOrReset b s) : KeptOrReset b t :=
  h.imp (hb.trans ·) (fun ⟨hp, hu, hr⟩ =>
    ⟨(base_pending hb).trans hp, (base_up hb).trans hu, by rw [base_run hb]; exact hr⟩)

theorem keptOrReset_exec {c : Instr} {s t : State} (hp : c ≠ .oscillatorPeriod)
    (hl : ∀ first second, c = .settingsLoadEnd first second → s.run ≠ .loading) (he : exec c s = .next t) :
    KeptOrReset s.base t := by
  have full : ∀ u, KeptOrReset s.base u → KeptOrReset s.base (fullReset u) := fun u h => .inr ⟨h.pending, rfl, .inl rfl⟩
  exact kept_exec (P := KeptOrReset s.base)
    (keptByEvents_of_base (fun _ _ => KeptOrReset.of) full (fun u h => .inr ⟨h.pending, rfl, .inr rfl⟩))
    (keptByCommands_of_base (fun _ _ => KeptOrReset.of) full)
    (.inl rfl) (fun h => absurd h hp) (fun f g h hr => absurd hr (hl f g h)) he

/-- Settles O10: the period and the end of a load by what they do, every other command by what it cannot do. -/
theorem uptimeCountsPeriodsFromTheFullReset : Obligations.UptimeCountsPeriodsFromTheFullReset := by
  intro c s t he
  by_cases hp : c = .oscillatorPeriod
  · subst hp
    simp only [exec, execOscillatorPeriod, Host.Outcome.next.injEq] at he
    subst he
    split
    case isTrue held => exact ⟨rfl, .inl ⟨rfl, rfl, fun _ => held⟩⟩
    case isFalse run =>
      have hb := base_clockPeriod s
      exact ⟨congrArg Base.pending hb, .inr (.inl ⟨rfl, run, congrArg Base.run hb, congrArg Base.up hb⟩)⟩
  by_cases hl : s.run = .loading ∧ ∃ first second, c = .settingsLoadEnd first second
  · obtain ⟨hrun, first, second, rfl⟩ := hl
    simp only [exec, execSettingsLoadEnd, if_pos hrun, Host.Outcome.next.injEq] at he
    subst he
    have hb := base_finishLoad first second s
    exact ⟨congrArg Base.pending hb,
      .inr (.inr (.inl ⟨first, second, rfl, hrun, congrArg Base.run hb, congrArg Base.up hb⟩))⟩
  · have h : KeptOrReset s.base t := keptOrReset_exec hp (fun f g hc hr => hl ⟨hr, f, g, hc⟩) he
    refine ⟨h.pending, ?_⟩
    obtain hb | ⟨-, hu, hr⟩ := h
    · exact .inl ⟨base_run hb, base_up hb, fun hc => absurd hc hp⟩
    · exact .inr (.inr (.inr ⟨hp, hu, hr⟩))

/-! ### The state after a full reset -/

theorem port_reset (p : Port) : State.reset.port p = PortUnit.reset := by cases p <;> rfl

theorem source_reset (i : Nat) : State.reset.source i = none := by
  simp only [State.source, State.reset, Vector.getElem?_replicate]
  split <;> rfl

theorem peer_reset (i : Nat) : State.reset.peer i = PeerDyn.reset := by
  by_cases hi : i < 32 <;> simp [State.peer, State.reset, DriftMonitor.reset, Vector.getD, hi]

theorem peerCfg_reset (i : Nat) : State.reset.peerCfg i = ⟨false, 0, 0, .u0⟩ := by
  by_cases hi : i < 32 <;> simp [State.peerCfg, State.reset, Settings.default, Vector.getD, hi]

theorem fault_reset (k : FaultKind) : State.reset.fault k = ⟨false, 0, none, none⟩ := by cases k <;> rfl

theorem form_reset (a : AlertForm) : State.reset.form a = ⟨none, 0⟩ := by
  cases a with
  | fault k => cases k <;> rfl
  | logLevel => rfl

/-- Settles O2, field by field. -/
theorem resetLeavesTheValuesOfTheManual : Obligations.ResetLeavesTheValuesOfTheManual := by
  refine ⟨rfl, rfl, ?echo, source_reset, rfl, ?lane, ?port, rfl, rfl, rfl, rfl, peer_reset, rfl, rfl, rfl, fault_reset,
    form_reset, rfl, rfl, rfl, rfl, rfl⟩
  case echo => intro l; cases l <;> rfl
  case lane => intro l; cases l <;> rfl
  case port =>
    intro p
    simp only [port_reset]
    exact ⟨rfl, rfl, rfl, rfl, rfl, rfl, rfl, rfl, rfl, rfl⟩

theorem portLoading_reset : PortLoading PortUnit.reset :=
  ⟨rfl, rfl, rfl, rfl, rfl, nofun, nofun, nofun, rfl⟩

/-- Settles O3: the operations that end in the state after a full reset keep each invariant from any state. -/
theorem resetMeetsTheInvariants : Obligations.ResetMeetsTheInvariants := by
  have clk := clk_fullReset State.reset
  have rated := rated_fullReset State.reset
  have settings := set_fullReset State.reset
  exact ⟨logOk_fullReset State.reset, ⟨clk.date, rated.inc, clk.epoch, clk.stamp, cap_fullReset State.reset⟩, rated.ok,
    src_fullReset State.reset, q_fullReset State.reset, rk_fullReset State.reset, settings.cfg, settings.bank0,
    settings.bank1, ⟨rfl, fun p => by rw [port_reset]; exact portLoading_reset⟩⟩

/-- Settles O1: each command is answered with a next state by its arm. -/
theorem stepRunsTheFrontCommand : Obligations.StepRunsTheFrontCommand := by
  refine ⟨fun s c rest h => ?front, fun s h => ?idle, fun c s => ?next⟩
  case front => simp only [step, h, State.setPending]
  case idle => simp only [step, h]
  case next => cases c <;> exact ⟨_, rfl⟩

/-! ### The engine held in reset -/

/-- The engine while the RESET line is low, with its queue. -/
def heldState (q : List Instr) : State := { State.reset with pending := q, run := .held }

section
variable (q : List Instr)

theorem port_heldState (p : Port) : (heldState q).port p = PortUnit.reset := port_reset p

theorem source_heldState (i : Nat) : (heldState q).source i = none := source_reset i

theorem peerCfg_heldState (i : Nat) : (heldState q).peerCfg i = ⟨false, 0, 0, .u0⟩ := peerCfg_reset i

theorem holdoffOver_heldState (a : AlertForm) : holdoffOver (heldState q) a = false := by
  have idle : (heldState q).form a = ⟨none, 0⟩ := form_reset a
  simp [holdoffOver, idle]

/-- No command but POWER_ON and RESET_LINE_RELEASE finds anything to do. -/
theorem exec_heldState {c : Instr} (h1 : c ≠ .powerOn) (h2 : c ≠ .resetLineRelease) :
    exec c (heldState q) = .next (heldState q) := by
  cases c
  case powerOn => exact absurd rfl h1
  case resetLineRelease => exact absurd rfl h2
  case lookupPoint p more ended => simp [exec, execLookupPoint, port_heldState, PortUnit.reset]
  case editHoldEnd p more => simp [exec, execEditHoldEnd, port_heldState, PortUnit.reset]
  case frameEnd p more => simp [exec, execFrameEnd, port_heldState, PortUnit.reset]
  case controlFrameTake p => simp [exec, execControlFrameTake, port_heldState, PortUnit.reset]
  case frameSent p => simp [exec, execFrameSent, port_heldState, PortUnit.reset]
  case sourceStale i => simp [exec, execSourceStale, source_heldState]
  case sourceRemoval i => simp [exec, execSourceRemoval, source_heldState]
  case barExpiry i => simp [exec, execBarExpiry, source_heldState]
  case echoIntervalExpiry p => cases p <;> rfl
  case echoTimeout p => cases p <;> rfl
  case peerSilence i => simp [exec, execPeerSilence, peerSilentDue, peerCfg_heldState]
  case alertHoldoffExpiry form =>
    simp only [exec, execAlertHoldoffExpiry, holdoffOver_heldState]
    split <;> rfl
  all_goals rfl

end

/-- Settles O11: every arm finds nothing to do in the held state. -/
theorem theHeldEngineStandsStill : Obligations.TheHeldEngineStandsStill := by
  intro c s hs
  obtain ⟨q, rfl⟩ : ∃ q, s = heldState q := ⟨s.pending, hs⟩
  refine ⟨exec_heldState q, ?_⟩
  rintro (rfl | rfl) <;> rfl

end Sys2Proof.Machine
end

section
/-! LOADING: nothing but pass-through traffic, links, the date and uptime moves (R124). -/

namespace Sys2Proof.Machine

/-! ### Ports in LOADING -/

section
variable {u : PortUnit} (h : PortLoading u)
include h

theorem PortLoading.setUp (b : Bool) : PortLoading { u with up := b } :=
  ⟨h.seen, h.ctx, h.timing, h.general, h.held, h.rx, h.buffer, h.tx, h.stats⟩

theorem PortLoading.setRx {r : Option Rx} (hr : ∀ x, r = some x → x.plain) : PortLoading { u with rx := r } :=
  ⟨h.seen, h.ctx, h.timing, h.general, h.held, hr, h.buffer, h.tx, h.stats⟩

theorem PortLoading.setBuffer {b : List FwdFrame} (hb : ∀ f ∈ b, f.edit = .none) : PortLoading { u with buffer := b } :=
  ⟨h.seen, h.ctx, h.timing, h.general, h.held, h.rx, hb, h.tx, h.stats⟩

theorem PortLoading.setTx {t : Option Tx} (ht : ∀ x, t = some x → x.plain) : PortLoading { u with tx := t } :=
  ⟨h.seen, h.ctx, h.timing, h.general, h.held, h.rx, h.buffer, ht, h.stats⟩

theorem PortLoading.setSent (l : Option SentFrame) : PortLoading { u with lastSent := l } :=
  ⟨h.seen, h.ctx, h.timing, h.general, h.held, h.rx, h.buffer, h.tx, h.stats⟩

theorem PortLoading.addDrops (n : Nat) : PortLoading { u with stats := Stats.addTransitDrops n u.stats } :=
  ⟨h.seen, h.ctx, h.timing, h.general, h.held, h.rx, h.buffer, h.tx, by
    have := h.stats
    simp only [Stats.addTransitDrops]
    rw [this]⟩

theorem PortLoading.addPassed : PortLoading { u with stats := u.stats.incPassed } :=
  ⟨h.seen, h.ctx, h.timing, h.general, h.held, h.rx, h.buffer, h.tx, by
    have := h.stats
    simp only [Stats.incPassed]
    rw [this]⟩

theorem PortLoading.flushed (n : Nat) : PortLoading { u with
    buffer := [], timing := [], general := [], tx := none, stats := Stats.addTransitDrops n u.stats } :=
  ⟨h.seen, h.ctx, rfl, rfl, h.held, h.rx, nofun, nofun, (h.addDrops n).stats⟩

/-- A change of the arriving frame that gives it no edit. -/
theorem PortLoading.onArriving {f : FwdFrame → FwdFrame} (hf : ∀ x : FwdFrame, x.edit = .none → (f x).edit = .none) :
    PortLoading (onArriving f u) := by
  refine (h.setBuffer (b := u.buffer.map _) ?buffer).setTx ?tx
  case buffer =>
    intro x hx
    obtain ⟨y, hy, rfl⟩ := List.mem_map.1 hx
    split
    exacts [h.buffer y hy, hf y (h.buffer y hy)]
  case tx =>
    intro x hx
    obtain ⟨t, ht, rfl⟩ := Option.map_eq_some_iff.1 hx
    obtain ⟨ho, f', hb, he⟩ := h.tx t ht
    simp only [hb]
    split
    exacts [⟨ho, f', hb, he⟩, ⟨ho, _, rfl, hf f' he⟩]

theorem PortLoading.flow : PortLoading (flowPort u) := by
  have arrived := h.onArriving (f := fun x => { x with sinceHalf := countHalf x.sinceHalf }) (fun _ hx => hx)
  refine arrived.setTx ?_
  intro x hx
  obtain ⟨t, ht, rfl⟩ := Option.map_eq_some_iff.1 hx
  exact arrived.tx t ht

theorem PortLoading.lose (bytes : List Byte) : PortLoading (loseArriving bytes u) :=
  (h.setBuffer (fun f hf => h.buffer f (List.mem_filter.1 hf).1)).onArriving (fun _ hx => hx)

end

/-! ### The rest of the engine in LOADING -/

section
variable {s : State} (h : LoadingOk s)
include h

theorem LoadingOk.setPort {u : PortUnit} (hu : PortLoading u) (p : Port) : LoadingOk (s.setPort p u) := by
  refine ⟨?rest, fun q => ?port⟩
  case rest => simp only [State.setPort, State.setPorts]; rw [h.rest]
  case port =>
    rw [port_setPort]
    split
    exacts [hu, h.ports q]

theorem LoadingOk.running : s.run = .loading := by rw [h.rest]; rfl
theorem LoadingOk.agent : s.agent = Agent.reset := by rw [h.rest]; rfl
theorem LoadingOk.source (i : Nat) : s.source i = none := by rw [h.rest]; exact source_reset i
theorem LoadingOk.ctx (p : Port) : (s.port p).ctx = none := (h.ports p).ctx

theorem LoadingOk.addDrops (p : Port) (n : Nat) : LoadingOk (s.count p (Stats.addTransitDrops n)) :=
  h.setPort ((h.ports p).addDrops n) p

theorem LoadingOk.setRx (p : Port) {r : Option Rx} (hr : ∀ x, r = some x → x.plain) : LoadingOk (setRx p r s) :=
  h.setPort ((h.ports p).setRx hr) p

theorem LoadingOk.onArriving (p : Port) {f : FwdFrame → FwdFrame} (hf : ∀ x : FwdFrame, x.edit = .none → (f x).edit = .none) :
    LoadingOk (s.setPort p (onArriving f (s.port p))) := h.setPort ((h.ports p).onArriving hf) p

/-- With no context open a mark's rules change nothing. -/
theorem LoadingOk.settleStamp (p : Port) (w : Bool) : settleStamp p w s = s := by simp [Machine.settleStamp, h.ctx]

theorem LoadingOk.settleArrived (p : Port) (bytes : List Byte) : settleArrived p bytes s = s := by
  simp [Machine.settleArrived, h.ctx]

theorem LoadingOk.cutMark (p : Port) (bytes : List Byte) (len : Nat) : cutMark p bytes len s = s := by
  simp [Machine.cutMark, h.ctx]

theorem LoadingOk.closeMark (p : Port) (bytes : List Byte) (stop len : Nat) (badFcs : Bool) :
    closeMark p bytes stop len badFcs s = s := by
  simp [Machine.closeMark, h.ctx]

theorem LoadingOk.reevaluate (why : Reason) : reevaluate s.selectedPair why none s = s := by
  have noPair : s.selectedPair = none := by
    simp [State.selectedPair, State.selectedIndex, sourceIndices, State.isSelected, h.source]
  have noBest : bestSource s = none := by simp [bestSource, sourceIndices, betterOf, h.source]
  simp [Machine.reevaluate, noPair, noBest]

theorem LoadingOk.takePendingReset : takePendingReset s = s := by
  simp [Machine.takePendingReset, h.agent, Agent.reset]

theorem LoadingOk.echoLinkDown (p : Port) : echoLinkDown p s = s := by
  rw [h.rest]
  cases p <;> rfl

/-! ### Traffic in LOADING -/

theorem LoadingOk.arbitrate (p : Port) : LoadingOk (arbitrate p s) := by
  have hp := h.ports p
  have head : ∀ f fs, (s.port p).buffer = f :: fs →
      LoadingOk (grantForwarded p f (s.setPort p { s.port p with buffer := fs })) := by
    intro f fs hb
    have hf : ∀ x ∈ f :: fs, x.edit = .none := hb ▸ hp.buffer
    have taken : LoadingOk (s.setPort p { s.port p with buffer := fs }) :=
      h.setPort (hp.setBuffer (fun x hx => hf x (.tail _ hx))) p
    refine taken.setPort ((taken.ports p).setTx fun x hx => ?_) p
    cases hx
    exact ⟨rfl, f, rfl, hf f (.head _)⟩
  simp only [Machine.arbitrate]
  split
  · exact h
  · cases hb : (s.port p).buffer with
    | nil =>
      have grant : chooseGrant s.clock.up (s.port p) = .nothing := by simp [chooseGrant, hp.timing, hp.general, hb]
      rw [grant]
      exact h
    | cons f fs =>
      have grant : chooseGrant s.clock.up (s.port p) = if f.ready then .buffer f fs else .nothing := by
        simp [chooseGrant, hp.timing, hp.general, hb]
      rw [grant]
      cases hr : f.ready with
      | false => exact h
      | true => exact head f fs hb

theorem LoadingOk.forwardArriving (p : Port) {r : Rx} (hr : r.loading = true) (ready : Bool) :
    LoadingOk (forwardArriving p r ready s).1 := by
  have admitted : ∀ need f, f.edit = .none → LoadingOk (admitFrame p.partner need f s).1 := by
    intro need f hf
    simp only [admitFrame]
    split
    · refine h.setPort ((h.ports _).setBuffer fun x hx => ?_) _
      rcases List.mem_append.1 hx with hx | hx
      · exact (h.ports _).buffer x hx
      · exact List.mem_singleton.1 hx ▸ hf
    · exact h.addDrops _ _
  exact (admitted _ _ rfl).setRx p fun x hx => by
    cases hx
    exact ⟨hr, .inr (.inl ⟨_, rfl⟩)⟩

theorem LoadingOk.lookupFrame (p : Port) {r : Rx} (hr : r.loading = true) (ended : Bool) :
    LoadingOk (lookupFrame p r ended s) := by
  simp only [Machine.lookupFrame, hr, if_true, passFrame]
  exact (h.forwardArriving p hr true).arbitrate _

omit h in
theorem Rx.plain.withBytes {r : Rx} (hr : r.plain) (bytes : List Byte) : Rx.plain { r with bytes := bytes } := hr

theorem LoadingOk.overrun (p : Port) {r : Rx} (hr : r.plain) : LoadingOk (overrun p r s) := by
  have done : LoadingOk (Machine.setRx p (some { r with stage := .discarding }) s) := h.setRx p fun x hx => by
    cases hx
    exact ⟨hr.1, .inr (.inr rfl)⟩
  simp only [Machine.overrun]
  obtain ⟨-, hst | ⟨b, hst⟩ | hst⟩ := hr
  · rw [hst]; exact done
  · rw [hst]
    simp only [done.settleArrived, done.cutMark]
    split
    · refine ((done.onArriving p.partner ?_).addDrops _ _).arbitrate _
      exact fun _ hx => hx
    · exact done
  · rw [hst]; exact done

theorem LoadingOk.endFrame (p : Port) {r : Rx} (hr : r.plain) : LoadingOk (endFrame p r s) := by
  have gone : LoadingOk (Machine.setRx p none s) := h.setRx p nofun
  simp only [Machine.endFrame]
  obtain ⟨-, hst | ⟨b, hst⟩ | hst⟩ := hr
  · rw [hst]; exact gone
  · rw [hst]
    have grown : LoadingOk (if b then growArriving p r.bytes (Machine.setRx p none s) else Machine.setRx p none s) := by
      split
      exacts [gone.onArriving p.partner fun _ hx => hx, gone]
    simp only [endForwarded, grown.settleArrived, grown.settleStamp]
    have ended : ∀ t, LoadingOk t → LoadingOk (Machine.closeMark p r.bytes (r.bytes.length - 4) r.bytes.length (!fcsGood r.bytes)
        (Machine.arbitrate p.partner t)) := fun t ht => by
      rw [(ht.arbitrate _).closeMark]
      exact ht.arbitrate _
    refine ended _ ?_
    by_cases hb : b = true
    · rw [if_pos hb]
      exact grown.onArriving p.partner (fun _ hx => hx)
    · rw [if_neg hb]
      exact grown
  · rw [hst]; exact gone

theorem LoadingOk.receiveEnd (p : Port) {r : Rx} (hr : r.plain) : LoadingOk (receiveEnd p r s) := by
  simp only [Machine.receiveEnd]
  split
  · exact (h.setRx p (r := none) nofun).addDrops _ _
  · have found : ∀ ended, LoadingOk (if r.upToOversize.stage = .parsing then Machine.lookupFrame p r.upToOversize ended s else s) := by
      intro ended
      split
      exacts [h.lookupFrame p (r := r.upToOversize) hr.1 ended, h]
    have found := found (decide (r.upToOversize.bytes.length < frameHeader r.upToOversize.bytes + Config.lookupBytes + 4))
    generalize (if r.upToOversize.stage = .parsing then _ else s) = u at found ⊢
    split
    case h_1 r' hr' =>
      have plain : r'.plain := (found.ports p).rx r' hr'
      split
      · exact (found.overrun p (plain.withBytes _)).setRx p nofun
      · exact found.endFrame p (plain.withBytes _)
    case h_2 => exact found

theorem LoadingOk.oversizeArrives (p : Port) (more : List Byte) : LoadingOk (oversizeArrives p more s) := by
  simp only [Machine.oversizeArrives]
  split
  case h_2 => exact h
  case h_1 r hr =>
    have plain : r.plain := (h.ports p).rx r hr
    split
    case isFalse => exact h
    case isTrue =>
      have found : LoadingOk (if (r.grow more).upToOversize.stage = .parsing then
          Machine.lookupFrame p (r.grow more).upToOversize false s else s) := by
        split
        exacts [h.lookupFrame p (r := (r.grow more).upToOversize) plain.1 false, h]
      generalize (if (r.grow more).upToOversize.stage = .parsing then _ else s) = u at found ⊢
      split
      case h_1 r' hr' => exact found.overrun p (((found.ports p).rx r' hr').withBytes _)
      case h_2 => exact found

theorem LoadingOk.finishTx (p : Port) (t : Tx) : LoadingOk (finishTx p t s) := by
  have hp := h.ports p
  simp only [Machine.finishTx]
  split
  · exact h.setPort (((hp.setTx (t := none) nofun).setSent _).addPassed) p
  · exact h.setPort ((hp.setTx (t := none) nofun).setSent _) p

/-! ### Links and the oscillator in LOADING -/

theorem LoadingOk.loseReception (p : Port) (more : List Byte) : LoadingOk (loseReception p more s) := by
  simp only [Machine.loseReception]
  split
  case h_1 => exact h
  case h_2 r hr =>
    have gone : LoadingOk (Machine.setRx p none s) := h.setRx p nofun
    have plain : (r.grow more).plain := (h.ports p).rx r hr
    obtain ⟨-, hst | ⟨b, hst⟩ | hst⟩ := plain
    · rw [hst]; exact gone
    · rw [hst]
      simp only [gone.cutMark]
      split
      · exact (gone.setPort ((gone.ports p.partner).lose _) p.partner).addDrops _ _
      · exact gone
    · rw [hst]; exact gone

theorem LoadingOk.flushEgress (p : Port) : LoadingOk (flushEgress p s) := by
  have hp := h.ports p
  simp only [Machine.flushEgress]
  have flushed : LoadingOk (s.setPort p { s.port p with
      buffer := [], timing := [], general := [], tx := none
      stats := Stats.addTransitDrops (flushedCount (s.port p)) (s.port p).stats }) :=
    h.setPort (hp.flushed _) p
  split
  · have refused := flushed.setPort ((flushed.ports p.partner).setRx
      (r := ((State.setPort s p _).port p.partner).rx.map refuseRx) fun x hx => by
        obtain ⟨y, hy, rfl⟩ := Option.map_eq_some_iff.1 hx
        have plain := (flushed.ports p.partner).rx y hy
        unfold refuseRx
        split
        exacts [⟨plain.1, .inr (.inl ⟨_, rfl⟩)⟩, plain]) p.partner
    rw [loseStamp, refused.settleStamp]
    exact refused
  · exact flushed

theorem LoadingOk.linkGoesDown (p : Port) (more : List Byte) : LoadingOk (linkGoesDown p more s) := by
  have down := ((h.setPort ((h.ports p).setUp false) p).loseReception p more).flushEgress p
  simp only [Machine.linkGoesDown, down.echoLinkDown, (down.ports p).seen, down.reevaluate, down.takePendingReset,
    Bool.false_eq_true, if_false, ite_self]
  exact down

theorem LoadingOk.linkComesUp (p : Port) : LoadingOk (linkComesUp p s) := by
  have up := h.setPort ((h.ports p).setUp true) p
  simp only [Machine.linkComesUp, up.running, reduceCtorEq, if_false]
  exact up

theorem LoadingOk.tick (d : Date) (up : Nat) : LoadingOk (s.setClock { s.clock with date := d, up := up }) :=
  ⟨by simp only [State.setClock]; rw [h.rest], h.ports⟩

theorem LoadingOk.setPorts {q : Quad PortUnit} (hq : ∀ p, PortLoading (q.get p)) : LoadingOk (s.setPorts q) :=
  ⟨by simp only [State.setPorts]; rw [h.rest], hq⟩

theorem LoadingOk.uptimeSecond : uptimeSecond s = s := by
  have bars : (Vector.replicate 8 (none : Option SourceEntry)).map (fun e => e.map countBar) = Vector.replicate 8 none := by
    simp
  rw [h.rest]
  simp only [Machine.uptimeSecond, State.reset, bars]
  rfl

theorem LoadingOk.secondBoundary : secondBoundary s = s := by
  rw [h.rest]
  rfl

theorem LoadingOk.laneInstant (l : Lane) (old new : Date) : laneInstant l old new s = s := by
  simp [Machine.laneInstant, h.running]

theorem LoadingOk.clockPeriod : LoadingOk (clockPeriod s) := by
  have flow : ∀ p, PortLoading ((s.ports.map flowPort).get p) := fun p => by
    have flowed := (h.ports p).flow
    cases p <;> exact flowed
  have flowed := (h.tick (advance s.clock.date s.clock.inc).1 (s.clock.up + 1)).setPorts flow
  simp only [Machine.clockPeriod, periodTo, State.setClock_ports, flowed.uptimeSecond, flowed.secondBoundary, ite_self,
    flowed.laneInstant]
  exact flowed

end

/-- Settles O12: in LOADING every event is one of traffic, of a link or of the clock, or finds nothing to do. -/
theorem loadingOnlyForwardsTraffic : Obligations.LoadingOnlyForwardsTraffic := by
  intro s t c h he ht
  have hrun := h.running
  have idle : ∀ code i m, runCommand code i m s = s := fun code i m => by
    simp [runCommand, hasTurn, commandsTaken, hrun]
  cases c <;> simp only [exec] at he <;> injection he with he <;> subst he
  case oscillatorPeriod => simpa [hrun] using h.clockPeriod
  case secondPulseEnd =>
    have low : pulseOver s = false := by rw [h.rest]; rfl
    simpa [low] using h
  case powerOn => exact ⟨rfl, fun p => port_reset p ▸ portLoading_reset⟩
  case resetLineAssert => cases ht
  case resetLineRelease => simpa [hrun] using h
  case settingsLoadEnd f g =>
    have running : (finishLoad f g s).run = .running := congrArg Base.run (base_finishLoad f g s)
    rw [if_pos hrun, running] at ht
    cases ht
  case linkDown => split; exacts [(h.oversizeArrives _ _).linkGoesDown _ _, h]
  case linkUp => split; exacts [h.linkComesUp _, h]
  case frameStart p =>
    split
    · refine h.setRx p fun x hx => ?_
      cases hx
      exact ⟨by simp [hrun], .inl rfl⟩
    · exact h
  case lookupPoint p more ended =>
    split
    case h_1 r hr =>
      simp only []
      split
      exacts [h.lookupFrame p (r := r.grow more) ((h.ports p).rx r hr).1 ended, h]
    case h_2 => exact h
  case editHoldEnd p more => simpa [h.ctx p] using h
  case frameOversize p more => split; exacts [h.oversizeArrives p more, h]
  case frameEnd p more =>
    split
    case h_1 r hr =>
      split
      exacts [h.receiveEnd p (r := r.grow more) ((h.ports p).rx r hr), h]
    case h_2 => exact h
  case controlFrameTake p => simpa [(h.ports p).held] using h
  case softReloadEnd => simpa [h.agent, Agent.reset] using h
  case settingsSaveEnd => simpa [h.agent, Agent.reset] using h
  case echoIntervalExpiry p =>
    have idle : intervalDue s p = false := by rw [h.rest]; cases p <;> rfl
    simpa [idle] using h
  case echoTimeout p =>
    have idle : timeoutDue s p = false := by rw [h.rest]; cases p <;> rfl
    simpa [idle] using h
  case sourceStale i => simpa [h.source] using h
  case sourceRemoval i => simpa [h.source] using h
  case barExpiry i => simpa [h.source] using h
  case holdoverExpiry =>
    have idle : holdoverDue s = false := by rw [h.rest]; rfl
    simpa [idle] using h
  case reportSlot i =>
    have idle : slotDue s i = false := by rw [h.rest]; rfl
    simpa [idle] using h
  case peerSilence i =>
    have off : s.peerCfg i = ⟨false, 0, 0, .u0⟩ := by rw [h.rest]; exact peerCfg_reset i
    simpa [peerSilentDue, off] using h
  case alertHoldoffExpiry form =>
    have idle : ∀ a, holdoffOver s a = false := fun a => by
      have hf : s.form a = ⟨none, 0⟩ := by rw [h.rest]; exact form_reset a
      simp [holdoffOver, hf]
    split
    · simpa [idle] using h
    · exact h
  case logMemoryTestEnd =>
    have mem : s.log.mem = .inService := by rw [h.rest]; rfl
    simpa [mem] using h
  case frameSent p =>
    split
    case h_1 x hx =>
      obtain ⟨-, f, hb, -⟩ := (h.ports p).tx x hx
      split
      · simpa [carriesReset, hb] using (h.finishTx p x).arbitrate p
      · exact h
    case h_2 => exact h
  all_goals exact (idle _ _ _).symm ▸ h

end Sys2Proof.Machine
end

section
/-! The Rack Clock: a period's advance, aligned instants, forward steps and the increment of a rate (R2 to R8, R68). -/

namespace Sys2Proof.Machine

/-! ### One period -/

theorem spanUnits_eq : spanUnits = 281474976710656 * 1000000000 * 4294967296 := rfl

/-- The mark of a second boundary stands exactly where S increased, and a held advance gives the maximum date (R2, R5). -/
theorem advance_second {d : Date} (hd : DateOk d) {inc : Nat} (hi : inc < Config.nsPerSec * Config.fracPerNs) :
    (d.units + inc < spanUnits → (advance d inc).1.s = d.s + if (advance d inc).2 then 1 else 0) ∧
      (spanUnits ≤ d.units + inc → advance d inc = (maxDate, false)) := by
  obtain ⟨hs, hn, hf⟩ := hd
  by_cases h : d.n + (d.f + inc) / Config.fracPerNs < Config.nsPerSec
  case pos =>
    simp only [advance_plain d inc h]
    refine ⟨fun _ => rfl, fun hle => ?_⟩
    simp only [spanUnits_eq, Date.units, Date.ns, Config.nsPerSec, Config.fracPerNs] at hle h
    omega
  by_cases hS : d.s < Config.maxS
  case pos =>
    simp only [advance_carry d inc h hS]
    refine ⟨fun _ => rfl, fun hle => ?_⟩
    simp only [spanUnits_eq, Date.units, Date.ns, Config.nsPerSec, Config.fracPerNs, Config.maxS] at hle hS hi
    omega
  case neg =>
    refine ⟨fun hlt => ?_, fun _ => advance_held d inc h hS⟩
    simp only [spanUnits_eq, Date.units, Date.ns, Config.nsPerSec, Config.fracPerNs, Config.maxS] at hlt hS h
    omega

/-- Settles O13, by what an advance adds and where it carries or holds. -/
theorem aPeriodAddsTheIncrement : Obligations.APeriodAddsTheIncrement := by
  intro d inc hd hi
  obtain ⟨second, held⟩ := advance_second hd hi
  exact ⟨advance_ok hd inc hi, fun hlt => ⟨(advance_units hd inc hi).trans (if_pos hlt), second hlt⟩, held⟩

/-! ### Aligned instants -/

theorem alignedStep_pos {k : Int} : 0 < alignedStep k := by
  have := Nat.one_le_two_pow (n := (k + 4).toNat)
  simp only [alignedStep, Config.nsPerSec]
  omega

/-- Settles O15: the quotient by the step grows exactly where a multiple of it is passed. -/
theorem alignedInstantsAreTheMultiplesPassed : Obligations.AlignedInstantsAreTheMultiplesPassed := by
  intro k old new hk hk'
  have pos := @alignedStep_pos k
  refine ⟨fun t ht => ?latest, fun hnone m h1 h2 hm => ?none, ?step⟩
  case latest =>
    simp only [alignedInstant, Option.ite_none_right_eq_some, Option.some.injEq] at ht
    obtain ⟨hlt, rfl⟩ := ht
    rw [ns_snOfNs]
    refine ⟨(Nat.div_lt_iff_lt_mul pos).1 hlt, Nat.div_mul_le_self _ _, dvd_mul_left .., fun m hm hd => ?_⟩
    obtain ⟨c, rfl⟩ := hd
    rw [Nat.mul_comm]
    exact Nat.mul_le_mul_right _ ((Nat.le_div_iff_mul_le pos).2 (by rw [Nat.mul_comm]; exact hm))
  case none =>
    simp only [alignedInstant, ite_eq_right_iff, reduceCtorEq, imp_false, Nat.not_lt] at hnone
    obtain ⟨c, rfl⟩ := hm
    have h3 : c ≤ new.ns / alignedStep k := (Nat.le_div_iff_mul_le pos).2 (by rw [Nat.mul_comm]; exact h2)
    have h4 : old.ns / alignedStep k < c := (Nat.div_lt_iff_lt_mul pos).2 (by rw [Nat.mul_comm]; exact h1)
    omega
  case step =>
    obtain ⟨n, rfl⟩ : ∃ n : Nat, k = n - 4 := ⟨(k + 4).toNat, by omega⟩
    have whole : alignedStep ((n : Int) - 4) = 62500000 * 2 ^ n := by
      simp only [alignedStep, Config.nsPerSec, sub_add_cancel, Int.toNat_natCast]
      omega
    rw [whole, zpow_sub₀ (by norm_num), zpow_natCast]
    push_cast
    ring

/-! ### The increment of a rate -/

/-- The rounded quotient lies within half the divisor of the true one, and where it lies at half of it the rounding went
away from zero. -/
theorem roundHalfAway_nearest (x : Int) {d : Int} (hd : 0 < d) :
    2 * (roundHalfAway x d * d - x).natAbs ≤ d ∧
      (2 * ((roundHalfAway x d * d - x).natAbs : Int) = d → x.natAbs ≤ (roundHalfAway x d * d).natAbs) := by
  have quotient : ∀ y : Int, -d < 2 * ((2 * y + d) / (2 * d) * d - y) ∧ 2 * ((2 * y + d) / (2 * d) * d - y) ≤ d := by
    intro y
    have h1 := Int.mul_ediv_add_emod (2 * y + d) (2 * d)
    have h2 := Int.emod_nonneg (2 * y + d) (b := 2 * d) (by omega)
    have h3 := Int.emod_lt_of_pos (2 * y + d) (b := 2 * d) (by omega)
    have h4 : 2 * d * ((2 * y + d) / (2 * d)) = 2 * ((2 * y + d) / (2 * d) * d) := by ring
    omega
  unfold roundHalfAway
  split
  case isTrue h =>
    have := quotient x
    generalize (2 * x + d) / (2 * d) * d = q at this ⊢
    omega
  case isFalse h =>
    have := quotient (-x)
    rw [neg_mul]
    generalize (2 * -x + d) / (2 * d) * d = q at this ⊢
    omega

/-- Settles O20: the increment's difference from nominal is the rounded quotient. -/
theorem theRateGivesTheIncrement : Obligations.TheRateGivesTheIncrement := by
  intro r s h1 h2
  have delta := rateDelta_bounds r h1 h2
  have hinc : ((handRate r s).clock.inc : Int) - 17179869184 = rateDelta r := by
    simp only [handRate, incrementOf, Config.nominalInc, State.setClock]
    omega
  obtain ⟨near, half⟩ := roundHalfAway_nearest (r * 16777216) (d := 1000000000) (by decide)
  simp only [hinc]
  exact ⟨rfl, by exact_mod_cast near, fun he => half (by exact_mod_cast he), by omega, by omega⟩

/-! ### Steps and periods -/

theorem secondPulse_eq (s : State) : secondPulse s = { s with clock := { s.clock with
    secondEnd := if s.engineClass ≤ s.cfg.secLimit then some (s.clock.up + s.cfg.secWidth * 250000) else none } } := rfl

theorem armedSwap_eq (s : State) : armedSwap s = { s with matchTab :=
    if s.matchTab.armed then { s.matchTab with active := !s.matchTab.active, armed := false } else s.matchTab } := by
  unfold armedSwap
  split <;> rfl

/-- The clock and the Match Table after a step that leads to `m` (R7, R8, R12, R115). -/
theorem stepTo_eq (m : Date × Bool) (s : State) : stepTo m s = { s with
    clock := { s.clock with
      date := m.1
      epoch := (s.clock.epoch + 1) % 65536
      secondEnd := if m.2 then (if s.engineClass ≤ s.cfg.secLimit then some (s.clock.up + s.cfg.secWidth * 250000) else none)
        else s.clock.secondEnd }
    matchTab := if m.2 ∧ s.matchTab.armed then { s.matchTab with active := !s.matchTab.active, armed := false }
      else s.matchTab } := by
  obtain ⟨d, b⟩ := m
  cases b with
  | false => rfl
  | true =>
    simp only [stepTo, if_true, secondBoundary, armedSwap_eq, secondPulse_eq, true_and, State.setClock]
    rfl

/-- A step's date, by the seconds it reaches, and that its mark stands exactly where S changes (R5, R7). -/
theorem stepDate_second {d : Date} (hd : DateOk d) (amount : Nat) :
    (stepDate d amount).2 = decide ((stepDate d amount).1.s ≠ d.s) := by
  obtain ⟨hs, hn, hf⟩ := hd
  have le : d.s ≤ (d.ns + amount) / Config.nsPerSec := by
    simp only [Date.ns, Config.nsPerSec]
    omega
  by_cases h : (d.ns + amount) / Config.nsPerSec ≤ Config.maxS
  · simp only [stepDate_inside d amount h]
    exact decide_eq_decide.2 (by omega)
  · simp only [stepDate_beyond d amount h, maxDate]
    exact decide_eq_decide.2 (by simp only [Config.maxS]; omega)

theorem stepDate_ns (d : Date) (amount : Nat) (h : (d.ns + amount) / Config.nsPerSec ≤ Config.maxS) :
    (stepDate d amount).1.ns = d.ns + amount ∧ (stepDate d amount).1.n < 1000000000 ∧ (stepDate d amount).1.f = d.f := by
  obtain ⟨sec, n, f⟩ := d
  rw [stepDate_inside _ _ h]
  exact ⟨Nat.div_add_mod' _ _, Nat.mod_lt _ (by decide), rfl⟩

/-- Settles O18: the date by the step's two ranges, the rest by the mark of a boundary passed. -/
theorem aForwardStepMovesTheDateAhead : Obligations.AForwardStepMovesTheDateAhead := by
  intro amount s hd _
  have mark := stepDate_second hd amount
  have inside := stepDate_ns s.clock.date amount
  have beyond := stepDate_beyond s.clock.date amount
  obtain ⟨m, hm⟩ : ∃ m, stepDate s.clock.date amount = m := ⟨_, rfl⟩
  rw [hm] at mark inside beyond
  have stepped : forwardStep amount s = stepTo m s := by rw [forwardStep, hm]
  simp only [stepped, stepTo_eq, mark, decide_eq_true_eq]
  refine ⟨fun hlt => ?_, fun hle => ?_, trivial, trivial, trivial⟩
  · have h : (s.clock.date.ns + amount) / Config.nsPerSec ≤ Config.maxS := by
      simp only [Config.nsPerSec, Config.maxS]
      omega
    exact inside h
  · have h : ¬ (s.clock.date.ns + amount) / Config.nsPerSec ≤ Config.maxS := by
      simp only [Config.nsPerSec, Config.maxS]
      omega
    rw [beyond h]
    rfl

end Sys2Proof.Machine
end

section
/-! OSCILLATOR_PERIOD whole, and the aligned instants of a BOUNDARY lane (R2 to R6, R12, R53, R76, R88, R115, R116). -/

namespace Sys2Proof.Machine

/-! ### Bars and the class at a whole uptime second -/

theorem source_uptimeSecond (s : State) (i : Nat) : (uptimeSecond s).source i = (s.source i).map countBar := by
  rw [← source_map]
  exact source_of (by simp only [uptimeSecond]; split <;> rfl) i

theorem servo_uptimeSecond (s : State) : (uptimeSecond s).servo =
    if s.servo.st = .holdover then { s.servo with holdTimer := min 86400 (s.servo.holdTimer + 1) } else s.servo := by
  simp only [uptimeSecond]
  split
  case isTrue h => rw [if_pos (show s.servo.st = .holdover from h)]; rfl
  case isFalse h => rw [if_neg (show ¬ s.servo.st = .holdover from h)]; rfl

theorem countBar_st (e : SourceEntry) : (countBar e).st = e.st := by
  unfold countBar
  split <;> rfl

theorem countBar_cls (e : SourceEntry) : (countBar e).cls = e.cls := by
  unfold countBar
  split <;> rfl

/-- A bar and the holdover timer have no part in the class (R81). -/
theorem engineClass_uptimeSecond (s : State) : (uptimeSecond s).engineClass = s.engineClass := by
  have floor : (uptimeSecond s).floor = s.floor := floor_of (by simp) (by simp)
  have isSelected : (uptimeSecond s).isSelected = s.isSelected := by
    funext i
    simp only [State.isSelected, source_uptimeSecond]
    cases s.source i <;> simp [countBar_st]
  have selected : (uptimeSecond s).selected = s.selected.map countBar := by
    simp only [State.selected, State.selectedIndex, isSelected]
    cases sourceIndices.find? s.isSelected <;> simp [source_uptimeSecond]
  have servoClass : (uptimeSecond s).servoClass = s.servoClass := by
    have st : (uptimeSecond s).servo.st = s.servo.st := by rw [servo_uptimeSecond]; split <;> rfl
    have expired : (uptimeSecond s).servo.expired = s.servo.expired := by rw [servo_uptimeSecond]; split <;> rfl
    simp only [State.servoClass, st, expired, selected]
    split <;> try rfl
    cases s.selected <;> simp [countBar_cls]
  rw [State.engineClass, State.engineClass, servoClass, floor]

/-! ### A period but for the aligned instants -/

/-- The state after a period that moves the date to `m`, before the aligned instants are reported; `second` says that the
whole uptime seconds count increases (R2, R4, R5, R12, R53, R76, R115). -/
def ticked (m : Date × Bool) (second : Bool) (s : State) : State :=
  { s with
    clock := { s.clock with
      date := m.1
      up := s.clock.up + 1
      secondEnd :=
        if m.2 then (if s.engineClass ≤ s.cfg.secLimit then some (s.clock.up + 1 + s.cfg.secWidth * 250000) else none)
        else s.clock.secondEnd }
    matchTab := if m.2 ∧ s.matchTab.armed then { s.matchTab with active := !s.matchTab.active, armed := false }
      else s.matchTab
    sources := if second then s.sources.map (fun e => e.map countBar) else s.sources
    servo := if second ∧ s.servo.st = .holdover then { s.servo with holdTimer := min 86400 (s.servo.holdTimer + 1) }
      else s.servo
    ports := s.ports.map flowPort }

theorem uptimeSecond_eq (s : State) : uptimeSecond s = { s with
    sources := s.sources.map (fun e => e.map countBar)
    servo := if s.servo.st = .holdover then { s.servo with holdTimer := min 86400 (s.servo.holdTimer + 1) } else s.servo } := by
  rw [← servo_uptimeSecond]
  simp only [uptimeSecond]
  split <;> rfl

theorem secondBoundary_eq (s : State) : secondBoundary s = { s with
    clock := { s.clock with
      secondEnd := if s.engineClass ≤ s.cfg.secLimit then some (s.clock.up + s.cfg.secWidth * 250000) else none }
    matchTab := if s.matchTab.armed then { s.matchTab with active := !s.matchTab.active, armed := false } else s.matchTab } := by
  simp only [secondBoundary, armedSwap_eq, secondPulse_eq]

theorem periodTo_eq (m : Date × Bool) (second : Bool) (s : State) :
    periodTo m second s = laneInstant .b s.clock.date m.1 (laneInstant .a s.clock.date m.1 (ticked m second s)) := by
  obtain ⟨d, carry⟩ := m
  simp only [periodTo]
  congr 2
  generalize hx : (s.setClock { s.clock with date := d, up := s.clock.up + 1 }).setPorts
    ((s.setClock { s.clock with date := d, up := s.clock.up + 1 }).ports.map flowPort) = x
  have xClass : x.engineClass = s.engineClass := hx ▸ engineClass_of rfl rfl rfl rfl
  have tickedClass := engineClass_uptimeSecond x
  cases second <;> cases carry <;> simp only [ticked, if_true, Bool.false_eq_true, if_false, true_and, false_and]
  · subst hx; rfl
  · rw [secondBoundary_eq, xClass]; subst hx; rfl
  · rw [uptimeSecond_eq]; subst hx; rfl
  · rw [secondBoundary_eq, tickedClass, xClass, uptimeSecond_eq]; subst hx; rfl

theorem laneInstant_eq (l : Lane) (old new : Date) (s : State) : laneInstant l old new s =
    match alignedInstant (s.laneRec l).k old new with
    | some instant => if s.run = .running ∧ (s.laneRec l).mode = .boundary then originate l instant s else s
    | none => s := by
  simp only [laneInstant]
  cases alignedInstant (s.laneRec l).k old new <;> simp

/-- A lane that is to report no instant leaves the state as it is (R6). -/
theorem laneInstant_none {l : Lane} {old new : Date} {s : State}
    (h : s.run = .running → (s.laneRec l).mode = .boundary → alignedInstant (s.laneRec l).k old new = none) :
    laneInstant l old new s = s := by
  simp only [laneInstant]
  split
  case isTrue hb => rw [h hb.1 hb.2]
  case isFalse => rfl

theorem flowPort_eq (u : PortUnit) :
    let counted := fun (half : Nat) => min 18432 (half + 25)
    let arriving := fun (f : FwdFrame) => if f.complete then f else { f with sinceHalf := counted f.sinceHalf }
    flowPort u = { u with
      buffer := u.buffer.map arriving
      tx := u.tx.map (fun x => { x with
        sentHalf := counted x.sentHalf
        body := match x.body with
          | .forwarded f => .forwarded (arriving f)
          | .originated tag bs => .originated tag bs }) } := by
  intro counted arriving
  have tx : ∀ t : Tx, (match t.body with
      | .forwarded x => if x.complete then t else
          { t with body := .forwarded { x with sinceHalf := countHalf x.sinceHalf } }
      | .originated _ _ => t) = { t with body := match t.body with
          | .forwarded f => .forwarded (arriving f)
          | .originated tag bs => .originated tag bs } := by
    intro t
    obtain ⟨o, body, e, h⟩ := t
    cases body with
    | forwarded f => cases hc : f.complete <;> simp [arriving, hc, counted, countHalf, Config.maxFrame, Config.halfBytesPerPeriod]
    | originated => rfl
  simp only [flowPort, onArriving, Option.map_map]
  congr 1
  cases u.tx with
  | none => rfl
  | some t => exact congrArg (fun y : Tx => some { y with sentHalf := countHalf y.sentHalf }) (tx t)

/-- Settles O14: the period to `ticked`, then the two lanes, which change neither clock, Servo, sources nor banks. -/
theorem oscillatorPeriodDoes : Obligations.OscillatorPeriodDoes := by
  refine ⟨flowPort_eq, fun s hrun => ⟨clockPeriod s, by simp only [exec, execOscillatorPeriod, if_neg hrun], ?_⟩⟩
  simp only [clockPeriod, periodTo_eq]
  generalize advance s.clock.date s.clock.inc = m
  generalize secondTurns s.clock.up = second
  generalize hx : ticked m second s = x
  generalize hy : laneInstant .a s.clock.date m.1 x = y
  have xCfg : x.cfg = s.cfg := hx ▸ rfl
  have xRun : x.run = s.run := hx ▸ rfl
  have yCfg : y.cfg = s.cfg := by rw [← hy, cfg_laneInstant, xCfg]
  have yRun : y.run = s.run := by rw [← xRun, ← hy]; exact congrArg Base.run (base_laneInstant ..)
  have still (l : Lane) (z : State) (cfg : z.cfg = s.cfg) (run : z.run = s.run) : laneInstant l s.clock.date m.1 z =
      match alignedInstant (s.laneRec l).k s.clock.date m.1 with
      | some instant => if s.run = .running ∧ (s.laneRec l).mode = .boundary then originate l instant z else z
      | none => z := by
    rw [laneInstant_eq, run, show z.laneRec l = s.laneRec l from congrArg (fun c : Settings => c.lanes.get l) cfg]
  have keeps {α : Type} (f : State → α) (kept : ∀ (l : Lane) (z : State), f (laneInstant l s.clock.date m.1 z) = f z) :
      f (laneInstant .b s.clock.date m.1 y) = f x := by rw [kept, ← hy, kept]
  have hClock := keeps State.clock (by simp)
  have hTab := keeps State.matchTab (by simp)
  have hSources := keeps State.sources (by simp)
  have hServo := keeps State.servo (by simp)
  have hBase := keeps State.base (by simp)
  refine ⟨hClock.trans (hx ▸ rfl), hTab.trans (hx ▸ rfl), fun i => ?_, hServo.trans (hx ▸ rfl),
    (congrArg Base.pending hBase).trans (hx ▸ rfl), (congrArg Base.run hBase).trans (hx ▸ rfl),
    (keeps State.cfg (by simp)).trans (hx ▸ rfl), (keeps State.log (by simp)).trans (hx ▸ rfl),
    (keeps State.frozen (by simp)).trans (hx ▸ rfl), (keeps State.faults (by simp)).trans (hx ▸ rfl),
    (keeps State.agent (by simp)).trans (hx ▸ rfl), ?_, fun none => ?_⟩
  case _ =>
    rw [source_of hSources i, ← hx]
    cases second
    · simp [ticked, State.source]
    · rw [show ∀ m, (ticked m true s).source i = (s.source i).map countBar from
        fun m => (source_of rfl i).trans (source_map ..)]
      simp only [true_and]
      rfl
  case _ =>
    rw [hClock, hTab, hSources, hServo, still .b y yCfg yRun, ← hy, still .a x xCfg xRun, ← hx]
    generalize alignedInstant (s.laneRec .a).k s.clock.date m.1 = first
    generalize alignedInstant (s.laneRec .b).k s.clock.date m.1 = next
    cases first <;> cases next <;> rfl
  case _ =>
    have idle (l : Lane) : laneInstant l s.clock.date m.1 x = x :=
      laneInstant_none (by simpa only [xRun, State.laneRec, xCfg] using none l)
    rw [idle] at hy
    rw [← hy, idle, ← hx]
    exact ⟨rfl, rfl, rfl, rfl⟩

end Sys2Proof.Machine
end

section
/-! Bytes of a width, ports as they are replaced, and what the Beacon Unit does at an aligned instant (R88, R90, R120, R214,
section 12.1). -/

namespace Sys2Proof.Machine

/-! ### Lengths of fields -/

@[simp] theorem length_be (w v : Nat) : (be w v).length = w := by
  induction w generalizing v with
  | zero => rfl
  | succ w ih => simp [be, ih]

@[simp] theorem length_beSat (w v : Nat) : (beSat w v).length = w := length_be ..

@[simp] theorem length_beInt (w : Nat) (v : Int) : (beInt w v).length = w := length_be ..

@[simp] theorem length_beBits {n : Nat} (w : Nat) (v : BitVec n) : (beBits w v).length = w := length_be ..

@[simp] theorem length_snBytes (d : SN) : (snBytes d).length = 10 := by simp [snBytes]

@[simp] theorem be_one (v : Nat) : be 1 v = [BitVec.ofNat 8 v] := rfl

/-! ### A port replaced -/

@[simp] theorem setPort_setPort (s : State) (p : Port) (u v : PortUnit) : (s.setPort p u).setPort p v = s.setPort p v := by
  cases p <;> rfl

@[simp] theorem setPort_port (s : State) (p : Port) : s.setPort p (s.port p) = s := by cases p <;> rfl

theorem setPort_comm (s : State) {p q : Port} (h : p ≠ q) (u v : PortUnit) :
    (s.setPort p u).setPort q v = (s.setPort q v).setPort p u := by
  cases p <;> cases q <;> first | rfl | exact absurd rfl h

@[simp] theorem port_setPort_same (s : State) (p : Port) (u : PortUnit) : (s.setPort p u).port p = u := by
  rw [port_setPort, if_pos rfl]

theorem port_setPort_ne (s : State) {p q : Port} (h : q ≠ p) (u : PortUnit) : (s.setPort p u).port q = s.port q := by
  rw [port_setPort, if_neg h.symm]

@[simp] theorem port_setPort_partner (s : State) (p : Port) (u : PortUnit) :
    (s.setPort p u).port p.partner = s.port p.partner := by
  cases p <;> rfl

@[simp] theorem port_partner_setPort (s : State) (p : Port) (u : PortUnit) :
    (s.setPort p.partner u).port p = s.port p := by
  cases p <;> rfl

@[simp] theorem lane_setLane_same (s : State) (l : Lane) (u : LaneUnit) : (s.setLane l u).lane l = u := by
  cases l <;> rfl

@[simp] theorem setLane_setLane (s : State) (l : Lane) (u v : LaneUnit) : (s.setLane l u).setLane l v = s.setLane l v := by
  cases l <;> rfl

@[simp] theorem echoOf_setEcho_same (s : State) (p : Port) (e : Echo) : (s.setEcho p e).echoOf p = e := by
  cases p <;> rfl

@[simp] theorem setEcho_setEcho (s : State) (p : Port) (e f : Echo) : (s.setEcho p e).setEcho p f = s.setEcho p f := by
  cases p <;> rfl

@[simp] theorem port_setEcho (s : State) (p q : Port) (e : Echo) : (s.setEcho p e).port q = s.port q := rfl

@[simp] theorem port_setLane (s : State) (l : Lane) (p : Port) (u : LaneUnit) : (s.setLane l u).port p = s.port p := rfl

@[simp] theorem echoOf_setPort (s : State) (p q : Port) (u : PortUnit) : (s.setPort p u).echoOf q = s.echoOf q := rfl

@[simp] theorem lane_setPort (s : State) (l : Lane) (p : Port) (u : PortUnit) : (s.setPort p u).lane l = s.lane l := rfl

/-! ### Offers to the queues -/

section
variable {s : State} {p : Port} (tag : OrigTag) (header : Nat) (bytes : List Byte)

theorem offerTiming_taken (up : (s.port p).up = true) (room : timingHeld (s.port p) < 8) :
    offerTiming p tag header bytes s =
      (s.setPort p { s.port p with timing := (s.port p).timing ++ [⟨tag, header, bytes, s.clock.up⟩] }, true) := by
  simp [offerTiming, up, room, Config.timingCap]

theorem offerTiming_refused (h : (s.port p).up = false ∨ 8 ≤ timingHeld (s.port p)) :
    offerTiming p tag header bytes s =
      (s.setPort p { s.port p with stats := { (s.port p).stats with
        timingDrops := min 4294967295 ((s.port p).stats.timingDrops + 1) } }, false) := by
  have refused : ((s.port p).up && decide (timingHeld (s.port p) < Config.timingCap)) = false := by
    rcases h with h | h
    · simp [h]
    · simp [Nat.not_lt.mpr h, Config.timingCap]
  simp only [offerTiming, refused]
  rfl

theorem offerGeneral_taken (up : (s.port p).up = true) (room : generalHeld (s.port p) < 16) :
    offerGeneral p tag header bytes s =
      (s.setPort p { s.port p with general := (s.port p).general ++ [⟨tag, header, bytes, s.clock.up⟩] }, true) := by
  simp [offerGeneral, up, room, Config.generalCap]

theorem offerGeneral_refused (h : (s.port p).up = false ∨ 16 ≤ generalHeld (s.port p)) :
    offerGeneral p tag header bytes s =
      (s.setPort p { s.port p with stats := { (s.port p).stats with
        generalDrops := min 4294967295 ((s.port p).stats.generalDrops + 1) } }, false) := by
  have refused : ((s.port p).up && decide (generalHeld (s.port p) < Config.generalCap)) = false := by
    rcases h with h | h
    · simp [h]
    · simp [Nat.not_lt.mpr h, Config.generalCap]
  simp only [offerGeneral, refused]
  rfl

end

/-! ### An aligned instant -/

theorem beaconFrame_eq (s : State) (k : Int) : beaconFrame s k =
    [be 6 s.cfg.group.toNat, be 6 s.cfg.mac.toNat, be 2 s.cfg.utxEther.toNat, [1, 1], be 2 32,
      be 8 s.cfg.engineId.toNat, be 8 0, be 10 0, be 8 0, [0, 0], beInt 1 k, be 2 0, [0]].flatten ++ [0, 0] := by
  simp [beaconFrame, l2Frame, padFrame, padTo, ethHeader, utxHeader, Config.minFrame, beBits]

/-- Settles O16, by the class, the link and the timing queue that the instant meets. -/
theorem anAlignedInstantDecidesABeacon : Obligations.AnAlignedInstantDecidesABeacon := by
  refine ⟨fun s k => ⟨by simp, beaconFrame_eq s k⟩, fun l instant s => ⟨?cls, ?link, ?queue, ?sent⟩⟩
  case cls =>
    intro h
    simp [originate, h, recordEmission]
  case link =>
    intro h up
    simp [originate, h, up, recordEmission]
  case queue =>
    intro h up full
    simp [originate, h, up, offerTiming_refused _ _ _ (.inr full), recordEmission]
  case sent =>
    intro h up room
    simp [originate, h, up, offerTiming_taken _ _ _ up room, recordEmission, satAdd, headerLen, Config.max32]

end Sys2Proof.Machine
end

section
/-! FRAME_START, the arbiter's decisions, and the agent's take of a control frame (R14, R24, R89, R122, R166, R198). -/

namespace Sys2Proof.Machine

/-! ### Events of a port's line -/

theorem portLive_of {s : State} {p : Port} (run : s.run ≠ .held) (up : (s.port p).up = true) : portLive s p = true := by
  simp [portLive, run, up]

theorem not_portLive_of {s : State} {p : Port} (h : s.run = .held ∨ (s.port p).up = false) : portLive s p = false := by
  rcases h with h | h <;> simp [portLive, h]

/-- Settles O27: the start is taken on a live port that receives none. -/
theorem frameStartTakesTheIngressCapture : Obligations.FrameStartTakesTheIngressCapture := by
  refine fun p s => ⟨fun run up rx => ?_, fun h => ?_⟩
  · simp only [exec, execFrameStart, portLive_of run up, rx]
    rfl
  · have no : (portLive s p && (s.port p).rx.isNone) = false := by
      rcases h with h | h | h
      · simp [not_portLive_of (.inl h)]
      · simp [not_portLive_of (.inr h)]
      · rw [Option.isNone_eq_false_iff.mpr (Option.isSome_iff_ne_none.mpr h), Bool.and_false]
    simp only [exec, execFrameStart, no]
    rfl

/-! ### The arbiter -/

theorem arbitrate_idle {p : Port} {s : State} (h : (s.port p).tx ≠ none ∨ (s.port p).up = false) : arbitrate p s = s :=
  if_pos (by rcases h with h | h <;> simp [h, Option.isSome_iff_ne_none])

section
variable {p : Port} {s : State} (free : (s.port p).tx = none) (up : (s.port p).up = true)
include free up

theorem arbitrate_timing {q : QFrame} {rest : List QFrame} (h : chooseGrant s.clock.up (s.port p) = .timing q rest) :
    arbitrate p s = grantQueued p .timing q (s.setPort p { s.port p with timing := rest }) := by
  simp only [arbitrate, free, up, h]
  rfl

theorem arbitrate_general {q : QFrame} {rest : List QFrame} (h : chooseGrant s.clock.up (s.port p) = .general q rest) :
    arbitrate p s = grantQueued p .general q (s.setPort p { s.port p with general := rest }) := by
  simp only [arbitrate, free, up, h]
  rfl

theorem arbitrate_buffer {f : FwdFrame} {rest : List FwdFrame} (h : chooseGrant s.clock.up (s.port p) = .buffer f rest) :
    arbitrate p s = grantForwarded p f (s.setPort p { s.port p with buffer := rest }) := by
  simp only [arbitrate, free, up, h]
  rfl

theorem arbitrate_nothing (h : chooseGrant s.clock.up (s.port p) = .nothing) : arbitrate p s = s := by
  simp only [arbitrate, free, up, h]
  rfl

end

theorem chooseGrant_of_timing {now : Nat} {u : PortUnit} {q : QFrame} {rest : List QFrame} (h : u.timing = q :: rest) :
    chooseGrant now u = .timing q rest := by
  simp only [chooseGrant, h]

/-- What a general frame has to be granted before the elastic buffer: its age, or no ready frame there (R122). -/
theorem chooseGrant_general {now : Nat} {u : PortUnit} {g : QFrame} {gs : List QFrame} (timing : u.timing = [])
    (general : u.general = g :: gs)
    (h : g.joined + 250000 ≤ now ∨ u.buffer = [] ∨ ∃ f fs, u.buffer = f :: fs ∧ f.ready = false) :
    chooseGrant now u = .general g gs := by
  simp only [chooseGrant, timing, general]
  split
  case isTrue => rfl
  case isFalse young =>
    rcases h with h | h | ⟨f, fs, h, ready⟩
    · exact absurd (decide_eq_true h) young
    · simp only [h]
    · simp [h, ready]

theorem chooseGrant_buffer {now : Nat} {u : PortUnit} {f : FwdFrame} {fs : List FwdFrame} (timing : u.timing = [])
    (buffer : u.buffer = f :: fs) (ready : f.ready = true)
    (h : u.general = [] ∨ ∃ g gs, u.general = g :: gs ∧ now < g.joined + 250000) :
    chooseGrant now u = .buffer f fs := by
  rcases h with h | ⟨g, gs, h, young⟩
  · simp [chooseGrant, timing, h, buffer, ready]
  · simp [chooseGrant, timing, h, buffer, ready, generalAged, Config.periodsPerMs, Nat.not_le.mpr young]

theorem chooseGrant_nothing {now : Nat} {u : PortUnit} (timing : u.timing = []) (general : u.general = [])
    (h : u.buffer = [] ∨ ∃ f fs, u.buffer = f :: fs ∧ f.ready = false) : chooseGrant now u = .nothing := by
  rcases h with h | ⟨f, fs, h, ready⟩
  · simp [chooseGrant, timing, general, h]
  · simp [chooseGrant, timing, general, h, ready]

/-- A queued frame that leaves, once its queue is given: the port written once, and what the frame's egress records. -/
theorem grantQueued_setPort (p : Port) (o : TxFrom) (q : QFrame) (v : PortUnit) (s : State) :
    grantQueued p o q (s.setPort p v) = recordEgress p q.tag (s.setPort p { v with
      tx := some ⟨o, .originated q.tag (egressBytes s q ++ fcsOf (egressBytes s q)), s.clock.date, 0⟩ }) := by
  have same : egressBytes (s.setPort p v) q = egressBytes s q := rfl
  simp only [grantQueued, same, setPort_setPort, port_setPort_same, State.setPort_clock]

theorem grantForwarded_setPort (p : Port) (f : FwdFrame) (v : PortUnit) (s : State) :
    grantForwarded p f (s.setPort p v) = s.setPort p { v with tx := some ⟨.buffer, .forwarded f, s.clock.date, 0⟩ } := by
  simp only [grantForwarded, setPort_setPort, port_setPort_same, State.setPort_clock]

/-- Settles O36: the four grants by `chooseGrant`, and the egress of a granted frame by its tag. -/
theorem theArbiterGrantsInItsOrder : Obligations.TheArbiterGrantsInItsOrder := by
  intro p s
  simp only
  refine ⟨arbitrate_idle, fun free up => ⟨fun q rest timing => ?_, fun timing g gs general h => ?_,
    fun timing f fs buffer ready h => ?_, fun timing general h => ?_⟩⟩
  · rw [arbitrate_timing free up (chooseGrant_of_timing timing), grantQueued_setPort]
    obtain ⟨tag, header, bytes, joined⟩ := q
    cases tag <;> rfl
  · rw [arbitrate_general free up (chooseGrant_general timing general h), grantQueued_setPort]
    obtain ⟨tag, header, bytes, joined⟩ := g
    cases tag <;> rfl
  · rw [arbitrate_buffer free up (chooseGrant_buffer timing buffer ready h), grantForwarded_setPort]
  · exact arbitrate_nothing free up (chooseGrant_nothing timing general h)

/-! ### The agent's take -/

/-- A frame that stands before a command to be executed is settled (R199). -/
theorem settleExec_of_next {e : Exec} (h : nextCommand e ≠ none) (n : Nat) : settleExec n e = e := by
  cases n with
  | zero => rfl
  | succ n =>
    simp only [nextCommand] at h
    split at h
    case isTrue => exact absurd rfl h
    case isFalse open_ =>
      obtain ⟨left, ended⟩ : e.left ≠ 0 ∧ e.ended = false := by simpa using open_
      split at h
      case h_1 => exact absurd rfl h
      case h_2 c parsed =>
        split at h
        case h_1 judged => simp [settleExec, left, parsed, ended, judged]
        case h_2 => exact absurd rfl h

theorem left_of_next {e : Exec} (h : nextCommand e ≠ none) : e.left ≠ 0 := by
  intro zero
  exact h (if_pos (.inl zero))

theorem advanceFrame_of_next {e : Exec} (h : nextCommand e ≠ none) (s : State) :
    advanceFrame e s = s.setAgent { s.agent with exec := some e } := by
  simp [advanceFrame, settleExec_of_next h, left_of_next h]

/-- Settles O37, by the number of commands and the first of them. -/
theorem theFreeAgentTakesAControlFrame : Obligations.TheFreeAgentTakesAControlFrame := by
  refine fun p s => ⟨fun h => ?_, fun c held run reload reset agent => ?_⟩
  · simp only [exec, execControlFrameTake]
    split
    case h_1 c held =>
      have busy : agentFree s = false := by
        rcases h with h | h | h | h | h
        · exact absurd h (by simp [held])
        all_goals simp_all [agentFree, Option.isSome_iff_ne_none]
      rw [busy]
      rfl
    case h_2 => rfl
  · have free : agentFree s = true := by simp [agentFree, run, reload, reset, agent]
    simp only [exec, execControlFrameTake, held, free, if_true, takeFrame]
    refine ⟨fun none => ?_, fun next => ?_, fun _ _ => trivial⟩
    · simp only [advanceFrame, none, settleExec, if_true]
    · exact congrArg _ (advanceFrame_of_next next _)

end Sys2Proof.Machine
end

section
/-! Reading back what was written: the numbers, bit vectors and signed values of a row of fields (spec/12, opening). -/

namespace Sys2Proof.Machine

/-! ### Numbers of bytes -/

theorem ofBe_append (a b : List Byte) : ofBe (a ++ b) = ofBe a * 256 ^ b.length + ofBe b := by
  induction b using List.reverseRecOn with
  | nil => simp [ofBe]
  | append_singleton b x ih =>
    have push (l : List Byte) : ofBe (l ++ [x]) = ofBe l * 256 + x.toNat := by simp [ofBe]
    rw [← List.append_assoc, push, push, ih, List.length_append, List.length_singleton]
    ring

@[simp] theorem ofBe_nil : ofBe [] = 0 := rfl

theorem ofBe_singleton (b : Byte) : ofBe [b] = b.toNat := by simp [ofBe]

@[simp] theorem ofBe_be (w v : Nat) : ofBe (be w v) = v % 256 ^ w := by
  induction w generalizing v with
  | zero => simp [be, Nat.mod_one]
  | succ w ih =>
    rw [be, ofBe_append, ih, ofBe_singleton, List.length_singleton, pow_one, BitVec.toNat_ofNat, pow_succ' 256 w, Nat.mod_mul]
    exact (add_comm _ _).trans (congrArg _ (mul_comm _ _))

theorem ofBe_lt (bs : List Byte) : ofBe bs < 256 ^ bs.length := by
  induction bs using List.reverseRecOn with
  | nil => simp
  | append_singleton bs x ih =>
    rw [ofBe_append, ofBe_singleton, List.length_append, List.length_singleton, pow_one, pow_succ]
    have := x.isLt
    omega

theorem be_ofBe (bs : List Byte) : be bs.length (ofBe bs) = bs := by
  induction bs using List.reverseRecOn with
  | nil => rfl
  | append_singleton bs x ih =>
    have := x.isLt
    have high : (ofBe bs * 256 + x.toNat) / 256 = ofBe bs := by omega
    rw [ofBe_append, ofBe_singleton, List.length_append, List.length_singleton, pow_one, be, high, ih]
    congr 2
    apply BitVec.eq_of_toNat_eq
    rw [BitVec.toNat_ofNat]
    omega

/-! ### The bytes at an offset -/

@[simp] theorem length_slice (bs : List Byte) (off w : Nat) : (slice bs off w).length = w := by
  simp only [slice, List.length_append, List.length_replicate, List.length_take]
  omega

/-- A field that starts where the row starts. -/
theorem slice_append_left {x : List Byte} {w : Nat} (h : x.length = w) (rest : List Byte) : slice (x ++ rest) 0 w = x := by
  subst h
  simp [slice]

theorem slice_self {x : List Byte} {w : Nat} (h : x.length = w) : slice x 0 w = x := by
  simpa using slice_append_left h []

/-- A field behind the first of a row. -/
theorem slice_append_right {x : List Byte} {off : Nat} (h : x.length ≤ off) (rest : List Byte) (w : Nat) :
    slice (x ++ rest) off w = slice rest (off - x.length) w := by
  simp only [slice, List.drop_append, List.drop_eq_nil_of_le h, List.nil_append]

theorem slice_cons {off : Nat} (h : 0 < off) (b : Byte) (rest : List Byte) (w : Nat) :
    slice (b :: rest) off w = slice rest (off - 1) w :=
  slice_append_right (x := [b]) h rest w

theorem getD_slice {j w : Nat} (h : j < w) (bs : List Byte) (off : Nat) : (slice bs off w).getD j 0 = bs.getD (off + j) 0 := by
  simp only [slice, List.getD_eq_getElem?_getD]
  by_cases inside : off + j < bs.length
  · rw [List.getElem?_append_left (by simp; omega), List.getElem?_take_of_lt h, List.getElem?_drop]
  · rw [List.getElem?_append_right (by simp; omega), List.getElem?_eq_none (Nat.le_of_not_lt inside),
      List.getElem?_replicate]
    split <;> rfl

/-- The bytes of a slice, one by one; beyond the end they are zero. -/
theorem slice_eq_map (bs : List Byte) (off w : Nat) : slice bs off w = (List.range w).map (fun j => bs.getD (off + j) 0) := by
  apply List.ext_getElem (by simp)
  intro j h _
  have inside : j < w := by simpa using h
  have := getD_slice inside bs off
  rw [List.getD_eq_getElem?_getD, List.getElem?_eq_getElem h, Option.getD_some] at this
  simpa using this

/-! ### Numbers at an offset -/

theorem natAt_lt (bs : List Byte) (off w : Nat) : natAt bs off w < 256 ^ w := by
  have := ofBe_lt (slice bs off w)
  rwa [length_slice] at this

theorem natAt_be_append (w v : Nat) (rest : List Byte) : natAt (be w v ++ rest) 0 w = v % 256 ^ w := by
  rw [natAt, slice_append_left (by simp), ofBe_be]

theorem natAt_be (w v : Nat) : natAt (be w v) 0 w = v % 256 ^ w := by simpa using natAt_be_append w v []

theorem natAt_append_right {x : List Byte} {off : Nat} (h : x.length ≤ off) (rest : List Byte) (w : Nat) :
    natAt (x ++ rest) off w = natAt rest (off - x.length) w := by
  rw [natAt, slice_append_right h, natAt]

theorem natAt_cons {off : Nat} (h : 0 < off) (b : Byte) (rest : List Byte) (w : Nat) :
    natAt (b :: rest) off w = natAt rest (off - 1) w := by
  rw [natAt, slice_cons h, natAt]

theorem byteAt_eq_natAt (bs : List Byte) (off : Nat) : byteAt bs off = natAt bs off 1 := by
  rw [byteAt, natAt, slice_eq_map]
  simp [ofBe]

/-! ### Bit vectors and signed values at an offset -/

theorem bitsAt_append_right {x : List Byte} {off : Nat} (h : x.length ≤ off) (rest : List Byte) (w : Nat) :
    bitsAt w (x ++ rest) off = bitsAt w rest (off - x.length) := by
  rw [bitsAt, natAt_append_right h, bitsAt]

theorem bitsAt_cons {off : Nat} (h : 0 < off) (b : Byte) (rest : List Byte) (w : Nat) :
    bitsAt w (b :: rest) off = bitsAt w rest (off - 1) :=
  bitsAt_append_right (x := [b]) h rest w

theorem toNat_bitsAt (w : Nat) (bs : List Byte) (off : Nat) : (bitsAt w bs off).toNat = natAt bs off w := by
  rw [bitsAt, BitVec.toNat_ofNat, Nat.mod_eq_of_lt]
  rw [pow_mul]
  exact natAt_lt bs off w

theorem bitsAt_be_append {w : Nat} (x : BitVec (8 * w)) (rest : List Byte) : bitsAt w (be w x.toNat ++ rest) 0 = x := by
  apply BitVec.eq_of_toNat_eq
  rw [toNat_bitsAt, natAt_be_append, Nat.mod_eq_of_lt]
  have := x.isLt
  rwa [pow_mul] at this

/-- A signed value within the range of its width is read as it was written. -/
theorem natAt_beInt_append {w : Nat} {v : Int} (low : -(2 ^ (8 * w - 1) : Nat) ≤ v) (high : v < (2 ^ (8 * w - 1) : Nat))
    (rest : List Byte) : natAt (beInt w v ++ rest) 0 w = (v % (256 ^ w : Nat)).toNat := by
  have within : clampInt (-(2 ^ (8 * w - 1) : Nat)) ((2 ^ (8 * w - 1) : Nat) - 1) v = v := by
    simp only [clampInt]
    omega
  rw [beInt, within, natAt_be_append, Nat.mod_eq_of_lt]
  have := Int.emod_lt_of_pos v (show (0 : Int) < (256 ^ w : Nat) by positivity)
  have := Int.emod_nonneg v (show ((256 ^ w : Nat) : Int) ≠ 0 by positivity)
  omega

theorem intAt_beInt_append {w : Nat} (pos : 0 < w) {v : Int} (low : -(2 ^ (8 * w - 1) : Nat) ≤ v)
    (high : v < (2 ^ (8 * w - 1) : Nat)) (rest : List Byte) : intAt (beInt w v ++ rest) 0 w = v := by
  have same : bitsAt w (beInt w v ++ rest) 0 = BitVec.ofInt (8 * w) v := by
    apply BitVec.eq_of_toNat_eq
    rw [toNat_bitsAt, natAt_beInt_append low high, BitVec.toNat_ofInt, pow_mul]
    rfl
  rw [intAt, same, BitVec.toInt_ofInt_eq_self (by omega) low high]

theorem bitsAt_be {w : Nat} (x : BitVec (8 * w)) : bitsAt w (be w x.toNat) 0 = x := by
  simpa using bitsAt_be_append x []

end Sys2Proof.Machine
end

section
/-! The image a save writes, and the two ends of a save (R206, R207, R208). -/

namespace Sys2Proof.Machine

/-! ### The length of an image and of its records -/

@[simp] theorem length_flag (b : Bool) : (flag b).length = 1 := rfl

theorem length_flatMap_of {α : Type} {f : α → List Byte} {n : Nat} (l : List α) (h : ∀ x, (f x).length = n) :
    (l.flatMap f).length = l.length * n := by
  induction l with
  | nil => simp
  | cons x l ih => rw [List.flatMap_cons, List.length_append, h, ih, List.length_cons, Nat.succ_mul, add_comm]

@[simp] theorem length_matchBytes (e : MatchEntry) : (matchBytes e).length = 32 := by simp [matchBytes]

@[simp] theorem length_portRecBytes (b : Byte) (r : PortRec) : (portRecBytes [b] r).length = 24 := by simp [portRecBytes]

@[simp] theorem length_laneRecBytes (r : LaneRec) : (laneRecBytes r).length = 8 := by simp [laneRecBytes]

@[simp] theorem length_overrideBytes (o : Override) : (overrideBytes o).length = 16 := by simp [overrideBytes]

@[simp] theorem length_peerCfgBytes (c : PeerCfg) : (peerCfgBytes c).length = 24 := by simp [peerCfgBytes]

@[simp] theorem length_servoBytes (p : ServoParams) (width limit : Nat) : (servoBytes p width limit).length = 32 := by
  simp [servoBytes]

@[simp] theorem length_driftBytes (p : DriftParams) (holdoff threshold : Nat) :
    (driftBytes p holdoff threshold).length = 24 := by
  simp [driftBytes]

theorem length_imageBody (c : Settings) (bank : Vector MatchEntry 64) : (imageBody c bank).length = 3118 := by
  have entries := length_flatMap_of bank.toList length_matchBytes
  have overrides := length_flatMap_of c.overrides.toList length_overrideBytes
  have peers := length_flatMap_of c.peers.toList length_peerCfgBytes
  have responses := length_flatMap_of c.responses.toList (fun r => length_be 1 r.rank)
  have ports : ([Port.u0, .u1, .d0, .d1].flatMap (fun p => portRecBytes (be 1 0) (c.ports.get p))).length = 96 :=
    length_flatMap_of [Port.u0, .u1, .d0, .d1] (fun p => length_portRecBytes 0 (c.ports.get p))
  simp only [Vector.length_toList] at entries overrides peers responses
  unfold imageBody
  simp only [List.length_append, length_be, length_beSat, length_beBits, length_beInt, length_laneRecBytes,
    length_servoBytes, length_driftBytes, entries, overrides, peers, responses, ports]

@[simp] theorem length_le4 (v : Nat) : (le4 v).length = 4 := by simp [le4]

theorem length_imageOf (c : Settings) (bank : Vector MatchEntry 64) : (imageOf c bank).length = 3122 := by
  simp only [imageOf, List.length_append, length_imageBody, length_le4]

/-! ### A read attempt -/

theorem flashRead_of_length {bs : List Byte} (h : bs.length = 3122) : flashRead bs = bs := by
  simp only [flashRead, Config.imageLen, h, Nat.sub_self, List.replicate_zero, List.append_nil]
  exact List.take_of_length_le h.le

/-- An image as it was written passes (R206). -/
theorem readAttempt_imageOf (c : Settings) (bank : Vector MatchEntry 64) :
    readAttempt (imageOf c bank) = some (imageOf c bank) := by
  have body := length_imageBody c bank
  have magic : natAt (imageOf c bank) 0 4 = 0x52544531 := by
    unfold imageOf imageBody
    simp only [List.append_assoc, natAt_be_append]
    rfl
  have version : natAt (imageOf c bank) 4 2 = 1 := by
    unfold imageOf imageBody
    simp [natAt_append_right, natAt_be_append]
  have len : natAt (imageOf c bank) 8 4 = 3122 := by
    unfold imageOf imageBody
    simp [natAt_append_right, natAt_be_append, Config.imageLen]
  have crc : storedCrc (imageOf c bank) = le4 (crc32 ((imageOf c bank).take 3118)) := by
    simp only [storedCrc, imageOf, Config.imageLen, Nat.reduceSub, ← body, List.drop_left', List.take_left']
  rw [readAttempt, flashRead_of_length (length_imageOf c bank)]
  exact if_pos ⟨magic, version, len, crc⟩

/-! ### A fault raised is active -/

theorem active_raiseFault (k : FaultKind) (subject : Subject) (record : Bool) (d : AlertData) (s : State)
    (h : k ≠ .logFull) : ((raiseFault k subject record d s).fault k).active = true := by
  rw [fault_raiseFault_self _ _ _ _ _ h]
  split
  case isTrue active => exact active
  case isFalse => rfl

/-- A re-evaluation for HOLD does not touch the raised fault (R187), where it is none of the selection's own. -/
theorem active_raiseWithHold (k : FaultKind) (subject : Subject) (record : Bool) (d : AlertData) (s : State)
    (full : k ≠ .logFull) (lost : k ≠ .sourceLost) (expired : k ≠ .holdoverExpired) :
    ((raiseWithHold k subject record d s).fault k).active = true := by
  rw [raiseWithHold, fault_reevaluateOnHold _ _ _ full lost expired]
  exact active_raiseFault _ _ _ _ _ full

/-! ### A save and its end -/

theorem saveGood_iff (img readBack : List Byte) : saveGood img readBack = true ↔
    ∃ back, readAttempt readBack = some back ∧ back.drop 3118 = img.drop 3118 := by
  simp only [saveGood, storedCrc, Config.imageLen]
  cases readAttempt readBack <;> simp

/-- Settles O24, by the save in progress and by what the image read back gives. -/
theorem aSaveAndItsEnd : Obligations.ASaveAndItsEnd := by
  refine ⟨fun s turn => ⟨fun none => ?_, fun saving => ?_⟩, fun readBack s none => ?_,
    fun img readBack s saving => ⟨fun good => ?_, fun bad => ?_⟩, fun c bank => ⟨_, readAttempt_imageOf c bank, rfl⟩⟩
  · simp only [exec, execSaveSettings, runCommand_of_hasTurn turn, Meaning.plain, saveSettings, none]
    rfl
  · simp only [exec, execSaveSettings, runCommand_of_hasTurn turn, Meaning.plain, saveSettings,
      Option.isSome_iff_ne_none.mpr saving]
    rfl
  · simp only [exec, execSettingsSaveEnd, none]
  · simp only [exec, execSettingsSaveEnd, saving, finishSave, (saveGood_iff ..).mpr good]
    rfl
  · have not_good : saveGood img readBack = false := Bool.eq_false_of_not_eq_true (mt (saveGood_iff ..).mp bad)
    refine ⟨_, by simp only [exec, execSettingsSaveEnd, saving, finishSave, not_good]; rfl, ?_⟩
    exact ⟨by simp, by simp, by simp, active_raiseWithHold _ _ _ _ _ (by decide) (by decide) (by decide)⟩

end Sys2Proof.Machine
end

section
/-! The requester of an uplink: its interval expiry and timeout, an answer that matches and one that does not, and an ask
answered (R21 to R28, R32). -/

namespace Sys2Proof.Machine

/-! ### The interval expiry -/

theorem askFrame_eq (s : State) (id : Nat) : askFrame s id =
    [be 6 s.cfg.group.toNat, be 6 s.cfg.mac.toNat, be 2 s.cfg.utxEther.toNat, [1, 2], be 2 20,
      be 8 s.cfg.engineId.toNat, be 2 id, be 10 0, be 8 0].flatten ++ be 14 0 := by
  simp [askFrame, l2Frame, padFrame, padTo, ethHeader, utxHeader, Config.minFrame, beBits]
  rfl

theorem setPort_setEcho (s : State) (p q : Port) (u : PortUnit) (e : Echo) :
    (s.setEcho p e).setPort q u = (s.setPort q u).setEcho p e := rfl

@[simp] theorem askFrame_setEcho (s : State) (p : Port) (e : Echo) (id : Nat) : askFrame (s.setEcho p e) id = askFrame s id :=
  rfl

section
variable {p : Port} {s : State}

theorem takeInterval_awaiting (h : (s.echoOf p).st ≠ .idle) : takeInterval p s = s := by
  unfold takeInterval
  cases st : (s.echoOf p).st with
  | idle => exact absurd st h
  | queued | inFlight => simp only [st]

theorem takeInterval_taken (idle : (s.echoOf p).st = .idle) (up : (s.port p).up = true) (room : timingHeld (s.port p) < 8) :
    takeInterval p s = arbitrate p
      ((s.setPort p { s.port p with timing := (s.port p).timing ++
          [⟨.ask (s.echoOf p).nextId, 14, askFrame s (s.echoOf p).nextId, s.clock.up⟩] }).setEcho p
        { s.echoOf p with st := .queued, nextId := ((s.echoOf p).nextId + 1) % 65536 }) := by
  simp only [takeInterval, idle]
  rw [offerTiming_taken (s := s.setEcho p _) _ _ _ up room]
  simp [setPort_setEcho, headerLen]

theorem takeInterval_refused (idle : (s.echoOf p).st = .idle) (h : (s.port p).up = false ∨ 8 ≤ timingHeld (s.port p)) :
    takeInterval p s =
      (s.setPort p { s.port p with stats := { (s.port p).stats with
        timingDrops := min 4294967295 ((s.port p).stats.timingDrops + 1) } }).setEcho p
        { s.echoOf p with nextId := ((s.echoOf p).nextId + 1) % 65536 } := by
  simp only [takeInterval, idle]
  rw [offerTiming_refused (s := s.setEcho p _) _ _ _ h]
  simp [setPort_setEcho]

end

theorem intervalPeriods_eq (k : Int) (low : -4 ≤ k) (high : k ≤ 3) :
    (intervalPeriods k : Rat) = 250000000 * (2 : Rat) ^ k := by
  interval_cases k <;> norm_num [intervalPeriods, Config.periodsPerSec, Int.toNat]

theorem echoRuns_iff (s : State) (p : Port) : echoRuns s p = true ↔
    p.isUplink = true ∧ s.run = .running ∧ s.agent.reload = false ∧ (s.port p).up = true ∧ (s.portRec p).echoOn = true := by
  simp [echoRuns, and_assoc]

theorem intervalDue_iff (s : State) (p : Port) : intervalDue s p = true ↔
    echoRuns s p = true ∧ ∃ t, (s.echoOf p).sched = some t ∧ t + intervalPeriods (s.portRec p).k ≤ s.clock.up := by
  unfold intervalDue
  cases (s.echoOf p).sched <;> simp

/-- When an expiry is due, in full (R21, R22). -/
theorem intervalDue_spec (s : State) (p : Port) : (p.isUplink && intervalDue s p) = true ↔
    p.isUplink = true ∧ s.run = .running ∧ s.agent.reload = false ∧ (s.port p).up = true ∧ (s.portRec p).echoOn = true ∧
      ∃ t, (s.echoOf p).sched = some t ∧ t + intervalPeriods (s.portRec p).k ≤ s.clock.up := by
  rw [Bool.and_eq_true, intervalDue_iff, echoRuns_iff]
  tauto

theorem exec_echoIntervalExpiry (p : Port) (s : State) : exec (.echoIntervalExpiry p) s =
    .next (if (p.isUplink && intervalDue s p) = true then takeInterval p (restartInterval p s) else s) := rfl

/-- Settles O38: the expiry where it is due, by the unit's state and the timing queue. -/
theorem anEchoIntervalBuildsOneAsk : Obligations.AnEchoIntervalBuildsOneAsk := by
  refine ⟨fun s id => ⟨by simp, askFrame_eq s id⟩, fun p s => ?_,
    fun p s => ⟨takeInterval_awaiting, takeInterval_taken, takeInterval_refused⟩, intervalPeriods_eq⟩
  simp only
  refine ⟨fun not_due => ?_, fun due st => ?_, fun due idle room => ?_, fun due idle full => ?_⟩
  · rw [exec_echoIntervalExpiry, if_neg (mt (intervalDue_spec s p).mp not_due)]
  all_goals rw [exec_echoIntervalExpiry, if_pos ((intervalDue_spec s p).mpr due), restartInterval]
  · rw [takeInterval_awaiting (s := s.setEcho p _) (by simpa using st)]
  · rw [takeInterval_taken (s := s.setEcho p _) (by simpa using idle) due.2.2.2.1 room]
    simp [setPort_setEcho]
  · rw [takeInterval_refused (s := s.setEcho p _) (by simpa using idle) (.inr full)]
    simp [setPort_setEcho]

/-! ### The timeout -/

/-- Settles O39, by the ask in flight and the end of its timeout. -/
theorem anEchoTimeoutAbandonsTheExchange : Obligations.AnEchoTimeoutAbandonsTheExchange := by
  refine fun p s => ⟨fun o uplink st due => ?_, fun h => ?_⟩
  · have ended : timeoutDue s p = true := by simp [timeoutDue, st, due]
    simp only [exec, execEchoTimeout, uplink, ended, Bool.and_true, if_true]
    cases p <;> rfl
  · have early : (p.isUplink && timeoutDue s p) = false := by
      rcases h with h | h
      · simp [h]
      · cases st : (s.echoOf p).st with
        | inFlight o => simp [timeoutDue, st, h o st]
        | idle | queued => simp [timeoutDue, st]
    simp only [exec, execEchoTimeout, early]
    rfl

/-! ### Answers -/

/-- The smallest of a window is a member of it, and no member is smaller (R27). -/
theorem smallest_spec : ∀ w : List Nat, w ≠ [] → smallest w ∈ w ∧ ∀ y ∈ w, smallest w ≤ y
  | [], h => absurd rfl h
  | [x], _ => by simp [smallest]
  | x :: z :: rest, _ => by
    obtain ⟨member, least⟩ := smallest_spec (z :: rest) (by simp)
    rw [smallest]
    · refine ⟨?_, ?_⟩
      · rcases min_choice x (smallest (z :: rest)) with h | h <;> rw [h]
        · exact List.mem_cons_self
        · exact List.mem_cons_of_mem _ member
      · rintro y (_ | ⟨_, hy⟩)
        · exact min_le_left _ _
        · exact (min_le_right _ _).trans (least y hy)
    · simp

theorem pushWindow_eq {α : Type} (w : List α) (x : α) :
    pushWindow w x = (if w.length < 8 then w else w.drop 1) ++ [x] := by
  unfold pushWindow
  split
  case isTrue full => rw [if_neg full.not_gt]
  case isFalse room => rw [if_pos (Nat.lt_of_not_le room)]

/-- An answer that matches: on an uplink, with id and t1 of the ask in flight (R25). -/
def Matched (w : Whole) (s : State) : Prop :=
  w.port.isUplink = true ∧ ∃ o, (s.echoOf w.port).st = .inFlight o ∧ natAt w.utx 12 2 = o.id ∧ snAt w.utx 14 = o.t1

theorem answerReceived_matched {w : Whole} {s : State} (h : Matched w s) : answerReceived w s = endExchange w s := by
  obtain ⟨uplink, o, st, id, t1⟩ := h
  simp [answerReceived, uplink, st, answerMatches, id, t1]

theorem answerReceived_late {w : Whole} {s : State} (h : ¬ Matched w s) :
    answerReceived w s = s.count w.port Stats.incEchoLate := by
  unfold answerReceived
  split
  case isFalse => rfl
  case isTrue uplink =>
    split
    case h_2 | h_3 => rfl
    case h_1 o st =>
      have differs : answerMatches o w.utx = false := by
        rw [← Bool.not_eq_true, answerMatches, Bool.and_eq_true, decide_eq_true_iff, decide_eq_true_iff]
        exact fun same => h ⟨uplink, o, st, same⟩
      rw [differs]
      rfl

theorem echoAnswer_header (tag : Option (BitVec 16)) : headerLen tag = if tag = none then 14 else 18 := by
  cases tag <;> rfl

theorem echoAnswerFrame_eq (s : State) (dst : BitVec 48) (tag : Option (BitVec 16)) (ask : List Byte) (t2 : SN) :
    echoAnswerFrame s dst tag ask t2 = padFrame (ethHeader dst s.cfg.mac tag s.cfg.utxEther ++
      utxHeader 3 40 s.cfg.engineId ++ slice ask 12 2 ++ slice ask 14 10 ++ snBytes t2 ++ be 10 0 ++ slice ask 24 8) := by
  simp only [echoAnswerFrame, l2Frame, List.append_assoc]

/-- Settles O40, by the match, by the sign of the sample, and for an ask by the timing queue. -/
theorem aMatchingAnswerGivesASample : Obligations.AMatchingAnswerGivesASample := by
  refine ⟨fun w s => ⟨fun h => answerReceived_late h, fun h negative => ?_, fun h positive => ?_⟩,
    fun w s => ⟨fun up room => ?_, fun refused => ?_⟩⟩
  · rw [answerReceived_matched h, endExchange, delaySample]
    exact if_pos negative
  · refine ⟨_, (smallest_spec _ (by simp)).1, (smallest_spec _ (by simp)).2, ?_⟩
    rw [answerReceived_matched h, endExchange, delaySample]
    refine (if_neg (not_lt.mpr positive)).trans ?_
    simp only [takeDelay, echoOf_setEcho_same, setEcho_setEcho, pushWindow_eq]
    rfl
  · simp only [answerAsk]
    rw [offerTiming_taken _ _ _ up room, echoAnswer_header, echoAnswerFrame_eq]
    exact if_pos rfl
  · simp only [answerAsk]
    rw [offerTiming_refused _ _ _ refused]
    rfl

end Sys2Proof.Machine
end

section
/-! Records written with room in the log, each with its sequence, and the faults raised and cleared beside them (R142, R144,
R187, R188); then the end of the SECOND pulse, the expiry of a holdover, and the memory test (R12, R76, R151 to R153). -/

namespace Sys2Proof.Machine

/-! ### One record, with room for it -/

theorem roomFor_iff (n : Nat) (s : State) : RoomFor n s ↔
    s.log.mem = .inService ∧ s.log.gap = false ∧ s.log.records.length + n + 1 ≤ 4096 := Iff.rfl

theorem RoomFor.accepts {n : Nat} {s : State} (h : RoomFor (n + 1) s) : logAccepts s.log = true :=
  (logAccepts_iff _).mpr ⟨h.1, by have := h.2.2; omega⟩

section
variable {n : Nat} {s : State} (h : RoomFor (n + 1) s) (o : Offer)
include h

theorem offerRecord_room : offerRecord o s = levelNotice (s.setLog (s.log.put s o)) := offerRecord_written o h.accepts h.2.1

theorem records_offerRecord : (offerRecord o s).log.records = s.log.records ++ [o.record s s.log.nextSeq] := by
  rw [offerRecord_room h, log_levelNotice, State.setLog_log, EventLog.put_eq]

theorem nextSeq_offerRecord : (offerRecord o s).log.nextSeq = (s.log.nextSeq + 1) % 4294967296 := by
  rw [offerRecord_room h, log_levelNotice, State.setLog_log, EventLog.put_eq]

theorem room_offerRecord : RoomFor n (offerRecord o s) := by
  obtain ⟨mem, gap, len⟩ := h
  rw [offerRecord_room ⟨mem, gap, len⟩]
  refine room_levelNotice ?_
  rw [roomFor_iff, State.setLog_log, EventLog.put_eq]
  exact ⟨mem, gap, by simp; omega⟩

theorem recs_offerRecord_room : (offerRecord o s).faults.recs = s.faults.recs := by
  rw [offerRecord_room h, recs_levelNotice, State.setLog_faults]

theorem engineClass_offerRecord_room : (offerRecord o s).engineClass = s.engineClass :=
  engineClass_of (by simp) (by simp) (recs_offerRecord_room h o) (by simp)

end

/-! ### A fault raised or cleared, with room for its record -/

/-- The state in which a raise of an inactive fault offers its record (R187, steps 1 and 2). -/
theorem raiseFault_inactive {k : FaultKind} {s : State} (h : (s.fault k).active = false) (subject : Subject) (d : AlertData) :
    raiseFault k subject true d s = faultAlert k false subject d
      (offerRecord (.plain subject.port? (.fault k false (s.response k))) (watchSecond (activate k subject s))) := by
  have response : (watchSecond (activate k subject s)).response k = s.response k := by simp [State.response]
  simp only [raiseFault, h, Bool.false_eq_true, if_false, if_true, faultOffer, response]

theorem clearFault_active {k : FaultKind} {s : State} (h : (s.fault k).active = true) (subject : Subject) (d : AlertData) :
    clearFault k subject true d s = faultAlert k true subject d
      (offerRecord (.plain subject.port? (.fault k true (s.response k))) (deactivate k s)) := by
  have response : (deactivate k s).response k = s.response k := by simp [State.response]
  simp only [clearFault, h, if_true, faultOffer, response]

theorem engineClass_faultAlert (k : FaultKind) (clear : Bool) (subject : Subject) (d : AlertData) (s : State) :
    (faultAlert k clear subject d s).engineClass = s.engineClass :=
  engineClass_of (by simp) (by simp) (by simp) (by simp)

theorem date_watchSecond (s : State) : (watchSecond s).clock.date = s.clock.date := anchor_date (by simp)

section
variable {n : Nat} {s : State} (h : RoomFor (n + 1) s) {k : FaultKind} (subject : Subject) (d : AlertData)
include h

theorem room_activate : RoomFor (n + 1) (watchSecond (activate k subject s)) := h.of (by simp [log_watchSecond])

theorem room_deactivate : RoomFor (n + 1) (deactivate k s) := h.of (by simp)

theorem records_raiseFault (inactive : (s.fault k).active = false) :
    (raiseFault k subject true d s).log.records = s.log.records ++
      [⟨s.log.nextSeq, subject.port?, 0, (raiseFault k subject true d s).engineClass, s.clock.date.sn,
        .fault k false (s.response k)⟩] := by
  have room := room_activate h (k := k) subject
  rw [raiseFault_inactive inactive, log_faultAlert, engineClass_faultAlert, records_offerRecord room,
    engineClass_offerRecord_room room, Offer.plain, Offer.record, date_watchSecond, log_watchSecond]
  rfl

theorem nextSeq_raiseFault (inactive : (s.fault k).active = false) :
    (raiseFault k subject true d s).log.nextSeq = (s.log.nextSeq + 1) % 4294967296 := by
  rw [raiseFault_inactive inactive, log_faultAlert, nextSeq_offerRecord (room_activate h subject), log_watchSecond]
  rfl

theorem room_raiseFault (inactive : (s.fault k).active = false) : RoomFor n (raiseFault k subject true d s) := by
  rw [raiseFault_inactive inactive]
  exact (room_offerRecord (room_activate h subject) _).of (log_faultAlert ..)

theorem records_clearFault (active : (s.fault k).active = true) :
    (clearFault k subject true d s).log.records = s.log.records ++
      [⟨s.log.nextSeq, subject.port?, 0, (clearFault k subject true d s).engineClass, s.clock.date.sn,
        .fault k true (s.response k)⟩] := by
  have room := room_deactivate h (k := k)
  rw [clearFault_active active, log_faultAlert, engineClass_faultAlert, records_offerRecord room,
    engineClass_offerRecord_room room]
  rfl

theorem nextSeq_clearFault (active : (s.fault k).active = true) :
    (clearFault k subject true d s).log.nextSeq = (s.log.nextSeq + 1) % 4294967296 := by
  rw [clearFault_active active, log_faultAlert, nextSeq_offerRecord (room_deactivate h)]
  rfl

theorem room_clearFault (active : (s.fault k).active = true) : RoomFor n (clearFault k subject true d s) := by
  rw [clearFault_active active]
  exact (room_offerRecord (room_deactivate h) _).of (log_faultAlert ..)

end

/-! ### The class of a holdover -/

theorem servoClass_holdover {s : State} (h : s.servo.st = .holdover) : s.servoClass = if s.servo.expired then 4 else 3 := by
  rw [State.servoClass, h]

/-- An expired holdover is of class 4, which no floor exceeds (R81). -/
theorem engineClass_expired {s : State} (h : s.servo.st = .holdover) (expired : s.servo.expired = true) :
    s.engineClass = 4 := by
  rw [State.engineClass, servoClass_holdover h, expired, if_pos rfl]
  exact max_eq_left (floor_le s)

/-! ### The pulse and the holdover -/

/-- The moment of the expiry, before its fault is raised (R76). -/
def expiring (s : State) : State := watchSecond (s.setServo { s.servo with expired := true })

@[simp] theorem servo_expiring (s : State) : (expiring s).servo = { s.servo with expired := true } := by simp [expiring]

/-- The expiry, the responses within their maxima: the raise changes no selection (R76, R185). -/
theorem expireHoldover_eq {s : State} (st : s.servo.st = .holdover)
    (maxima : ∀ k : FaultKind, (s.response k).rank ≤ k.maxResponse.rank) :
    expireHoldover s = offerRecord (.plain none (.state .holdover .holdover 4))
      (raiseFault .holdoverExpired .self true .nothing (expiring s)) := by
  have plain : raiseWithHold .holdoverExpired .self true .nothing (expiring s) =
      raiseFault .holdoverExpired .self true .nothing (expiring s) :=
    raiseWithHold_plain _ _ _ _ _ (by simpa [expiring, State.response] using maxima) (by decide) (by decide)
  have holdover : (raiseFault .holdoverExpired .self true .nothing (expiring s)).servo.st = .holdover := by
    simpa [expiring] using st
  have cls := engineClass_expired holdover (by simp [expiring])
  rw [show expireHoldover s = offerState .holdover (raiseWithHold .holdoverExpired .self true .nothing (expiring s)) from rfl,
    plain, offerState, holdover, cls]

/-- What an expiry leaves, the responses within their maxima (R76). -/
theorem expireHoldover_does {s : State} (st : s.servo.st = .holdover)
    (maxima : ∀ k : FaultKind, (s.response k).rank ≤ k.maxResponse.rank) :
    let t := expireHoldover s
    t.servo = { s.servo with expired := true } ∧ t.engineClass = 4 ∧ t.sources = s.sources ∧
      (t.fault .holdoverExpired).active = true ∧
      (t.fault .holdoverExpired).count = min 255 ((s.fault .holdoverExpired).count + 1) ∧
      t.cfg = s.cfg ∧ t.clock.date = s.clock.date ∧ t.matchTab = s.matchTab ∧ t.frozen = s.frozen ∧
      ((s.fault .holdoverExpired).active = false → RoomFor 2 s → t.log.records = s.log.records ++
        [⟨s.log.nextSeq, none, 0, 4, s.clock.date.sn, .fault .holdoverExpired false (s.response .holdoverExpired)⟩,
         ⟨(s.log.nextSeq + 1) % 4294967296, none, 0, 4, s.clock.date.sn, .state .holdover .holdover 4⟩]) := by
  rw [expireHoldover_eq st maxima]
  have before : (expiring s).fault .holdoverExpired = s.fault .holdoverExpired := fault_of (by simp [expiring]) _
  have raised := fault_raiseFault_self .holdoverExpired .self true .nothing (expiring s) (by decide)
  have same := fault_offerRecord (.plain none (.state .holdover .holdover 4))
    (raiseFault .holdoverExpired .self true .nothing (expiring s)) .holdoverExpired (by decide)
  have date : (expiring s).clock.date = s.clock.date := date_watchSecond _
  have log : (expiring s).log = s.log := log_watchSecond _
  have cls : (raiseFault .holdoverExpired .self true .nothing (expiring s)).engineClass = 4 :=
    engineClass_expired (by simpa using st) (by simp)
  refine ⟨by simp, engineClass_expired (by simpa using st) (by simp), by simp [expiring], ?_, ?_,
    by simp [expiring], ?_, by simp [expiring], by simp [expiring], fun inactive room => ?_⟩
  · rw [same]
    exact active_raiseFault _ _ _ _ _ (by decide)
  · rw [same, raised, before]
    split <;> rfl
  · rw [anchor_date (anchor_offerRecord ..), anchor_date (anchor_raiseFault ..), date]
  · have room' : RoomFor 2 (expiring s) := room.of log
    have inactive' : ((expiring s).fault .holdoverExpired).active = false := by rw [before, inactive]
    have after : RoomFor 1 (raiseFault .holdoverExpired .self true .nothing (expiring s)) :=
      room_raiseFault room' _ _ inactive'
    rw [records_offerRecord after, records_raiseFault room' _ _ inactive', nextSeq_raiseFault room' _ _ inactive',
      cls, log, date, Offer.plain, Offer.record, cls, anchor_date (anchor_raiseFault ..), date,
      show (expiring s).response .holdoverExpired = s.response .holdoverExpired by simp [expiring, State.response],
      List.append_assoc]
    rfl

theorem holdoverDue_iff (s : State) : holdoverDue s = true ↔
    s.servo.st = .holdover ∧ s.servo.expired = false ∧ s.cfg.servo.holdoverLimit ≤ s.servo.holdTimer := by
  simp [holdoverDue, and_assoc]

/-- Settles O43, by the width of the pulse and the holdover limit against uptime and timer. -/
theorem theSecondPulseAndTheHoldoverRunOut : Obligations.TheSecondPulseAndTheHoldoverRunOut := by
  refine ⟨fun s t pulse => ⟨fun over_ => ?_, fun before => ?_⟩, fun s none => ?_, fun s => ⟨fun not_due => ?_,
    fun due maxima => ⟨expireHoldover s, ?_, ?_⟩⟩⟩
  · simp [exec, execSecondPulseEnd, pulseOver, pulse, over_]
    rfl
  · simp [exec, execSecondPulseEnd, pulseOver, pulse, before]
  · simp [exec, execSecondPulseEnd, pulseOver, none]
  · exact congrArg _ (if_neg (mt (holdoverDue_iff s).mp not_due))
  · exact congrArg _ (if_pos ((holdoverDue_iff s).mpr due))
  · obtain ⟨servo, cls, sources, active, count, cfg, date, tab, frozen, filed⟩ := expireHoldover_does due.1 maxima
    exact ⟨servo, cls, sources, active, count, cfg, date, tab, frozen,
      fun inactive mem gap len => filed inactive ⟨mem, gap, len⟩⟩

/-! ### What the write rule keeps, every record a raise or a re-evaluation offers keeps -/

section
variable {P : EventLog → Prop} (kept : ∀ (o : Offer) (s : State), P s.log → P (offerBare o s).1.log)
include kept

theorem logKept_raiseLogFull {s : State} (h : P s.log) : P (raiseLogFull s).log := by
  simp only [raiseLogFull]
  split
  · simpa using h
  · rw [log_faultAlert]
    exact kept _ _ (by simpa using h)

theorem logKept_clearLogFull {s : State} (h : P s.log) : P (clearLogFull s).log := by
  have offered : P (offerBare (faultOffer (deactivate .logFull s) .logFull true .self) (deactivate .logFull s)).1.log :=
    kept _ _ (by simpa using h)
  simp only [clearLogFull]
  split
  · rw [log_faultAlert]
    split
    · exact logKept_raiseLogFull kept offered
    · exact offered
  · exact h

theorem logKept_offerRecord (o : Offer) {s : State} (h : P s.log) : P (offerRecord o s).log := by
  have offered := kept o s h
  simp only [offerRecord]
  split
  · exact logKept_raiseLogFull kept offered
  · exact logKept_clearLogFull kept offered
  · exact offered
  · exact offered

theorem logKept_raiseFault (k : FaultKind) (subject : Subject) (record : Bool) (d : AlertData) {s : State} (h : P s.log) :
    P (raiseFault k subject record d s).log := by
  simp only [raiseFault]
  split
  · simpa using h
  · rw [log_faultAlert]
    split
    · exact logKept_offerRecord kept _ (by simpa using h)
    · simpa using h

theorem logKept_clearFault (k : FaultKind) (subject : Subject) (record : Bool) (d : AlertData) {s : State} (h : P s.log) :
    P (clearFault k subject record d s).log := by
  simp only [clearFault]
  split
  · rw [log_faultAlert]
    split
    · exact logKept_offerRecord kept _ (by simpa using h)
    · simpa using h
  · exact h

theorem logKept_offerStateIfChanged (before : ServoState) {s : State} (h : P s.log) :
    P (offerStateIfChanged before s).log := by
  simp only [offerStateIfChanged]
  split
  · exact h
  · exact logKept_offerRecord kept _ h

theorem logKept_select (old : Option (Nat × SourceEntry)) (new : Nat × SourceEntry) (reason : Reason) (sampled : Bool)
    {s : State} (h : P s.log) : P (select old new reason sampled s).log := by
  refine logKept_clearFault kept _ _ _ _ (logKept_offerStateIfChanged kept _ ?_)
  have offered (o : Offer) {t : State} (same : t.log = s.log) : P (offerRecord o t).log :=
    logKept_offerRecord kept o (same ▸ h)
  split
  · exact logKept_clearFault kept _ _ _ _ (offered _ (by cases old <;> (repeat' split) <;> simp))
  · exact offered _ (by cases old <;> (repeat' split) <;> simp)

theorem logKept_endSelection (old : Nat × SourceEntry) (reason : Reason) {s : State} (h : P s.log) :
    P (endSelection old reason s).log := by
  refine logKept_raiseFault kept _ _ _ _ (logKept_offerStateIfChanged kept _ (logKept_offerRecord kept _ ?_))
  split <;> simpa using h

theorem logKept_reevaluate (old : Option (Nat × SourceEntry)) (why : Reason) (own : Option Nat) {s : State} (h : P s.log) :
    P (reevaluate old why own s).log := by
  have selected := fun old new reason sampled => logKept_select kept old new reason sampled h
  have ended := fun old reason => logKept_endSelection kept old reason h
  unfold reevaluate
  (repeat' split) <;> simp only [selected, ended, h]

theorem logKept_raiseWithHold (k : FaultKind) (subject : Subject) (record : Bool) (d : AlertData) {s : State}
    (h : P s.log) : P (raiseWithHold k subject record d s).log := by
  have raised := logKept_raiseFault kept k subject record d h
  simp only [raiseWithHold, reevaluateOnHold]
  split
  · exact raised
  · exact logKept_reevaluate kept _ _ _ raised

end

/-! ### The memory test -/

/-- A log whose memory has failed: it holds no record and issues no sequence (R152, R153). -/
def FailedAt (n : Nat) (l : EventLog) : Prop := l.mem = .failed ∧ l.records = [] ∧ l.nextSeq = n

theorem failedAt_offerBare (n : Nat) (o : Offer) (s : State) (h : FailedAt n s.log) : FailedAt n (offerBare o s).1.log := by
  have refused : ¬ logAccepts s.log = true := fun accepted => by
    have inService := ((logAccepts_iff _).mp accepted).1
    rw [h.1] at inService
    cases inService
  simp only [offerBare, if_neg refused]
  exact h

/-- A failed test: the memory FAILED and MEMORY_FAULT raised (R153). -/
theorem endMemoryTest_failed (s : State) :
    let t := endMemoryTest false s
    FailedAt s.log.nextSeq t.log ∧ (t.fault .memoryFault).active = true ∧
      (t.fault .memoryFault).count = min 255 ((s.fault .memoryFault).count + 1) ∧ t.cfg = s.cfg ∧
      t.clock.date = s.clock.date := by
  intro t
  have fault : t.fault .memoryFault = (raiseFault .memoryFault .self true .nothing
      (s.setLog { s.log with records := [], mem := .failed })).fault .memoryFault :=
    fault_reevaluateOnHold _ _ _ (by decide) (by decide) (by decide)
  refine ⟨logKept_raiseWithHold (failedAt_offerBare _) _ _ _ _ ⟨rfl, rfl, rfl⟩, ?_, ?_, by simp [t, endMemoryTest],
    anchor_date (by simp [t, endMemoryTest])⟩
  · rw [fault]
    exact active_raiseFault _ _ _ _ _ (by decide)
  · rw [fault, fault_raiseFault_self _ _ _ _ _ (by decide)]
    split <;> rfl

theorem exec_testLogMemory {s : State} (turn : hasTurn 23 .testLogMemory s = true) :
    exec .testLogMemory s = .next (deliver 23 ((testLog s).1, (testLog s).2, [])) :=
  congrArg Host.Outcome.next (runCommand_of_hasTurn turn _)

theorem testLog_testing {s : State} (h : ∃ start, s.log.mem = .testing start) : testLog s = (s, .busy) := by
  obtain ⟨start, mem⟩ := h
  simp only [testLog, mem]

theorem testLog_idle {s : State} (h : ¬ ∃ start, s.log.mem = .testing start) : testLog s =
    if s.frozen.isSome then (s, .state)
    else if 0 < s.log.records.length then (s, .notEmpty)
    else (s.setLog { s.log with mem := .testing s.clock.up }, .done) := by
  cases mem : s.log.mem with
  | testing start => exact absurd ⟨start, mem⟩ h
  | inService | failed => simp only [testLog, mem]

/-- Settles O46, by the memory state, and for the end by the time and the result. -/
theorem theMemoryTestRunsForTwentyMilliseconds : Obligations.TheMemoryTestRunsForTwentyMilliseconds := by
  refine ⟨fun s turn => ?_, fun pass s => ⟨fun start mem due => ?_, fun before => ?_⟩⟩
  · simp only [exec_testLogMemory turn]
    refine ⟨fun testing => by rw [testLog_testing testing], fun idle frozen => ?_, fun idle live held => ?_,
      fun idle live empty => ?_⟩
    all_goals rw [testLog_idle idle]
    · rw [if_pos (Option.isSome_iff_ne_none.mpr frozen)]
    · rw [if_neg (by simp [live]), if_pos (List.length_pos_iff.mpr held)]
    · rw [if_neg (by simp [live]), if_neg (by simp [empty])]
      rfl
  · have ended : exec (.logMemoryTestEnd pass) s = .next (endMemoryTest pass s) := by
      simp only [exec, execLogMemoryTestEnd, mem]
      exact congrArg _ (if_pos due)
    rw [ended]
    refine ⟨fun passed => by rw [passed]; rfl, fun failed => ⟨_, rfl, ?_⟩⟩
    obtain ⟨⟨mem, records, nextSeq⟩, rest⟩ := endMemoryTest_failed s
    rw [failed]
    exact ⟨mem, records, nextSeq, rest⟩
  · cases mem : s.log.mem with
    | testing start =>
      simp only [exec, execLogMemoryTestEnd, mem]
      exact congrArg _ (if_neg (Nat.not_le.mpr (before start mem)))
    | inService | failed => simp only [exec, execLogMemoryTestEnd, mem]

end Sys2Proof.Machine
end

section
/-! The write commands of the Match Table, of ports, lanes and overrides, and of peers, and the bars (R112 to R114, R125, R85,
R36, R162, R163, R51, R53): each where it has its turn, and what it writes. -/

namespace Sys2Proof.Machine

/-! ### Enumerated values and limits -/

theorem portOf_eq (n : Nat) : portOf n = [Port.u0, .u1, .d0, .d1][n]? := by
  match n with
  | 0 | 1 | 2 | 3 => rfl
  | n + 4 => rfl

theorem laneOf_eq (n : Nat) : laneOf n = [Lane.a, .b][n]? := by
  match n with
  | 0 | 1 => rfl
  | n + 2 => rfl

theorem modeOf_eq (n : Nat) : modeOf n = [Mode.boundary, .transit][n]? := by
  match n with
  | 0 | 1 => rfl
  | n + 2 => rfl

theorem privilegeOf_eq (n : Nat) : privilegeOf n = [Privilege.none, .read, .full][n]? := by
  match n with
  | 0 | 1 | 2 => rfl
  | n + 3 => rfl

theorem actionOf_eq (n : Nat) : actionOf n = [Action.pass, .storageMark, .utxL2, .utxUdp][n]? := by
  match n with
  | 0 | 1 | 2 | 3 => rfl
  | n + 4 => rfl

theorem vlanKindOf_eq (n : Nat) : vlanKindOf n = [VlanKind.any, .none, .id][n]? := by
  match n with
  | 0 | 1 | 2 => rfl
  | n + 3 => rfl

theorem logModeOf_eq (n : Nat) : logModeOf n = [LogMode.stampAndLog, .stampOnly, .logOnly][n]? := by
  match n with
  | 0 | 1 | 2 => rfl
  | n + 3 => rfl

theorem uplinkOf_eq (n : Nat) : uplinkOf n = [Port.u0, .u1][n]? := by
  match n with
  | 0 | 1 | 2 | 3 => rfl
  | n + 4 => rfl

theorem clampNat_zero (hi x : Nat) : clampNat 0 hi x = min x hi := by simp [clampNat, min_comm]

/-- A value at most its limit is the one that was given. -/
theorem clampNat_zero_ne (hi x : Nat) : (clampNat 0 hi x != x) = decide (hi < x) := by
  rw [clampNat_zero, Bool.eq_iff_iff]
  simp

theorem isOn_eq (b : Byte) : isOn b = decide (b ≠ 0) := by
  rw [Bool.eq_iff_iff]
  simp [isOn]

theorem doneOr_iff {b : Bool} {p : Prop} [Decidable p] (h : b = false ↔ p) : doneOr b = if p then .done else .clamped := by
  cases b <;> simp [doneOr] at h ⊢ <;> simp [h]

theorem setIfInBounds_of_lt {α : Type} {n i : Nat} (v : Vector α n) (x : α) (h : i < n) :
    v.setIfInBounds i x = v.set i x h := by
  ext j hj
  rw [Vector.getElem_setIfInBounds, Vector.getElem_set]

/-! ### The standby bank -/

section
variable (t : MatchTable) (b : Vector MatchEntry 64)

@[simp] theorem activeBank_setStandby : (t.setStandby b).activeBank = t.activeBank := by
  unfold MatchTable.setStandby MatchTable.activeBank
  cases h : t.active <;> simp [h]

@[simp] theorem standbyBank_setStandby : (t.setStandby b).standbyBank = b := by
  unfold MatchTable.setStandby MatchTable.standbyBank
  cases h : t.active <;> simp [h]

@[simp] theorem active_setStandby : (t.setStandby b).active = t.active := by
  unfold MatchTable.setStandby
  split <;> rfl

@[simp] theorem armed_setStandby : (t.setStandby b).armed = t.armed := by
  unfold MatchTable.setStandby
  split <;> rfl

end

theorem exec_writeMatch {i : Byte} {a : MatchArg} {s : State} (turn : hasTurn 6 (.writeMatch i a) s = true) :
    exec (.writeMatch i a) s = .next (deliver 6 ((writeMatch i a s).1, (writeMatch i a s).2, [])) :=
  congrArg Host.Outcome.next (runCommand_of_hasTurn turn _)

theorem exec_copyBank {s : State} (turn : hasTurn 7 .copyBank s = true) :
    exec .copyBank s = .next (deliver 7 ((copyActive s).1, (copyActive s).2, [])) :=
  congrArg Host.Outcome.next (runCommand_of_hasTurn turn _)

theorem exec_swapBanks {arg : Byte} {s : State} (turn : hasTurn 8 (.swapBanks arg) s = true) :
    exec (.swapBanks arg) s = .next (deliver 8 ((swapCommand arg s).1, (swapCommand arg s).2, [])) :=
  congrArg Host.Outcome.next (runCommand_of_hasTurn turn _)

theorem matchLimited_iff (a : MatchArg) : matchLimited a = false ↔
    a.vlanId.toNat ≤ 4094 ∧ a.patOffset.toNat ≤ 127 ∧ a.stampOffset.toNat ≤ 9188 ∧ a.keyOffset.toNat ≤ 9192 ∧
      a.domain.toNat ≤ 15 := by
  simp [matchLimited, matchEntryOf, clampNat_zero_ne, and_assoc]

/-- A write that names nothing (R201). -/
theorem writeMatch_range {i : Byte} {a : MatchArg} {s : State} (free : s.matchTab.armed = false)
    (h : 63 < i.toNat ∨ ¬ (a.action.toNat ≤ 3 ∧ a.vlanKind.toNat ≤ 2 ∧ a.logMode.toNat ≤ 2)) :
    writeMatch i a s = (s, .range) := by
  simp only [writeMatch, free, Bool.false_eq_true, if_false, actionOf_eq, vlanKindOf_eq, logModeOf_eq]
  split
  · rfl
  · split
    next action vlan mode ha hv hm =>
      obtain ⟨ha, -⟩ := List.getElem?_eq_some_iff.mp ha
      obtain ⟨hv, -⟩ := List.getElem?_eq_some_iff.mp hv
      obtain ⟨hm, -⟩ := List.getElem?_eq_some_iff.mp hm
      simp only [List.length_cons, List.length_nil] at ha hv hm
      omega
    · rfl

/-- A write that names an entry and its enumerated values (R112). -/
theorem writeMatch_named {i : Byte} {a : MatchArg} {s : State} (free : s.matchTab.armed = false) (h : i.toNat < 64)
    {action : Action} {vlan : VlanKind} {mode : LogMode} (ha : actionOf a.action.toNat = some action)
    (hv : vlanKindOf a.vlanKind.toNat = some vlan) (hm : logModeOf a.logMode.toNat = some mode) :
    writeMatch i a s = (s.setMatchTab (s.matchTab.setStandby
      (s.matchTab.standbyBank.set i.toNat (matchEntryOf a action vlan mode) h)), doneOr (matchLimited a)) := by
  rw [writeMatch, if_neg (by simp [free]), if_neg (by omega), ha, hv, hm]
  exact congrArg (fun b => (s.setMatchTab (s.matchTab.setStandby b), doneOr (matchLimited a))) (setIfInBounds_of_lt _ _ h)

/-- Settles O49, by the armed swap, then the names, then the argument of the swap. -/
theorem theStandbyBankIsWrittenAndSwapped : Obligations.TheStandbyBankIsWrittenAndSwapped := by
  refine ⟨fun i a s turn => ?_, fun s turn => ?_, fun arg s turn => ?_⟩
  · simp only [exec_writeMatch turn]
    refine ⟨fun armed => by rw [writeMatch, if_pos armed], fun free unnamed => by rw [writeMatch_range free unnamed],
      fun free h named => ?_⟩
    obtain ⟨ha, hv, hm⟩ := named
    have ha := List.getElem?_eq_getElem (l := [Action.pass, .storageMark, .utxL2, .utxUdp]) (Nat.lt_succ_of_le ha)
    have hv := List.getElem?_eq_getElem (l := [VlanKind.any, .none, .id]) (Nat.lt_succ_of_le hv)
    have hm := List.getElem?_eq_getElem (l := [LogMode.stampAndLog, .stampOnly, .logOnly]) (Nat.lt_succ_of_le hm)
    refine ⟨_, _, _, s.matchTab.setStandby (s.matchTab.standbyBank.set i.toNat _ h), ha, hv, hm, activeBank_setStandby ..,
      standbyBank_setStandby .., active_setStandby .., (armed_setStandby ..).trans free, ?_⟩
    rw [writeMatch_named free h ((actionOf_eq _).trans ha) ((vlanKindOf_eq _).trans hv) ((logModeOf_eq _).trans hm),
      doneOr_iff (matchLimited_iff a), matchEntryOf]
    simp only [clampNat_zero, isOn_eq]
    rfl
  · simp only [exec_copyBank turn]
    refine ⟨fun armed => by rw [copyActive, if_pos armed], fun free => ⟨s.matchTab.setStandby s.matchTab.activeBank,
      activeBank_setStandby .., standbyBank_setStandby .., active_setStandby .., (armed_setStandby ..).trans free, ?_⟩⟩
    rw [copyActive, if_neg (by simp [free])]
    rfl
  · simp only [exec_swapBanks turn]
    refine ⟨fun h => by rw [h]; rfl, fun h => by rw [h]; rfl, fun h0 h1 => ?_⟩
    simp only [swapCommand]
    split
    next h => exact absurd (BitVec.eq_of_toNat_eq h) h0
    next h => exact absurd (BitVec.eq_of_toNat_eq h) h1
    · rfl

/-! ### Port, lane and override records -/

theorem exec_writePort {a : PortArg} {s : State} (turn : hasTurn 9 (.writePort a) s = true) :
    exec (.writePort a) s = .next (deliver 9 ((writePort a s).1, (writePort a s).2, [])) :=
  congrArg Host.Outcome.next (runCommand_of_hasTurn turn _)

theorem exec_writeLane {a : LaneArg} {s : State} (turn : hasTurn 10 (.writeLane a) s = true) :
    exec (.writeLane a) s = .next (deliver 10 ((writeLane a s).1, (writeLane a s).2, [])) :=
  congrArg Host.Outcome.next (runCommand_of_hasTurn turn _)

theorem exec_writeOverride {a : OverrideArg} {s : State} (turn : hasTurn 11 (.writeOverride a) s = true) :
    exec (.writeOverride a) s = .next (deliver 11 ((writeOverride a s).1, (writeOverride a s).2, [])) :=
  congrArg Host.Outcome.next (runCommand_of_hasTurn turn _)

/-- Where a command has its turn, the engine runs and no reload is in progress (log 11, log 44). -/
theorem commandsTaken_of_hasTurn {code : Nat} {c : Instr} {s : State} (turn : hasTurn code c s = true) :
    s.run = .running ∧ s.agent.reload = false ∧ s.agent.resetPending = none := by
  simp only [hasTurn, commandsTaken, Bool.and_eq_true, beq_iff_eq, Bool.not_eq_true', Option.isNone_iff_eq_none] at turn
  obtain ⟨⟨⟨run, reload⟩, pending⟩, -⟩ := turn
  exact ⟨run, reload, pending⟩

section
variable {p : Port} {old : PortRec} {s : State}

theorem echoRewritten_downlink (h : p.isUplink = false) : echoRewritten p old s = s := if_neg (by simp [h])

variable (up : p.isUplink = true)
include up

theorem echoRewritten_off (was : old.echoOn = true) (now : (s.portRec p).echoOn = false) :
    echoRewritten p old s = s.setEcho p { s.echoOf p with st := .idle, sched := none } := by
  simp [echoRewritten, up, was, now]

theorem echoRewritten_on (was : old.echoOn = false) (now : (s.portRec p).echoOn = true) :
    echoRewritten p old s = startEcho p s := by
  simp [echoRewritten, up, was, now]

theorem echoRewritten_same (same : old.echoOn = (s.portRec p).echoOn) : echoRewritten p old s =
    if old.k ≠ (s.portRec p).k ∧ echoRuns s p = true then restartInterval p s else s := by
  by_cases k : old.k = (s.portRec p).k <;> cases on : (s.portRec p).echoOn <;> simp [echoRewritten, up, same, k, on]

end

theorem portLimited_iff (a : PortArg) (level : Privilege) : portLimited a = false ↔
    (portRecOf a level).k = a.exponent.toInt ∧ (portRecOf a level).timeoutMs = a.timeout.toNat ∧
      (portRecOf a level).asym = a.asym.toInt := by
  simp [portLimited, portRecOf, and_assoc]

theorem laneLimited_iff (a : LaneArg) (mode : Mode) : laneLimited a = false ↔
    (laneRecOf a mode).k = a.exponent.toInt ∧ (laneRecOf a mode).m = a.thinning.toNat := by
  simp [laneLimited, laneRecOf]

theorem overrideLimited_iff (a : OverrideArg) (p : Port) : overrideLimited a = false ↔
    (overrideOf a p).asym = a.asym.toInt := by
  simp [overrideLimited, overrideOf]

theorem writePort_range {a : PortArg} {s : State} (h : 3 < a.port.toNat ∨ 2 < a.privilege.toNat) :
    writePort a s = (s, .range) := by
  simp only [writePort, portOf_eq, privilegeOf_eq]
  rcases h with h | h
  · rw [List.getElem?_eq_none h]
  · rw [List.getElem?_eq_none (l := [Privilege.none, .read, .full]) h]
    split <;> simp_all

/-- The state with a port record written (R125). -/
def withPortRec (s : State) (p : Port) (r : PortRec) : State := { s with cfg := { s.cfg with ports := s.cfg.ports.set p r } }

@[simp] theorem portRec_withPortRec (s : State) (p : Port) (r : PortRec) : (withPortRec s p r).portRec p = r :=
  Quad.get_set_same ..

theorem echoRuns_withPortRec {s : State} (run : s.run = .running) (reload : s.agent.reload = false) (p : Port) (r : PortRec) :
    echoRuns (withPortRec s p r) p = true ↔ p.isUplink = true ∧ (s.port p).up = true ∧ r.echoOn = true := by
  rw [echoRuns_iff, portRec_withPortRec]
  constructor
  · rintro ⟨uplink, -, -, up, on⟩
    exact ⟨uplink, up, on⟩
  · rintro ⟨uplink, up, on⟩
    exact ⟨uplink, run, reload, up, on⟩

theorem writePort_named {a : PortArg} {s : State} {p : Port} {level : Privilege} (hp : portOf a.port.toNat = some p)
    (hl : privilegeOf a.privilege.toNat = some level) : writePort a s =
      (echoRewritten p (s.portRec p) (withPortRec s p (portRecOf a level)), doneOr (portLimited a)) := by
  rw [writePort, hp, hl]
  rfl

/-- A port record written, by what it changes on the requester of its uplink (R31, R22). -/
theorem echoRewritten_cases {s : State} (run : s.run = .running) (reload : s.agent.reload = false) (p : Port)
    (old new : PortRec) :
    let written := withPortRec s p new
    let e := s.echoOf p
    (p.isUplink = false ∨ (old.echoOn = new.echoOn ∧ (old.k = new.k ∨ new.echoOn = false ∨ (s.port p).up = false)) ∨
        (old.echoOn = false ∧ new.echoOn = true ∧ (s.port p).up = false) → echoRewritten p old written = written) ∧
    (p.isUplink = true → old.echoOn = true → new.echoOn = false →
      echoRewritten p old written = written.setEcho p { e with st := .idle, sched := none }) ∧
    (p.isUplink = true → old.echoOn = true → new.echoOn = true → old.k ≠ new.k → (s.port p).up = true →
      echoRewritten p old written = written.setEcho p { e with sched := some s.clock.up }) ∧
    (p.isUplink = true → old.echoOn = false → new.echoOn = true → (s.port p).up = true →
      echoRewritten p old written = takeInterval p (written.setEcho p { e with sched := some s.clock.up })) := by
  intro written e
  have runs := echoRuns_withPortRec run reload p new
  have now : (written.portRec p) = new := portRec_withPortRec ..
  refine ⟨fun h => ?_, fun uplink was off => ?_, fun uplink was on k up => ?_, fun uplink was on up => ?_⟩
  · by_cases uplink : p.isUplink = true
    · rcases h with down | ⟨same, kept⟩ | ⟨was, on, down⟩
      · simp [down] at uplink
      · rw [echoRewritten_same uplink (by rw [now, same]), if_neg]
        rintro ⟨k, r⟩
        obtain ⟨-, up, on⟩ := runs.mp r
        rw [now] at k
        simp [k, on, up] at kept
      · rw [echoRewritten_on uplink was (by rw [now, on]), startEcho, if_neg]
        intro r
        obtain ⟨-, up, -⟩ := runs.mp r
        simp [down] at up
    · exact echoRewritten_downlink (by simpa using uplink)
  · exact echoRewritten_off uplink was (by rw [now, off])
  · rw [echoRewritten_same uplink (by rw [now, was, on]), if_pos ⟨by rwa [now], runs.mpr ⟨uplink, up, on⟩⟩]
    rfl
  · rw [echoRewritten_on uplink was (by rw [now, on]), startEcho, if_pos (runs.mpr ⟨uplink, up, on⟩)]
    rfl

theorem writeLane_range {a : LaneArg} {s : State} (h : 1 < a.lane.toNat ∨ 1 < a.mode.toNat) :
    writeLane a s = (s, .range) := by
  simp only [writeLane, laneOf_eq, modeOf_eq]
  rcases h with h | h
  · rw [List.getElem?_eq_none h]
  · rw [List.getElem?_eq_none (l := [Mode.boundary, .transit]) h]
    split <;> simp_all

/-- Settles O50, by the names, then by what a port record changes on the requester. -/
theorem portLaneAndOverrideRecordsAreWrittenWhole : Obligations.PortLaneAndOverrideRecordsAreWrittenWhole := by
  refine ⟨fun a s turn => ?_, fun a s turn => ?_, fun a s turn => ?_⟩
  · obtain ⟨run, reload, -⟩ := commandsTaken_of_hasTurn turn
    rw [exec_writePort turn]
    refine ⟨fun h => by rw [writePort_range h], fun p level hp hl => ?_⟩
    rw [← portOf_eq] at hp
    rw [← privilegeOf_eq] at hl
    intro old new st written e
    have st_eq : doneOr (portLimited a) = st := by
      rw [doneOr_iff (portLimited_iff a level)]
      simp only [portRecOf, isOn_eq, clampInt, clampNat]
      rfl
    have new_eq : portRecOf a level = new := by
      simp only [portRecOf, isOn_eq]
      rfl
    obtain ⟨kept, off, again, on⟩ := echoRewritten_cases run reload p old new
    rw [writePort_named hp hl, st_eq, new_eq, show s.portRec p = old from rfl]
    exact ⟨fun h => by rw [kept h]; rfl, fun u w n => by rw [off u w n]; rfl, fun u w n k l => by rw [again u w n k l]; rfl,
      fun u w n l => by rw [on u w n l]; rfl⟩
  · rw [exec_writeLane turn]
    refine ⟨fun h => by rw [writeLane_range h], fun l mode hl hm => ?_⟩
    rw [writeLane, laneOf_eq, hl, modeOf_eq, hm]
    simp only [doneOr_iff (laneLimited_iff a mode), laneRecOf, clampNat_zero, min_comm _ 3]
    rfl
  · rw [exec_writeOverride turn]
    refine ⟨fun h => ?_, fun p hp h => ?_⟩
    · rw [writeOverride]
      split
      · rfl
      · rw [portOf_eq, List.getElem?_eq_none (by simp; omega)]
    · rw [writeOverride, if_neg (by omega), portOf_eq, hp]
      simp only [doneOr_iff (overrideLimited_iff a p), setIfInBounds_of_lt _ _ h, overrideOf, isOn_eq]
      rfl

/-! ### Peer entries -/

theorem exec_writePeer {a : PeerArg} {s : State} (turn : hasTurn 12 (.writePeer a) s = true) :
    exec (.writePeer a) s = .next (deliver 12 ((writePeer a s).1, (writePeer a s).2, [])) :=
  congrArg Host.Outcome.next (runCommand_of_hasTurn turn _)

theorem exec_clearPeer {i : Byte} {s : State} (turn : hasTurn 13 (.clearPeer i) s = true) :
    exec (.clearPeer i) s = .next (deliver 13 ((clearPeer i s).1, (clearPeer i s).2, [])) :=
  congrArg Host.Outcome.next (runCommand_of_hasTurn turn _)

theorem rackInUse_iff (s : State) (i : Nat) (rack : BitVec 32) : rackInUse s i rack = true ↔
    ∃ j, j < 32 ∧ j ≠ i ∧ (s.peerCfg j).enabled = true ∧ (s.peerCfg j).rack = rack := by
  simp [rackInUse, and_assoc]

/-- The dynamic part becomes clean, and the waiting reports of the entry are to record no send date (R162, log 46). -/
theorem writePeerAt_anew {i : Nat} {c : PeerCfg} {d : PeerDyn} {s : State}
    (h : rewrittenPeer (s.peerCfg i) c (s.peer i) = (d, true)) : writePeerAt i c s =
      if (s.peer i).st = .active then judgeRack (voidReports i ((setPeerCfg i c s).setPeer i d))
      else voidReports i ((setPeerCfg i c s).setPeer i d) := by
  rw [writePeerAt, h]
  by_cases active : (s.peer i).st = .active <;> simp [active]

theorem writePeerAt_kept {i : Nat} {c : PeerCfg} {d : PeerDyn} {s : State}
    (h : rewrittenPeer (s.peerCfg i) c (s.peer i) = (d, false)) : writePeerAt i c s = (setPeerCfg i c s).setPeer i d := by
  rw [writePeerAt, h]
  simp

theorem clearPeerAt_eq (i : Nat) (s : State) : clearPeerAt i s =
    if (s.peer i).st = .active then judgeRack (voidReports i ((setPeerCfg i ⟨false, 0, 0, .u0⟩ s).setPeer i PeerDyn.reset))
    else voidReports i ((setPeerCfg i ⟨false, 0, 0, .u0⟩ s).setPeer i PeerDyn.reset) := by
  rw [clearPeerAt]
  by_cases active : (s.peer i).st = .active <;> simp [active]

section
variable {old new : PeerCfg} (d : PeerDyn)

theorem rewrittenPeer_anew (h : old.rack ≠ new.rack ∨ old.ip ≠ new.ip ∨ (old.enabled = false ∧ new.enabled = true)) :
    rewrittenPeer old new d = (PeerDyn.reset, true) := if_pos h

variable (same : ¬ (old.rack ≠ new.rack ∨ old.ip ≠ new.ip ∨ (old.enabled = false ∧ new.enabled = true)))
include same

theorem rewrittenPeer_disabled (h : old.enabled = true ∧ new.enabled = false) :
    rewrittenPeer old new d = (d.clean, true) := by
  rw [rewrittenPeer, if_neg same, if_pos h]

theorem rewrittenPeer_kept (h : ¬ (old.enabled = true ∧ new.enabled = false)) : rewrittenPeer old new d = (d, false) := by
  rw [rewrittenPeer, if_neg same, if_neg h]

end

/-- Settles O51, by the names, the rack id in use, and the row of R162's table that the write meets. -/
theorem peerEntriesAreWrittenAndCleared : Obligations.PeerEntriesAreWrittenAndCleared := by
  refine ⟨fun a s turn => ?_, fun i s turn => ?_⟩
  · rw [exec_writePeer turn]
    refine ⟨fun h => ?_, fun p hi hp => ?_⟩
    · rw [writePeer]
      split
      · rfl
      · rw [uplinkOf_eq, List.getElem?_eq_none (by simp; omega)]
    · have used : ((peerCfgOf a p).enabled && rackInUse s a.index.toNat (peerCfgOf a p).rack) = true ↔
          decide (a.enabled ≠ 0) = true ∧ ∃ j, j < 32 ∧ j ≠ a.index.toNat ∧ (s.peerCfg j).enabled = true ∧
            (s.peerCfg j).rack = a.rack := by
        rw [Bool.and_eq_true, rackInUse_iff, peerCfgOf, isOn_eq]
      have row : peerCfgOf a p = ⟨decide (a.enabled ≠ 0), a.rack, a.ip, p⟩ := by rw [peerCfgOf, isOn_eq]
      have judged : writePeer a s = if (peerCfgOf a p).enabled && rackInUse s a.index.toNat (peerCfgOf a p).rack then
          (s, .state) else (writePeerAt a.index.toNat (peerCfgOf a p) s, .done) := by
        rw [writePeer, if_neg (by omega), uplinkOf_eq, hp]
      rw [judged]
      refine ⟨fun h => by rw [if_pos (used.mpr h)], fun free anew => ?_, fun free same off => ?_, fun free same on => ?_⟩
      all_goals rw [if_neg (mt used.mp free), row]
      · rw [writePeerAt_anew (rewrittenPeer_anew _ anew)]
        rfl
      · rw [writePeerAt_anew (rewrittenPeer_disabled _ same off)]
        rfl
      · rw [writePeerAt_kept (rewrittenPeer_kept _ same on)]
        rfl
  · simp only [exec_clearPeer turn]
    refine ⟨fun h => by rw [clearPeer, if_pos h], fun h => ?_⟩
    rw [clearPeer, if_neg (by omega), clearPeerAt_eq]
    rfl

/-! ### Bars -/

theorem exec_barSource {i : Byte} {n : BitVec 16} {s : State} (turn : hasTurn 20 (.barSource i n) s = true) :
    exec (.barSource i n) s = .next (deliver 20 ((barSource i n s).1, (barSource i n s).2, [])) :=
  congrArg Host.Outcome.next (runCommand_of_hasTurn turn _)

theorem silentFor_iff (n now : Nat) (e : SourceEntry) : silentFor n now e = true ↔
    e.heardAt + n * intervalPeriods (max (-4) (min 3 e.k)) ≤ now := decide_eq_true_iff

/-- Where silence places an entry whose bar has ended (R53). -/
theorem endBar_eq (i : Nat) (e : SourceEntry) (s : State) : endBar i e s =
    let interval := intervalPeriods (max (-4) (min 3 e.k))
    reevaluate s.selectedPair .barred none (s.setSource i
      (if e.heardAt + 8 * interval ≤ s.clock.up then none
       else if e.heardAt + 3 * interval ≤ s.clock.up then some { e with st := .stale, bar := 0 }
       else some { e with st := .candidate, bar := 0 })) := by
  simp only [endBar, afterBar, silentFor_iff]

theorem barSource_held {index : Byte} {seconds : BitVec 16} {s : State} {e : SourceEntry} (h : index.toNat ≤ 7)
    (held : s.source index.toNat = some e) :
    barSource index seconds s = (barEntry index.toNat e seconds.toNat s, .done) := by
  rw [barSource, if_neg (by omega), held]

/-- Settles O42, by the index, the entry there and the seconds of the bar. -/
theorem barsAreSetLiftedAndEnd : Obligations.BarsAreSetLiftedAndEnd := by
  refine ⟨fun index seconds s turn => ?_, fun i s => ⟨fun e held barred zero => ?_, fun h => ?_⟩⟩
  · have zero : seconds.toNat = 0 ↔ seconds = 0 := ⟨fun h => BitVec.eq_of_toNat_eq h, fun h => by rw [h]; rfl⟩
    simp only [exec_barSource turn]
    refine ⟨fun h => by rw [barSource, if_pos h], fun h empty => by rw [barSource, if_neg (by omega), empty],
      fun e h held => ?_⟩
    rw [barSource_held h held, barEntry]
    refine ⟨fun on open_ => ?_, fun on barred => ?_, fun lift barred => ?_, fun lift open_ => ?_⟩
    · rw [if_neg (mt zero.mp on), setBar, if_neg open_, afterBar]
    · rw [if_neg (mt zero.mp on), setBar, if_pos barred, ← barred]
    · rw [if_pos (zero.mpr lift), if_pos barred, endBar_eq]
    · rw [if_pos (zero.mpr lift), if_neg open_]
  · simp only [exec, execBarExpiry, held, barred, zero, and_self, if_true, endBar_eq]
  · cases held : s.source i with
    | none => simp only [exec, execBarExpiry, held]
    | some e =>
      simp only [exec, execBarExpiry, held]
      rw [if_neg]
      rintro ⟨barred, zero⟩
      exact (h e held).elim (absurd barred) (absurd zero)

end Sys2Proof.Machine
end

section
/-! A sample of the selected source: the filter's error rate, integral and rate (R65 to R68), then the judgment of the offset,
steps, catch-down and lock counting (R58 to R64, R70, R71, R74). -/

namespace Sys2Proof.Machine

/-! ### Rounded quotients -/

/-- The error rate is the quotient by the interval rounded toward minus infinity, saturated (R65). -/
theorem errorRate_eq (theta k : Int) :
    errorRate theta k = max (-512000000) (min 512000000 ⌊((theta * 1024 : Int) : Rat) / (2 : Rat) ^ k⌋) := by
  have quotient : (if 0 ≤ k then theta * 1024 / (2 ^ k.toNat : Nat) else theta * 1024 * (2 ^ (-k).toNat : Nat)) =
      ⌊((theta * 1024 : Int) : Rat) / (2 : Rat) ^ k⌋ := by
    split
    case isTrue h =>
      obtain ⟨n, rfl⟩ := Int.eq_ofNat_of_zero_le h
      rw [zpow_natCast, Int.toNat_natCast, ← Rat.floor_intCast_div_natCast]
      push_cast
      rfl
    case isFalse h =>
      obtain ⟨n, rfl⟩ : ∃ n : Nat, k = -n := ⟨(-k).toNat, by omega⟩
      have whole : ((theta * 1024 : Int) : Rat) / (2 : Rat) ^ (-(n : Int)) = ((theta * 1024 * (2 ^ n : Nat) : Int) : Rat) := by
        rw [zpow_neg, zpow_natCast, div_inv_eq_mul]
        push_cast
        rfl
      rw [whole, Int.floor_intCast, neg_neg, Int.toNat_natCast]
  rw [errorRate, quotient]
  rfl

theorem shifted_eq_floor (e : Int) (n : Nat) : e / (2 ^ n : Nat) = ⌊(e : Rat) / (2 : Rat) ^ n⌋ := by
  rw [← Rat.floor_intCast_div_natCast]
  push_cast
  rfl

theorem plausible_iff (s : State) (f : Int) : plausible s f = true ↔
    -(s.cfg.servo.plausibility * 1024000 : Int) ≤ f ∧ f ≤ s.cfg.servo.plausibility * 1024000 := by
  rw [plausible, decide_eq_true_iff, plausibleUnits]
  push_cast
  rfl

/-! ### The filter -/

/-- The integral as it is to stand, then the rate of it with the SAT flag, handed to the clock (R66 to R68). -/
def filtered (e f : Int) (s : State) : State :=
  let wanted := f - e / (2 ^ s.cfg.servo.sp : Nat)
  let r := clampInt (-Config.maxRate) Config.maxRate wanted
  handRate r (s.setServo { s.servo with f := f, sat := s.servo.sat || r != wanted })

theorem filterUpdate_plausible {theta k : Int} {s : State} (h : plausible s (integralNew s (errorRate theta k)) = true) :
    filterUpdate theta k s = filtered (errorRate theta k) (integralNew s (errorRate theta k)) s := by
  simp only [filterUpdate, h, Bool.not_true, Bool.false_eq_true, if_false]
  rfl

theorem filterUpdate_held {theta k : Int} {s : State} (h : ¬ plausible s (integralNew s (errorRate theta k)) = true) :
    filterUpdate theta k s =
      raiseWithHold .freqImplausible .self true .nothing (filtered (errorRate theta k) s.servo.f s) := by
  simp only [filterUpdate, Bool.eq_false_iff.mpr h, Bool.not_false, if_true]
  rfl

/-- Settles O59, by whether the new integral is plausible. -/
theorem theFilterSetsIntegralAndRate : Obligations.TheFilterSetsIntegralAndRate := by
  intro theta k s _ _ e f limit update
  have error : errorRate theta k = e := errorRate_eq theta k
  have integral : integralNew s (errorRate theta k) = f := by rw [error, integralNew, shifted_eq_floor]
  have rate (f : Int) : filtered (errorRate theta k) f s = update f := by
    rw [error]
    have flag (r wanted : Int) : (r != wanted) = decide (r ≠ wanted) := Bool.eq_iff_iff.mpr (by simp)
    simp only [filtered, shifted_eq_floor, flag]
    rfl
  refine ⟨fun h => ?_, fun h => ?_⟩
  · rw [filterUpdate_plausible (by rw [integral]; exact (plausible_iff s f).mpr h), rate, integral]
  · rw [filterUpdate_held (by rw [integral]; exact mt (plausible_iff s f).mp h), rate]

/-! ### Excursions, steps and catch-down -/

theorem excursion_within {threshold : Nat} {theta : Int} {sign : ExcSign} {count : Nat} (low : -(threshold : Int) ≤ theta)
    (high : theta ≤ threshold) : excursion threshold theta sign count = (.none, 0) := by
  rw [excursion, if_neg (by omega), if_neg (by omega)]

theorem excursion_behind {threshold : Nat} {theta : Int} {sign : ExcSign} {count : Nat} (h : theta < -(threshold : Int)) :
    excursion threshold theta sign count = (.behind, if sign = .behind ∧ 1 ≤ count then 2 else 1) := by
  rw [excursion, if_pos h]
  split <;> rfl

theorem excursion_ahead {threshold : Nat} {theta : Int} {sign : ExcSign} {count : Nat} (h : (threshold : Int) < theta) :
    excursion threshold theta sign count = (.ahead, if sign = .ahead ∧ 1 ≤ count then 2 else 1) := by
  rw [excursion, if_neg (by omega), if_pos h]
  split <;> rfl

/-- The sample noted with its excursion, before it is judged (R60). -/
def noted (x : ServoSample) (s : State) (sign : ExcSign) (count : Nat) : State :=
  s.setServo { s.servo with lastTheta := some (thetaOf x, thetaFar x), excSign := sign, excCount := count }

theorem takeSample_follow {x : ServoSample} {s : State} (st : s.servo.st = .acquiring ∨ s.servo.st = .locked)
    {sign : ExcSign} {count : Nat}
    (h : excursion s.cfg.servo.stepThreshold (thetaOf x) s.servo.excSign s.servo.excCount = (sign, count)) :
    takeSample x s =
      if s.servo.catchDown then sampleInCatchDown x (noted x s sign count) else sampleOutside x (noted x s sign count) := by
  have follow : takeSample x s = sampleInFollow x s := by
    rcases st with st | st <;> rw [takeSample, st]
  rw [follow, sampleInFollow, h]
  rfl

theorem thetaFar_eq (x : ServoSample) : thetaFar x = decide (thetaOf x ≠ thetaRounded x) :=
  Bool.eq_iff_iff.mpr (by simp [thetaFar])

theorem sampleOutside_filter {x : ServoSample} {s : State}
    (behind : ¬ (s.servo.excSign = .behind ∧ (s.servo.excCount = 2 ∨ x.epochChanged = true)))
    (ahead : ¬ (s.servo.excSign = .ahead ∧ s.servo.excCount = 2)) : sampleOutside x s = filterAndLock x s := by
  rw [sampleOutside, if_neg behind, if_neg ahead]

section
variable {x : ServoSample} {s : State}

theorem sampleInCatchDown_ahead (h : (s.cfg.servo.stepThreshold : Int) < thetaOf x) :
    sampleInCatchDown x s = s.setServo { s.servo with lockCtr := 0 } := if_pos h

theorem sampleInCatchDown_step (h : thetaOf x < -(s.cfg.servo.stepThreshold : Int)) (changed : x.epochChanged = true) :
    sampleInCatchDown x s = servoStep (-thetaRounded x).toNat
      (handRate s.servo.f (s.setServo { s.servo with catchDown := false })) :=
  (if_neg (by omega)).trans (if_pos ⟨h, changed⟩)

theorem sampleInCatchDown_filter (h : thetaOf x ≤ s.cfg.servo.stepThreshold)
    (h' : ¬ (thetaOf x < -(s.cfg.servo.stepThreshold : Int) ∧ x.epochChanged = true)) :
    sampleInCatchDown x s = filterAndLock x (s.setServo { s.servo with catchDown := false }) :=
  (if_neg (by omega)).trans (if_neg h')

theorem sampleOutside_behind (h : s.servo.excSign = .behind) : sampleOutside x s =
    if s.servo.excCount = 2 ∨ x.epochChanged = true then servoStep (-thetaRounded x).toNat s else filterAndLock x s := by
  simp [sampleOutside, h]

theorem sampleOutside_ahead (h : s.servo.excSign = .ahead) : sampleOutside x s =
    if s.servo.excCount = 2 then startCatchDown s else filterAndLock x s := by
  simp [sampleOutside, h]

end

/-- A change of the servo state, the SECOND line judged, and its STATE record (R69, R13). -/
theorem offerState_setServoState (old new : ServoState) (s : State) :
    offerState old (setServoState new s) =
      offerRecord (.plain none (.state old new (setServoState new s).engineClass)) (setServoState new s) := by
  have st : (setServoState new s).servo.st = new := by simp [setServoState]
  rw [offerState, st]

theorem leaveLocked_eq (s : State) : leaveLocked s =
    if s.servo.st = .locked then
      let u := setServoState .acquiring (s.setServo { s.servo with lockCtr := 0 })
      offerRecord (.plain none (.state .locked .acquiring u.engineClass)) u
    else s := by
  rw [leaveLocked, offerState_setServoState]

/-! ### Lock counting -/

/-- Both counters as a sample leaves them (R74). -/
def counting (s : State) (lock unlock : Nat) : State :=
  s.setServo { s.servo with lockCtr := lock, unlockCtr := unlock }

section
variable {theta : Int} {s : State}

section
variable (st : s.servo.st = .acquiring)
include st

theorem lockCounting_acquiring_out (out : ¬ theta.natAbs ≤ s.cfg.servo.lockWindow) :
    lockCounting theta s = counting s 0 s.servo.unlockCtr := by
  simp [lockCounting, st, out, counting]

theorem lockCounting_acquiring_in (within : theta.natAbs ≤ s.cfg.servo.lockWindow) :
    lockCounting theta s = if s.cfg.servo.lockCount ≤ min 32 (s.servo.lockCtr + 1) then
      offerState .acquiring (setServoState .locked (counting s (min 32 (s.servo.lockCtr + 1)) 0))
    else counting s (min 32 (s.servo.lockCtr + 1)) s.servo.unlockCtr := by
  unfold lockCounting
  split
  next =>
    simp only [within, decide_true, if_true, true_and, satAdd]
    rfl
  all_goals simp_all

end

variable (st : s.servo.st = .locked)
include st

theorem lockCounting_locked_in (within : theta.natAbs ≤ s.cfg.servo.lockWindow) :
    lockCounting theta s = counting s s.servo.lockCtr 0 := by
  simp [lockCounting, st, within, counting]

theorem lockCounting_locked_out (out : ¬ theta.natAbs ≤ s.cfg.servo.lockWindow) :
    lockCounting theta s = if s.cfg.servo.unlockCount ≤ min 32 (s.servo.unlockCtr + 1) then
      leaveLocked (counting s s.servo.lockCtr (min 32 (s.servo.unlockCtr + 1)))
    else counting s s.servo.lockCtr (min 32 (s.servo.unlockCtr + 1)) := by
  unfold lockCounting
  split
  case h_2 =>
    simp only [out, decide_false, Bool.false_eq_true, if_false, true_and, satAdd]
    rfl
  all_goals simp_all

end

/-! ### The load of a sample in UNSET -/

/-- The date less an offset, within the range of dates (R71, log 39). -/
theorem dateBack_cases {d : Date} (hd : DateOk d) (theta : Int) :
    let target : Int := d.ns - theta
    (target < 0 → dateBack d theta = ⟨0, 0, d.f⟩) ∧
    (0 ≤ target → target < 281474976710656 * 1000000000 →
      ((dateBack d theta).ns : Int) = target ∧ (dateBack d theta).n < 1000000000 ∧ (dateBack d theta).f = d.f) ∧
    (281474976710656 * 1000000000 ≤ target → dateBack d theta = ⟨281474976710655, 999999999, 4294967295⟩) := by
  intro target
  refine ⟨fun neg => if_pos neg, fun pos low => ?_, fun high => ?_⟩
  · have inside : (snOfNs target.toNat).s ≤ Config.maxS := by
      simp only [snOfNs, Config.nsPerSec, Config.maxS]
      omega
    have back : dateBack d theta = ⟨(snOfNs target.toNat).s, (snOfNs target.toNat).n, d.f⟩ := by
      rw [dateBack, if_neg (not_lt.mpr pos), if_pos inside]
    rw [back]
    refine ⟨?_, Nat.mod_lt _ (by decide), rfl⟩
    have := ns_snOfNs target.toNat
    simp only [SN.ns] at this
    simp only [Date.ns, this]
    omega
  · have outside : ¬ (snOfNs target.toNat).s ≤ Config.maxS := by
      simp only [snOfNs, Config.nsPerSec, Config.maxS]
      omega
    rw [dateBack, if_neg (by omega), if_neg outside]
    rfl

theorem takeSample_unset {x : ServoSample} {s : State} (st : s.servo.st = .unset) :
    takeSample x s = offerState .unset (setServoState .acquiring { s with
      clock := { s.clock with date := dateBack s.clock.date (thetaRounded x) }
      servo := { s.servo with excSign := .none, excCount := 0, lockCtr := 0, unlockCtr := 0, catchDown := false } }) := by
  rw [takeSample, st]
  simp only [sampleInUnset, load, st, if_true]
  rfl

/-- The STEP record of a step the clock has made, and what it leaves in the Servo (R61). -/
theorem afterStep_eq (amount : Nat) (s : State) : afterStep amount s =
    let told := offerRecord (.plain none (.step amount s.clock.epoch)) s
    leaveLocked { told with servo := { told.servo with excSign := .none, excCount := 0, lockCtr := 0 } } := rfl

/-- Settles O58, by the state of the Servo and the range of the offset. -/
theorem aSampleIsJudgedByItsOffset : Obligations.ASampleIsJudgedByItsOffset := by
  refine ⟨fun x s st => ?_, fun theta s => ?_, fun amount s => ?_, fun s => ?_, fun x s st date => ?_⟩
  · intro exact_ rounded theta bound noted_ k filtered_ second behind again ahead released
    obtain ⟨near, half⟩ := roundHalfAway_nearest (thetaExact x) (d := Config.unitsPerNs) (by decide)
    have noted_eq (sign : ExcSign) (count : Nat) : noted x s sign count = noted_ sign count := by
      rw [noted, thetaFar_eq]
      rfl
    have filter_eq (t : State) : filterAndLock x t = filtered_ t := rfl
    have near : 2 * ((rounded * 65536 - exact_).natAbs : Int) ≤ 65536 := near
    have half : 2 * ((rounded * 65536 - exact_).natAbs : Int) = 65536 → exact_.natAbs ≤ (rounded * 65536).natAbs := half
    have twice {p : Prop} [Decidable p] : (if p then 2 else 1) = 2 ↔ p := by split <;> simp [*]
    refine ⟨by omega, fun h => half (by omega), fun low high => ?_, fun low out => ?_, fun low down => ?_,
      fun high out => ?_, fun high down => ?_⟩
    · rw [takeSample_follow st (excursion_within low high), noted_eq]
      split
      case isTrue down => exact sampleInCatchDown_filter high (fun h => absurd h.1 (not_lt.mpr low))
      case isFalse out => exact sampleOutside_filter (by simp [noted_]) (by simp [noted_])
    · rw [takeSample_follow st (excursion_behind low), noted_eq, out, if_neg (by simp), sampleOutside_behind rfl]
      exact if_congr (or_congr_left twice) rfl rfl
    · rw [takeSample_follow st (excursion_behind low), noted_eq, down, if_pos rfl]
      by_cases changed : x.epochChanged = true
      · rw [if_pos changed]
        exact sampleInCatchDown_step low changed
      · have high : theta ≤ s.cfg.servo.stepThreshold := by omega
        rw [if_neg changed]
        exact sampleInCatchDown_filter high (fun h => changed h.2)
    · rw [takeSample_follow st (excursion_ahead high), noted_eq, out, if_neg (by simp), sampleOutside_ahead rfl]
      exact if_congr twice rfl rfl
    · rw [takeSample_follow st (excursion_ahead high), noted_eq, down, if_pos rfl]
      exact sampleInCatchDown_ahead high
  · intro within locks unlocks counting_
    refine ⟨fun st => ⟨fun out => ?_, fun within more => ?_, fun within full => ?_⟩,
      fun st => ⟨fun within => ?_, fun out more => ?_, fun out full => ?_⟩⟩
    · exact lockCounting_acquiring_out st (by omega)
    · rw [lockCounting_acquiring_in st (by omega), if_neg (by omega)]
      rfl
    · rw [lockCounting_acquiring_in st (by omega), if_pos full, offerState_setServoState]
      rfl
    · exact lockCounting_locked_in st (by omega)
    · rw [lockCounting_locked_out st (by omega), if_neg (by omega)]
      rfl
    · rw [lockCounting_locked_out st (by omega), if_pos full, leaveLocked_eq]
      rfl
  · rw [servoStep, afterStep_eq]
    dsimp only
    generalize offerRecord _ (forwardStep amount s) = told
    exact leaveLocked_eq _
  · have rate : catchRate s = -(s.cfg.servo.catchRate * 1024000 : Int) := by
      rw [catchRate]
      push_cast
      rfl
    rw [← rate]
    exact leaveLocked_eq _
  · intro target
    obtain ⟨below, inside, beyond⟩ := dateBack_cases date (thetaRounded x)
    refine ⟨dateBack s.clock.date (thetaRounded x), below, inside, beyond, ?_⟩
    rw [takeSample_unset st, offerState_setServoState]
    rfl

end Sys2Proof.Machine
end

section
/-! The stamp outcome and the end of a storage mark's reception (R117, R132, R133, R135, R136): EDIT_HOLD_END, FRAME_OVERSIZE,
and the STAMP record of a mark. -/

namespace Sys2Proof.Machine

/-! ### The frame that is arriving -/

/-- Two changes of the arriving frame, the first of which leaves it arriving, are one. -/
theorem onArriving_onArriving (f g : FwdFrame → FwdFrame) (kept : ∀ x : FwdFrame, (g x).complete = x.complete) (u : PortUnit) :
    onArriving f (onArriving g u) = onArriving (fun x => f (g x)) u := by
  have frame (x : FwdFrame) : (if (if x.complete then x else g x).complete then (if x.complete then x else g x)
      else f (if x.complete then x else g x)) = if x.complete then x else f (g x) := by
    by_cases h : x.complete = true
    · simp [h]
    · simp [h, kept]
  simp only [onArriving, List.map_map, Option.map_map, PortUnit.mk.injEq, List.map_inj_left, Function.comp_apply,
    true_and, and_true]
  refine ⟨fun x _ => frame x, ?_⟩
  cases u.tx with
  | none => rfl
  | some t =>
    simp only [Option.map_some, Function.comp_apply, Option.some.injEq]
    cases body : t.body with
    | originated tag bytes => simp [body]
    | forwarded x =>
      by_cases h : x.complete = true
      · simp [h, body]
      · simp [h, kept]

theorem reception_onArriving (f : FwdFrame → FwdFrame) (u : PortUnit) : (onArriving f u).reception = u.reception := rfl

/-! ### The outcome -/

section
variable {p : Port} {s : State}

theorem settleStamp_none (h : (s.port p).ctx = none) (written : Bool) : settleStamp p written s = s := by
  simp only [settleStamp, h]

theorem settleStamp_settled {c : DatingCtx} (h : (s.port p).ctx = some c) (settled : c.outcome ≠ .pending) (written : Bool) :
    settleStamp p written s = s := by
  simp only [settleStamp, h, if_neg settled]

theorem settleStamp_written {c : DatingCtx} (h : (s.port p).ctx = some c) (pending : c.outcome = .pending) :
    settleStamp p true s = s.setPort p { s.port p with
      ctx := some { c with outcome := .written }
      stats := { (s.port p).stats with stamps := min 4294967295 ((s.port p).stats.stamps + 1) } } := by
  simp only [settleStamp, h, if_pos pending, State.count, port_setPort_same, setPort_setPort]
  rfl

theorem settleStamp_unstamped {c : DatingCtx} (h : (s.port p).ctx = some c) (pending : c.outcome = .pending) :
    settleStamp p false s = s.setPort p { s.port p with ctx := some { c with outcome := .unstamped } } := by
  simp only [settleStamp, h, if_pos pending]
  rfl

theorem settleArrived_none (h : (s.port p).ctx = none) (bytes : List Byte) : settleArrived p bytes s = s := by
  simp only [settleArrived, h]

theorem settleArrived_some {c : DatingCtx} (h : (s.port p).ctx = some c) (bytes : List Byte) : settleArrived p bytes s =
    if c.outcome = .pending ∧ stampArrived c bytes = true then writeStampNow p c bytes s else s := by
  simp only [settleArrived, h]

theorem cutMark_none (h : (s.port p).ctx = none) (bytes : List Byte) (len : Nat) : cutMark p bytes len s = s := by
  simp only [cutMark, h]

theorem cutMark_some {c : DatingCtx} (h : (s.port p).ctx = some c) (bytes : List Byte) (len : Nat) : cutMark p bytes len s =
    closeMark p bytes (min bytes.length len) len true (settleStamp p (stampArrived c bytes) s) := by
  simp only [cutMark, h]

theorem closeMark_none (h : (s.port p).ctx = none) (bytes : List Byte) (stop len : Nat) (bad : Bool) :
    closeMark p bytes stop len bad s = s := by
  simp only [closeMark, h]

theorem closeMark_some {c : DatingCtx} (h : (s.port p).ctx = some c) (bytes : List Byte) (stop len : Nat) (bad : Bool) :
    closeMark p bytes stop len bad s =
      if c.logMode = .stampOnly then s.setPort p { s.port p with ctx := none }
      else offerRecord (stampRecord p c bytes stop len bad) (s.setPort p { s.port p with ctx := none }) := by
  simp only [closeMark, h]

end

theorem stampArrived_iff (c : DatingCtx) (bytes : List Byte) : stampArrived c bytes = true ↔
    frameHeader bytes + c.stampOffset + 16 ≤ bytes.length := decide_eq_true_iff

/-- A context with its outcome as the end of its frame settles it (R132). -/
def DatingCtx.settled (c : DatingCtx) (bytes : List Byte) : DatingCtx :=
  { c with outcome := if c.outcome = .pending then (if stampArrived c bytes then .written else .unstamped) else c.outcome }

/-- Stamps applied once the outcome is settled (R132). -/
def stampsSettled (c : DatingCtx) (bytes : List Byte) (n : Nat) : Nat :=
  if c.outcome = .pending ∧ stampArrived c bytes = true then min 4294967295 (n + 1) else n

/-! ### What it leaves of the ports' links and ingress sides -/

theorem reception_setPort_same (s : State) (p : Port) (u : PortUnit) : (s.setPort p u).reception p = u.reception := by
  rw [State.reception, port_setPort_same]

theorem reception_setPort_ne (s : State) {p q : Port} (h : q ≠ p) (u : PortUnit) :
    (s.setPort p u).reception q = s.reception q := by
  rw [State.reception, port_setPort_ne s h]
  rfl

theorem reception_settleStamp_ne {p q : Port} (h : q ≠ p) (written : Bool) (s : State) :
    (settleStamp p written s).reception q = s.reception q := by
  simp only [settleStamp, State.count]
  (repeat' split) <;> simp only [reception_setPort_ne _ h]

theorem reception_readyArriving (p r : Port) (edit : Edit) (s : State) :
    (readyArriving p edit s).reception r = s.reception r := reception_setPort _ _ _ _ rfl

theorem reception_growArriving (p r : Port) (bytes : List Byte) (s : State) :
    (growArriving p bytes s).reception r = s.reception r := reception_setPort _ _ _ _ rfl

theorem reception_writeStampNow (p r : Port) (c : DatingCtx) (bytes : List Byte) (s : State) :
    (writeStampNow p c bytes s).reception r = (settleStamp p true s).reception r := by
  rw [writeStampNow, reception_arbitrate, reception_readyArriving]

theorem reception_settleArrived_ne {p q : Port} (h : q ≠ p) (bytes : List Byte) (s : State) :
    (settleArrived p bytes s).reception q = s.reception q := by
  simp only [settleArrived]
  (repeat' split) <;> simp only [reception_writeStampNow, reception_settleStamp_ne h]

theorem reception_closeMark_ne {p q : Port} (h : q ≠ p) (bytes : List Byte) (stop len : Nat) (bad : Bool) (s : State) :
    (closeMark p bytes stop len bad s).reception q = s.reception q := by
  simp only [closeMark]
  (repeat' split) <;> simp only [reception_offerRecord, reception_setPort_ne _ h]

theorem reception_cutMark_ne {p q : Port} (h : q ≠ p) (bytes : List Byte) (len : Nat) (s : State) :
    (cutMark p bytes len s).reception q = s.reception q := by
  simp only [cutMark]
  split <;> simp only [reception_closeMark_ne h, reception_settleStamp_ne h]

theorem ctx_of_reception {s t : State} {p : Port} (h : t.reception p = s.reception p) : (t.port p).ctx = (s.port p).ctx :=
  congrArg Reception.ctx h

/-- Settling at once where the stamp has arrived, and then at the end of the frame, settles the outcome (R132). -/
theorem reception_settled {p : Port} {c : DatingCtx} {s : State} (h : (s.port p).ctx = some c) (bytes : List Byte) :
    (settleStamp p false (settleArrived p bytes s)).reception p = { s.reception p with
      ctx := some (c.settled bytes), stamps := stampsSettled c bytes (s.port p).stats.stamps } := by
  rw [settleArrived_some h]
  by_cases pending : c.outcome = .pending
  · by_cases arrived : stampArrived c bytes = true
    · have written : (writeStampNow p c bytes s).reception p = { s.reception p with
          ctx := some (c.settled bytes), stamps := stampsSettled c bytes (s.port p).stats.stamps } := by
        rw [reception_writeStampNow, settleStamp_written h pending, reception_setPort_same]
        simp [DatingCtx.settled, stampsSettled, pending, arrived]
        rfl
      have ctx : ((writeStampNow p c bytes s).port p).ctx = some (c.settled bytes) := congrArg Reception.ctx written
      rw [if_pos ⟨pending, arrived⟩, settleStamp_settled ctx (by simp [DatingCtx.settled, pending, arrived]), written]
    · rw [if_neg (fun both => arrived both.2), settleStamp_unstamped h pending, reception_setPort_same]
      simp [DatingCtx.settled, stampsSettled, pending, arrived]
      rfl
  · rw [if_neg (fun both => pending both.1), settleStamp_settled h pending]
    simp [DatingCtx.settled, stampsSettled, pending, State.reception, PortUnit.reception, ← h]

/-- The frame cut off after its bytes so far: the outcome settled by them (R136). -/
theorem reception_cut {p : Port} {c : DatingCtx} {s : State} (h : (s.port p).ctx = some c) (bytes : List Byte) :
    (settleStamp p (stampArrived c bytes) s).reception p = { s.reception p with
      ctx := some (c.settled bytes), stamps := stampsSettled c bytes (s.port p).stats.stamps } := by
  rw [settleStamp_port p _ c s h]
  by_cases pending : c.outcome = .pending
  · cases arrived : stampArrived c bytes <;> simp [DatingCtx.settled, stampsSettled, pending, arrived] <;> rfl
  · simp [DatingCtx.settled, stampsSettled, pending, State.reception, PortUnit.reception, ← h]

/-! ### The STAMP record -/

/-- The STAMP record of a mark whose payload ends at `stop` (R133, R135). -/
def stampRecordOf (p : Port) (c : DatingCtx) (bytes : List Byte) (stop len : Nat) (bad : Bool) (seq : Nat) : LogRecord :=
  ⟨seq, some p, c.domain, c.stamp.cls, ⟨c.stamp.s, c.stamp.n⟩,
    .stamp (keyOf c bytes stop) len p.lane (!p.isUplink) c.index (c.outcome == .unstamped) (shortKey c bytes stop) bad
      c.stamp.doubt (c.stamp.cls == 6)⟩

theorem log_closeMark_stampOnly {p : Port} {c : DatingCtx} {s : State} (h : (s.port p).ctx = some c)
    (mode : c.logMode = .stampOnly) (bytes : List Byte) (stop len : Nat) (bad : Bool) :
    (closeMark p bytes stop len bad s).log = s.log := by
  rw [closeMark_some h, if_pos mode, log_setPort]

theorem log_closeMark {p : Port} {c : DatingCtx} {s : State} (h : (s.port p).ctx = some c) (mode : c.logMode ≠ .stampOnly)
    (room : RoomFor 1 s) (bytes : List Byte) (stop len : Nat) (bad : Bool) :
    (closeMark p bytes stop len bad s).log.records =
        s.log.records ++ [stampRecordOf p c bytes stop len bad s.log.nextSeq] ∧
      (closeMark p bytes stop len bad s).log.nextSeq = (s.log.nextSeq + 1) % 4294967296 := by
  have room' : RoomFor 1 (s.setPort p { s.port p with ctx := none }) := room
  rw [closeMark_some h, if_neg mode, records_offerRecord room', nextSeq_offerRecord room']
  exact ⟨rfl, rfl⟩

/-- A key byte at or beyond the end of the payload reads as zero (R133). -/
theorem keyOf_eq (c : DatingCtx) (bytes : List Byte) (stop : Nat) : keyOf c bytes stop = (List.range 8).map (fun j =>
    if frameHeader bytes + c.keyOffset + j < stop then bytes.getD (frameHeader bytes + c.keyOffset + j) 0 else 0) := by
  rw [keyOf, slice_eq_map]
  refine List.map_congr_left fun j _ => ?_
  rw [List.getD_eq_getElem?_getD, List.getElem?_take]
  split
  · rw [List.getD_eq_getElem?_getD]
  · rfl

theorem settled_unstamped (c : DatingCtx) (bytes : List Byte) : ((c.settled bytes).outcome == .unstamped) =
    decide (c.outcome = .unstamped ∨
      (c.outcome = .pending ∧ ¬ frameHeader bytes + c.stampOffset + 16 ≤ bytes.length)) := by
  have arrives := stampArrived_iff c bytes
  rw [Bool.eq_iff_iff, decide_eq_true_iff, ← arrives]
  by_cases pending : c.outcome = .pending
  · cases arrived : stampArrived c bytes <;> simp [DatingCtx.settled, pending, arrived]
  · simp [DatingCtx.settled, pending]

/-! ### EDIT_HOLD_END -/

theorem stampBytes_eq (t : Stamp) :
    let num : Bool → Nat := fun b => if b then 1 else 0
    stampBytes t = [beSat 6 t.s, beSat 4 (t.n + num t.doubt), beSat 1 t.cls,
      be 1 (16 * t.domain + 8 * num t.catchDown + 4 * num t.floor + 2 * num t.pushed + num t.noLog)].flatten := by
  intro num
  have flags : t.domain * 16 + (if t.catchDown then 8 else 0) + (if t.floor then 4 else 0) + (if t.pushed then 2 else 0) +
      (if t.noLog then 1 else 0) =
      16 * t.domain + 8 * num t.catchDown + 4 * num t.floor + 2 * num t.pushed + num t.noLog := by
    simp only [num]
    split_ifs <;> omega
  rw [stampBytes, flags]
  simp only [List.flatten_cons, List.flatten_nil, List.append_nil, List.append_assoc, num]

/-- A port, its partner, and the port again. -/
theorem setPort_partner_setPort (s : State) (p : Port) (u v w : PortUnit) :
    ((s.setPort p u).setPort p.partner v).setPort p w = (s.setPort p w).setPort p.partner v := by
  rw [setPort_comm _ (Port.partner_ne p), setPort_setPort]

/-- The frame under reception with `more` bytes, brought to its place in the buffer, and its stamp found to fit (R117, R132). -/
theorem writeStampNow_grown {p : Port} {s : State} {c : DatingCtx} (ctx : (s.port p).ctx = some c)
    (pending : c.outcome = .pending) (r : Rx) (bytes : List Byte) :
    writeStampNow p c bytes (growArriving p bytes (setRx p (some r) s)) = arbitrate p.partner
      ((s.setPort p { s.port p with
          rx := some r
          ctx := some { c with outcome := .written }
          stats := { (s.port p).stats with stamps := min 4294967295 ((s.port p).stats.stamps + 1) } }).setPort p.partner
        (onArriving (fun x => { x with
          bytes := bytes, sinceHalf := 0, ready := true
          edit := .stamp (frameHeader bytes + c.stampOffset) (stampBytes c.stamp) }) (s.port p.partner))) := by
  have grown : growArriving p bytes (setRx p (some r) s) = (s.setPort p { s.port p with rx := some r }).setPort p.partner
      (onArriving (FwdFrame.upTo bytes) (s.port p.partner)) := by
    rw [growArriving, setRx, port_setPort_partner]
  have held : (((s.setPort p { s.port p with rx := some r }).setPort p.partner
      (onArriving (FwdFrame.upTo bytes) (s.port p.partner))).port p).ctx = some c := by
    rw [port_partner_setPort, port_setPort_same, ctx]
  rw [writeStampNow, grown, settleStamp_written held pending, port_partner_setPort, port_setPort_same,
    setPort_partner_setPort, readyArriving, port_setPort_same, setPort_setPort, onArriving_onArriving _ (FwdFrame.upTo bytes) fun _ => rfl]
  rfl

/-- Settles O30, by the bytes that have arrived beyond the stamp. -/
theorem theEditHoldEndsWithTheStampWritten : Obligations.TheEditHoldEndsWithTheStampWritten := by
  refine ⟨fun t => ?_, fun p more s => ⟨fun h => ?_, fun r c rx ctx h => ?_⟩,
    fun p more s r c run up rx ctx stage pending arrived short => ?_⟩
  · exact ⟨by simp [stampBytes], stampBytes_eq t⟩
  · cases rx : (s.port p).rx with
    | none => simp only [exec, execEditHoldEnd, rx]
    | some r =>
      cases ctx : (s.port p).ctx with
      | none => simp only [exec, execEditHoldEnd, rx, ctx]
      | some c =>
        have dead : portLive s p = false := not_portLive_of (by simpa [rx, ctx] using h)
        simp [exec, execEditHoldEnd, rx, ctx, dead]
  · simp only [exec, execEditHoldEnd, rx, ctx]
    rw [if_neg]
    rintro ⟨-, stage, pending, arrived, short⟩
    rcases h with h | h | h | h
    · exact h stage
    · exact h pending
    · exact absurd short (not_le.mpr h)
    · exact absurd ((stampArrived_iff _ _).mp arrived) (not_le.mpr h)
  · simp only [exec, execEditHoldEnd, rx, ctx]
    rw [if_pos ⟨portLive_of run up, stage, pending, (stampArrived_iff _ _).mpr arrived, short⟩,
      writeStampNow_grown ctx pending]
    rfl

/-! ### The end of a mark's reception -/

theorem room_of_log {n : Nat} {s t : State} (h : RoomFor n s) (log : t.log = s.log) : RoomFor n t := h.of log

/-- A forwarded frame's reception before the arbiter decides and its context closes: its last bytes, its outcome settled,
and the frame complete in its buffer (R117, R132). -/
def forwardedWhole (p : Port) (r : Rx) (inLane : Bool) (s : State) : State :=
  let t := setRx p none s
  let t := settleStamp p false (settleArrived p r.bytes (if inLane then growArriving p r.bytes t else t))
  if inLane then
    t.setPort p.partner (onArriving (fun x => { x with complete := true, ready := true }) (t.port p.partner))
  else t

theorem endForwarded_eq (p : Port) (r : Rx) (inLane : Bool) (s : State) : endForwarded p r inLane s =
    closeMark p r.bytes (r.bytes.length - 4) r.bytes.length (!fcsGood r.bytes)
      (arbitrate p.partner (forwardedWhole p r inLane s)) := rfl

theorem log_forwardedWhole (p : Port) (r : Rx) (inLane : Bool) (s : State) : (forwardedWhole p r inLane s).log = s.log := by
  cases inLane <;> simp [forwardedWhole]

theorem reception_forwardedWhole {p : Port} {s : State} {c : DatingCtx} (ctx : (s.port p).ctx = some c) (r : Rx)
    (inLane : Bool) : (forwardedWhole p r inLane s).reception p = { s.reception p with
      rx := none, ctx := some (c.settled r.bytes), stamps := stampsSettled c r.bytes (s.port p).stats.stamps } := by
  have stopped : (setRx p none s).reception p = { s.reception p with rx := none } := reception_setPort_same ..
  have grown : (if inLane then growArriving p r.bytes (setRx p none s) else setRx p none s).reception p =
      { s.reception p with rx := none } := by
    cases inLane
    · exact stopped
    · exact (reception_growArriving ..).trans stopped
  have settled := reception_settled ((congrArg Reception.ctx grown).trans ctx) r.bytes
  have stamps : ((if inLane then growArriving p r.bytes (setRx p none s) else setRx p none s).port p).stats.stamps =
      (s.port p).stats.stamps := congrArg Reception.stamps grown
  rw [grown, stamps] at settled
  cases inLane
  · exact settled
  · exact (reception_setPort _ p.partner p _ (reception_onArriving ..)).trans settled

/-- The end of a forwarded frame whose context is open (R132, R135). -/
theorem endForwarded_mark {p : Port} {s : State} {c : DatingCtx} (ctx : (s.port p).ctx = some c) (r : Rx) (inLane : Bool) :
    let t := endForwarded p r inLane s
    t.reception p = { s.reception p with
      rx := none, ctx := none, stamps := stampsSettled c r.bytes (s.port p).stats.stamps } ∧
    (c.logMode = .stampOnly → t.log = s.log) ∧
    (c.logMode ≠ .stampOnly → RoomFor 1 s →
      t.log.records = s.log.records ++ [stampRecordOf p (c.settled r.bytes) r.bytes (r.bytes.length - 4) r.bytes.length
        (!fcsGood r.bytes) s.log.nextSeq] ∧
      t.log.nextSeq = (s.log.nextSeq + 1) % 4294967296) := by
  intro t
  have whole := (reception_arbitrate p.partner _ p).trans (reception_forwardedWhole ctx r inLane)
  have log : (arbitrate p.partner (forwardedWhole p r inLane s)).log = s.log :=
    (log_arbitrate ..).trans (log_forwardedWhole ..)
  have held := congrArg Reception.ctx whole
  refine ⟨?_, fun mode => ?_, fun mode room => ?_⟩
  · rw [show t = _ from endForwarded_eq p r inLane s, closeMark_reception, whole]
  · exact (log_closeMark_stampOnly held mode ..).trans log
  · have filed := log_closeMark held mode (room.of log) r.bytes (r.bytes.length - 4) r.bytes.length (!fcsGood r.bytes)
    rwa [log] at filed

/-! ### FRAME_END of a forwarded frame -/

theorem exec_frameEnd {p : Port} {more : List Byte} {s : State} {r : Rx} (run : s.run ≠ .held) (up : (s.port p).up = true)
    (rx : (s.port p).rx = some r) : exec (.frameEnd p more) s = .next (receiveEnd p (r.grow more) s) := by
  simp only [exec, execFrameEnd, rx, portLive_of run up, if_true]

theorem upToOversize_of_le {r : Rx} (h : r.bytes.length ≤ 9216) : r.upToOversize = r := by
  rw [Rx.upToOversize, List.take_of_length_le (show r.bytes.length ≤ Config.maxFrame + 1 from Nat.le_succ_of_le h)]

/-- The end of a frame within 9,216 bytes whose lookup has been made (R109). -/
theorem receiveEnd_within {p : Port} {more : List Byte} {s : State} {r : Rx} (rx : (s.port p).rx = some r)
    (made : r.stage ≠ .parsing) (short : (r.bytes ++ more).length ≤ 9216) :
    receiveEnd p (r.grow more) s = endFrame p (r.grow more) s := by
  have whole : (r.grow more).upToOversize = r.grow more := upToOversize_of_le short
  have stage : (r.grow more).stage ≠ .parsing := made
  have long : ¬ Config.maxFrame < (r.grow more).bytes.length := not_lt.mpr short
  simp only [receiveEnd, whole, stage, false_and, if_false, rx, long]
  rfl

theorem endFrame_forwarded {p : Port} {s : State} {r : Rx} {inLane : Bool} (stage : r.stage = .forwarding inLane) :
    endFrame p r s = endForwarded p r inLane s := by
  simp only [endFrame, stage]

theorem exec_frameEnd_forwarded {p : Port} {more : List Byte} {s : State} {r : Rx} {inLane : Bool} (run : s.run ≠ .held)
    (up : (s.port p).up = true) (rx : (s.port p).rx = some r) (stage : r.stage = .forwarding inLane)
    (short : (r.bytes ++ more).length ≤ 9216) :
    exec (.frameEnd p more) s = .next (endForwarded p (r.grow more) inLane s) := by
  rw [exec_frameEnd run up rx, receiveEnd_within rx (by simp [stage]) short, endFrame_forwarded (r := r.grow more) stage]

theorem stampsSettled_eq (c : DatingCtx) (bytes : List Byte) (n : Nat) : stampsSettled c bytes n =
    if c.outcome = .pending ∧ frameHeader bytes + c.stampOffset + 16 ≤ bytes.length then min 4294967295 (n + 1) else n :=
  if_congr (and_congr_right' (stampArrived_iff c bytes)) rfl rfl

theorem stampRecordOf_eq (p : Port) (c : DatingCtx) (bytes : List Byte) (stop len : Nat) (bad : Bool) (seq : Nat) :
    stampRecordOf p (c.settled bytes) bytes stop len bad seq =
      ⟨seq, some p, c.domain, c.stamp.cls, ⟨c.stamp.s, c.stamp.n⟩, .stamp
        ((List.range 8).map (fun j => if frameHeader bytes + c.keyOffset + j < stop then
          bytes.getD (frameHeader bytes + c.keyOffset + j) 0 else 0)) len p.lane (!p.isUplink) c.index
        (decide (c.outcome = .unstamped ∨ (c.outcome = .pending ∧ ¬ frameHeader bytes + c.stampOffset + 16 ≤ bytes.length)))
        (decide (stop < frameHeader bytes + c.keyOffset + 8)) bad c.stamp.doubt (decide (c.stamp.cls = 6))⟩ := by
  have six : (c.stamp.cls == 6) = decide (c.stamp.cls = 6) := Bool.eq_iff_iff.mpr (by simp)
  rw [stampRecordOf, keyOf_eq, settled_unstamped, shortKey, ← six]
  rfl

/-- Settles O34, by the end of a forwarded frame whose context is open. -/
theorem aStorageMarkEndsInItsRecord : Obligations.AStorageMarkEndsInItsRecord := by
  refine ⟨fun p more s r c inLane run up rx ctx stage short => ?_,
    fun p more s r c inLane run up rx ctx stage short logged mem gap len => ?_⟩
  all_goals
    obtain ⟨reception, silent, filed⟩ := endForwarded_mark ctx (r.grow more) inLane
    intro bytes
  · refine ⟨_, exec_frameEnd_forwarded run up rx stage short, congrArg Reception.ctx reception,
      congrArg Reception.rx reception, ?_, silent⟩
    exact (congrArg Reception.stamps reception).trans (stampsSettled_eq ..)
  · obtain ⟨records, nextSeq⟩ := filed logged ⟨mem, gap, len⟩
    refine ⟨_, exec_frameEnd_forwarded run up rx stage short, congrArg Reception.ctx reception,
      congrArg Reception.rx reception, ?_, nextSeq⟩
    rw [records, stampRecordOf_eq]
    rfl

/-! ### FRAME_OVERSIZE -/

theorem exec_frameOversize {p : Port} {more : List Byte} {s : State} (run : s.run ≠ .held) (up : (s.port p).up = true) :
    exec (.frameOversize p more) s = .next (oversizeArrives p more s) := by
  simp only [exec, execFrameOversize, portLive_of run up, if_true]

/-- The frame with the bytes up to byte 9,217, the one that makes it too long. -/
def tooLong (r : Rx) (more : List Byte) : Rx := { r with bytes := (r.bytes ++ more).take 9217 }

theorem oversizeArrives_left {p : Port} {more : List Byte} {s : State} {r : Rx} (rx : (s.port p).rx = some r)
    (h : r.stage = .discarding ∨ (r.bytes ++ more).length ≤ 9216) : oversizeArrives p more s = s := by
  simp only [oversizeArrives, rx]
  rw [if_neg]
  rintro ⟨stage, long⟩
  simp only [Rx.grow, Rx.upToOversize, List.length_take, Config.maxFrame] at long
  rcases h with h | h
  · exact stage h
  · omega

theorem oversizeArrives_made {p : Port} {more : List Byte} {s : State} {r : Rx} (rx : (s.port p).rx = some r)
    (long : 9216 < (r.bytes ++ more).length) (kept : r.stage ≠ .discarding) (made : r.stage ≠ .parsing) :
    oversizeArrives p more s = overrun p (tooLong r more) s := by
  have long' : Config.maxFrame < (r.grow more).upToOversize.bytes.length := by
    simp only [Rx.grow, Rx.upToOversize, List.length_take, Config.maxFrame]
    omega
  have kept' : (r.grow more).upToOversize.stage ≠ .discarding := kept
  have made' : ¬ (r.grow more).upToOversize.stage = .parsing := made
  simp only [oversizeArrives, rx, if_pos (And.intro kept' long'), if_neg made']
  rfl

theorem overrun_stored {p : Port} {s : State} {r : Rx} (stored : r.stage = .storingL2 ∨ ∃ a b c, r.stage = .storingUdp a b c) :
    overrun p r s = s.setPort p { s.port p with
      rx := some { r with stage := .discarding }
      stats := { (s.port p).stats with malformed := min 4294967295 ((s.port p).stats.malformed + 1) } } := by
  have counted : (setRx p (some { r with stage := .discarding }) s).count p Stats.incMalformed = s.setPort p { s.port p with
      rx := some { r with stage := .discarding }
      stats := { (s.port p).stats with malformed := min 4294967295 ((s.port p).stats.malformed + 1) } } := by
    rw [setRx, State.count, port_setPort_same, setPort_setPort]
    rfl
  rcases stored with h | ⟨a, b, c, h⟩ <;> simp only [overrun, h] <;> exact counted

/-- The frame discarded, its outcome settled and its context closed, before the arriving frame is cut (R103, R136). -/
def overrunMark (p : Port) (r : Rx) (s : State) : State :=
  cutMark p r.bytes 9216 (settleArrived p r.bytes (setRx p (some { r with stage := .discarding }) s))

/-- The arriving frame cut at 9,216 bytes and counted as a transit drop of its port (R103). -/
def cutArriving (q : Port) (bytes : List Byte) (s : State) : State :=
  (s.setPort q (onArriving (fun x => { x.upTo (bytes.take 9216) with complete := true, ready := true, cut := true })
    (s.port q))).count q (Stats.addTransitDrops 1)

theorem overrun_forwarded {p : Port} {s : State} {r : Rx} {inLane : Bool} (stage : r.stage = .forwarding inLane) :
    overrun p r s = if inLane then arbitrate p.partner (cutArriving p.partner r.bytes (overrunMark p r s))
      else overrunMark p r s := by
  simp only [overrun, stage]
  rfl

theorem overrunMark_none {p : Port} {s : State} (h : (s.port p).ctx = none) (r : Rx) :
    overrunMark p r s = setRx p (some { r with stage := .discarding }) s := by
  have none' : ((setRx p (some { r with stage := .discarding }) s).port p).ctx = none := by
    rw [setRx, port_setPort_same, h]
  rw [overrunMark, settleArrived_none none', cutMark_none none']

theorem reception_cutArriving_same (q : Port) (bytes : List Byte) (s : State) : (cutArriving q bytes s).reception q =
    { s.reception q with transitDrops := min 4294967295 ((s.port q).stats.transitDrops + 1) } := by
  rw [cutArriving, State.count, reception_setPort_same, port_setPort_same]
  rfl

theorem reception_cutArriving_ne {p q : Port} (h : p ≠ q) (bytes : List Byte) (s : State) :
    (cutArriving q bytes s).reception p = s.reception p := by
  rw [cutArriving, State.count, reception_setPort_ne _ h, reception_setPort_ne _ h]

theorem log_cutArriving (q : Port) (bytes : List Byte) (s : State) : (cutArriving q bytes s).log = s.log := by
  simp [cutArriving]

/-- The outcome of a cut-off mark is settled before its context closes (R132, R136). -/
theorem cutMark_settled {p : Port} {s : State} {c : DatingCtx} (ctx : (s.port p).ctx = some c) (bytes : List Byte)
    (len : Nat) : ∃ u, cutMark p bytes len (settleArrived p bytes s) =
        closeMark p bytes (min bytes.length len) len true u ∧
      u.reception p = { s.reception p with
        ctx := some (c.settled bytes), stamps := stampsSettled c bytes (s.port p).stats.stamps } ∧
      (∀ q, q ≠ p → u.reception q = s.reception q) ∧ u.log = s.log := by
  by_cases now : c.outcome = .pending ∧ stampArrived c bytes = true
  · have arrived : settleArrived p bytes s = writeStampNow p c bytes s := by rw [settleArrived_some ctx, if_pos now]
    have reception : (settleArrived p bytes s).reception p = { s.reception p with
        ctx := some (c.settled bytes), stamps := stampsSettled c bytes (s.port p).stats.stamps } := by
      rw [arrived, reception_writeStampNow, settleStamp_port p _ c s ctx]
      simp [DatingCtx.settled, stampsSettled, now, satAdd, Config.max32]
    have held : ((settleArrived p bytes s).port p).ctx = some (c.settled bytes) := congrArg Reception.ctx reception
    refine ⟨settleArrived p bytes s, ?_, reception, fun q h => reception_settleArrived_ne h .., log_settleArrived ..⟩
    rw [cutMark_some held, settleStamp_settled held (by simp [DatingCtx.settled, now])]
  · rw [settleArrived_some ctx, if_neg now, cutMark_some ctx]
    exact ⟨_, rfl, reception_cut ctx bytes, fun q h => reception_settleStamp_ne h .., log_settleStamp ..⟩

/-- The cut-off reception of a mark: its outcome settled and its context closed, with its record (R136). -/
theorem overrunMark_does {p : Port} {s : State} {c : DatingCtx} (ctx : (s.port p).ctx = some c) {r : Rx}
    (long : 9216 ≤ r.bytes.length) :
    let t := overrunMark p r s
    t.reception p = { s.reception p with
      rx := some { r with stage := .discarding }, ctx := none
      stamps := stampsSettled c r.bytes (s.port p).stats.stamps } ∧
    (∀ q, q ≠ p → t.reception q = s.reception q) ∧
    (c.logMode = .stampOnly → t.log = s.log) ∧
    (c.logMode ≠ .stampOnly → RoomFor 1 s →
      t.log.records = s.log.records ++
        [stampRecordOf p (c.settled r.bytes) r.bytes 9216 9216 true s.log.nextSeq] ∧
      t.log.nextSeq = (s.log.nextSeq + 1) % 4294967296) := by
  have discarding : (setRx p (some { r with stage := .discarding }) s).reception p =
      { s.reception p with rx := some { r with stage := .discarding } } := reception_setPort_same ..
  obtain ⟨u, closed, reception, other, log⟩ :=
    cutMark_settled ((congrArg Reception.ctx discarding).trans ctx) r.bytes 9216
  rw [discarding, show ((setRx p (some { r with stage := .discarding }) s).port p).stats.stamps = (s.port p).stats.stamps
    from congrArg Reception.stamps discarding] at reception
  have held := congrArg Reception.ctx reception
  have log : u.log = s.log := log.trans (log_setRx ..)
  intro t
  rw [show t = _ from closed, Nat.min_eq_right long]
  refine ⟨by rw [closeMark_reception, reception], fun q h => ?_, fun mode => ?_, fun mode room => ?_⟩
  · rw [reception_closeMark_ne h, other q h, setRx, reception_setPort_ne _ h]
  · rw [log_closeMark_stampOnly held mode, log]
  · have filed := log_closeMark held mode (room.of log) r.bytes 9216 9216 true
    rwa [log] at filed

/-- Settles O31, by the stage of the frame and whether a context is open. -/
theorem aFrameBeyond9216Bytes : Obligations.AFrameBeyond9216Bytes := by
  refine fun p more s r run up rx => ⟨fun h => ?_, fun long stored => ?_, fun long stage ctx => ?_, fun long stage ctx => ?_,
    fun inLane long stage ctx => ?_⟩
  all_goals rw [exec_frameOversize run up]
  · rw [oversizeArrives_left rx h]
  · have made : r.stage ≠ .discarding ∧ r.stage ≠ .parsing := by
      rcases stored with h | ⟨a, b, c, h⟩ <;> simp [h]
    rw [oversizeArrives_made rx long made.1 made.2, overrun_stored (r := tooLong r more) stored]
    rfl
  · rw [oversizeArrives_made rx long (by simp [stage]) (by simp [stage]), overrun_forwarded (r := tooLong r more) stage,
      if_pos rfl, overrunMark_none ctx, cutArriving, setRx, port_setPort_partner, State.count, port_setPort_same,
      setPort_setPort]
    rfl
  · rw [oversizeArrives_made rx long (by simp [stage]) (by simp [stage]), overrun_forwarded (r := tooLong r more) stage,
      if_neg (by simp), overrunMark_none ctx]
    rfl
  · obtain ⟨c, ctx⟩ := Option.ne_none_iff_exists'.mp ctx
    have whole : 9216 ≤ (tooLong r more).bytes.length := by
      simp only [tooLong, List.length_take]
      omega
    obtain ⟨reception, other, silent, filed⟩ := overrunMark_does ctx whole
    have cut : ∃ t, overrun p (tooLong r more) s = t ∧ t.reception p = (overrunMark p (tooLong r more) s).reception p ∧
        (t.reception p.partner).transitDrops = (if inLane then min 4294967295 ((s.port p.partner).stats.transitDrops + 1)
          else (s.port p.partner).stats.transitDrops) ∧ t.log = (overrunMark p (tooLong r more) s).log := by
      have drops : ((overrunMark p (tooLong r more) s).port p.partner).stats.transitDrops =
          (s.port p.partner).stats.transitDrops := congrArg Reception.transitDrops (other _ (Port.partner_ne p))
      refine ⟨_, overrun_forwarded (r := tooLong r more) stage, ?_, ?_, ?_⟩ <;> cases inLane
      · rfl
      · exact (reception_arbitrate ..).trans (reception_cutArriving_ne (Port.partner_ne p).symm ..)
      · exact drops
      · rw [if_pos rfl, reception_arbitrate, reception_cutArriving_same, drops]
        rfl
      · rfl
      · exact (log_arbitrate ..).trans (log_cutArriving ..)
    obtain ⟨t, overran, same, drops, log⟩ := cut
    rw [← log] at silent filed
    rw [oversizeArrives_made rx long (by simp [stage]) (by simp [stage]), overran]
    have reception := same.trans reception
    refine ⟨t, rfl, congrArg Reception.ctx reception, congrArg Reception.rx reception, drops, fun c' ctx' => ?_⟩
    obtain rfl : c' = c := Option.some.inj (ctx'.symm.trans ctx)
    refine ⟨(congrArg Reception.stamps reception).trans (stampsSettled_eq ..), silent, fun mode mem gap len => ?_⟩
    obtain ⟨records, nextSeq⟩ := filed mode ⟨mem, gap, len⟩
    refine ⟨?_, nextSeq⟩
    rw [records, stampRecordOf_eq, ← keyOf_eq, keyOf, slice_eq_map]
    rfl

end Sys2Proof.Machine
end

section
/-! The lookup point of a frame and its end (R103 to R111, R116, R124, R129 to R134): LOOKUP_POINT, and FRAME_END by the stage
of the frame. -/

namespace Sys2Proof.Machine

/-! ### The lookup of a frame leaves it under reception -/

/-- The frame under reception stands, its bytes as they are, at a stage behind its lookup. -/
def LookedUp (p : Port) (r : Rx) (s : State) : Prop :=
  ∃ stage, stage ≠ .parsing ∧ stage ≠ .discarding ∧ (s.port p).rx = some { r with stage := stage }

theorem LookedUp.of {p : Port} {r : Rx} {s t : State} (h : LookedUp p r s) (same : t.reception p = s.reception p) :
    LookedUp p r t := by
  obtain ⟨stage, made, kept, rx⟩ := h
  exact ⟨stage, made, kept, (congrArg Reception.rx same).trans rx⟩

theorem rx_settleStamp (p : Port) (written : Bool) (s : State) : ((settleStamp p written s).port p).rx = (s.port p).rx := by
  simp only [settleStamp, State.count]
  (repeat' split) <;> simp only [port_setPort_same]

theorem LookedUp.settleStamp {p : Port} {r : Rx} {s : State} (h : LookedUp p r s) (written : Bool) :
    LookedUp p r (settleStamp p written s) := by
  obtain ⟨stage, made, kept, rx⟩ := h
  exact ⟨stage, made, kept, (rx_settleStamp ..).trans rx⟩

theorem LookedUp.settleArrived {p : Port} {r : Rx} {s : State} (h : LookedUp p r s) (bytes : List Byte) :
    LookedUp p r (settleArrived p bytes s) := by
  simp only [Machine.settleArrived]
  (repeat' split)
  · exact (h.settleStamp true).of (reception_writeStampNow ..)
  · exact h
  · exact h

theorem lookedUp_forwardArriving (p : Port) (r : Rx) (ready : Bool) (s : State) :
    LookedUp p r (forwardArriving p r ready s).1 :=
  ⟨.forwarding _, by simp, by simp, by rw [forwardArriving, setRx, port_setPort_same]⟩

theorem lookedUp_lookupFrame (p : Port) (r : Rx) (ended : Bool) (s : State) : LookedUp p r (lookupFrame p r ended s) := by
  have pass : LookedUp p r (passFrame p r s) := (lookedUp_forwardArriving ..).of (reception_arbitrate ..)
  simp only [lookupFrame]
  split
  · exact pass
  · split
    · exact pass
    · simp only [markFrame]
      split
      · exact ((lookedUp_forwardArriving ..).settleArrived _).of (reception_arbitrate ..)
      · exact (lookedUp_forwardArriving ..).settleStamp _
    · exact ⟨.storingL2, by simp, by simp, by rw [setRx, port_setPort_same]⟩
    · exact ⟨.storingUdp _ _ _, by simp, by simp, by rw [setRx, port_setPort_same]⟩

/-! ### FRAME_END -/

theorem receiveEnd_short {p : Port} {more : List Byte} {s : State} {r : Rx} (stage : r.stage = .parsing)
    (short : (r.bytes ++ more).length < 64) : receiveEnd p (r.grow more) s =
      (setRx p none s).count p.partner (Stats.addTransitDrops 1) := by
  have whole : (r.grow more).upToOversize = r.grow more := upToOversize_of_le (by simp only [Rx.grow]; omega)
  have parsing : (r.grow more).stage = .parsing := stage
  have len : (r.grow more).bytes.length < Config.minFrame := short
  simp only [receiveEnd, whole, parsing, len, and_self, if_true]

theorem receiveEnd_discarding {p : Port} {more : List Byte} {s : State} {r : Rx} (rx : (s.port p).rx = some r)
    (stage : r.stage = .discarding) : receiveEnd p (r.grow more) s = setRx p none s := by
  have discarding : (r.grow more).upToOversize.stage = .discarding := stage
  simp only [receiveEnd, discarding, reduceCtorEq, false_and, if_false, rx, stage, ne_eq, not_true_eq_false, and_false,
    endFrame]

theorem frameHeader_le (bytes : List Byte) : frameHeader bytes ≤ 18 := by
  unfold frameHeader headerLen
  split <;> omega

/-- A frame that is too long ends as one of which FRAME_OVERSIZE had told (log 37). -/
theorem receiveEnd_tooLong {p : Port} {more : List Byte} {s : State} {r : Rx} (rx : (s.port p).rx = some r)
    (long : 9216 < (r.bytes ++ more).length) (kept : r.stage ≠ .discarding) :
    receiveEnd p (r.grow more) s = setRx p none (oversizeArrives p more s) := by
  have len : (r.grow more).upToOversize.bytes.length = 9217 := by
    simp only [Rx.grow, Rx.upToOversize, List.length_take, Config.maxFrame]
    omega
  have kept' : (r.grow more).upToOversize.stage ≠ .discarding := kept
  have found : ∃ r', ((if (r.grow more).upToOversize.stage = .parsing then
      lookupFrame p (r.grow more).upToOversize false s else s).port p).rx = some r' ∧ r'.stage ≠ .discarding := by
    split
    · obtain ⟨stage, -, open_, rx'⟩ := lookedUp_lookupFrame p (r.grow more).upToOversize false s
      exact ⟨_, rx', open_⟩
    · exact ⟨r, rx, kept⟩
  obtain ⟨r', rx', open_⟩ := found
  have ended : decide (9217 < frameHeader (r.grow more).upToOversize.bytes + Config.lookupBytes + 4) = false := by
    have := frameHeader_le (r.grow more).upToOversize.bytes
    exact decide_eq_false (by rw [show Config.lookupBytes = 131 from rfl]; omega)
  have big : Config.maxFrame < 9217 := by decide
  have full : ¬ 9217 < Config.minFrame := by decide
  simp only [receiveEnd, oversizeArrives, rx, len, ended, kept', big, full, and_false, if_false, ne_eq, not_false_eq_true,
    and_self, if_true, rx', open_]

theorem overrunMark_closes (p : Port) (s : State) {r : Rx} (long : 9216 ≤ r.bytes.length) :
    ((overrunMark p r s).reception p).ctx = none ∧
      (overrunMark p r s).reception p.partner = s.reception p.partner := by
  cases ctx : (s.port p).ctx with
  | none =>
    rw [overrunMark_none ctx, setRx, reception_setPort_same]
    exact ⟨ctx, reception_setPort_ne _ (Port.partner_ne p) _⟩
  | some c =>
    obtain ⟨reception, other, -⟩ := overrunMark_does ctx long
    exact ⟨congrArg Reception.ctx reception, other _ (Port.partner_ne p)⟩

/-- A frame that is being forwarded passes 9,216 bytes: its context closes and its egress port counts it (R103). -/
theorem overrun_cut {p : Port} {s : State} {r : Rx} (stage : r.stage = .forwarding true) (long : 9216 ≤ r.bytes.length) :
    ((overrun p r s).port p).ctx = none ∧
      ((overrun p r s).reception p.partner).transitDrops = min 4294967295 ((s.port p.partner).stats.transitDrops + 1) := by
  obtain ⟨closed, other⟩ := overrunMark_closes p s long
  rw [overrun_forwarded stage, if_pos rfl]
  refine ⟨(ctx_of_reception ((reception_arbitrate ..).trans (reception_cutArriving_ne (Port.partner_ne p).symm ..))).trans
    closed, ?_⟩
  rw [reception_arbitrate, reception_cutArriving_same, show ((overrunMark p r s).port p.partner).stats.transitDrops =
    (s.port p.partner).stats.transitDrops from congrArg Reception.transitDrops other]

theorem endFrame_stored {p : Port} {s : State} {r : Rx} (stored : r.stage = .storingL2 ∨ ∃ a b c, r.stage = .storingUdp a b c)
    (bad : fcsGood r.bytes = false) : endFrame p r s = s.setPort p { s.port p with
      rx := none
      stats := { (s.port p).stats with malformed := min 4294967295 ((s.port p).stats.malformed + 1) } } := by
  have counted : (setRx p none s).count p Stats.incMalformed = s.setPort p { s.port p with
      rx := none
      stats := { (s.port p).stats with malformed := min 4294967295 ((s.port p).stats.malformed + 1) } } := by
    rw [setRx, State.count, port_setPort_same, setPort_setPort]
    rfl
  rcases stored with h | ⟨a, b, c, h⟩ <;> simp only [endFrame, h, bad] <;> exact counted

/-- A forwarded frame with no context ends: complete in its buffer, or with nothing more (R117, log 37). -/
theorem endForwarded_none {p : Port} {s : State} (ctx : (s.port p).ctx = none) (r : Rx) (inLane : Bool) :
    endForwarded p r inLane s = arbitrate p.partner (if inLane then
        (setRx p none s).setPort p.partner (onArriving (fun x => { x with
          bytes := r.bytes, sinceHalf := 0, complete := true, ready := true }) (s.port p.partner))
      else setRx p none s) := by
  have stopped : ((setRx p none s).port p).ctx = none := by rw [setRx, port_setPort_same, ctx]
  have whole : forwardedWhole p r inLane s = if inLane then
        (setRx p none s).setPort p.partner (onArriving (fun x => { x with
          bytes := r.bytes, sinceHalf := 0, complete := true, ready := true }) (s.port p.partner))
      else setRx p none s := by
    cases inLane
    · simp only [forwardedWhole, Bool.false_eq_true, if_false, settleArrived_none stopped, settleStamp_none stopped]
    · have grown : ((growArriving p r.bytes (setRx p none s)).port p).ctx = none := by
        rw [growArriving, port_partner_setPort, stopped]
      simp only [forwardedWhole, if_true, settleArrived_none grown, settleStamp_none grown]
      rw [growArriving, port_setPort_same, setPort_setPort, setRx, port_setPort_partner,
        onArriving_onArriving _ (FwdFrame.upTo r.bytes) fun _ => rfl]
      rfl
  have closed : ((arbitrate p.partner (forwardedWhole p r inLane s)).port p).ctx = none := by
    rw [ctx_of_reception (reception_arbitrate ..), whole]
    cases inLane
    · exact stopped
    · rw [if_pos rfl, port_partner_setPort, stopped]
  rw [endForwarded_eq, closeMark_none closed, whole]

/-- Settles O32, by the stage and the length of the frame. -/
theorem frameEndDoes : Obligations.FrameEndDoes := by
  intro p more s r run up rx q bytes gone
  rw [exec_frameEnd run up rx]
  have made_of_stored (h : r.stage = .storingL2 ∨ ∃ a b c, r.stage = .storingUdp a b c) :
      r.stage ≠ .discarding ∧ r.stage ≠ .parsing := by
    rcases h with h | ⟨a, b, c, h⟩ <;> simp [h]
  refine ⟨fun stage short => ?_, fun stage => ?_, fun short stored bad => ?_, fun short stage good => ?_,
    fun mgmt utx privilege short stage good => ?_, fun long stored => ?_, fun long stage => ?_, fun long kept t over_ => ?_,
    fun short stage ctx => ?_, fun short stage ctx => ?_⟩
  · rw [receiveEnd_short stage short, State.count, setRx, port_setPort_partner]
    rfl
  · rw [receiveEnd_discarding rx stage]
    rfl
  · rw [receiveEnd_within rx (made_of_stored stored).2 short, endFrame_stored (r := r.grow more) stored bad]
  · have stage' : (r.grow more).stage = .storingL2 := stage
    have good' : fcsGood (r.grow more).bytes = true := good
    rw [receiveEnd_within rx (by simp [stage]) short]
    simp only [endFrame, stage', good', if_true]
    rfl
  · have stage' : (r.grow more).stage = .storingUdp mgmt utx privilege := stage
    have good' : fcsGood (r.grow more).bytes = true := good
    rw [receiveEnd_within rx (by simp [stage]) short]
    simp only [endFrame, stage', good', if_true]
    rfl
  · obtain ⟨kept, made⟩ := made_of_stored stored
    rw [receiveEnd_tooLong rx long kept, oversizeArrives_made rx long kept made,
      overrun_stored (r := tooLong r more) stored, setRx, port_setPort_same, setPort_setPort]
  · have kept : r.stage ≠ .discarding := by simp [stage]
    have len : 9216 ≤ (tooLong r more).bytes.length := by
      have long : 9216 < (r.bytes ++ more).length := long
      simp only [tooLong, List.length_take]
      omega
    obtain ⟨closed, drops⟩ := overrun_cut (r := tooLong r more) stage len
    rw [receiveEnd_tooLong rx long kept, oversizeArrives_made rx long kept (by simp [stage])]
    exact ⟨_, rfl, congrArg Reception.rx (reception_setPort_same ..),
      (congrArg Reception.ctx (reception_setPort_same ..)).trans closed,
      (congrArg Reception.transitDrops (reception_setPort_ne _ (Port.partner_ne p) _)).trans drops⟩
  · rw [exec_frameOversize run up, Host.Outcome.next.injEq] at over_
    rw [receiveEnd_tooLong rx long kept, over_]
    rfl
  · rw [receiveEnd_within rx (by simp [stage]) short, endFrame_forwarded (r := r.grow more) stage, endForwarded_none ctx,
      if_neg (by simp)]
    rfl
  · rw [receiveEnd_within rx (by simp [stage]) short, endFrame_forwarded (r := r.grow more) stage, endForwarded_none ctx,
      if_pos rfl]
    rfl

/-! ### The occupancy of an elastic buffer -/

/-- The bytes held by a port's elastic buffer (R116). -/
def State.occupancy (s : State) (p : Port) : Nat := bufferOccupancy (s.port p)

theorem occupancy_of_ports {s t : State} (h : t.ports = s.ports) (p : Port) : t.occupancy p = s.occupancy p := by
  simp only [State.occupancy, State.port, h]

/-- Replacing a port's unit by one of the same occupancy leaves that of every port. -/
theorem occupancy_setPort (s : State) (q p : Port) (u : PortUnit) (h : bufferOccupancy u = s.occupancy q) :
    (s.setPort q u).occupancy p = s.occupancy p := by
  rw [State.occupancy, port_setPort]
  split
  case isTrue same => rw [h, same]
  case isFalse => rfl

@[simp] theorem occupancy_recordEgress (q : Port) (tag : OrigTag) (s : State) (p : Port) :
    (recordEgress q tag s).occupancy p = s.occupancy p := by
  simp only [recordEgress, askPassesEgress, reportPassesEgress]
  (repeat' split) <;> rfl

/-- An originated frame, whose queue is not the buffer, begins to leave. -/
theorem occupancy_grantQueued (q : Port) {o : TxFrom} (other : o ≠ .buffer) (f : QFrame) {s : State}
    (free : (s.port q).tx = none) (p : Port) : (grantQueued q o f s).occupancy p = s.occupancy p := by
  rw [grantQueued, occupancy_recordEgress]
  exact occupancy_setPort _ _ _ _ (by simp [State.occupancy, bufferOccupancy, leavingBytes, free, other])

/-- A grant from the buffer is its head (R122). -/
theorem buffer_of_chooseGrant {now : Nat} {u : PortUnit} {f : FwdFrame} {rest : List FwdFrame}
    (h : chooseGrant now u = .buffer f rest) : u.buffer = f :: rest := by
  unfold chooseGrant at h
  (repeat' split at h) <;> simp_all

/-- A decision of an arbiter moves no byte out of a buffer: the granted frame counts as it leaves. -/
@[simp] theorem occupancy_arbitrate (q : Port) (s : State) (p : Port) : (arbitrate q s).occupancy p = s.occupancy p := by
  by_cases idle : (s.port q).tx ≠ none ∨ (s.port q).up = false
  · rw [arbitrate_idle idle]
  · obtain ⟨free, up⟩ := not_or.mp idle
    replace free : (s.port q).tx = none := not_not.mp free
    replace up : (s.port q).up = true := by simpa using up
    cases grant : chooseGrant s.clock.up (s.port q) with
    | timing f rest =>
      rw [arbitrate_timing free up grant, occupancy_grantQueued q (by simp) f (by rw [port_setPort_same, free])]
      exact occupancy_setPort _ _ _ _ rfl
    | general f rest =>
      rw [arbitrate_general free up grant, occupancy_grantQueued q (by simp) f (by rw [port_setPort_same, free])]
      exact occupancy_setPort _ _ _ _ rfl
    | buffer f rest =>
      have head : (s.port q).buffer = f :: rest := buffer_of_chooseGrant grant
      rw [arbitrate_buffer free up grant, grantForwarded, port_setPort_same, setPort_setPort]
      exact occupancy_setPort _ _ _ _ (by simp [State.occupancy, bufferOccupancy, leavingBytes, free, head, Nat.add_comm])
    | nothing => rw [arbitrate_nothing free up grant]

@[simp] theorem occupancy_offerGeneral (q : Port) (tag : OrigTag) (header : Nat) (bytes : List Byte) (s : State) (p : Port) :
    (offerGeneral q tag header bytes s).1.occupancy p = s.occupancy p := by
  simp only [offerGeneral, State.count]
  split <;> exact occupancy_setPort _ _ _ _ rfl

@[simp] theorem occupancy_setForm (s : State) (a : AlertForm) (p : Port) (v : FormState) :
    (s.setForm a v).occupancy p = s.occupancy p := occupancy_of_ports rfl p
@[simp] theorem occupancy_setFault (s : State) (k : FaultKind) (p : Port) (r : FaultRec) :
    (s.setFault k r).occupancy p = s.occupancy p := occupancy_of_ports rfl p
@[simp] theorem occupancy_setLog (s : State) (l : EventLog) (p : Port) : (s.setLog l).occupancy p = s.occupancy p :=
  occupancy_of_ports rfl p

@[simp] theorem occupancy_watchSecond (s : State) (p : Port) : (watchSecond s).occupancy p = s.occupancy p := by
  simp only [watchSecond]
  split <;> rfl

@[simp] theorem occupancy_alertEvent (a : AlertForm) (clear : Bool) (subject : Subject) (d : AlertData) (s : State) (p : Port) :
    (alertEvent a clear subject d s).occupancy p = s.occupancy p := by
  simp only [alertEvent, suppressAlert]
  (repeat' split) <;> simp

@[simp] theorem occupancy_faultAlert (k : FaultKind) (clear : Bool) (subject : Subject) (d : AlertData) (s : State) (p : Port) :
    (faultAlert k clear subject d s).occupancy p = s.occupancy p := by
  simp only [faultAlert]
  split <;> simp

@[simp] theorem occupancy_offerBare (o : Offer) (s : State) (p : Port) : (offerBare o s).1.occupancy p = s.occupancy p := by
  simp only [offerBare, levelNotice]
  (repeat' split) <;> simp

@[simp] theorem occupancy_raiseLogFull (s : State) (p : Port) : (raiseLogFull s).occupancy p = s.occupancy p := by
  simp only [raiseLogFull, countRaise, activate]
  split <;> simp

@[simp] theorem occupancy_clearLogFull (s : State) (p : Port) : (clearLogFull s).occupancy p = s.occupancy p := by
  unfold clearLogFull deactivate
  split
  · dsimp only
    rw [occupancy_faultAlert]
    split <;> simp
  · rfl

@[simp] theorem occupancy_offerRecord (o : Offer) (s : State) (p : Port) : (offerRecord o s).occupancy p = s.occupancy p := by
  simp only [offerRecord]
  split <;> simp

@[simp] theorem occupancy_freezeTrigger (t : Trigger) (s : State) (p : Port) :
    (freezeTrigger t s).occupancy p = s.occupancy p := by
  simp only [freezeTrigger]
  split
  · rfl
  · exact (occupancy_offerRecord ..).trans rfl

@[simp] theorem reception_freezeTrigger (t : Trigger) (s : State) (p : Port) :
    (freezeTrigger t s).reception p = s.reception p := by
  simp only [freezeTrigger]
  split
  · rfl
  · exact (reception_offerRecord ..).trans rfl

theorem steady_freezeTrigger (t : Trigger) (s : State) : (freezeTrigger t s).steady = s.steady := by
  simp only [freezeTrigger]
  split
  · rfl
  · exact (steady_offerRecord ..).trans rfl

/-! ### The claim of a storage mark -/

/-- The state with the context of a claim open, before its freeze trigger (R130). -/
def claimed (p : Port) (index : Nat) (e : MatchEntry) (ingress : Date) (s : State) : State :=
  let issued := issueDate s.clock.lastStamp ingress
  (rememberStamp issued s).setPort p { s.port p with
    ctx := some (openContext index e ingress (buildStamp s e ingress issued)) }

theorem openMark_eq (p : Port) (index : Nat) (e : MatchEntry) (ingress : Date) (s : State) : openMark p index e ingress s =
    if e.freeze then freezeTrigger (.matched index) (claimed p index e ingress s) else claimed p index e ingress s := rfl

section
variable (p : Port) (index : Nat) (e : MatchEntry) (ingress : Date) (s : State)

theorem reception_openMark : (openMark p index e ingress s).reception p = { s.reception p with
    ctx := some (openContext index e ingress (buildStamp s e ingress (issueDate s.clock.lastStamp ingress))) } := by
  have claim : (claimed p index e ingress s).reception p = { s.reception p with
      ctx := some (openContext index e ingress (buildStamp s e ingress (issueDate s.clock.lastStamp ingress))) } :=
    reception_setPort_same ..
  rw [openMark_eq]
  split
  · exact (reception_freezeTrigger ..).trans claim
  · exact claim

theorem reception_openMark_ne {q : Port} (h : q ≠ p) : (openMark p index e ingress s).reception q = s.reception q := by
  have claim : (claimed p index e ingress s).reception q = s.reception q := reception_setPort_ne _ h _
  rw [openMark_eq]
  split
  · exact (reception_freezeTrigger ..).trans claim
  · exact claim

theorem occupancy_openMark (q : Port) : (openMark p index e ingress s).occupancy q = s.occupancy q := by
  have claim : (claimed p index e ingress s).occupancy q = s.occupancy q := occupancy_setPort _ _ _ _ rfl
  rw [openMark_eq]
  split
  · exact (occupancy_freezeTrigger ..).trans claim
  · exact claim

theorem inc_openMark : (openMark p index e ingress s).clock.inc = s.clock.inc := by
  have claim : (claimed p index e ingress s).steady.inc = s.clock.inc := rfl
  rw [openMark_eq]
  split
  · exact (congrArg Clock.inc (steady_freezeTrigger ..)).trans claim
  · exact claim

end

/-- A freeze-on-match freezes a LIVE engine, and nothing else does here (R138, R155). -/
theorem frozen_openMark (p : Port) (index : Nat) (e : MatchEntry) (ingress : Date) (s : State) :
    (e.freeze = true → s.frozen = none → ∃ v, (openMark p index e ingress s).frozen = some v ∧
      v.trigger = .matched index ∧ v.sources = s.sources) ∧
    (e.freeze = false ∨ s.frozen ≠ none → (openMark p index e ingress s).frozen = s.frozen) := by
  rw [openMark_eq]
  refine ⟨fun freeze live => ?_, fun h => ?_⟩
  · have live' : ¬ (claimed p index e ingress s).frozen.isSome = true := by simp [claimed, rememberStamp, live]
    rw [if_pos freeze, freezeTrigger, if_neg live', frozen_offerRecord]
    exact ⟨_, rfl, rfl, rfl⟩
  · by_cases freeze : e.freeze = true
    · have frozen : (claimed p index e ingress s).frozen.isSome = true := by
        simpa [claimed, rememberStamp, freeze, Option.isSome_iff_ne_none] using h
      rw [if_pos freeze, freezeTrigger, if_pos frozen]
      rfl
    · rw [if_neg freeze]
      rfl

/-! ### Admission to the buffer -/

/-- Whether a frame of the longest length would be admitted to a port's elastic buffer (R116, R101). -/
def Admitted (s : State) (q : Port) : Prop := (s.port q).up = true ∧ 9216 + bufferOccupancy (s.port q) ≤ 32768

/-- A frame that arrives, as the buffer takes it at its lookup (R116). -/
def arrivingFrame (r : Rx) (ready : Bool) : FwdFrame :=
  { bytes := r.bytes, sinceHalf := 0, ingress := r.ingress, complete := false, ready := ready, cut := false, edit := .none }

section
variable {p : Port} {s : State} (r : Rx) (ready : Bool)

theorem forwardArriving_admitted (h : Admitted s p.partner) : forwardArriving p r ready s =
    ((s.setPort p.partner { s.port p.partner with buffer := (s.port p.partner).buffer ++ [arrivingFrame r ready] }).setPort p
      { s.port p with rx := some { r with stage := .forwarding true } }, true) := by
  obtain ⟨up, room⟩ := h
  have taken : ((s.port p.partner).up && decide (Config.maxFrame + bufferOccupancy (s.port p.partner) ≤
      Config.bufferBytes)) = true := by
    rw [up, Bool.true_and]
    exact decide_eq_true room
  rw [forwardArriving, admitFrame]
  simp only [taken, if_true, setRx, port_partner_setPort]
  rfl

theorem forwardArriving_refused (h : ¬ Admitted s p.partner) : forwardArriving p r ready s =
    ((s.setPort p.partner { s.port p.partner with stats := { (s.port p.partner).stats with
        transitDrops := min 4294967295 ((s.port p.partner).stats.transitDrops + 1) } }).setPort p
      { s.port p with rx := some { r with stage := .forwarding false } }, false) := by
  have refused : ¬ ((s.port p.partner).up && decide (Config.maxFrame + bufferOccupancy (s.port p.partner) ≤
      Config.bufferBytes)) = true := fun taken => h (by
    rw [Bool.and_eq_true, decide_eq_true_iff] at taken
    exact taken)
  rw [forwardArriving, admitFrame]
  simp only [refused, Bool.false_eq_true, if_false, setRx, State.count, port_partner_setPort]
  rfl

/-- At the port it comes from, the frame is only put to its stage. -/
theorem reception_forwardArriving : (forwardArriving p r ready s).1.reception p = { s.reception p with
    rx := some { r with stage := .forwarding (forwardArriving p r ready s).2 } } := by
  by_cases h : Admitted s p.partner
  · rw [forwardArriving_admitted r ready h]
    exact reception_setPort_same ..
  · rw [forwardArriving_refused r ready h]
    exact reception_setPort_same ..

end

theorem admitted_openMark (p : Port) (index : Nat) (e : MatchEntry) (ingress : Date) (s : State) :
    Admitted (openMark p index e ingress s) p.partner ↔ Admitted s p.partner := by
  have up := congrArg Reception.up (reception_openMark_ne p index e ingress s (Port.partner_ne p))
  have bytes := occupancy_openMark p index e ingress s p.partner
  simp only [State.reception, PortUnit.reception, State.occupancy] at up bytes
  rw [Admitted, Admitted, up, bytes]

theorem exec_lookupPoint {p : Port} {more : List Byte} {ended : Bool} {s : State} {r : Rx} (run : s.run ≠ .held)
    (up : (s.port p).up = true) (rx : (s.port p).rx = some r) (stage : r.stage = .parsing)
    (reached : lookupReached (r.bytes ++ more) ended = true) :
    exec (.lookupPoint p more ended) s = .next (lookupFrame p (r.grow more) ended s) := by
  simp only [exec, execLookupPoint, rx]
  exact congrArg _ (if_pos ⟨portLive_of run up, stage, reached⟩)

/-- The outcome of a claim at the lookup (R132, R137). -/
theorem ctx_markFrame (p : Port) (r : Rx) (index : Nat) (e : MatchEntry) (s : State) :
    let c := openContext index e r.ingress (buildStamp s e r.ingress (issueDate s.clock.lastStamp r.ingress))
    (Admitted s p.partner → ((markFrame p r index e s).port p).ctx =
      some { c with outcome := if c.outcome = .pending ∧ stampArrived c r.bytes = true then .written else c.outcome }) ∧
    (¬ Admitted s p.partner → ((markFrame p r index e s).port p).ctx = some { c with outcome := .unstamped }) := by
  intro c
  have opened : ((openMark p index e r.ingress s).port p).ctx = some c :=
    congrArg Reception.ctx (reception_openMark p index e r.ingress s)
  have arriving := congrArg Reception.ctx
    (reception_forwardArriving (p := p) (s := openMark p index e r.ingress s) r (e.logMode == .logOnly))
  have held := arriving.trans opened
  refine ⟨fun h => ?_, fun h => ?_⟩
  · have taken : (forwardArriving p r (e.logMode == .logOnly) (openMark p index e r.ingress s)).2 = true := by
      rw [forwardArriving_admitted _ _ ((admitted_openMark ..).mpr h)]
    simp only [markFrame, taken, if_true]
    rw [ctx_of_reception (reception_arbitrate ..), settleArrived_some held]
    split
    case isTrue now =>
      rw [ctx_of_reception (reception_writeStampNow ..), settleStamp_written held now.1, port_setPort_same]
    case isFalse => exact held
  · have refused : (forwardArriving p r (e.logMode == .logOnly) (openMark p index e r.ingress s)).2 = false := by
      rw [forwardArriving_refused _ _ (mt (admitted_openMark ..).mp h)]
    simp only [markFrame, refused, Bool.false_eq_true, if_false, loseStamp]
    by_cases pending : c.outcome = .pending
    · rw [settleStamp_unstamped held pending, port_setPort_same]
    · rw [settleStamp_settled held pending]
      have unstamped : c.outcome = .unstamped := by
        simp only [c, openContext] at pending ⊢
        split at pending <;> simp_all
      exact held.trans (by rw [← unstamped])

theorem clock_markFrame (p : Port) (r : Rx) (index : Nat) (e : MatchEntry) (s : State) :
    (markFrame p r index e s).clock = (openMark p index e r.ingress s).clock := by
  simp only [markFrame]
  split <;> simp

theorem frozen_markFrame (p : Port) (r : Rx) (index : Nat) (e : MatchEntry) (s : State) :
    (markFrame p r index e s).frozen = (openMark p index e r.ingress s).frozen := by
  simp only [markFrame]
  split <;> simp

theorem lookupFrame_mark {p : Port} {r : Rx} {ended : Bool} {s : State} {i : Nat} {e : MatchEntry}
    (loading : r.loading = false) (found : lookup s p (beforeFcs ended r.bytes) = .mark i e) :
    lookupFrame p r ended s = markFrame p r i e s := by
  simp only [lookupFrame, loading, Bool.false_eq_true, if_false, found]

theorem buildStamp_eq (s : State) (e : MatchEntry) (ingress : Date) (issued : SN) : buildStamp s e ingress issued =
    { s := issued.s, n := issued.n, cls := s.engineClass, domain := e.domain
      doubt := decide (3 ≤ s.engineClass) || s.servo.catchDown
      catchDown := s.servo.catchDown
      floor := decide (s.engineClass = s.floor ∧ s.servoClass < s.floor)
      pushed := decide ((SN.mk ingress.s (ingress.n - ingress.n % 2)).ns < issued.ns)
      noLog := decide (e.logMode = .stampOnly) } := by
  have floor : (s.engineClass == s.floor && decide (s.servoClass < s.floor)) =
      decide (s.engineClass = s.floor ∧ s.servoClass < s.floor) := Bool.eq_iff_iff.mpr (by simp)
  have silent : (e.logMode == .stampOnly) = decide (e.logMode = .stampOnly) := Bool.eq_iff_iff.mpr (by simp)
  rw [buildStamp, floor, silent]
  rfl

/-- Settles O29, by the claim, its admission to the buffer and its log mode. -/
theorem aStorageMarkClaimsItsStamp : Obligations.AStorageMarkClaimsItsStamp := by
  intro p more ended s r i e run up rx stage loading reached found bytes issued admitted
  have marked : lookupFrame p (r.grow more) ended s = markFrame p (r.grow more) i e s := lookupFrame_mark loading found
  obtain ⟨taken, refused⟩ := ctx_markFrame p (r.grow more) i e s
  obtain ⟨freezes, stays⟩ := frozen_openMark p i e r.ingress s
  have anchor := anchor_openMark p i e r.ingress s
  have clock := clock_markFrame p (r.grow more) i e s
  have frozen := frozen_markFrame p (r.grow more) i e s
  have arrived (c : DatingCtx) (h : c.stampOffset = e.stampOffset) : stampArrived c (r.grow more).bytes = true ↔
      frameHeader bytes + e.stampOffset + 16 ≤ bytes.length := by rw [stampArrived_iff, h]; rfl
  have outcome : ∃ c, ((markFrame p (r.grow more) i e s).port p).ctx = some c ∧
      c = { openContext i e r.ingress (buildStamp s e r.ingress issued) with outcome := c.outcome } ∧
      (e.logMode = .logOnly → c.outcome = .unstamped) ∧
      (e.logMode ≠ .logOnly → ¬ admitted → c.outcome = .unstamped) ∧
      (e.logMode ≠ .logOnly → admitted →
        c.outcome = if frameHeader bytes + e.stampOffset + 16 ≤ bytes.length then .written else .pending) := by
    by_cases h : admitted
    · refine ⟨_, taken h, rfl, fun mode => ?_, fun _ no => absurd h no, fun mode _ => ?_⟩
      · simp [openContext, mode]
      · simp only [openContext, mode, if_false, true_and]
        exact if_congr (arrived _ rfl) rfl rfl
    · exact ⟨_, refused h, rfl, fun _ => rfl, fun _ _ => rfl, fun _ yes => absurd yes h⟩
  obtain ⟨c, ctx, eq, only, lost, written⟩ := outcome
  refine ⟨markFrame p (r.grow more) i e s, c, ?_, ?_, ?_, ?_, ctx, ?_, only, lost, written, ?_, ?_, by simp, by simp, by simp⟩
  · rw [exec_lookupPoint run up rx stage reached, marked]
  · rw [clock]
    exact lastStamp_openMark p i e r.ingress s
  · rw [clock]
    exact (anchor_date anchor).trans rfl
  · rw [clock]
    exact inc_openMark p i e r.ingress s
  · rw [buildStamp_eq] at eq
    exact eq
  · rw [frozen]
    exact freezes
  · rw [frozen]
    exact stays

end Sys2Proof.Machine
end

section
/-! LOOKUP_POINT: when it comes, what a lookup gives, and where a frame that passes goes (R99, R103 to R111, R116, R124). -/

namespace Sys2Proof.Machine

/-! ### Header and lookup point -/

theorem tagOf_isSome (bytes : List Byte) : (tagOf bytes).isSome = true ↔ natAt bytes 12 2 = 0x8100 := by
  unfold tagOf
  split <;> simp_all

theorem frameHeader_eq (bytes : List Byte) : frameHeader bytes = if natAt bytes 12 2 = 0x8100 then 18 else 14 :=
  if_congr (tagOf_isSome bytes) rfl rfl

theorem lookupReached_iff (bytes : List Byte) (ended : Bool) : lookupReached bytes ended = true ↔ bytes.length ≤ 9216 ∧
    ((ended = true ∧ 64 ≤ bytes.length) ∨ (ended = false ∧ frameHeader bytes + 131 ≤ bytes.length)) := by
  cases ended <;> simp only [lookupReached, Bool.and_eq_true, decide_eq_true_eq, if_true, if_false, Bool.false_eq_true,
    reduceCtorEq, true_and, false_and, or_false, false_or] <;> exact Iff.rfl

/-- The bytes of the leaving frame that are still in the buffer (R116, log 5). -/
theorem leavingBytes_buffer (u : PortUnit) : leavingBytes u .buffer = match u.tx with
    | some ⟨.buffer, .forwarded f, _, sentHalf⟩ => f.arrived - sentHalf / 2
    | some ⟨.buffer, .originated _ bs, _, sentHalf⟩ => bs.length - sentHalf / 2
    | some ⟨.timing, _, _, _⟩ | some ⟨.general, _, _, _⟩ | none => 0 := by
  unfold leavingBytes
  cases u.tx with
  | none => rfl
  | some t =>
    obtain ⟨origin, body, egress, sent⟩ := t
    cases origin <;> cases body <;> simp

/-! ### The first matching entry -/

section
variable {p : Port} {bytes : List Byte}

theorem searchFrom_none {l : List MatchEntry} (h : ∀ e ∈ l, entryMatches e p bytes = false) (k : Nat) :
    searchFrom p bytes k l = none := by
  induction l generalizing k with
  | nil => rfl
  | cons e rest ih =>
    rw [searchFrom, if_neg (by simp [h e]), ih (fun e' he => h e' (List.mem_cons_of_mem _ he))]

theorem searchFrom_first {l : List MatchEntry} {i : Nat} (inside : i < l.length) (now : entryMatches l[i] p bytes = true)
    (before : ∀ j (h : j < i), entryMatches l[j] p bytes = false) (k : Nat) :
    searchFrom p bytes k l = some (k + i, l[i]) := by
  induction l generalizing i k with
  | nil => cases inside
  | cons e rest ih =>
    cases i with
    | zero => exact if_pos now
    | succ i =>
      have no : ¬ entryMatches e p bytes = true := by simpa using before 0 (Nat.zero_lt_succ i)
      rw [searchFrom, if_neg no, ih (Nat.lt_of_succ_lt_succ inside) now
        (fun j h => before (j + 1) (Nat.succ_lt_succ h)) (k + 1), Nat.add_right_comm, Nat.add_assoc]
      rfl

theorem searchBank_none {b : Vector MatchEntry 64} (h : ∀ i : Fin 64, entryMatches b[i] p bytes = false) :
    searchBank b p bytes = none := by
  refine searchFrom_none (fun e he => ?_) 0
  obtain ⟨i, hi, rfl⟩ := List.getElem_of_mem he
  simpa using h ⟨i, by simpa using hi⟩

theorem searchBank_first {b : Vector MatchEntry 64} {i : Fin 64} (now : entryMatches b[i] p bytes = true)
    (before : ∀ j : Fin 64, j < i → entryMatches b[j] p bytes = false) : searchBank b p bytes = some (i.val, b[i]) := by
  have first := searchFrom_first (p := p) (bytes := bytes) (l := b.toList) (i := i) (by simp) (by simpa using now)
    (fun j h => by simpa using before ⟨j, h.trans i.isLt⟩ h) 0
  simpa [searchBank] using first

end

/-! ### The conditions of an entry -/

/-- The conditions of an entry on a frame that arrived on a port (R105). -/
theorem entryMatches_iff (e : MatchEntry) (p : Port) (bytes : List Byte) : entryMatches e p bytes = true ↔
    e.valid = true ∧ e.ethertype.toNat = natAt bytes (frameHeader bytes - 2) 2 ∧
      (e.vlanKind = .any ∨ (e.vlanKind = .none ∧ ¬ natAt bytes 12 2 = 0x8100) ∨
        (e.vlanKind = .id ∧ natAt bytes 12 2 = 0x8100 ∧ natAt bytes 14 2 % 4096 = e.vlanId)) ∧
      e.ports.get p = true ∧
      (e.patPresent = true → frameHeader bytes + e.patOffset + 4 ≤ bytes.length ∧
        BitVec.ofNat 32 (natAt bytes (frameHeader bytes + e.patOffset) 4) &&& e.patMask = e.patValue &&& e.patMask) := by
  have vlan : vlanMatches e (tagOf bytes) = true ↔
      (e.vlanKind = .any ∨ (e.vlanKind = .none ∧ ¬ natAt bytes 12 2 = 0x8100) ∨
        (e.vlanKind = .id ∧ natAt bytes 12 2 = 0x8100 ∧ natAt bytes 14 2 % 4096 = e.vlanId)) := by
    unfold vlanMatches tagOf
    by_cases tagged : natAt bytes 12 2 = 0x8100 <;> cases e.vlanKind <;> simp [tagged, toNat_bitsAt]
  have pattern : patternMatches e bytes = true ↔
      (e.patPresent = true → frameHeader bytes + e.patOffset + 4 ≤ bytes.length ∧
        BitVec.ofNat 32 (natAt bytes (frameHeader bytes + e.patOffset) 4) &&& e.patMask = e.patValue &&& e.patMask) := by
    cases present : e.patPresent <;> simp [patternMatches, present, bitsAt]
  simp only [entryMatches, Bool.and_eq_true, beq_iff_eq, ethertypeOf, vlan, pattern, and_assoc]

/-! ### The further checks of UTX_UDP -/

theorem natAt_two (bytes : List Byte) (off : Nat) :
    natAt bytes off 2 = byteAt bytes off * 256 + byteAt bytes (off + 1) := by
  rw [natAt, slice_eq_map]
  simp [ofBe, byteAt, List.range_succ]

/-- The one's-complement sum of an IPv4 header without options, in words (R106). -/
theorem sum16_header (bytes : List Byte) (off : Nat) :
    sum16 (slice bytes off 20) = ((List.range 10).map (fun i => natAt bytes (off + 2 * i) 2)).sum := by
  rw [slice_eq_map]
  simp [List.range_succ, sum16, natAt_two, byteAt]

theorem fold16_full {x : Nat} (h : x ≠ 0) : fold16 x = 0xFFFF ↔ x % 65535 = 0 := by
  rw [fold16, if_neg h]
  omega

theorem udpChecks_iff (s : State) (bytes : List Byte) : udpChecks s bytes = true ↔
    (let payload := frameHeader bytes
    natAt bytes (payload - 2) 2 = 0x0800 ∧ byteAt bytes payload = 0x45 ∧
      ((List.range 10).map (fun i => natAt bytes (payload + 2 * i) 2)).sum % 65535 = 0 ∧
      natAt bytes (payload + 6) 2 % 16384 = 0 ∧ byteAt bytes (payload + 9) = 17 ∧
      (natAt bytes (payload + 22) 2 = s.cfg.utxPort.toNat ∨ natAt bytes (payload + 22) 2 = s.cfg.mgmtPort.toNat)) := by
  set payload := frameHeader bytes
  have sum (first : byteAt bytes payload = 0x45) : fold16 (sum16 (slice bytes payload 20)) = 0xFFFF ↔
      ((List.range 10).map (fun i => natAt bytes (payload + 2 * i) 2)).sum % 65535 = 0 := by
    rw [fold16_full, sum16_header]
    rw [sum16_header, List.range_succ_eq_map, List.map_cons, List.sum_cons, natAt_two, Nat.mul_zero, Nat.add_zero, first]
    omega
  simp only [udpChecks, Bool.and_eq_true, Bool.or_eq_true, beq_iff_eq, ethertypeOf, and_assoc]
  refine and_congr_right fun _ => and_congr_right fun first => ?_
  rw [← sum first]

/-! ### What a lookup gives -/

section
variable {s : State} {p : Port} {bytes : List Byte} {i : Nat} {e : MatchEntry}
  (found : searchBank s.matchTab.activeBank p bytes = some (i, e))
include found

theorem lookup_pass (action : e.action = .pass) : lookup s p bytes = .pass := by
  simp only [lookup, found, action]

theorem lookup_mark (action : e.action = .storageMark) : lookup s p bytes = .mark i e := by
  simp only [lookup, found, action]

theorem lookup_utxL2 (action : e.action = .utxL2) :
    lookup s p bytes = if ethertypeOf bytes = s.cfg.utxEther.toNat then .utxL2 else .pass := by
  simp only [lookup, found, action]

theorem lookup_utxUdp (action : e.action = .utxUdp) :
    lookup s p bytes = if udpChecks s bytes then udpHandling s bytes else .pass := by
  simp only [lookup, found, action]

end

theorem lookup_none {s : State} {p : Port} {bytes : List Byte} (h : searchBank s.matchTab.activeBank p bytes = none) :
    lookup s p bytes = .pass := by
  simp only [lookup, h]

/-- Where a frame that passed the checks of UTX_UDP goes: to a block if it is to the engine's address (R110). -/
theorem udpHandling_eq (s : State) (bytes : List Byte) : udpHandling s bytes =
    let payload := frameHeader bytes
    if natAt bytes (payload + 16) 4 = s.cfg.ip.toNat then
      .utxUdp (decide (natAt bytes (payload + 22) 2 = s.cfg.mgmtPort.toNat))
        (decide (natAt bytes (payload + 22) 2 = s.cfg.utxPort.toNat))
    else .pass := by
  have own : bitsAt 4 bytes (frameHeader bytes + 16) = s.cfg.ip ↔
      natAt bytes (frameHeader bytes + 16) 4 = s.cfg.ip.toNat := by
    rw [← toNat_bitsAt]
    exact ⟨congrArg _, BitVec.eq_of_toNat_eq⟩
  have beq_decide (m n : Nat) : (m == n) = decide (m = n) := Bool.eq_iff_iff.mpr (by simp)
  simp only [udpHandling, own, beq_decide]

/-! ### LOOKUP_POINT -/

theorem lookupFrame_pass {p : Port} {r : Rx} {ended : Bool} {s : State}
    (h : r.loading = true ∨ lookup s p (beforeFcs ended r.bytes) = .pass) : lookupFrame p r ended s = passFrame p r s := by
  cases loading : r.loading
  · have pass : lookup s p (beforeFcs ended r.bytes) = .pass := by simpa [loading] using h
    simp only [lookupFrame, loading, Bool.false_eq_true, if_false, pass]
  · simp only [lookupFrame, loading, if_true]

theorem lookupFrame_l2 {p : Port} {r : Rx} {ended : Bool} {s : State} (loading : r.loading = false)
    (found : lookup s p (beforeFcs ended r.bytes) = .utxL2) :
    lookupFrame p r ended s = setRx p (some { r with stage := .storingL2 }) s := by
  simp only [lookupFrame, loading, Bool.false_eq_true, if_false, found]

theorem lookupFrame_udp {p : Port} {r : Rx} {ended : Bool} {s : State} {mgmt utx : Bool} (loading : r.loading = false)
    (found : lookup s p (beforeFcs ended r.bytes) = .utxUdp mgmt utx) : lookupFrame p r ended s =
      setRx p (some { r with stage := .storingUdp mgmt utx (s.portRec p).privilege }) s := by
  simp only [lookupFrame, loading, Bool.false_eq_true, if_false, found]

theorem exec_lookupPoint_left {p : Port} {more : List Byte} {ended : Bool} {s : State} {r : Rx}
    (rx : (s.port p).rx = some r) (h : r.stage ≠ .parsing ∨ lookupReached (r.bytes ++ more) ended = false) :
    exec (.lookupPoint p more ended) s = .next s := by
  simp only [exec, execLookupPoint, rx]
  refine congrArg _ (if_neg ?_)
  rintro ⟨-, stage, reached⟩
  rcases h with h | h
  · exact h stage
  · exact absurd reached (Bool.eq_false_iff.mp h)

/-- Settles O28, by the parts of a lookup and where it sends the frame. -/
theorem theLookupSendsAFrameItsWay : Obligations.TheLookupSendsAFrameItsWay := by
  refine ⟨fun bytes ended => ⟨frameHeader_eq bytes, lookupReached_iff bytes ended⟩, fun u => ?_, fun s p bytes => ?_,
    fun p more ended s r run up rx => ⟨fun stage reached => ⟨fun h => ?_, fun loading found => ?_,
      fun loading mgmt utx found => ?_⟩, exec_lookupPoint_left rx⟩⟩
  · rw [bufferOccupancy, leavingBytes_buffer]
    rfl
  · intro tagged payload ethertype bank onPort meets words udpPort udp own
    have header : frameHeader bytes = payload := frameHeader_eq bytes
    have met (e : MatchEntry) : entryMatches e p bytes = true ↔ meets e := by
      have port : e.ports.get p = onPort e := by cases p <;> rfl
      rw [entryMatches_iff, header, port]
    have unmet (e : MatchEntry) : entryMatches e p bytes = false ↔ ¬ meets e := by
      rw [← met, Bool.not_eq_true]
    have checks : udpChecks s bytes = true ↔ udp := by rw [udpChecks_iff, header]
    refine ⟨fun none => lookup_none (searchBank_none fun i => (unmet _).mpr (none i)), fun i now before => ?_⟩
    have found : searchBank s.matchTab.activeBank p bytes = some (i.val, bank[i]) :=
      searchBank_first ((met _).mpr now) fun j h => (unmet _).mpr (before j h)
    refine ⟨lookup_pass found, lookup_mark found, fun action => ?_, fun action => ⟨fun yes mine => ?_, fun no => ?_⟩⟩
    · rw [lookup_utxL2 found action, ethertypeOf, header]
    · rw [lookup_utxUdp found action, if_pos (checks.mpr yes), udpHandling_eq, header]
      exact if_pos mine
    · rw [lookup_utxUdp found action]
      split
      case isTrue yes =>
        rw [udpHandling_eq, header]
        exact if_neg (no.resolve_left (not_not.mpr (checks.mp yes)))
      case isFalse => rfl
  · have passed : exec (.lookupPoint p more ended) s = .next (passFrame p (r.grow more) s) := by
      rw [exec_lookupPoint run up rx stage reached, lookupFrame_pass h]
    rw [passed, passFrame]
    refine ⟨fun h => ?_, fun h => ?_⟩
    · rw [forwardArriving_admitted _ _ h]
      rfl
    · rw [forwardArriving_refused _ _ h]
      rfl
  · rw [exec_lookupPoint run up rx stage reached, lookupFrame_l2 (r := r.grow more) loading found]
    rfl
  · rw [exec_lookupPoint run up rx stage reached, lookupFrame_udp (r := r.grow more) loading found]
    rfl

end Sys2Proof.Machine
end

section
/-! Alerts (R120, R191 to R193): their carriage, their bytes, and when they leave. -/

namespace Sys2Proof.Machine

/-! ### The one's-complement sum of fields -/

theorem be_two (v : Nat) : be 2 v = [BitVec.ofNat 8 (v / 256), BitVec.ofNat 8 v] := rfl

theorem be_four (v : Nat) : be 4 v = be 2 (v / 65536) ++ be 2 v := by
  rw [be, be, be_two v, Nat.div_div_eq_div_mul, List.append_assoc]
  rfl

theorem sum16_be_two (v : Nat) (rest : List Byte) : sum16 (be 2 v ++ rest) = v % 65536 + sum16 rest := by
  rw [be_two, List.cons_append, List.cons_append, List.nil_append, sum16, BitVec.toNat_ofNat, BitVec.toNat_ofNat]
  omega

theorem sum16_be_four (v : Nat) (rest : List Byte) :
    sum16 (be 4 v ++ rest) = v / 65536 % 65536 + v % 65536 + sum16 rest := by
  rw [be_four, List.append_assoc, sum16_be_two, sum16_be_two, add_assoc]

/-- A sum and the complement of its fold add to a multiple of 65,535 (R120). -/
theorem fold16_complement {x : Nat} (h : x ≠ 0) : 65535 - fold16 x < 65535 ∧ (x + (65535 - fold16 x)) % 65535 = 0 := by
  rw [fold16, if_neg h]
  omega

/-! ### The UDP carriage -/

/-- The words of an IPv4 header but its checksum (R120). -/
def headerWords (src dst : BitVec 32) (len : Nat) : Nat :=
  0x4500 + (28 + len) % 65536 + 0x4000 + 0x4011 + src.toNat / 65536 + src.toNat % 65536 + dst.toNat / 65536 +
    dst.toNat % 65536

theorem sum16_ipv4 (src dst : BitVec 32) (len : Nat) :
    sum16 (be 1 0x45 ++ be 1 0 ++ be 2 (28 + len) ++ be 2 0 ++ be 2 0x4000 ++ be 1 64 ++ be 1 17 ++
      (be 4 src.toNat ++ be 4 dst.toNat)) = headerWords src dst len := by
  have hs := src.isLt
  have hd := dst.isLt
  have first : be 1 0x45 ++ be 1 0 = be 2 0x4500 := by decide
  have protocol : be 1 64 ++ be 1 17 = be 2 0x4011 := by decide
  rw [first, List.append_assoc _ (be 1 64), protocol]
  simp only [List.append_assoc]
  rw [← List.append_nil (be 4 dst.toNat)]
  simp only [List.append_assoc, sum16_be_two, sum16_be_four, sum16, headerWords]
  omega

theorem ipv4Header_eq (src dst : BitVec 32) (len : Nat) : ∃ sum, sum < 65535 ∧
    (headerWords src dst len + sum) % 65535 = 0 ∧
    ipv4Header src dst len = [[0x45, 0], be 2 (28 + len), be 2 0, [0x40, 0], [64, 17], be 2 sum, be 4 src.toNat,
      be 4 dst.toNat].flatten := by
  have some_ : headerWords src dst len ≠ 0 := by rw [headerWords]; omega
  obtain ⟨low, whole⟩ := fold16_complement some_
  refine ⟨_, low, whole, ?_⟩
  rw [← sum16_ipv4 src dst len]
  simp only [ipv4Header, beBits, List.flatten_cons, List.flatten_nil, List.append_nil, List.append_assoc]
  rfl

theorem udpFrame_eq (s : State) (mac : BitVec 48) (tag : Option (BitVec 16)) (ip : BitVec 32) (source target : BitVec 16)
    (utx : List Byte) : ∃ sum, sum < 65535 ∧ (headerWords s.cfg.ip ip utx.length + sum) % 65535 = 0 ∧
      udpFrame s mac tag ip source target utx = padFrame ([be 6 mac.toNat, be 6 s.cfg.mac.toNat,
        (match tag with | some t => [0x81, 0x00] ++ be 2 t.toNat | none => []), [0x08, 0x00], [0x45, 0],
        be 2 (28 + utx.length), be 2 0, [0x40, 0], [64, 17], be 2 sum, be 4 s.cfg.ip.toNat, be 4 ip.toNat,
        be 2 source.toNat, be 2 target.toNat, be 2 (8 + utx.length), be 2 0, utx].flatten) := by
  obtain ⟨sum, low, whole, header⟩ := ipv4Header_eq s.cfg.ip ip utx.length
  refine ⟨sum, low, whole, ?_⟩
  rw [udpFrame, header]
  simp only [ethHeader, beBits, List.flatten_cons, List.flatten_nil, List.append_nil, List.append_assoc]
  cases tag <;> rfl

/-! ### An alert's bytes -/

theorem subjectBytes_eq (subject : Subject) : subjectBytes subject = match subject with
    | .self => be 5 0
    | .port p => be 1 1 ++ be 4 (match p with | .u0 => 0 | .u1 => 1 | .d0 => 2 | .d1 => 3)
    | .peer rack => be 1 2 ++ be 4 rack.toNat := by
  cases subject with
  | self => rfl
  | port p => cases p <;> rfl
  | peer rack => rfl

theorem alertForm_code (a : AlertForm) : a.ix.val = match a with
    | .fault .sourceLost => 0 | .fault .holdoverExpired => 1 | .fault .freqImplausible => 2 | .fault .selfDrift => 3
    | .fault .peerDrift => 4 | .fault .logFull => 5 | .fault .linkDown => 6 | .fault .settingsFault => 7
    | .fault .memoryFault => 8 | .logLevel => 9 := by
  cases a with
  | fault k => cases k <;> rfl
  | logLevel => rfl

theorem response_rank (r : Response) : r.rank = match r with | .note => 0 | .alert => 1 | .demote => 2 | .hold => 3 := by
  cases r <;> rfl

/-! ### An alert event -/

theorem suppressAlert_eq (a : AlertForm) (s : State) :
    suppressAlert a s = s.setForm a { s.form a with suppressed := min 65535 ((s.form a).suppressed + 1) } := rfl

theorem alertUplink_none {s : State} (u0 : (s.port .u0).up = false) (u1 : (s.port .u1).up = false) :
    alertUplink s = none := by
  simp [alertUplink, u0, u1]

theorem alertUplink_some {s : State} {p : Port} (h : p = .u0 ∨ (p = .u1 ∧ (s.port .u0).up = false))
    (up : (s.port p).up = true) : alertUplink s = some p := by
  rcases h with rfl | ⟨rfl, u0⟩
  · simp [alertUplink, up]
  · simp [alertUplink, u0, up]

section
variable {a : AlertForm} {s : State} (clear : Bool) (subject : Subject) (d : AlertData)

theorem alertEvent_suppressed (h : (s.form a).holdoff ≠ none ∨ s.cfg.collIp = 0 ∨
    ((s.port .u0).up = false ∧ (s.port .u1).up = false)) : alertEvent a clear subject d s = suppressAlert a s := by
  unfold alertEvent
  split
  case isTrue => rfl
  case isFalse held =>
    split
    case isTrue => rfl
    case isFalse collector =>
      have free : (s.form a).holdoff = none := by simpa using held
      obtain ⟨u0, u1⟩ := (h.resolve_left (not_not.mpr free)).resolve_left collector
      simp only [alertUplink_none u0 u1]

/-- An alert that is built is offered to the uplink's general queue (R191, R192). -/
theorem alertEvent_built (free : (s.form a).holdoff = none) (collector : s.cfg.collIp ≠ 0) {p : Port}
    (uplink : alertUplink s = some p) : alertEvent a clear subject d s =
      let out := offerGeneral p .alert 42 (alertFrame s (s.portRec p).gateway a clear subject d) s
      if out.2 then arbitrate p (out.1.setForm a ⟨some (s.clock.up + s.cfg.alertHoldoff * 250000000), 0⟩)
      else suppressAlert a out.1 := by
  have held : ¬ (s.form a).holdoff.isSome = true := by simp [free]
  simp only [alertEvent, if_neg held, if_neg collector, uplink]
  rfl

end

/-! ### The end of a holdoff -/

theorem ofIndex_ix (a : AlertForm) : AlertForm.ofIndex a.ix.val = some a := by
  cases a with
  | fault k => cases k <;> rfl
  | logLevel => rfl

theorem ofIndex_none {form : Nat} (h : 9 < form) : AlertForm.ofIndex form = none := by
  rw [AlertForm.ofIndex, if_neg (by omega), FaultKind.ofIndex, List.getElem?_eq_none (by simp [faultKinds]; omega)]
  rfl

/-- The presence bits of a fault are both or neither, so each kind of form is a case. -/
theorem alertFrame_eq (s : State) (gateway : BitVec 48) (a : AlertForm) (clear : Bool) (subject : Subject) (d : AlertData) :
    let isFault := match a with
      | .fault _ => true
      | .logLevel => false
    let presence := (if d.offset.isSome then 1 else 0) +
      (match d.drift with | some (some _) => 2 | some none => 4 | none => 0) + (if isFault then 24 else 0)
    alertFrame s gateway a clear subject d = udpFrame s gateway none s.cfg.collIp s.cfg.utxPort s.cfg.collPort
      [[1, 7], be 2 36, be 8 s.cfg.engineId.toNat,
       be 1 (match a with
         | .fault .sourceLost => 0 | .fault .holdoverExpired => 1 | .fault .freqImplausible => 2 | .fault .selfDrift => 3
         | .fault .peerDrift => 4 | .fault .logFull => 5 | .fault .linkDown => 6 | .fault .settingsFault => 7
         | .fault .memoryFault => 8 | .logLevel => 9),
       be 1 (if clear then 1 else 0),
       (match subject with
         | .self => be 5 0
         | .port p => be 1 1 ++ be 4 (match p with | .u0 => 0 | .u1 => 1 | .d0 => 2 | .d1 => 3)
         | .peer rack => be 1 2 ++ be 4 rack.toNat),
       be 1 presence, beInt 8 (d.offset.getD 0), beInt 4 ((d.drift.getD none).getD 0),
       be 1 (match a with
         | .fault k => (match s.response k with | .note => 0 | .alert => 1 | .demote => 2 | .hold => 3)
         | .logLevel => 0),
       beSat 1 (match a with | .fault k => (s.fault k).count | .logLevel => 0),
       beSat 6 s.clock.date.s, beSat 4 s.clock.date.n, beSat 1 s.engineClass, beSat 2 (s.form a).suppressed, [0]].flatten := by
  have header : ∀ id, utxHeader 7 36 id = [1, 7] ++ be 2 36 ++ be 8 id.toNat := fun _ => rfl
  have cleared : flag clear = be 1 (if clear then 1 else 0) := by cases clear <;> rfl
  have last : be 1 0 = [0] := rfl
  intro isFault presence
  unfold alertFrame
  simp only [header, cleared, last, subjectBytes_eq, alertForm_code, snBytes, List.flatten_cons, List.flatten_nil,
    List.append_nil, List.append_assoc]
  cases a with
  | logLevel => rfl
  | fault k =>
    simp only [alertKind, Option.map_some, Option.getD_some, response_rank]
    rfl

/-- Settles O44, by holdoff, collector, uplink and general queue. -/
theorem alertsLeaveOncePerHoldoff : Obligations.AlertsLeaveOncePerHoldoff := by
  refine ⟨fun s mac tag ip source target utx => ?_, fun s gateway a clear subject d => ?_,
    fun a clear subject d s => ⟨fun h => alertEvent_suppressed clear subject d h, fun free collector p h up => ⟨fun room => ?_,
      fun full => ?_⟩⟩,
    fun form s => ⟨fun a t index held over_ => ?_, fun h => ?_⟩, ofIndex_ix, fun form => ofIndex_none⟩
  · obtain ⟨sum, low, whole, frame⟩ := udpFrame_eq s mac tag ip source target utx
    rw [headerWords] at whole
    exact ⟨sum, low, by omega, frame⟩
  · exact alertFrame_eq s gateway a clear subject d
  · rw [alertEvent_built clear subject d free collector (alertUplink_some h up)]
    simp only [offerGeneral_taken _ _ _ up room, if_true]
  · rw [alertEvent_built clear subject d free collector (alertUplink_some h up)]
    simp only [offerGeneral_refused _ _ _ (.inr full), Bool.false_eq_true, if_false]
    rfl
  · simp only [exec, execAlertHoldoffExpiry, index]
    exact congrArg _ (if_pos (by rw [holdoffOver, held]; exact decide_eq_true over_))
  · cases index : AlertForm.ofIndex form with
    | none => simp only [exec, execAlertHoldoffExpiry, index]
    | some a =>
      simp only [exec, execAlertHoldoffExpiry, index]
      refine congrArg _ (if_neg fun over_ => ?_)
      cases held : (s.form a).holdoff with
      | none => simp [holdoffOver, held] at over_
      | some t =>
        simp only [holdoffOver, held, decide_eq_true_eq] at over_
        exact absurd over_ (not_le.mpr (h a t index held))

end Sys2Proof.Machine
end

section
/-! Reports to peers and reports received (R164 to R172). -/

namespace Sys2Proof.Machine

/-! ### The bytes of a report -/

theorem reportFrame_eq (s : State) (gateway : BitVec 48) (ip : BitVec 32) (pair : Option (SN × SN)) :
    reportFrame s gateway ip pair = udpFrame s gateway none ip s.cfg.utxPort s.cfg.utxPort
      ([1, 4] ++ be 2 (if pair.isSome then 46 else 26) ++ be 8 s.cfg.engineId.toNat ++ be 4 s.cfg.rackId.toNat ++
        be 10 0 ++ [0, 0] ++ be 8 0 ++ (match pair with
          | some (sent, received) => [1, 0] ++ beSat 6 sent.s ++ beSat 4 sent.n ++ beSat 6 received.s ++ beSat 4 received.n
          | none => [0, 0])) := by
  cases pair with
  | none => simp [reportFrame, utxHeader, beBits]
  | some dates => simp [reportFrame, utxHeader, beBits, snBytes]

/-! ### The slots -/

theorem slotDue_iff {s : State} {i : Nat} : slotDue s i = true ↔ ∃ sch, s.drift.sched = some sch ∧ s.run = .running ∧
    sch.next = i ∧ sch.start + i * (intervalPeriods s.cfg.drift.k / 32) ≤ s.clock.up := by
  unfold slotDue
  cases s.drift.sched with
  | none => simp
  | some sch =>
    simp only [Bool.and_eq_true, beq_iff_eq, decide_eq_true_eq, and_assoc, Option.some.injEq, exists_eq_left']
    rfl

theorem nextSlot_eq {s : State} {sch : Sched} (h : s.drift.sched = some sch) : nextSlot s = { s with drift := { s.drift with
    sched := some (if sch.next < 31 then ⟨sch.start, sch.next + 1⟩
      else ⟨sch.start + intervalPeriods s.cfg.drift.k, 0⟩) } } := by
  simp only [nextSlot, h]
  rfl

/-- With a schedule of a state changed, nothing that a report reads has changed. -/
theorem sendReport_notSent {i : Nat} {s : State} (up : (s.port (s.peerCfg i).preferred).up = false)
    (other : (s.port (otherUplink (s.peerCfg i).preferred)).up = false) : sendReport i s =
      s.setPeer i { s.peer i with notSent := min 4294967295 ((s.peer i).notSent + 1) } := by
  simp only [sendReport, reportUplink, up, other, Bool.false_eq_true, if_false]
  rfl

theorem reportUplink_some {s : State} {preferred p : Port}
    (h : p = preferred ∨ (p = otherUplink preferred ∧ (s.port preferred).up = false)) (up : (s.port p).up = true) :
    reportUplink s preferred = some p := by
  rcases h with rfl | ⟨rfl, down⟩
  · simp [reportUplink, up]
  · simp [reportUplink, up, down]

theorem sendReport_taken {i : Nat} {s : State} {p : Port}
    (h : p = (s.peerCfg i).preferred ∨ (p = otherUplink (s.peerCfg i).preferred ∧ (s.port (s.peerCfg i).preferred).up = false))
    (up : (s.port p).up = true) (room : timingHeld (s.port p) < 8) : sendReport i s = arbitrate p
      ((s.setPeer i { s.peer i with sent := min 4294967295 ((s.peer i).sent + 1) }).setPort p { s.port p with
        timing := (s.port p).timing ++ [⟨.report i (s.peerCfg i).rack (s.peerCfg i).ip, 42,
          reportFrame s (s.portRec p).gateway (s.peerCfg i).ip (s.peer i).pair, s.clock.up⟩] }) := by
  simp only [sendReport, reportUplink_some h up, offerTiming_taken _ _ _ up room, if_true]
  rfl

theorem sendReport_refused {i : Nat} {s : State} {p : Port}
    (h : p = (s.peerCfg i).preferred ∨ (p = otherUplink (s.peerCfg i).preferred ∧ (s.port (s.peerCfg i).preferred).up = false))
    (up : (s.port p).up = true) (full : 8 ≤ timingHeld (s.port p)) : sendReport i s =
      (s.setPeer i { s.peer i with notSent := min 4294967295 ((s.peer i).notSent + 1) }).setPort p { s.port p with
        stats := { (s.port p).stats with timingDrops := min 4294967295 ((s.port p).stats.timingDrops + 1) } } := by
  simp only [sendReport, reportUplink_some h up, offerTiming_refused _ _ _ (.inr full), Bool.false_eq_true, if_false]
  rfl

theorem peerSilentDue_iff {s : State} {i : Nat} : peerSilentDue s i = true ↔ (s.peerCfg i).enabled = true ∧
    ((s.peer i).st = .learning ∨ (s.peer i).st = .active) ∧
    ∃ t, (s.peer i).heardAt = some t ∧ t + 4 * intervalPeriods s.cfg.drift.k ≤ s.clock.up := by
  simp only [peerSilentDue, Bool.and_eq_true, Bool.or_eq_true, beq_iff_eq, and_assoc]
  refine and_congr_right fun _ => and_congr_right fun _ => ?_
  cases (s.peer i).heardAt with
  | none => simp
  | some t =>
    simp only [decide_eq_true_eq, Option.some.injEq, exists_eq_left']
    rfl

/-! ### A report received -/

/-- The lowest index that meets a condition is found. -/
theorem find_range {n i : Nat} {known : Nat → Bool} (h : i < n) (at_i : known i = true)
    (before : ∀ j, j < i → known j = false) : (List.range n).find? known = some i := by
  rw [List.find?_range_eq_some]
  exact ⟨at_i, List.mem_range.mpr h, fun j hj => by simp [before j hj]⟩

theorem bestSample_spec : ∀ w : List Sample, w ≠ [] → ∃ before best after, w = before ++ best :: after ∧
    (∀ y ∈ before, best.delta ≤ y.delta) ∧ (∀ y ∈ after, best.delta < y.delta) ∧ bestSample w = some best
  | [], h => absurd rfl h
  | [x], _ => ⟨[], x, [], by simp [bestSample]⟩
  | x :: z :: rest, _ => by
    obtain ⟨before, best, after, whole, le, lt, found⟩ := bestSample_spec (z :: rest) (by simp)
    rw [bestSample, found]
    by_cases smaller : x.delta < best.delta
    · refine ⟨[], x, z :: rest, rfl, by simp, fun y hy => ?_, by simp [smaller]⟩
      rw [whole] at hy
      rcases List.mem_append.mp hy with hy | hy
      · exact smaller.trans_le (le y hy)
      · rcases List.mem_cons.mp hy with rfl | hy
        · exact smaller
        · exact smaller.trans (lt y hy)
    · refine ⟨x :: before, best, after, by rw [whole]; rfl, fun y hy => ?_, lt, by simp [smaller]⟩
      rcases List.mem_cons.mp hy with rfl | hy
      · exact not_lt.mp smaller
      · exact le y hy

/-- The drift of a window whose newest sample is given. -/
theorem windowDrift_append (w : List Sample) (x : Sample) : windowDrift (w ++ [x]) =
    if 3 ≤ (w ++ [x]).length ∧ (4000000000 : Int) ≤ (x.t4.ns : Int) - ((w ++ [x]).headD x).t4.ns then
      some (max (-1000000) (min 1000000
        (((x.phi - ((w ++ [x]).headD x).phi) * 1000000000).tdiv ((x.t4.ns : Int) - ((w ++ [x]).headD x).t4.ns))))
    else none := by
  have span : ∀ old : SN, old.ns + 4000000000 ≤ x.t4.ns ↔ (4000000000 : Int) ≤ (x.t4.ns : Int) - old.ns := fun old => by omega
  have head : ∃ old, (w ++ [x]).head? = some old ∧ (w ++ [x]).headD x = old := by cases w <;> simp
  obtain ⟨old, first, firstOr⟩ := head
  simp only [windowDrift, first, firstOr, List.getLast?_concat, span, clampInt]

/-- An entry after an accepted report, before its echo part is read (R167, R172). -/
theorem hearReport_eq (d : PeerDyn) (w : Whole) : hearReport d w = { d with
    received := min 4294967295 (d.received + 1), pair := some (snAt w.utx 16, ⟨w.ingress.s, w.ingress.n⟩)
    reported := some ⟨w.utx.getD 26 0, w.utx.getD 27 0, bitsAt 8 w.utx 28⟩, lastPort := some w.port
    lastHeard := some (min (w.up / 250000000) 4294967295), heardAt := some w.up
    st := if d.st ≠ .silent then d.st else if 3 ≤ d.window.length then .active else .learning } := by
  unfold hearReport stateOfWindow
  by_cases silent : d.st = .silent
  · rw [if_pos silent, if_neg (not_not.mpr silent)]
    rfl
  · rw [if_neg silent, if_pos silent]
    rfl

theorem echoesSendDate_iff (d : PeerDyn) (t : SN) : echoesSendDate d t = true ↔ d.newer = some t ∨ d.older = some t := by
  simp [echoesSendDate]

theorem peerOffset_eq (t1 t2 t3 t4 : SN) : peerOffset t1 t2 t3 t4 = max (-2147483647) (min 2147483647
    ⌊((((t2.ns : Int) - t1.ns) + ((t3.ns : Int) - t4.ns) : Int) : Rat) / 2⌋) := by
  have half := Rat.floor_intCast_div_natCast (((t2.ns : Int) - t1.ns) + ((t3.ns : Int) - t4.ns)) 2
  rw [Nat.cast_ofNat] at half
  rw [half]
  rfl

section Echo

variable {limit : Nat} {d : PeerDyn} {utx : List Byte} {t4 : SN}

theorem takeEcho_none (h : byteAt utx 36 ≠ 1) : takeEcho limit d utx t4 = (d, false) := if_neg h

theorem takeEcho_unmatched (h : byteAt utx 36 = 1) (foreign : ¬ (d.newer = some (snAt utx 38) ∨ d.older = some (snAt utx 38))) :
    takeEcho limit d utx t4 = ({ d with unmatched := min 4294967295 (d.unmatched + 1) }, false) := by
  rw [← echoesSendDate_iff] at foreign
  simp only [takeEcho, h, foreign, if_true]
  rfl

theorem takeEcho_rejected (h : byteAt utx 36 = 1) (own : d.newer = some (snAt utx 38) ∨ d.older = some (snAt utx 38))
    (beyond : ¬ (0 ≤ roundTrip (snAt utx 38) (snAt utx 48) (snAt utx 16) t4 ∧
      roundTrip (snAt utx 38) (snAt utx 48) (snAt utx 16) t4 ≤ limit)) :
    takeEcho limit d utx t4 = ({ d with rejected := min 4294967295 (d.rejected + 1) }, false) := by
  rw [← echoesSendDate_iff] at own
  simp only [takeEcho, h, own, beyond, if_true]
  rfl

theorem takeEcho_sample (h : byteAt utx 36 = 1) (own : d.newer = some (snAt utx 38) ∨ d.older = some (snAt utx 38))
    (within : 0 ≤ roundTrip (snAt utx 38) (snAt utx 48) (snAt utx 16) t4 ∧
      roundTrip (snAt utx 38) (snAt utx 48) (snAt utx 16) t4 ≤ limit) :
    takeEcho limit d utx t4 = (acceptSample d ⟨t4, peerOffset (snAt utx 38) (snAt utx 48) (snAt utx 16) t4,
      roundTrip (snAt utx 38) (snAt utx 48) (snAt utx 16) t4⟩, true) := by
  rw [← echoesSendDate_iff] at own
  simp only [takeEcho, h, own, within, and_self, if_true]

end Echo

theorem acceptSample_spec (d : PeerDyn) (x : Sample) :
    let window := (if d.window.length < 8 then d.window else d.window.drop 1) ++ [x]
    ∃ before best after, window = before ++ best :: after ∧ (∀ y ∈ before, best.delta ≤ y.delta) ∧
      (∀ y ∈ after, best.delta < y.delta) ∧ acceptSample d x = { d with
        window := window, accepted := min 4294967295 (d.accepted + 1), best := some best.phi
        drift := if 3 ≤ window.length ∧ (4000000000 : Int) ≤ (x.t4.ns : Int) - (window.headD x).t4.ns then
          some (max (-1000000) (min 1000000
            (((x.phi - (window.headD x).phi) * 1000000000).tdiv ((x.t4.ns : Int) - (window.headD x).t4.ns)))) else none
        st := if d.st = .active ∨ 3 ≤ window.length then .active else .learning } := by
  intro window
  obtain ⟨before, best, after, whole, le, lt, found⟩ := bestSample_spec window (by simp [window])
  refine ⟨before, best, after, whole, le, lt, ?_⟩
  have pushed : pushWindow d.window x = window := pushWindow_eq _ _
  have st : (if d.st = .active then PeerState.active else stateOfWindow window) =
      if d.st = .active ∨ 3 ≤ window.length then .active else .learning := by
    unfold stateOfWindow
    split <;> simp_all
  have drift : windowDrift window = _ := windowDrift_append _ x
  simp only [acceptSample, pushed, found, st, drift, Option.map_some]
  rfl

theorem findPeer_some {s : State} {ip rack : BitVec 32} {i : Nat} (h : i < 32)
    (known : (s.peerCfg i).enabled = true ∧ (s.peerCfg i).ip = ip ∧ (s.peerCfg i).rack = rack)
    (before : ∀ j, j < i → ¬ ((s.peerCfg j).enabled = true ∧ (s.peerCfg j).ip = ip ∧ (s.peerCfg j).rack = rack)) :
    findPeer s ip rack = some i :=
  find_range h (by simp [known]) fun j hj => by
    have := before j hj
    simpa [and_assoc] using this

theorem findPeer_none {s : State} {ip rack : BitVec 32}
    (h : ∀ i, i < 32 → ¬ ((s.peerCfg i).enabled = true ∧ (s.peerCfg i).ip = ip ∧ (s.peerCfg i).rack = rack)) :
    findPeer s ip rack = none := by
  rw [findPeer, List.find?_eq_none]
  intro i hi
  have := h i (List.mem_range.mp hi)
  simpa [and_assoc] using this

/-- A report of a known peer: the echo part decides what the entry becomes and whether its window changed. -/
theorem reportReceived_known {w : Whole} {s : State} {i : Nat} {heard : PeerDyn} {e : PeerDyn × Bool}
    (found : findPeer s (bitsAt 4 w.bytes (w.header - 16)) (bitsAt 4 w.utx 12) = some i)
    (same : hearReport (s.peer i) w = heard) (echoed : takeEcho s.cfg.drift.roundTrip heard w.utx w.ingress.sn = e) :
    reportReceived w s = if (s.peer i).st = .silent ∨ e.2 = true then judgeRack (s.setPeer i e.1) else s.setPeer i e.1 := by
  simp only [reportReceived, found, same, echoed]

/-- Settles O45: the bytes of a report, the slot and the silence that are due, and a report received by what its echo part
finds. -/
theorem reportsLeaveInTheirSlotsAndPeersFallSilent : Obligations.ReportsLeaveInTheirSlotsAndPeersFallSilent := by
  refine ⟨fun s gateway ip pair => reportFrame_eq s gateway ip pair,
    fun i s => ⟨fun sch h running next due => ?slot, fun h => ?notDue, fun t on st h due => ?silent, fun h => ?heard⟩,
    fun w s => ⟨fun unknown => ?_, fun i hi known before => ?_⟩⟩
  case slot =>
    have isDue : slotDue s i = true := slotDue_iff.mpr ⟨sch, h, running, next, due⟩
    have taken : exec (.reportSlot i) s =
        .next (if (s.peerCfg i).enabled then sendReport i (nextSlot s) else nextSlot s) := by
      simp only [exec, execReportSlot, isDue, if_true]
    rw [taken, nextSlot_eq h, next]
    refine ⟨fun off => ?_, fun on up other => ?_, fun on p hp up => ⟨fun room => ?_, fun full => ?_⟩⟩
    · rw [if_neg (by simp [off])]
    · rw [if_pos on]
      exact congrArg _ (sendReport_notSent up other)
    · rw [if_pos on]
      exact congrArg _ (sendReport_taken hp up room)
    · rw [if_pos on]
      exact congrArg _ (sendReport_refused hp up full)
  case notDue =>
    refine congrArg _ (if_neg fun due => ?_)
    obtain ⟨sch, some_, running, next, now⟩ := slotDue_iff.mp due
    rcases h sch some_ with h | h | h
    · exact h running
    · exact h next
    · exact absurd now (not_le.mpr h)
  case silent => exact congrArg _ (if_pos (peerSilentDue_iff.mpr ⟨on, st, t, h, due⟩))
  case heard =>
    refine congrArg _ (if_neg fun due => ?_)
    obtain ⟨on, st, t, some_, now⟩ := peerSilentDue_iff.mp due
    rcases h with h | h | h | h
    · simp [h] at on
    · simp [h] at st
    · simp [h] at st
    · exact absurd now (not_le.mpr (h t some_))
  · simp only [reportReceived, findPeer_none unknown]
    rfl
  · intro d heard kept echoes matching within
    have same : hearReport d w = heard := hearReport_eq d w
    refine ⟨fun no => ?_, fun yes foreign => ?_, fun yes own beyond => ?_, fun yes own inside => ?_⟩
    · rw [reportReceived_known (findPeer_some hi known before) same (takeEcho_none no)]
      simp [kept, d]
    · rw [reportReceived_known (findPeer_some hi known before) same (takeEcho_unmatched yes foreign)]
      simp [kept, d, heard]
    · rw [reportReceived_known (findPeer_some hi known before) same (takeEcho_rejected yes own beyond)]
      simp [kept, d, heard]
    · have sample := takeEcho_sample (d := heard) (t4 := w.ingress.sn) yes own inside
      rw [peerOffset_eq] at sample
      have whole := reportReceived_known (e := (_, true)) (findPeer_some hi known before) same sample
      rw [if_pos (.inr rfl)] at whole
      obtain ⟨b, best, a, window, le, lt, eq⟩ := acceptSample_spec heard _
      exact ⟨b, best, a, window, le, lt, whole.trans (congrArg (fun e => judgeRack (s.setPeer i e)) eq)⟩

end Sys2Proof.Machine
end

section
/-! Beacons into the Source Table, and the silence of its entries (R40 to R44, R48). -/

namespace Sys2Proof.Machine

/-! ### The index of a beacon's entry -/

theorem sourceIndices_eq : sourceIndices = List.range 8 := rfl

section Places

variable {s : State} {p : Port} {sender : BitVec 64}

/-- Whether an entry is that of a key. -/
theorem isKey_iff (i : Nat) : (match s.source i with
    | some e => e.sender == sender && e.port == p
    | none => false) = true ↔ ∃ e, s.source i = some e ∧ e.sender = sender ∧ e.port = p := by
  cases s.source i <;> simp

theorem findSource_first {i : Nat} {e : SourceEntry} (h : s.source i = some e) (key : e.sender = sender ∧ e.port = p)
    (before : ∀ j, j < i → ¬ ∃ e, s.source j = some e ∧ e.sender = sender ∧ e.port = p) : findSource s p sender = some i :=
  find_range (source_lt h) ((isKey_iff i).mpr ⟨e, h, key⟩) fun j hj => Bool.eq_false_iff.mpr fun h => before j hj ((isKey_iff j).mp h)

theorem findSource_missing (h : ∀ j, ¬ ∃ e, s.source j = some e ∧ e.sender = sender ∧ e.port = p) :
    findSource s p sender = none :=
  List.find?_eq_none.mpr fun j _ found => h j ((isKey_iff j).mp found)

theorem freeSource_first {i : Nat} (h : i < 8) (free : s.source i = none) (before : ∀ j, j < i → s.source j ≠ none) :
    freeSource s = some i :=
  find_range h (by simp [free]) fun j hj => by simpa [Option.isSome_iff_ne_none] using before j hj

theorem freeSource_none (h : ∀ j, j < 8 → s.source j ≠ none) : freeSource s = none :=
  List.find?_eq_none.mpr fun j hj => by simpa using h j ((mem_sourceIndices j).mp hj)

/-- The longest-silent STALE entry, the lowest index of equals (R42). -/
def LongestSilent (s : State) (i : Nat) (e : SourceEntry) : Prop := s.source i = some e ∧ e.st = .stale ∧
  ∀ j e', s.source j = some e' → e'.st = .stale → e.heardAt ≤ e'.heardAt ∧ (e'.heardAt = e.heardAt → i ≤ j)

theorem foldl_longerStale_found {i : Nat} {e : SourceEntry} (h : LongestSilent s i e) (l : List Nat) :
    l.foldl (longerStale s) (some (i, e.heardAt)) = some (i, e.heardAt) := by
  obtain ⟨-, -, least⟩ := h
  induction l with
  | nil => rfl
  | cons j rest ih =>
    have kept : longerStale s (some (i, e.heardAt)) j = some (i, e.heardAt) := by
      unfold longerStale
      split
      case h_1 e' he' =>
        split
        · exact if_neg (not_lt.mpr (least j e' he' ‹_›).1)
        · rfl
      case h_2 => rfl
    rw [List.foldl_cons, kept, ih]

/-- On the way to the longest-silent STALE entry any other found so far has been heard later. -/
theorem foldl_longerStale {i : Nat} {e : SourceEntry} (h : LongestSilent s i e) : ∀ (l : List Nat) (best : Option (Nat × Nat)),
    l.Pairwise (· < ·) → i ∈ l → (∀ j t, best = some (j, t) → e.heardAt < t) →
    l.foldl (longerStale s) best = some (i, e.heardAt)
  | j :: rest, best, sorted, member, later => by
    obtain ⟨there, stale, least⟩ := h
    obtain ⟨below, sorted⟩ := List.pairwise_cons.mp sorted
    rw [List.foldl_cons]
    by_cases same : j = i
    · have found : longerStale s best j = some (i, e.heardAt) := by
        subst same
        simp only [longerStale, there, stale, if_true]
        cases best with
        | none => rfl
        | some b => exact if_pos (later b.1 b.2 rfl)
      rw [found]
      exact foldl_longerStale_found ⟨there, stale, least⟩ rest
    · have member : i ∈ rest := (List.mem_cons.mp member).resolve_left fun h => same h.symm
      refine foldl_longerStale ⟨there, stale, least⟩ rest _ sorted member fun k t found => ?_
      unfold longerStale at found
      split at found
      case h_1 e' he' =>
        split at found
        case isTrue stale' =>
          obtain ⟨le, first⟩ := least j e' he' stale'
          have lt : e.heardAt < e'.heardAt := le.lt_of_ne fun eq => absurd (first eq.symm) (not_le.mpr (below i member))
          cases best with
          | none => cases found; exact lt
          | some b =>
            dsimp only at found
            split at found
            · cases found; exact lt
            · exact later k t found
        case isFalse => exact later k t found
      case h_2 => exact later k t found

theorem replaceSource_longest {i : Nat} {e : SourceEntry} (h : LongestSilent s i e) : replaceSource s = some i := by
  rw [replaceSource, foldl_longerStale h sourceIndices none (by decide) ((mem_sourceIndices i).mpr (source_lt h.1))
    fun _ _ h => nomatch h]
  rfl

theorem replaceSource_none (h : ∀ j, j < 8 → ∃ e, s.source j = some e ∧ e.st ≠ .stale) : replaceSource s = none := by
  have none_ : ∀ l : List Nat, (∀ j ∈ l, j < 8) → l.foldl (longerStale s) none = none := by
    intro l
    induction l with
    | nil => intro _; rfl
    | cons j rest ih =>
      intro lt
      obtain ⟨e, he, st⟩ := h j (lt j List.mem_cons_self)
      rw [List.foldl_cons, longerStale]
      simp only [he, st, if_false]
      exact ih fun k hk => lt k (List.mem_cons_of_mem _ hk)
  rw [replaceSource, none_ sourceIndices fun j hj => (mem_sourceIndices j).mp hj]
  rfl

end Places

/-! ### A beacon taken -/

/-- Steps 2 and 3 of R48: the sample, where the beacon's entry is SELECTED. -/
theorem afterBeacon_selected {w : Whole} {i p : Nat} {a : Int} {old : Option (Nat × SourceEntry)} {s seen : State}
    {e : SourceEntry} (h : watchSecond (reevaluate old .lost (some i) s) = seen) (there : seen.source i = some e)
    (st : e.st = .selected) : afterBeacon w i p a old s =
      takeSample (sampleOf w e p a) (seen.setSource i (some { e with epochChanged := false })) := by
  simp only [afterBeacon, h, State.isSelected, there, st, beq_self_eq_true, if_true]

theorem afterBeacon_other {w : Whole} {i p : Nat} {a : Int} {old : Option (Nat × SourceEntry)} {s seen : State}
    (h : watchSecond (reevaluate old .lost (some i) s) = seen) (st : ∀ e, seen.source i = some e → e.st ≠ .selected) :
    afterBeacon w i p a old s = seen := by
  have no : seen.isSelected i = false := by
    unfold State.isSelected
    split
    case h_1 e there => simpa using st e there
    case h_2 => rfl
  simp only [afterBeacon, h, no, Bool.false_eq_true, if_false]

/-- A beacon's entry in its place: the re-evaluation, the SECOND line, and the sample of an entry that is SELECTED. -/
theorem afterBeacon_placed {w : Whole} {i p : Nat} {a : Int} {e : SourceEntry} {s t : State}
    (taken : t = afterBeacon w i p a s.selectedPair (s.setSource i (some e))) :
    let judged := reevaluate s.selectedPair .lost (some i) (s.setSource i (some e))
    let seen := if s.cfg.secLimit < judged.engineClass then
      { judged with clock := { judged.clock with secondEnd := none } } else judged
    ((∀ e', seen.source i = some e' → e'.st ≠ .selected) → t = seen) ∧
    (∀ e', seen.source i = some e' → e'.st = .selected →
      t = takeSample ⟨w.ingress, snAt w.utx 20, intAt w.utx 30 8, p, a, e'.k, e'.epochChanged⟩
        (seen.setSource i (some { e' with epochChanged := false }))) := by
  intro judged seen
  have cfg : judged.cfg = s.cfg := cfg_reevaluate _ _ _ _
  have watched : watchSecond judged = seen := by
    rw [watchSecond, cfg]
    rfl
  rw [taken]
  exact ⟨fun other => afterBeacon_other watched other, fun e' there st => afterBeacon_selected watched there st⟩

section Beacon

variable {w : Whole} {s : State} {i : Nat}

theorem beaconIntoTable_ignored (own : ¬ (bitsAt 8 w.utx 4 ≠ s.cfg.engineId ∧ bitsAt 8 w.utx 12 ≠ s.cfg.engineId)) :
    beaconIntoTable w s = s.count w.port Stats.incBeaconsIgnored :=
  if_pos (by rwa [← not_or, not_not] at own)

variable (foreign : bitsAt 8 w.utx 4 ≠ s.cfg.engineId ∧ bitsAt 8 w.utx 12 ≠ s.cfg.engineId)
include foreign

theorem beaconIntoTable_known {e : SourceEntry} (found : findSource s w.port (bitsAt 8 w.utx 4) = some i)
    (there : s.source i = some e) : beaconIntoTable w s = afterBeacon w i (s.echoOf w.port).p
      (asymmetryOf s w.port (bitsAt 8 w.utx 4)) s.selectedPair (s.setSource i (some (updateEntry e w))) := by
  have other : ¬ (bitsAt 8 w.utx 4 = s.cfg.engineId ∨ bitsAt 8 w.utx 12 = s.cfg.engineId) := not_or.mpr foreign
  simp only [beaconIntoTable, other, if_false, found, there]

theorem beaconIntoTable_new (found : findSource s w.port (bitsAt 8 w.utx 4) = none)
    (place : (freeSource s).or (replaceSource s) = some i) : beaconIntoTable w s = afterBeacon w i (s.echoOf w.port).p
      (asymmetryOf s w.port (bitsAt 8 w.utx 4)) s.selectedPair (s.setSource i (some (newEntry w))) := by
  have other : ¬ (bitsAt 8 w.utx 4 = s.cfg.engineId ∨ bitsAt 8 w.utx 12 = s.cfg.engineId) := not_or.mpr foreign
  simp only [beaconIntoTable, other, if_false, found, place]

theorem beaconIntoTable_full (found : findSource s w.port (bitsAt 8 w.utx 4) = none)
    (place : (freeSource s).or (replaceSource s) = none) :
    beaconIntoTable w s = s.count w.port Stats.incBeaconsIgnored := by
  have other : ¬ (bitsAt 8 w.utx 4 = s.cfg.engineId ∨ bitsAt 8 w.utx 12 = s.cfg.engineId) := not_or.mpr foreign
  simp only [beaconIntoTable, other, if_false, found, place]

end Beacon

theorem updateEntry_eq (e : SourceEntry) (w : Whole) : updateEntry e w = { e with
    origin := bitsAt 8 w.utx 12, cls := min (byteAt w.utx 38) 6, hops := byteAt w.utx 39, k := intAt w.utx 40 1
    epoch := natAt w.utx 41 2, epochChanged := e.epochChanged || decide (natAt w.utx 41 2 ≠ e.epoch)
    lastHeard := min (w.up / 250000000) 4294967295, heardAt := w.up, beacons := min 65535 (e.beacons + 1)
    st := if e.st = .stale then .candidate else e.st } := by
  have changed : (natAt w.utx 41 2 != e.epoch) = decide (natAt w.utx 41 2 ≠ e.epoch) := by
    rw [Bool.eq_iff_iff, bne_iff_ne, decide_eq_true_iff]
  rw [← changed]
  rfl

/-! ### Silence -/

/-- What a re-evaluation can do: nothing, select the best entry, or end the selection. -/
theorem reevaluate_shape (old : Option (Nat × SourceEntry)) (why : Reason) (own : Option Nat) (s : State) :
    reevaluate old why own s = s ∨
    (∃ j b why', bestSource s = some (j, b) ∧ reevaluate old why own s = select old (j, b) why' (own = some j) s) ∨
    ∃ x, reevaluate old why own s = endSelection x why s := by
  rcases old with _ | ⟨i, e⟩
  · cases best : bestSource s with
    | none => exact .inl (by simp only [reevaluate, best])
    | some b => exact .inr (.inl ⟨b.1, b.2, .better, rfl, by simp only [reevaluate, best]⟩)
  · by_cases stays : ∃ now, s.source i = some now ∧ now.st = .selected ∧ selectable s now = true
    · obtain ⟨now, there, can⟩ := stays
      cases best : bestSource s with
      | none => exact .inl (by simp only [reevaluate, there, can, and_self, if_true, best])
      | some b =>
        by_cases better : b.2.cls < now.cls
        · exact .inr (.inl ⟨b.1, b.2, .better, rfl, by simp only [reevaluate, there, can, and_self, if_true, best, better]⟩)
        · exact .inl (by simp only [reevaluate, there, can, and_self, if_true, best, better, if_false])
    · have leaves : reevaluate (some (i, e)) why own s = match bestSource s with
          | some (j, b) => select (some (i, e)) (j, b) why (own = some j) s
          | none => endSelection (i, e) why s := by
        simp only [reevaluate]
        split
        case h_1 now there => exact if_neg fun can => stays ⟨now, there, can⟩
        case h_2 => rfl
      cases best : bestSource s with
      | none => exact .inr (.inr ⟨(i, e), by rw [leaves, best]⟩)
      | some b => exact .inr (.inl ⟨b.1, b.2, why, rfl, by rw [leaves, best]⟩)

/-- A re-evaluation leaves an entry as it is that is not SELECTED and may not be followed. -/
theorem source_reevaluate_of_unselectable {old : Option (Nat × SourceEntry)} {why : Reason} {own : Option Nat} {s : State}
    {i : Nat} {e : SourceEntry} (there : s.source i = some e) (st : e.st ≠ .selected) (un : selectable s e = false) :
    (reevaluate old why own s).source i = some e := by
  have unselected : ∀ k, (unselect k s).source i = some e := by
    intro k
    unfold unselect
    split
    case isTrue selected =>
      rw [source_setSourceState, if_neg, there]
      rintro rfl
      simp [State.isSelected, there, st] at selected
    case isFalse => exact there
  rcases reevaluate_shape old why own s with same | ⟨j, b, why', best, same⟩ | ⟨x, same⟩
  · rw [same, there]
  · obtain ⟨there', can⟩ := bestSource_some best
    rw [same, source_of (select_sources old (j, b) why' _ s), source_setSourceState, if_neg]
    · cases old with
      | none => exact there
      | some x => exact unselected x.1
    · rintro rfl
      rw [there, Option.some.injEq] at there'
      rw [there', can] at un
      exact Bool.noConfusion un
  · rw [same, source_of (endSelection_sources x why s), unselected]

theorem staleDue_iff {s : State} {e : SourceEntry} : staleDue s e = true ↔ (e.st = .candidate ∨ e.st = .selected) ∧
    e.heardAt + 3 * intervalPeriods (max (-4) (min 3 e.k)) ≤ s.clock.up := by
  simp only [staleDue, Bool.and_eq_true, Bool.or_eq_true, beq_iff_eq, silentFor_iff]

theorem setSourceState_there {s : State} {i : Nat} {e : SourceEntry} (there : s.source i = some e) (st : SourceState) :
    setSourceState i st s = s.setSource i (some { e with st := st }) := by
  simp only [setSourceState, there]

/-- Settles O41: a beacon by the index its key has, and silence by what is due. -/
theorem silenceMakesASourceStaleAndRemovesIt : Obligations.SilenceMakesASourceStaleAndRemovesIt := by
  refine ⟨fun w s uplink => ⟨fun own => beaconIntoTable_ignored own, fun i e foreign there sender port before => ?_,
    fun foreign unknown => ⟨fun i lt free before => ?_, fun i e full there stale least => ?_, fun full => ?_⟩⟩,
    fun i s => ⟨?stale, ?kept, ?gone, ?stays⟩⟩
  · have taken := beaconIntoTable_known foreign (findSource_first there ⟨sender, port⟩ before) there
    rw [updateEntry_eq] at taken
    exact afterBeacon_placed taken
  · have place : (freeSource s).or (replaceSource s) = some i := by rw [freeSource_first lt free before]; rfl
    exact afterBeacon_placed (beaconIntoTable_new foreign (findSource_missing unknown) place)
  · have place : (freeSource s).or (replaceSource s) = some i := by
      rw [freeSource_none full, replaceSource_longest ⟨there, stale, least⟩]
      rfl
    exact afterBeacon_placed (beaconIntoTable_new foreign (findSource_missing unknown) place)
  · have place : (freeSource s).or (replaceSource s) = none := by
      rw [freeSource_none fun j hj => ?_, replaceSource_none full]
      · rfl
      · obtain ⟨e, there, -⟩ := full j hj
        simp [there]
    exact beaconIntoTable_full foreign (findSource_missing unknown) place
  case stale =>
    rintro ⟨e, there, due⟩
    have isDue : exec (.sourceStale i) s = .next (goStale i s) := by
      simp only [exec, execSourceStale, there, staleDue_iff.mpr due, if_true]
    rw [goStale, setSourceState_there there] at isDue
    refine ⟨e, _, there, isDue, source_reevaluate_of_unselectable ?_ (by simp) (by simp [selectable]), rfl⟩
    rw [source_setSource, if_pos ⟨rfl, source_lt there⟩]
  case kept =>
    intro none_
    unfold exec execSourceStale
    refine congrArg Host.Outcome.next ?_
    split
    case h_1 e there => exact if_neg fun due => none_ ⟨e, there, staleDue_iff.mp due⟩
    case h_2 => rfl
  case gone =>
    rintro ⟨e, there, st, due⟩
    simp only [exec, execSourceRemoval, there, st, beq_self_eq_true, (silentFor_iff 8 _ e).mpr due, Bool.and_true, if_true]
  case stays =>
    intro none_
    unfold exec execSourceRemoval
    refine congrArg Host.Outcome.next ?_
    split
    case h_1 e there =>
      refine if_neg fun due => ?_
      rw [Bool.and_eq_true, beq_iff_eq, silentFor_iff] at due
      exact none_ ⟨e, there, due⟩
    case h_2 => rfl

end Sys2Proof.Machine
end

section
/-! A port's link comes UP (R100, R102, R22, R30, R47, R55). -/

namespace Sys2Proof.Machine

theorem inc_of_steady {s t : State} (h : t.steady = s.steady) : t.clock.inc = s.clock.inc := by
  have := congrArg Clock.inc h
  exact this

/-! ### LINK_DOWN's condition -/

theorem lostPort_isNone {s : State} : (lostPort s).isNone = true ↔ ∀ q, (s.port q).seenUp = true → (s.port q).up = true := by
  have all : ∀ q, q ∈ allPorts := fun q => by cases q <;> simp [allPorts]
  simp [lostPort, List.find?_eq_none, all, portLost]

/-! ### An interval expiry -/

/-- An interval expiry changes of the requester the exchange and the next id alone (R23). -/
theorem takeInterval_echo (p : Port) (s : State) : ((takeInterval p s).requester p).window = (s.echoOf p).window ∧
    ((takeInterval p s).requester p).p = (s.echoOf p).p ∧ ((takeInterval p s).requester p).sched = (s.echoOf p).sched := by
  by_cases idle : (s.echoOf p).st = .idle
  · by_cases room : (s.port p).up = true ∧ timingHeld (s.port p) < 8
    · rw [takeInterval_requester p s idle room.1 room.2]
      exact ⟨rfl, rfl, rfl⟩
    · have refused : (s.port p).up = false ∨ 8 ≤ timingHeld (s.port p) := by
        rcases not_and_or.mp room with h | h
        · exact .inl (Bool.eq_false_of_not_eq_true h)
        · exact .inr (Nat.le_of_not_lt h)
      rw [takeInterval_refused idle refused]
      simp [State.requester, Echo.requester]
  · rw [takeInterval_awaiting idle]
    exact ⟨rfl, rfl, rfl⟩

@[simp] theorem reception_takeInterval (p : Port) (s : State) (q : Port) : (takeInterval p s).reception q = s.reception q := by
  by_cases idle : (s.echoOf p).st = .idle
  · by_cases room : (s.port p).up = true ∧ timingHeld (s.port p) < 8
    · rw [takeInterval_taken idle room.1 room.2, reception_arbitrate, reception_setEcho]
      exact reception_setPort _ _ _ _ rfl
    · have refused : (s.port p).up = false ∨ 8 ≤ timingHeld (s.port p) := by
        rcases not_and_or.mp room with h | h
        · exact .inl (Bool.eq_false_of_not_eq_true h)
        · exact .inr (Nat.le_of_not_lt h)
      rw [takeInterval_refused idle refused, reception_setEcho]
      exact reception_setPort _ _ _ _ rfl
  · rw [takeInterval_awaiting idle]

/-! ### The steps of a link UP while RUNNING, in the order of log 50 -/

section LinkUp

variable (p : Port) (s : State)

/-- The port UP, with its seen-UP flag. -/
def linkLit : State := s.setPort p { s.port p with up := true, seenUp := true }

/-- LINK_DOWN cleared where its condition has ended. -/
def linkTold : State :=
  if (lostPort (linkLit p s)).isNone then clearWithHold .linkDown (.port p) true .nothing (linkLit p s) else linkLit p s

/-- The echo schedule of an uplink started. -/
def linkAsked : State := echoLinkUp p (linkTold p s)

/-- The selection of an uplink re-evaluated. -/
def linkBack : State :=
  if p.isUplink then reevaluate (linkAsked p s).selectedPair .lost none (linkAsked p s) else linkAsked p s

theorem linkLit_port (q : Port) : (linkLit p s).port q = if p = q then { s.port p with up := true, seenUp := true } else s.port q :=
  port_setPort ..

theorem linkLit_isNone : (lostPort (linkLit p s)).isNone = true ↔
    ∀ q, q ≠ p → (s.port q).seenUp = true → (s.port q).up = true := by
  rw [lostPort_isNone]
  refine ⟨fun h q ne => ?_, fun h q => ?_⟩
  · have := h q
    rwa [linkLit_port, if_neg ne.symm] at this
  · rw [linkLit_port]
    split
    case isTrue => exact fun _ => rfl
    case isFalse ne => exact h q (Ne.symm ne)

theorem exec_linkUp_running (running : s.run = .running) (down : (s.port p).up = false) :
    exec (.linkUp p) s = .next (linkBack p s) := by
  have back : linkBackUp p (s.setPort p { s.port p with up := true }) = linkBack p s := by
    unfold linkBackUp
    rw [port_setPort_same, setPort_setPort]
    rfl
  have live : s.run ≠ .held ∧ (s.port p).up = false := ⟨by simp [running], down⟩
  simp only [exec, execLinkUp, if_pos live, linkComesUp, State.setPort_run, if_pos running, back]

/-! What the steps leave. -/

theorem linkTold_beside : (∀ k : FaultKind, (s.response k).rank ≤ k.maxResponse.rank) → Beside (linkLit p s) (linkTold p s) := by
  intro m
  unfold linkTold
  split
  · rw [clearWithHold_plain _ _ _ _ (linkLit p s) m (by simp) (by simp)]
    exact beside_clearLinkDown _ _ _ _
  · exact .refl _

theorem anchor_linkTold : (linkTold p s).anchor = s.anchor := by
  unfold linkTold
  split
  · rw [anchor_clearWithHold]
    rfl
  · rfl

theorem cfg_linkTold : (linkTold p s).cfg = s.cfg := by
  unfold linkTold
  split
  · rw [cfg_clearWithHold]
    rfl
  · rfl

theorem matchTab_linkTold : (linkTold p s).matchTab = s.matchTab := by
  unfold linkTold
  split
  · rw [matchTab_clearWithHold]
    rfl
  · rfl

theorem agent_linkTold : (linkTold p s).agent = s.agent := by
  unfold linkTold
  split
  · rw [agent_clearWithHold]
    rfl
  · rfl

theorem reception_linkTold (q : Port) : (linkTold p s).reception q = (linkLit p s).reception q := by
  unfold linkTold
  split
  · rw [reception_clearWithHold]
  · rfl

theorem requester_linkTold (q : Port) : (linkTold p s).requester q = s.requester q := by
  have lit : (linkLit p s).requester q = s.requester q := requester_setPort _ _ _ _ rfl
  unfold linkTold
  split
  · rw [requester_clearWithHold, lit]
  · exact lit

theorem reception_echoLinkUp (q : Port) : (echoLinkUp p s).reception q = s.reception q := by
  unfold echoLinkUp startEcho restartInterval
  repeat' split
  all_goals simp

theorem reception_linkBack (q : Port) : (linkBack p s).reception q = (linkLit p s).reception q := by
  have asked : (linkAsked p s).reception q = (linkLit p s).reception q :=
    (reception_echoLinkUp p _ q).trans (reception_linkTold p s q)
  unfold linkBack
  split
  · rw [reception_reevaluate, asked]
  · exact asked

/-- The three parts of the state that the steps of a link UP leave. -/
theorem linkBack_leaves : (linkBack p s).anchor = s.anchor ∧ (linkBack p s).cfg = s.cfg ∧
    (linkBack p s).matchTab = s.matchTab ∧ (linkBack p s).agent = s.agent := by
  unfold linkBack linkAsked
  split <;> simp [anchor_linkTold, cfg_linkTold, matchTab_linkTold, agent_linkTold]

theorem fault_linkBack : (linkBack p s).fault .linkDown = (linkTold p s).fault .linkDown := by
  have asked : (linkAsked p s).fault .linkDown = (linkTold p s).fault .linkDown :=
    fault_of (congrArg FaultUnit.recs (faults_echoLinkUp p _)) _
  unfold linkBack
  split
  · rw [fault_reevaluate _ _ _ _ _ (by simp) (by simp) (by simp), asked]
  · exact asked

theorem fault_linkTold_cleared (h : ∀ q, q ≠ p → (s.port q).seenUp = true → (s.port q).up = true) :
    ((linkTold p s).fault .linkDown).active = false := by
  rw [linkTold, if_pos ((linkLit_isNone p s).mpr h), clearWithHold, fault_reevaluateOnHold _ _ _ (by simp) (by simp) (by simp),
    fault_clearFault_self _ _ _ _ _ (by simp)]

variable {p s}

theorem linkTold_kept (h : ∃ q, q ≠ p ∧ (s.port q).seenUp = true ∧ (s.port q).up = false) : linkTold p s = linkLit p s := by
  refine if_neg fun none_ => ?_
  obtain ⟨q, ne, seen, down⟩ := h
  exact absurd ((linkLit_isNone p s).mp none_ q ne seen) (by simp [down])

theorem linkAsked_downlink (down : p.isUplink = false) : linkAsked p s = linkTold p s := by
  simp only [linkAsked, echoLinkUp, down, Bool.false_eq_true, if_false]

variable (p s)

/-- The echo record of an uplink with its window empty. -/
def linkEmptied : State := (linkTold p s).setEcho p { (linkTold p s).echoOf p with window := [] }

theorem linkEmptied_up : ((linkEmptied p s).port p).up = true := by
  have := congrArg Reception.up (reception_linkTold p s p)
  simpa [linkEmptied, State.reception, PortUnit.reception, linkLit_port] using this

theorem linkEmptied_clock : (linkEmptied p s).clock.up = s.clock.up := anchor_up (anchor_linkTold p s)

variable {p s}

/-- The schedule of an uplink starts where its echo is on and no reload holds it back. -/
theorem linkAsked_uplink (uplink : p.isUplink = true) (running : s.run = .running) :
    linkAsked p s = if s.agent.reload = false ∧ (s.portRec p).echoOn = true then
      takeInterval p ((linkEmptied p s).setEcho p { (linkEmptied p s).echoOf p with sched := some (linkEmptied p s).clock.up })
      else linkEmptied p s := by
  have cfg : (linkEmptied p s).cfg = s.cfg := cfg_linkTold p s
  have agent : (linkEmptied p s).agent = s.agent := agent_linkTold p s
  have run : (linkEmptied p s).run = s.run := anchor_run (anchor_linkTold p s)
  have runs : echoRuns (linkEmptied p s) p = true ↔ s.agent.reload = false ∧ (s.portRec p).echoOn = true := by
    rw [echoRuns_iff, linkEmptied_up, State.portRec, cfg, agent, run]
    simp [uplink, running, State.portRec]
  rw [linkAsked, echoLinkUp, if_pos uplink, startEcho, restartInterval]
  exact if_congr runs rfl rfl

/-- The requester of an uplink after its link has come UP. -/
theorem requester_linkBack (uplink : p.isUplink = true) (running : s.run = .running) :
    ((linkBack p s).echoOf p).window = [] ∧ ((linkBack p s).echoOf p).p = (s.echoOf p).p ∧
    (s.agent.reload = false → (s.portRec p).echoOn = true → ((linkBack p s).echoOf p).sched = some s.clock.up ∧
      ((s.echoOf p).st = .idle → ((linkBack p s).echoOf p).nextId = ((s.echoOf p).nextId + 1) % 65536 ∧
        (timingHeld (s.port p) < 8 → ((linkBack p s).echoOf p).st ≠ .idle))) := by
  have back : (linkBack p s).requester p = (linkAsked p s).requester p := by
    rw [linkBack, if_pos uplink, requester_reevaluate]
  have told := requester_linkTold p s p
  have path : ((linkTold p s).echoOf p).p = (s.echoOf p).p := congrArg Requester.p told
  have next : ((linkTold p s).echoOf p).nextId = (s.echoOf p).nextId := congrArg Requester.nextId told
  have idles : (((linkTold p s).echoOf p).st == .idle) = ((s.echoOf p).st == .idle) := congrArg Requester.idle told
  have room : timingHeld ((linkTold p s).port p) = timingHeld (s.port p) := congrArg Requester.held told
  have asked := linkAsked_uplink uplink running
  have emptied : (linkEmptied p s).echoOf p = { (linkTold p s).echoOf p with window := [] } := echoOf_setEcho_same _ _ _
  have kept : ((linkAsked p s).requester p).window = [] ∧ ((linkAsked p s).requester p).p = (s.echoOf p).p := by
    rw [asked]
    split
    · obtain ⟨window, path', -⟩ := takeInterval_echo p ((linkEmptied p s).setEcho p
        { (linkEmptied p s).echoOf p with sched := some (linkEmptied p s).clock.up })
      rw [window, path', echoOf_setEcho_same, emptied]
      exact ⟨rfl, path⟩
    · rw [State.requester, emptied]
      exact ⟨rfl, path⟩
  refine ⟨(congrArg Requester.window back).trans kept.1, (congrArg Requester.p back).trans kept.2, fun reload on => ⟨?_, fun idle => ?_⟩⟩
  · refine (congrArg Requester.sched back).trans ?_
    rw [asked, if_pos ⟨reload, on⟩, (takeInterval_echo p _).2.2, echoOf_setEcho_same, linkEmptied_clock]
  · have idle' : ((linkEmptied p s).echoOf p).st = .idle := by
      rw [emptied]
      simpa [idle] using idles
    obtain ⟨id, busy⟩ := startedEcho_requester p (linkEmptied p s) (s.agent.reload = false ∧ (s.portRec p).echoOn = true)
      ⟨reload, on⟩ idle' (linkEmptied_up p s)
    rw [← asked, ← back] at id busy
    refine ⟨id.trans (by rw [emptied, next]), fun free => State.not_idle (busy ?_)⟩
    rwa [linkEmptied, port_setEcho, room]

theorem linkBack_uplink (uplink : p.isUplink = true) :
    linkBack p s = reevaluate (linkAsked p s).selectedPair .lost none (linkAsked p s) := if_pos uplink

theorem linkBack_downlink (down : p.isUplink = false) : linkBack p s = linkTold p s := by
  rw [linkBack, if_neg (by simp [down]), linkAsked_downlink down]

end LinkUp

/-- Settles O25: the steps of log 50 one after the other, none of which touches what the ones before it settled. -/
theorem linkUpDoes : Obligations.LinkUpDoes := by
  refine fun p s => ⟨fun h => ?held, fun loading down => ?loading, fun running down => ⟨linkBack p s,
    exec_linkUp_running p s running down, ?_⟩⟩
  case held =>
    refine congrArg _ (if_neg ?_)
    rintro ⟨live, down⟩
    rcases h with held | up
    · exact live held
    · exact Bool.noConfusion (up.symm.trans down)
  case loading =>
    have live : s.run ≠ .held ∧ (s.port p).up = false := ⟨by simp [loading], down⟩
    have idle : ¬ s.run = .running := by simp [loading]
    simp only [exec, execLinkUp, if_pos live, linkComesUp, State.setPort_run, if_neg idle]
  have reception := reception_linkBack p s
  have parts : ∀ q, ((linkBack p s).port q).up = ((linkLit p s).port q).up ∧
      ((linkBack p s).port q).seenUp = ((linkLit p s).port q).seenUp := fun q =>
    ⟨congrArg Reception.up (reception q), congrArg Reception.seenUp (reception q)⟩
  obtain ⟨anchor, cfg, matchTab, agent⟩ := linkBack_leaves p s
  refine ⟨?up, ?seen, fun q ne => ?others, cfg, anchor_date anchor, matchTab, agent, fun other => ?stands, fun none_ => ?ends,
    fun uplink => ?requester, ?_⟩
  case up => rw [(parts p).1, linkLit_port, if_pos rfl]
  case seen => rw [(parts p).2, linkLit_port, if_pos rfl]
  case others =>
    rw [(parts q).1, (parts q).2, linkLit_port, if_neg ne.symm]
    exact ⟨rfl, rfl⟩
  case stands => rw [fault_linkBack, linkTold_kept other]; rfl
  case ends => rw [fault_linkBack, fault_linkTold_cleared p s none_]
  case requester => exact requester_linkBack uplink running
  refine ⟨linkTold p s, fun none_ => if_pos ((linkLit_isNone p s).mpr none_), linkTold_kept, linkBack_downlink,
    fun uplink => ?_, fun most => ⟨fun uplink => ?_, fun down => ?_⟩⟩
  · have asked := linkAsked_uplink uplink running
    rw [linkEmptied_clock, linkEmptied] at asked
    intro emptied asked'
    have same : asked' = linkAsked p s := asked.symm
    rw [same]
    exact linkBack_uplink uplink
  · have beside : Beside (linkLit p s) (linkAsked p s) := (linkTold_beside p s most).trans (beside_echoLinkUp p _)
    have pair : (linkAsked p s).selectedPair = s.selectedPair := selectedPair_of beside.sources
    have one := beside.reevaluate most s.selectedPair .lost none
    rw [linkBack_uplink uplink, pair]
    exact ⟨one.sources, one.servo, inc_of_steady one.steady, one.lost⟩
  · have beside := linkTold_beside p s most
    rw [linkBack_downlink down]
    exact ⟨beside.sources, beside.servo, inc_of_steady beside.steady⟩

end Sys2Proof.Machine
end

section
/-! The unit of a port whose link is DOWN: left as it is by the arbiter, by alerts, by records offered to the Event Log, by faults
raised and cleared, and by the re-evaluation of the selection. -/

namespace Sys2Proof.Machine

/-- The unit of a port, where its link is DOWN. -/
def State.still (s : State) (p : Port) : Option PortUnit := if (s.port p).up then none else some (s.port p)

theorem still_of_ports {s t : State} (h : t.ports = s.ports) (p : Port) : t.still p = s.still p := by
  unfold State.still State.port
  rw [h]

theorem port_of_still {s t : State} {p : Port} (h : t.still p = s.still p) (down : (s.port p).up = false) :
    t.port p = s.port p := by
  cases up : (t.port p).up <;> simpa [State.still, down, up] using h

/-- A unit replaced by another, both of them UP. -/
theorem still_setPort {s : State} {q : Port} {u : PortUnit} (up : (s.port q).up = true) (up' : u.up = true) (p : Port) :
    (s.setPort q u).still p = s.still p := by
  simp only [State.still, port_setPort]
  split
  case isTrue same => simp [up', ← same, up]
  case isFalse => rfl

@[simp] theorem still_setForm (s : State) (a : AlertForm) (p : Port) (v : FormState) : (s.setForm a v).still p = s.still p :=
  still_of_ports rfl p
@[simp] theorem still_setFault (s : State) (k : FaultKind) (p : Port) (r : FaultRec) : (s.setFault k r).still p = s.still p :=
  still_of_ports rfl p
@[simp] theorem still_setLog (s : State) (l : EventLog) (p : Port) : (s.setLog l).still p = s.still p := still_of_ports rfl p
@[simp] theorem still_setClock (s : State) (c : Clock) (p : Port) : (s.setClock c).still p = s.still p := still_of_ports rfl p
@[simp] theorem still_setServo (s : State) (p : Port) (v : Servo) : (s.setServo v).still p = s.still p := still_of_ports rfl p
@[simp] theorem still_setSource (s : State) (i : Nat) (p : Port) (e : Option SourceEntry) :
    (s.setSource i e).still p = s.still p := still_of_ports rfl p

@[simp] theorem still_watchSecond (s : State) (p : Port) : (watchSecond s).still p = s.still p := by
  simp only [watchSecond]
  split <;> simp

theorem still_recordEgress (q : Port) (tag : OrigTag) (s : State) (p : Port) : (recordEgress q tag s).still p = s.still p := by
  simp only [recordEgress, askPassesEgress, reportPassesEgress]
  (repeat' split) <;> exact still_of_ports rfl p

theorem still_grantQueued {q : Port} {s : State} (up : (s.port q).up = true) (o : TxFrom) (f : QFrame) (p : Port) :
    (grantQueued q o f s).still p = s.still p := by
  rw [grantQueued, still_recordEgress]
  exact still_setPort up (by exact up) p

/-- A DOWN link grants nothing (R122). -/
@[simp] theorem still_arbitrate (q : Port) (s : State) (p : Port) : (arbitrate q s).still p = s.still p := by
  cases up : (s.port q).up with
  | false => rw [arbitrate_idle (.inr up)]
  | true =>
    simp only [arbitrate]
    split
    case isTrue => rfl
    case isFalse =>
      split
      case h_1 f rest _ =>
        exact (still_grantQueued (by rw [port_setPort_same, up]) .timing f p).trans (still_setPort up (by exact up) p)
      case h_2 f rest _ =>
        exact (still_grantQueued (by rw [port_setPort_same, up]) .general f p).trans (still_setPort up (by exact up) p)
      case h_3 f rest _ =>
        exact (still_setPort (by rw [port_setPort_same, up]) (by rw [port_setPort_same, up]) p).trans
          (still_setPort up (by exact up) p)
      case h_4 => rfl

theorem still_offerGeneral {q : Port} {s : State} (up : (s.port q).up = true) (tag : OrigTag) (header : Nat) (bytes : List Byte)
    (p : Port) : (offerGeneral q tag header bytes s).1.still p = s.still p := by
  simp only [offerGeneral, State.count]
  split
  · exact still_setPort up (by exact up) p
  · exact still_setPort up (by exact up) p

theorem alertUplink_up {s : State} {q : Port} (h : alertUplink s = some q) : (s.port q).up = true := by
  unfold alertUplink at h
  split at h
  · cases h; assumption
  · split at h
    · cases h; assumption
    · cases h

@[simp] theorem still_alertEvent (a : AlertForm) (clear : Bool) (subject : Subject) (d : AlertData) (s : State) (p : Port) :
    (alertEvent a clear subject d s).still p = s.still p := by
  have suppressed : ∀ t : State, (suppressAlert a t).still p = t.still p := fun t => still_setForm ..
  unfold alertEvent
  split
  · exact suppressed s
  · split
    · exact suppressed s
    · split
      case h_1 => exact suppressed s
      case h_2 q uplink =>
        dsimp only
        split
        · rw [still_arbitrate, still_setForm, still_offerGeneral (alertUplink_up uplink)]
        · rw [suppressed, still_offerGeneral (alertUplink_up uplink)]

@[simp] theorem still_faultAlert (k : FaultKind) (clear : Bool) (subject : Subject) (d : AlertData) (s : State) (p : Port) :
    (faultAlert k clear subject d s).still p = s.still p := by
  simp only [faultAlert]
  split <;> simp

@[simp] theorem still_offerBare (o : Offer) (s : State) (p : Port) : (offerBare o s).1.still p = s.still p := by
  simp only [offerBare, levelNotice]
  (repeat' split) <;> simp

@[simp] theorem still_raiseLogFull (s : State) (p : Port) : (raiseLogFull s).still p = s.still p := by
  simp only [raiseLogFull, countRaise, activate]
  split <;> simp

@[simp] theorem still_clearLogFull (s : State) (p : Port) : (clearLogFull s).still p = s.still p := by
  unfold clearLogFull deactivate
  split
  · dsimp only
    rw [still_faultAlert]
    split <;> simp
  · rfl

@[simp] theorem still_offerRecord (o : Offer) (s : State) (p : Port) : (offerRecord o s).still p = s.still p := by
  simp only [offerRecord]
  split <;> simp

@[simp] theorem still_raiseFault (k : FaultKind) (subject : Subject) (record : Bool) (d : AlertData) (s : State) (p : Port) :
    (raiseFault k subject record d s).still p = s.still p := by
  simp only [raiseFault, countRaise, activate]
  (repeat' split) <;> simp

@[simp] theorem still_clearFault (k : FaultKind) (subject : Subject) (record : Bool) (d : AlertData) (s : State) (p : Port) :
    (clearFault k subject record d s).still p = s.still p := by
  simp only [clearFault, deactivate]
  (repeat' split) <;> simp

@[simp] theorem still_setSourceState (i : Nat) (st : SourceState) (s : State) (p : Port) :
    (setSourceState i st s).still p = s.still p := by
  simp only [setSourceState]
  split <;> simp

@[simp] theorem still_unselect (i : Nat) (s : State) (p : Port) : (unselect i s).still p = s.still p := by
  simp only [unselect]
  split <;> simp

@[simp] theorem still_setServoState (st : ServoState) (s : State) (p : Port) :
    (setServoState st s).still p = s.still p := by
  simp [setServoState]

@[simp] theorem still_offerStateIfChanged (before : ServoState) (s : State) (p : Port) :
    (offerStateIfChanged before s).still p = s.still p := by
  simp only [offerStateIfChanged, offerState]
  split <;> simp

@[simp] theorem still_select (old : Option (Nat × SourceEntry)) (new : Nat × SourceEntry) (reason : Reason)
    (sampled : Bool) (s : State) (p : Port) : (select old new reason sampled s).still p = s.still p := by
  simp only [select, clearHoldoverExpired, still_clearFault, still_offerStateIfChanged]
  (repeat' split) <;> simp [servoSwitches, servoFollows]

@[simp] theorem still_endSelection (old : Nat × SourceEntry) (reason : Reason) (s : State) (p : Port) :
    (endSelection old reason s).still p = s.still p := by
  simp only [endSelection, still_raiseFault, still_offerStateIfChanged, still_offerRecord]
  split <;> simp [servoHolds, handRate]

/-- A re-evaluation leaves the unit of a port whose link is DOWN. -/
@[simp] theorem still_reevaluate (old : Option (Nat × SourceEntry)) (why : Reason) (own : Option Nat) (s : State)
    (p : Port) : (reevaluate old why own s).still p = s.still p := by
  rcases reevaluate_shape old why own s with same | ⟨j, b, why', -, same⟩ | ⟨x, same⟩ <;> rw [same]
  · rw [still_select]
  · rw [still_endSelection]

@[simp] theorem still_reevaluateOnHold (before : Bool) (s : State) (p : Port) :
    (reevaluateOnHold before s).still p = s.still p := by
  simp only [reevaluateOnHold]
  split <;> simp

@[simp] theorem still_raiseWithHold (k : FaultKind) (subject : Subject) (record : Bool) (d : AlertData) (s : State)
    (p : Port) : (raiseWithHold k subject record d s).still p = s.still p := by
  simp [raiseWithHold]

end Sys2Proof.Machine
end

section
/-! A port's link goes DOWN (R101, R100, R30, R55, R136). -/

namespace Sys2Proof.Machine

/-! ### The reception that a link DOWN ends -/

section Reception

variable {p : Port} {s : State}

theorem settleStamp_unit {c : DatingCtx} (ctx : (s.port p).ctx = some c) (written : Bool) : ∃ c' n,
    (settleStamp p written s).port p = { s.port p with ctx := some c', stats := { (s.port p).stats with stamps := n } } := by
  by_cases pending : c.outcome = .pending
  · cases written with
    | true => exact ⟨_, _, by rw [settleStamp_written ctx pending, port_setPort_same]⟩
    | false => exact ⟨_, (s.port p).stats.stamps, by rw [settleStamp_unstamped ctx pending, port_setPort_same]⟩
  · exact ⟨c, (s.port p).stats.stamps, by rw [settleStamp_settled ctx pending, ← ctx]⟩

/-- A mark cut off on a port whose link is DOWN: its context closes, stamps applied may count, and no alert reaches the port. -/
theorem cutMark_unit (down : (s.port p).up = false) (bytes : List Byte) (len : Nat) : ∃ n,
    (cutMark p bytes len s).port p = { s.port p with ctx := none, stats := { (s.port p).stats with stamps := n } } := by
  cases ctx : (s.port p).ctx with
  | none => exact ⟨(s.port p).stats.stamps, by rw [cutMark_none ctx, ← ctx]⟩
  | some c =>
    obtain ⟨c', n, unit⟩ := settleStamp_unit ctx (stampArrived c bytes)
    have held : ((settleStamp p (stampArrived c bytes) s).port p).ctx = some c' := by rw [unit]
    refine ⟨n, ?_⟩
    rw [cutMark_some ctx, closeMark_some held]
    split
    · rw [port_setPort_same, unit]
    · rw [port_of_still (still_offerRecord _ _ _) (by rw [port_setPort_same, unit]; exact down), port_setPort_same, unit]

theorem loseReception_none (rx : (s.port p).rx = none) (more : List Byte) : loseReception p more s = s := by
  simp only [loseReception, rx]

theorem loseReception_dropped {r : Rx} (rx : (s.port p).rx = some r) (stage : r.stage = .parsing ∨ r.stage = .discarding)
    (more : List Byte) : loseReception p more s = setRx p none s := by
  rcases stage with stage | stage <;> simp only [loseReception, rx, Rx.grow, stage]

theorem loseReception_stored {r : Rx} (rx : (s.port p).rx = some r)
    (stage : r.stage = .storingL2 ∨ ∃ a b c, r.stage = .storingUdp a b c) (more : List Byte) :
    loseReception p more s = (setRx p none s).count p.partner (Stats.addTransitDrops 1) := by
  rcases stage with stage | ⟨a, b, c, stage⟩ <;> simp only [loseReception, rx, Rx.grow, stage]

theorem loseReception_forwarded {r : Rx} {inLane : Bool} (rx : (s.port p).rx = some r) (stage : r.stage = .forwarding inLane)
    (more : List Byte) : loseReception p more s =
      let cut := cutMark p (r.bytes ++ more) (r.bytes ++ more).length (setRx p none s)
      if inLane then (cut.setPort p.partner (loseArriving (r.bytes ++ more) (cut.port p.partner))).count p.partner
        (Stats.addTransitDrops 1) else cut := by
  simp only [loseReception, rx, Rx.grow, stage]

/-- What a link DOWN leaves of the unit that was receiving. -/
theorem loseReception_unit (down : (s.port p).up = false) (more : List Byte) : ∃ c n, (loseReception p more s).port p =
      { s.port p with rx := none, ctx := c, stats := { (s.port p).stats with stamps := n } } ∧
    ((∃ r inLane, (s.port p).rx = some r ∧ r.stage = .forwarding inLane) → c = none) := by
  have gone : (setRx p none s).port p = { s.port p with rx := none } := port_setPort_same ..
  cases rx : (s.port p).rx with
  | none => exact ⟨(s.port p).ctx, (s.port p).stats.stamps, by rw [loseReception_none rx, ← rx], by simp⟩
  | some r =>
    cases stage : r.stage with
    | parsing =>
      exact ⟨(s.port p).ctx, (s.port p).stats.stamps, by rw [loseReception_dropped rx (.inl stage), gone], by simp [stage]⟩
    | discarding =>
      exact ⟨(s.port p).ctx, (s.port p).stats.stamps, by rw [loseReception_dropped rx (.inr stage), gone], by simp [stage]⟩
    | storingL2 =>
      exact ⟨(s.port p).ctx, (s.port p).stats.stamps,
        by rw [loseReception_stored rx (.inl stage), State.count, port_partner_setPort, gone], by simp [stage]⟩
    | storingUdp a b c =>
      exact ⟨(s.port p).ctx, (s.port p).stats.stamps,
        by rw [loseReception_stored rx (.inr ⟨a, b, c, stage⟩), State.count, port_partner_setPort, gone], by simp [stage]⟩
    | forwarding inLane =>
      have down' : ((setRx p none s).port p).up = false := by rw [gone]; exact down
      obtain ⟨n, cut⟩ := cutMark_unit down' (r.bytes ++ more) (r.bytes ++ more).length
      rw [gone] at cut
      refine ⟨none, n, ?_, fun _ => rfl⟩
      rw [loseReception_forwarded rx stage]
      cases inLane with
      | true => simp only [if_true, State.count, port_partner_setPort, cut]
      | false => simp only [Bool.false_eq_true, if_false, cut]

/-- Whether the frame under reception is still in hand, its lookup made. -/
def InHand (u : PortUnit) : Prop := match u.rx with
  | some r => r.stage = .storingL2 ∨ (∃ a b c, r.stage = .storingUdp a b c) ∨ r.stage = .forwarding true
  | none => False

theorem reception_countPartner (s : State) (p : Port) : ((s.count p.partner (Stats.addTransitDrops 1)).port p.partner).stats.transitDrops
    = min 4294967295 ((s.port p.partner).stats.transitDrops + 1) := by
  rw [State.count, port_setPort_same]
  rfl

/-- The lane's other port counts the frame that was in hand (R101). -/
theorem loseReception_partner (more : List Byte) :
    (InHand (s.port p) → ((loseReception p more s).port p.partner).stats.transitDrops =
      min 4294967295 ((s.port p.partner).stats.transitDrops + 1)) ∧
    (¬ InHand (s.port p) → ((loseReception p more s).port p.partner).stats.transitDrops =
      (s.port p.partner).stats.transitDrops) := by
  have gone : (setRx p none s).port p.partner = s.port p.partner := port_setPort_partner ..
  have counted : ((((setRx p none s).count p.partner (Stats.addTransitDrops 1)).port p.partner).stats.transitDrops) =
      min 4294967295 ((s.port p.partner).stats.transitDrops + 1) := by rw [reception_countPartner, gone]
  unfold InHand
  cases rx : (s.port p).rx with
  | none => exact ⟨fun h => h.elim, fun _ => by rw [loseReception_none rx]⟩
  | some r =>
    dsimp only
    cases stage : r.stage with
    | parsing => exact ⟨fun h => by simp at h, fun _ => by rw [loseReception_dropped rx (.inl stage), gone]⟩
    | discarding => exact ⟨fun h => by simp at h, fun _ => by rw [loseReception_dropped rx (.inr stage), gone]⟩
    | storingL2 => exact ⟨fun _ => by rw [loseReception_stored rx (.inl stage), counted], fun h => by simp at h⟩
    | storingUdp a b c =>
      exact ⟨fun _ => by rw [loseReception_stored rx (.inr ⟨a, b, c, stage⟩), counted], fun h => by simp at h⟩
    | forwarding inLane =>
      have cut : ((cutMark p (r.bytes ++ more) (r.bytes ++ more).length (setRx p none s)).port p.partner).stats.transitDrops =
          (s.port p.partner).stats.transitDrops :=
        (congrArg Reception.transitDrops (reception_cutMark_ne (Port.partner_ne p) ..)).trans (by rw [State.reception, gone]; rfl)
      rw [loseReception_forwarded rx stage]
      cases inLane with
      | true =>
        refine ⟨fun _ => ?_, fun h => by simp at h⟩
        rw [if_pos rfl, reception_countPartner, port_setPort_same, ← cut]
        rfl
      | false => exact ⟨fun h => by simp at h, fun _ => cut⟩

end Reception

/-! ### The egress side that a link DOWN empties -/

section Egress

variable (p : Port) (s : State)

theorem port_loseStamp_ne {q : Port} (ne : p ≠ q) : (loseStamp q s).port p = s.port p := by
  simp only [loseStamp, settleStamp, State.count]
  (repeat' split) <;> simp only [port_setPort_ne _ ne]

theorem flushEgress_unit : (flushEgress p s).port p = { s.port p with
    buffer := [], timing := [], general := [], tx := none
    stats := Stats.addTransitDrops (flushedCount (s.port p)) (s.port p).stats } := by
  unfold flushEgress
  dsimp only
  split
  · rw [port_loseStamp_ne p _ (Port.partner_ne p).symm, port_partner_setPort, port_setPort_same]
  · rw [port_setPort_same]

theorem flushEgress_partner : ((flushEgress p s).port p.partner).stats.transitDrops = (s.port p.partner).stats.transitDrops := by
  have lost : ∀ (q : Port) (t : State), ((loseStamp q t).port q).stats.transitDrops = (t.port q).stats.transitDrops := by
    intro q t
    simp only [loseStamp]
    cases ctx : (t.port q).ctx with
    | none => rw [settleStamp_none ctx]
    | some c =>
      obtain ⟨c', n, unit⟩ := settleStamp_unit ctx false
      rw [unit]
  unfold flushEgress
  dsimp only
  split
  · rw [lost, port_setPort_same, port_setPort_partner]
  · rw [port_setPort_partner]

end Egress

/-! ### The requester -/

theorem requester_setPort_ne {s : State} {p q : Port} (h : p ≠ q) (u : PortUnit) :
    (s.setPort q u).requester p = s.requester p := by
  rw [State.requester, port_setPort_ne s h]
  rfl

theorem requester_settleStamp (p : Port) (written : Bool) (s : State) : (settleStamp p written s).requester p = s.requester p := by
  cases ctx : (s.port p).ctx with
  | none => rw [settleStamp_none ctx]
  | some c =>
    by_cases pending : c.outcome = .pending
    · cases written with
      | true => rw [settleStamp_written ctx pending]; exact requester_setPort _ _ _ _ rfl
      | false => rw [settleStamp_unstamped ctx pending]; exact requester_setPort _ _ _ _ rfl
    · rw [settleStamp_settled ctx pending]

theorem requester_closeMark (p : Port) (bytes : List Byte) (stop len : Nat) (bad : Bool) (s : State) :
    (closeMark p bytes stop len bad s).requester p = s.requester p := by
  have closed : (s.setPort p { s.port p with ctx := none }).requester p = s.requester p := requester_setPort _ _ _ _ rfl
  cases ctx : (s.port p).ctx with
  | none => rw [closeMark_none ctx]
  | some c =>
    rw [closeMark_some ctx]
    split
    · exact closed
    · rw [requester_offerRecord, closed]

theorem requester_loseReception (p : Port) (more : List Byte) (s : State) :
    (loseReception p more s).requester p = s.requester p := by
  have gone : (setRx p none s).requester p = s.requester p := requester_setPort _ _ _ _ rfl
  have partner := fun (t : State) (u : PortUnit) => requester_setPort_ne (s := t) (Port.partner_ne p).symm u
  have cut : ∀ (bytes : List Byte) (len : Nat) (t : State), (cutMark p bytes len t).requester p = t.requester p := by
    intro bytes len t
    cases ctx : (t.port p).ctx with
    | none => rw [cutMark_none ctx]
    | some c => rw [cutMark_some ctx, requester_closeMark, requester_settleStamp]
  cases rx : (s.port p).rx with
  | none => rw [loseReception_none rx]
  | some r =>
    cases stage : r.stage with
    | parsing => rw [loseReception_dropped rx (.inl stage), gone]
    | discarding => rw [loseReception_dropped rx (.inr stage), gone]
    | storingL2 => rw [loseReception_stored rx (.inl stage), State.count, partner, gone]
    | storingUdp a b c => rw [loseReception_stored rx (.inr ⟨a, b, c, stage⟩), State.count, partner, gone]
    | forwarding inLane =>
      rw [loseReception_forwarded rx stage]
      cases inLane with
      | true => rw [if_pos rfl, State.count, partner, partner, cut, gone]
      | false => exact (cut ..).trans gone

/-! ### The records -/

/-- A record once written stays where it is. -/
def Files (before : List LogRecord) (l : EventLog) : Prop := before <+: l.records

theorem files_offerBare (before : List LogRecord) (o : Offer) (s : State) (h : Files before s.log) :
    Files before (offerBare o s).1.log := by
  unfold Files at *
  cases accepted : logAccepts s.log with
  | false => rwa [offerBare_refused o accepted]
  | true =>
    cases gap : s.log.gap with
    | false =>
      simp only [offerBare_written o accepted gap, log_levelNotice, State.setLog_log, EventLog.put_eq]
      exact h.trans (List.prefix_append ..)
    | true =>
      simp only [offerBare_writtenAfterGap o accepted gap, log_levelNotice, State.setLog_log, EventLog.put_eq,
        EventLog.closeGap, EventLog.append]
      exact (h.trans (List.prefix_append ..)).trans (List.prefix_append ..)

/-- The STAMP record of a mark that a link DOWN cuts off (R136). -/
theorem log_loseReception {p : Port} {s : State} {r : Rx} {inLane : Bool} {c : DatingCtx} (rx : (s.port p).rx = some r)
    (stage : r.stage = .forwarding inLane) (ctx : (s.port p).ctx = some c) (mode : c.logMode ≠ .stampOnly)
    (room : RoomFor 1 s) (more : List Byte) : (loseReception p more s).log.records = s.log.records ++
      [stampRecordOf p (c.settled (r.bytes ++ more)) (r.bytes ++ more) (r.bytes ++ more).length (r.bytes ++ more).length true
        s.log.nextSeq] := by
  have held : ((setRx p none s).port p).ctx = some c := by rw [setRx, port_setPort_same, ctx]
  have cut : (cutMark p (r.bytes ++ more) (r.bytes ++ more).length (setRx p none s)).log.records = s.log.records ++
      [stampRecordOf p (c.settled (r.bytes ++ more)) (r.bytes ++ more) (r.bytes ++ more).length (r.bytes ++ more).length true
        s.log.nextSeq] := by
    have log : (settleStamp p (stampArrived c (r.bytes ++ more)) (setRx p none s)).log = s.log :=
      (log_settleStamp ..).trans (log_setRx ..)
    have filed := (log_closeMark (congrArg Reception.ctx (reception_cut held (r.bytes ++ more))) mode (room.of log)
      (r.bytes ++ more) (r.bytes ++ more).length (r.bytes ++ more).length true).1
    rw [log] at filed
    rw [cutMark_some held, Nat.min_self, filed]
  rw [loseReception_forwarded rx stage]
  cases inLane with
  | true => simpa [State.count] using cut
  | false => exact cut

/-! ### A link DOWN, step by step (log 21) -/

section LinkDown

variable (p : Port) (more : List Byte) (s : State)

/-- The port DOWN, with the frame under reception and the egress side lost, and the uplink's ask forgotten. -/
def linkCut : State := echoLinkDown p (flushEgress p (loseReception p more (s.setPort p { s.port p with up := false })))

/-- LINK_DOWN raised where the port had been UP in RUNNING. -/
def linkWarned : State :=
  if ((linkCut p more s).port p).seenUp then raiseWithHold .linkDown (.port p) true .nothing (linkCut p more s)
  else linkCut p more s

/-- The selection of an uplink re-evaluated. -/
def linkGone : State :=
  if p.isUplink then reevaluate (linkWarned p more s).selectedPair .lost none (linkWarned p more s) else linkWarned p more s

theorem agent_linkGone : (linkGone p more s).agent = s.agent := by
  unfold linkGone linkWarned linkCut
  (repeat' split) <;> simp

theorem linkGoesDown_eq (lost : losesResetAnswer (s.port p) = true → s.agent.resetPending = none) :
    linkGoesDown p more s = linkGone p more s := by
  have whole : linkGoesDown p more s =
      if losesResetAnswer (s.port p) then takePendingReset (linkGone p more s) else linkGone p more s := rfl
  rw [whole]
  split
  case isTrue loses => simp only [takePendingReset, agent_linkGone, lost loses]
  case isFalse => rfl

/-- The steps keep the configuration, the date and the match table. -/
theorem linkGone_leaves : (linkGone p more s).cfg = s.cfg ∧ (linkGone p more s).anchor = s.anchor ∧
    (linkGone p more s).matchTab = s.matchTab := by
  unfold linkGone linkWarned linkCut
  (repeat' split) <;> simp

/-- What is left of the port itself: its link DOWN, nothing received and nothing to send. -/
theorem linkGone_unit : ∃ c n, (linkGone p more s).port p = { s.port p with
      up := false, rx := none, ctx := c, buffer := [], timing := [], general := [], tx := none
      stats := { Stats.addTransitDrops (flushedCount (s.port p)) (s.port p).stats with stamps := n } } ∧
    ((∃ r inLane, (s.port p).rx = some r ∧ r.stage = .forwarding inLane) → c = none) := by
  have start : (s.setPort p { s.port p with up := false }).port p = { s.port p with up := false } := port_setPort_same ..
  obtain ⟨c, n, lost, open_⟩ := loseReception_unit (p := p) (s := s.setPort p { s.port p with up := false }) (by rw [start]) more
  rw [start] at lost open_
  have cut : (linkCut p more s).port p = { s.port p with
      up := false, rx := none, ctx := c, buffer := [], timing := [], general := [], tx := none
      stats := { Stats.addTransitDrops (flushedCount (s.port p)) (s.port p).stats with stamps := n } } := by
    have flushed := flushEgress_unit p (loseReception p more (s.setPort p { s.port p with up := false }))
    rw [lost] at flushed
    have echo : (linkCut p more s).port p =
        (flushEgress p (loseReception p more (s.setPort p { s.port p with up := false }))).port p := by
      unfold linkCut echoLinkDown
      split <;> rfl
    rw [echo, flushed]
    rfl
  have down : ((linkCut p more s).port p).up = false := by rw [cut]
  have still : (linkGone p more s).still p = (linkCut p more s).still p := by
    unfold linkGone linkWarned
    (repeat' split) <;> simp
  exact ⟨c, n, (port_of_still still down).trans cut, open_⟩

theorem linkGone_partner : ((linkGone p more s).port p.partner).stats.transitDrops =
    ((loseReception p more (s.setPort p { s.port p with up := false })).port p.partner).stats.transitDrops := by
  have reception : (linkGone p more s).reception p.partner = (linkCut p more s).reception p.partner := by
    unfold linkGone linkWarned
    (repeat' split) <;> simp
  refine (congrArg Reception.transitDrops reception).trans (Eq.trans ?_ (flushEgress_partner p _))
  unfold linkCut echoLinkDown
  split <;> rfl

theorem linkWarned_active (seen : (s.port p).seenUp = true) : ((linkGone p more s).fault .linkDown).active = true := by
  obtain ⟨c, n, unit, -⟩ := linkGone_unit p more s
  have reception : (linkGone p more s).reception p = (linkCut p more s).reception p := by
    unfold linkGone linkWarned
    (repeat' split) <;> simp
  have seen' : ((linkCut p more s).port p).seenUp = true := by
    rw [← show ((linkGone p more s).port p).seenUp = ((linkCut p more s).port p).seenUp from congrArg Reception.seenUp reception,
      unit]
    exact seen
  have warned : ((linkWarned p more s).fault .linkDown).active = true := by
    rw [linkWarned, if_pos seen']
    exact active_raiseWithHold _ _ _ _ _ (by simp) (by simp) (by simp)
  unfold linkGone
  split
  · rw [fault_reevaluate _ _ _ _ _ (by simp) (by simp) (by simp), warned]
  · exact warned

theorem linkGone_requester (uplink : p.isUplink = true) :
    (linkGone p more s).echoOf p = { s.echoOf p with st := .idle, run := 0, sched := none } := by
  have back : (linkGone p more s).requester p = (linkCut p more s).requester p := by
    unfold linkGone linkWarned
    (repeat' split) <;> simp
  have before : (loseReception p more (s.setPort p { s.port p with up := false })).requester p = s.requester p :=
    (requester_loseReception ..).trans (requester_setPort _ _ _ _ rfl)
  have cut : (linkCut p more s).echoOf p = { (loseReception p more (s.setPort p { s.port p with up := false })).echoOf p with
      st := .idle, run := 0, sched := none } := by
    have same : (flushEgress p (loseReception p more (s.setPort p { s.port p with up := false }))).echoOf p =
        (loseReception p more (s.setPort p { s.port p with up := false })).echoOf p := by
      rw [State.echoOf, echo_flushEgress]
      rfl
    rw [linkCut, echoLinkDown, if_pos uplink, echoOf_setEcho_same, same]
  have idle : (((linkGone p more s).echoOf p).st == .idle) = true := (congrArg Requester.idle back).trans (by
    rw [State.requester, cut]
    rfl)
  have parts := congrArg (fun x : Requester => (x.nextId, x.window, x.p, x.run, x.stale, x.sched)) back
  have parts' := congrArg (fun x : Requester => (x.nextId, x.window, x.p, x.stale)) before
  simp only [State.requester, cut, Echo.requester, Prod.mk.injEq] at parts parts'
  obtain ⟨id, window, path, run, stale, sched⟩ := parts
  obtain ⟨id', window', path', stale'⟩ := parts'
  have st : ((linkGone p more s).echoOf p).st = .idle := by simpa using idle
  generalize (linkGone p more s).echoOf p = e at *
  cases e
  simp_all only

theorem linkWarned_beside (most : ∀ k : FaultKind, (s.response k).rank ≤ k.maxResponse.rank) :
    Beside (s.setPort p { s.port p with up := false }) (linkWarned p more s) := by
  have cut : Beside (s.setPort p { s.port p with up := false }) (linkCut p more s) :=
    ((beside_loseReception ..).trans (beside_flushEgress ..)).trans (beside_echoLinkDown ..)
  have most' : ∀ k : FaultKind, ((linkCut p more s).response k).rank ≤ k.maxResponse.rank := by
    have cfg : (linkCut p more s).cfg = s.cfg := cut.cfg
    simpa only [State.response, cfg] using most
  unfold linkWarned
  split
  · rw [raiseWithHold_plain _ _ _ _ _ most' (by simp) (by simp)]
    exact cut.trans (beside_raiseLinkDown ..)
  · exact cut

theorem log_linkGone {before : List LogRecord}
    (h : Files before (loseReception p more (s.setPort p { s.port p with up := false })).log) :
    Files before (linkGone p more s).log := by
  have kept := files_offerBare before
  have cut : Files before (linkCut p more s).log := by
    have : (linkCut p more s).log = (loseReception p more (s.setPort p { s.port p with up := false })).log := by
      unfold linkCut echoLinkDown
      split <;> simp
    rwa [this]
  have warned : Files before (linkWarned p more s).log := by
    unfold linkWarned
    split
    · exact logKept_raiseWithHold kept _ _ _ _ cut
    · exact cut
  unfold linkGone
  split
  · exact logKept_reevaluate kept _ _ _ warned
  · exact warned

end LinkDown

/-! ### A frame that its last bytes take beyond 9,216 -/

/-- A frame discarded for its length stays under reception. -/
theorem overrun_rx {p : Port} {s : State} {r : Rx} (made : r.stage ≠ .parsing) (long : 9216 ≤ r.bytes.length)
    (kept : r.stage ≠ .discarding) : ((overrun p r s).port p).rx = some { r with stage := .discarding } ∧
      ((overrun p r s).port p).up = (s.port p).up := by
  cases stage : r.stage with
  | parsing => exact absurd stage made
  | discarding => exact absurd stage kept
  | storingL2 =>
    rw [overrun_stored (.inl stage), port_setPort_same]
    exact ⟨rfl, rfl⟩
  | storingUdp a b c =>
    rw [overrun_stored (.inr ⟨a, b, c, stage⟩), port_setPort_same]
    exact ⟨rfl, rfl⟩
  | forwarding inLane =>
    have mark : ((overrunMark p r s).reception p).rx = some { r with stage := .discarding } ∧
        ((overrunMark p r s).reception p).up = (s.port p).up := by
      cases ctx : (s.port p).ctx with
      | none =>
        rw [overrunMark_none ctx, setRx, reception_setPort_same]
        exact ⟨rfl, rfl⟩
      | some c =>
        rw [(overrunMark_does ctx long).1]
        exact ⟨rfl, rfl⟩
    have same : (overrun p r s).reception p = (overrunMark p r s).reception p := by
      rw [overrun_forwarded stage]
      cases inLane with
      | true => exact (reception_arbitrate ..).trans (reception_cutArriving_ne (Port.partner_ne p).symm ..)
      | false => rfl
    exact ⟨(congrArg Reception.rx same).trans mark.1, (congrArg Reception.up same).trans mark.2⟩

theorem up_settleStamp (p : Port) (written : Bool) (s : State) : ((settleStamp p written s).port p).up = (s.port p).up := by
  cases ctx : (s.port p).ctx with
  | none => rw [settleStamp_none ctx]
  | some c =>
    obtain ⟨c', n, unit⟩ := settleStamp_unit ctx written
    rw [unit]

theorem up_forwardArriving (p : Port) (r : Rx) (ready : Bool) (s : State) :
    ((forwardArriving p r ready s).1.port p).up = (s.port p).up := by
  have admitted : ∀ f : FwdFrame, (admitFrame p.partner Config.maxFrame f s).1.port p = s.port p := fun f => by
    simp only [admitFrame, State.count]
    split <;> rw [port_partner_setPort]
  rw [forwardArriving, setRx, port_setPort_same, admitted]

theorem up_lookupFrame (p : Port) (r : Rx) (ended : Bool) (s : State) :
    ((lookupFrame p r ended s).port p).up = (s.port p).up := by
  have arbitrated : ∀ t : State, ((arbitrate p.partner t).port p).up = (t.port p).up := fun t =>
    congrArg Reception.up (reception_arbitrate ..)
  have pass : ((passFrame p r s).port p).up = (s.port p).up := by rw [passFrame, arbitrated, up_forwardArriving]
  unfold lookupFrame
  split
  · exact pass
  · split
    · exact pass
    · rename_i i e _
      have opened : ((openMark p i e r.ingress s).port p).up = (s.port p).up := by
        rw [show ((openMark p i e r.ingress s).port p).up = ((openMark p i e r.ingress s).reception p).up from rfl,
          reception_openMark]
        rfl
      unfold markFrame
      dsimp only
      split
      · rw [arbitrated]
        unfold settleArrived
        (repeat' split)
        · rw [writeStampNow, arbitrated, readyArriving, port_partner_setPort, up_settleStamp, up_forwardArriving, opened]
        · rw [up_forwardArriving, opened]
        · rw [up_forwardArriving, opened]
      · rw [loseStamp, up_settleStamp, up_forwardArriving, opened]
    · rw [setRx, port_setPort_same]
    · rw [setRx, port_setPort_same]

/-- The frame whose FRAME_OVERSIZE has been taken is discarded, its port as UP as before. -/
theorem oversizeArrives_discarding {p : Port} {more : List Byte} {s : State} {r : Rx} (rx : (s.port p).rx = some r)
    (kept : r.stage ≠ .discarding) (long : 9216 < (r.bytes ++ more).length) :
    (∃ r', ((oversizeArrives p more s).port p).rx = some r' ∧ r'.stage = .discarding) ∧
      ((oversizeArrives p more s).port p).up = (s.port p).up := by
  by_cases made : r.stage = .parsing
  · have len : Config.maxFrame < (r.grow more).upToOversize.bytes.length := by
      simp only [Rx.grow, Rx.upToOversize, List.length_take, Config.maxFrame]
      omega
    have kept' : (r.grow more).upToOversize.stage ≠ .discarding := kept
    have made' : (r.grow more).upToOversize.stage = .parsing := made
    obtain ⟨stage, looked, open_, rx'⟩ := lookedUp_lookupFrame p (r.grow more).upToOversize false s
    obtain ⟨rx'', up⟩ := overrun_rx (p := p) (s := lookupFrame p (r.grow more).upToOversize false s)
      (r := { (r.grow more).upToOversize with stage := stage }) looked len.le open_
    have arrived : oversizeArrives p more s = overrun p { (r.grow more).upToOversize with stage := stage }
        (lookupFrame p (r.grow more).upToOversize false s) := by
      simp only [oversizeArrives, rx, if_pos (And.intro kept' len), if_pos made', rx']
    rw [arrived]
    exact ⟨⟨_, rx'', rfl⟩, up.trans (up_lookupFrame ..)⟩
  · have cut : 9216 ≤ (tooLong r more).bytes.length := by
      simp only [tooLong, List.length_take]
      omega
    rw [oversizeArrives_made rx long kept made]
    obtain ⟨rx', up⟩ := overrun_rx (p := p) (s := s) (r := tooLong r more) made cut kept
    exact ⟨⟨_, rx', rfl⟩, up⟩

theorem flushedCount_eq (u : PortUnit) : flushedCount u = (u.buffer.filter (fun f => !f.cut)).length + (match u.tx with
    | some ⟨_, .forwarded f, _, _⟩ => if f.cut then 0 else 1
    | some ⟨_, .originated _ _, _, _⟩ => 0
    | none => 0) := by
  unfold flushedCount
  rcases u.tx with _ | ⟨_, _ | _, _, _⟩ <;> rfl

/-- Of a discarded frame no further byte counts. -/
theorem linkGoesDown_discarding {p : Port} {s : State} {r : Rx} (rx : (s.port p).rx = some r) (stage : r.stage = .discarding)
    (more more' : List Byte) : linkGoesDown p more s = linkGoesDown p more' s := by
  have rx' : ((s.setPort p { s.port p with up := false }).port p).rx = some r := by rw [port_setPort_same, rx]
  simp only [linkGoesDown, loseReception_dropped rx' (.inr stage)]

/-- Every key byte of a frame cut off where it stands is read from it, or zero (R133). -/
theorem keyBytes_whole (bytes : List Byte) (off : Nat) : (List.range 8).map (fun j =>
    if off + j < bytes.length then bytes.getD (off + j) 0 else 0) = (List.range 8).map (fun j => bytes.getD (off + j) 0) := by
  refine List.map_congr_left fun j _ => ?_
  split
  case isTrue => rfl
  case isFalse beyond => rw [List.getD_eq_default _ _ (Nat.le_of_not_lt beyond)]

/-- Settles O26: the steps of a link DOWN one after the other, each told by what it leaves. -/
theorem linkDownDoes : Obligations.LinkDownDoes := by
  refine fun p more s => ⟨fun h => ?dead, fun r t run up rx long oversize => ?long, fun run up answer short => ?_⟩
  case dead =>
    have dead : portLive s p = false := not_portLive_of h
    simp only [exec, execLinkDown, dead, Bool.false_eq_true, if_false]
  case long =>
    obtain ⟨kept, long⟩ := long
    obtain rfl : oversizeArrives p more s = t := Host.Outcome.next.inj ((exec_frameOversize run up).symm.trans oversize)
    obtain ⟨⟨r', rx', stage⟩, up'⟩ := oversizeArrives_discarding rx kept long
    have run' : (oversizeArrives p more s).run ≠ .held := by rwa [base_run (base_oversizeArrives p more s)]
    have left : oversizeArrives p [] (oversizeArrives p more s) = oversizeArrives p more s :=
      oversizeArrives_left rx' (.inl stage)
    simp only [exec, execLinkDown, portLive_of run up, portLive_of run' (up'.trans up), if_true, left]
    rw [linkGoesDown_discarding rx' stage more []]
  have live := portLive_of run up
  have arrives : oversizeArrives p more s = s := by
    cases rx : (s.port p).rx with
    | none => simp only [oversizeArrives, rx]
    | some r =>
      refine oversizeArrives_left rx ?_
      by_cases stage : r.stage = .discarding
      · exact .inl stage
      · exact .inr (not_lt.mp fun long => short r rx ⟨stage, long⟩)
  have taken : exec (.linkDown p more) s = .next (linkGone p more s) := by
    simp only [exec, execLinkDown, live, if_true, arrives, linkGoesDown_eq p more s answer]
  obtain ⟨c, n, unit, closed⟩ := linkGone_unit p more s
  obtain ⟨counted, uncounted⟩ := loseReception_partner (p := p) (s := s.setPort p { s.port p with up := false }) more
  obtain ⟨cfg, anchor, matchTab⟩ := linkGone_leaves p more s
  have start : (s.setPort p { s.port p with up := false }).port p = { s.port p with up := false } := port_setPort_same ..
  rw [start, port_setPort_partner, ← linkGone_partner] at counted uncounted
  refine ⟨_, taken, ?_⟩
  rw [unit]
  refine ⟨rfl, rfl, rfl, rfl, rfl, rfl, rfl, closed, rfl, rfl, rfl, ?_, counted, uncounted, linkWarned_active p more s,
    linkGone_requester p more s, cfg, anchor_date anchor, matchTab, fun most => ⟨fun uplink => ?_, fun down => ?_⟩,
    fun r inLane c rx stage ctx mode mem gap len => ?_⟩
  · exact congrArg (fun n => min 4294967295 ((s.port p).stats.transitDrops + n)) (flushedCount_eq (s.port p))
  · have beside := linkWarned_beside p more s most
    have last : linkGone p more s = reevaluate s.selectedPair .lost none (linkWarned p more s) := by
      rw [linkGone, if_pos uplink, selectedPair_of (s := s) beside.sources]
    have one := beside.reevaluate most s.selectedPair .lost none
    rw [last]
    exact ⟨one.sources, one.servo, inc_of_steady one.steady, one.lost, _, beside.sources, beside.servo,
      (beside.seen most).hold, beside.up, rfl⟩
  · have beside := linkWarned_beside p more s most
    rw [linkGone, if_neg (by simp [down])]
    exact ⟨beside.sources, beside.servo, inc_of_steady beside.steady⟩
  · have filed := log_loseReception (p := p) (s := s.setPort p { s.port p with up := false }) (r := r) (by rw [start, rx]) stage
      (by rw [start, ctx]) mode ⟨mem, gap, len⟩ more
    obtain ⟨later, records⟩ := log_linkGone p more s (before := _) (List.prefix_refl _)
    refine ⟨later, records.symm.trans ?_⟩
    rw [filed, stampRecordOf_eq, keyBytes_whole, List.append_assoc]
    rfl

end Sys2Proof.Machine
end

section
/-! The drift monitor beside its peers, its schedule among the rest: left as it is by the arbiter, by alerts, by records offered
to the Event Log, by faults raised and cleared, and by the re-evaluation of the selection (R164, R173). -/

namespace Sys2Proof.Machine

/-- An entry beside its send dates. -/
def PeerDyn.unsent (d : PeerDyn) : PeerDyn := { d with newer := none, older := none }

/-- The monitor beside the send dates of its peers, which the egress of a report moves (R166). -/
def DriftMonitor.aside (d : DriftMonitor) : DriftMonitor := { d with peers := d.peers.map PeerDyn.unsent }

theorem sched_of_aside {s t : State} (h : t.drift.aside = s.drift.aside) : t.drift.sched = s.drift.sched :=
  (congrArg DriftMonitor.sched h).trans rfl

theorem episode_of_aside {s t : State} (h : t.drift.aside = s.drift.aside) : t.drift.episode = s.drift.episode :=
  (congrArg DriftMonitor.episode h).trans rfl

theorem getD_map {α β : Type} {n : Nat} (v : Vector α n) (f : α → β) (d : α) (i : Nat) :
    (v.map f).getD i (f d) = f (v.getD i d) := by
  simp only [Vector.getD, Vector.toArray_map, Array.getD_eq_getD_getElem?, Array.getElem?_map, Option.getD_map]

/-- What every entry has beside its send dates. -/
theorem peer_of_aside {s t : State} (h : t.drift.aside = s.drift.aside) (i : Nat) : (t.peer i).unsent = (s.peer i).unsent := by
  have peers : t.drift.peers.map PeerDyn.unsent = s.drift.peers.map PeerDyn.unsent := congrArg DriftMonitor.peers h
  have entry := congrArg (fun v : Vector PeerDyn 32 => v.getD i PeerDyn.reset) peers
  have reset : PeerDyn.unsent PeerDyn.reset = PeerDyn.reset := rfl
  rw [← reset] at entry
  exact ((getD_map ..).symm.trans entry).trans (getD_map ..)

theorem aside_of {s t : State} (h : t.drift = s.drift) : t.drift.aside = s.drift.aside := by rw [h]

@[simp] theorem aside_setPort (s : State) (p : Port) (u : PortUnit) : (s.setPort p u).drift.aside = s.drift.aside := rfl
@[simp] theorem aside_count (s : State) (p : Port) (f : Stats → Stats) : (s.count p f).drift.aside = s.drift.aside := rfl
@[simp] theorem aside_setEcho (s : State) (p : Port) (e : Echo) : (s.setEcho p e).drift.aside = s.drift.aside := rfl
@[simp] theorem aside_setForm (s : State) (a : AlertForm) (v : FormState) : (s.setForm a v).drift.aside = s.drift.aside := rfl
@[simp] theorem aside_setFault (s : State) (k : FaultKind) (r : FaultRec) : (s.setFault k r).drift.aside = s.drift.aside := rfl
@[simp] theorem aside_setSource (s : State) (i : Nat) (e : Option SourceEntry) : (s.setSource i e).drift.aside = s.drift.aside := rfl

@[simp] theorem aside_watchSecond (s : State) : (watchSecond s).drift.aside = s.drift.aside := by
  simp only [watchSecond]
  split <;> simp

/-- An entry replaced by one alike but for its send dates. -/
theorem aside_setPeer {s : State} {i : Nat} {d : PeerDyn} (h : d.unsent = (s.peer i).unsent) :
    (s.setPeer i d).drift.aside = s.drift.aside := by
  have same : (s.drift.peers.setIfInBounds i d).map PeerDyn.unsent = s.drift.peers.map PeerDyn.unsent := by
    ext1 j hj
    rw [Vector.getElem_map, Vector.getElem_map, Vector.getElem_setIfInBounds]
    split
    · rename_i own
      subst own
      rw [h, State.peer, show s.drift.peers.getD i PeerDyn.reset = s.drift.peers[i] by simp [Vector.getD, hj]]
    · rfl
  exact congrArg (fun peers => { s.drift with peers := peers }) same

@[simp] theorem aside_reportPassesEgress (i : Nat) (rack ip : BitVec 32) (s : State) :
    (reportPassesEgress i rack ip s).drift.aside = s.drift.aside := by
  simp only [reportPassesEgress]
  split
  · exact aside_setPeer rfl
  · rfl

@[simp] theorem aside_recordEgress (q : Port) (tag : OrigTag) (s : State) : (recordEgress q tag s).drift.aside = s.drift.aside := by
  simp only [recordEgress, askPassesEgress]
  (repeat' split) <;> simp

@[simp] theorem aside_arbitrate (q : Port) (s : State) : (arbitrate q s).drift.aside = s.drift.aside := by
  simp only [arbitrate, grantQueued, grantForwarded]
  (repeat' split) <;> simp

@[simp] theorem aside_offerTiming (p : Port) (tag : OrigTag) (header : Nat) (bytes : List Byte) (s : State) :
    (offerTiming p tag header bytes s).1.drift.aside = s.drift.aside := by
  simp only [offerTiming]
  split <;> simp

@[simp] theorem aside_offerGeneral (p : Port) (tag : OrigTag) (header : Nat) (bytes : List Byte) (s : State) :
    (offerGeneral p tag header bytes s).1.drift.aside = s.drift.aside := by
  simp only [offerGeneral]
  split <;> simp

@[simp] theorem aside_takeInterval (p : Port) (s : State) : (takeInterval p s).drift.aside = s.drift.aside := by
  simp only [takeInterval]
  (repeat' split) <;> simp

@[simp] theorem aside_alertEvent (a : AlertForm) (clear : Bool) (subject : Subject) (d : AlertData) (s : State) :
    (alertEvent a clear subject d s).drift.aside = s.drift.aside := by
  simp only [alertEvent, suppressAlert]
  (repeat' split) <;> simp

@[simp] theorem aside_faultAlert (k : FaultKind) (clear : Bool) (subject : Subject) (d : AlertData) (s : State) :
    (faultAlert k clear subject d s).drift.aside = s.drift.aside := by
  simp only [faultAlert]
  split <;> simp

@[simp] theorem aside_offerBare (o : Offer) (s : State) : (offerBare o s).1.drift.aside = s.drift.aside := by
  simp only [offerBare, levelNotice]
  (repeat' split) <;> simp

@[simp] theorem aside_raiseLogFull (s : State) : (raiseLogFull s).drift.aside = s.drift.aside := by
  simp only [raiseLogFull, countRaise, activate]
  split <;> simp

@[simp] theorem aside_clearLogFull (s : State) : (clearLogFull s).drift.aside = s.drift.aside := by
  unfold clearLogFull deactivate
  split
  · dsimp only
    rw [aside_faultAlert]
    split <;> simp
  · rfl

@[simp] theorem aside_offerRecord (o : Offer) (s : State) : (offerRecord o s).drift.aside = s.drift.aside := by
  simp only [offerRecord]
  split <;> simp

@[simp] theorem aside_raiseFault (k : FaultKind) (subject : Subject) (record : Bool) (d : AlertData) (s : State) :
    (raiseFault k subject record d s).drift.aside = s.drift.aside := by
  simp only [raiseFault, countRaise, activate]
  (repeat' split) <;> simp

@[simp] theorem aside_clearFault (k : FaultKind) (subject : Subject) (record : Bool) (d : AlertData) (s : State) :
    (clearFault k subject record d s).drift.aside = s.drift.aside := by
  simp only [clearFault, deactivate]
  (repeat' split) <;> simp

@[simp] theorem aside_setSourceState (i : Nat) (st : SourceState) (s : State) :
    (setSourceState i st s).drift.aside = s.drift.aside := by
  simp only [setSourceState]
  split <;> simp

@[simp] theorem aside_unselect (i : Nat) (s : State) : (unselect i s).drift.aside = s.drift.aside := by
  simp only [unselect]
  split <;> simp

@[simp] theorem aside_setServoState (st : ServoState) (s : State) :
    (setServoState st s).drift.aside = s.drift.aside := by
  simp [setServoState]

@[simp] theorem aside_offerStateIfChanged (before : ServoState) (s : State) :
    (offerStateIfChanged before s).drift.aside = s.drift.aside := by
  simp only [offerStateIfChanged, offerState]
  split <;> simp

@[simp] theorem aside_select (old : Option (Nat × SourceEntry)) (new : Nat × SourceEntry) (reason : Reason)
    (sampled : Bool) (s : State) : (select old new reason sampled s).drift.aside = s.drift.aside := by
  simp only [select, clearHoldoverExpired, aside_clearFault, aside_offerStateIfChanged]
  (repeat' split) <;> simp [servoSwitches, servoFollows]

@[simp] theorem aside_endSelection (old : Nat × SourceEntry) (reason : Reason) (s : State) :
    (endSelection old reason s).drift.aside = s.drift.aside := by
  simp only [endSelection, aside_raiseFault, aside_offerStateIfChanged, aside_offerRecord]
  split <;> simp [servoHolds, handRate]

@[simp] theorem aside_reevaluate (old : Option (Nat × SourceEntry)) (why : Reason) (own : Option Nat) (s : State) :
    (reevaluate old why own s).drift.aside = s.drift.aside := by
  rcases reevaluate_shape old why own s with same | ⟨j, b, why', -, same⟩ | ⟨x, same⟩ <;> rw [same]
  · rw [aside_select]
  · rw [aside_endSelection]

@[simp] theorem aside_reevaluateOnHold (before : Bool) (s : State) :
    (reevaluateOnHold before s).drift.aside = s.drift.aside := by
  simp only [reevaluateOnHold]
  split <;> simp

@[simp] theorem aside_raiseWithHold (k : FaultKind) (subject : Subject) (record : Bool) (d : AlertData) (s : State) :
    (raiseWithHold k subject record d s).drift.aside = s.drift.aside := by
  simp [raiseWithHold]

@[simp] theorem aside_raiseLogFullAgain (s : State) : (raiseLogFullAgain s).drift.aside = s.drift.aside := by
  have active : ∀ t : State, (activate .logFull .self t).drift.aside = t.drift.aside := fun _ => rfl
  have counted : ∀ t : State, (countRaise .logFull t).drift.aside = t.drift.aside := fun _ => rfl
  simp only [raiseLogFullAgain]
  (repeat' split) <;> simp [active, counted]

@[simp] theorem aside_raiseAgain (expired : Bool) (s : State) : (raiseAgain expired s).drift.aside = s.drift.aside := by
  simp only [raiseAgain]
  (repeat' split) <;> simp

end Sys2Proof.Machine
end

section
/-! The end of the load of a full reset (R206, R22, R83, R100, R128, R164). -/

namespace Sys2Proof.Machine

/-! ### The image and the built-in defaults -/

theorem loadOutcome_first {first img : List Byte} (h : readAttempt first = some img) (second : List Byte) :
    loadOutcome first second = some (img, .image) := by
  simp only [loadOutcome, h]

theorem loadOutcome_retry {first second img : List Byte} (h : readAttempt first = none) (h' : readAttempt second = some img) :
    loadOutcome first second = some (img, .retry) := by
  simp only [loadOutcome, h, h', Option.map_some]

theorem loadOutcome_none {first second : List Byte} (h : readAttempt first = none) (h' : readAttempt second = none) :
    loadOutcome first second = none := by
  simp only [loadOutcome, h, h', Option.map_none]

/-- The trim of a load is plausible, so that the Servo takes it as it is (R83). -/
def TrimPlausible (c : Settings) : Prop :=
  max (-((c.servo.plausibility : Int) * 1024000)) (min ((c.servo.plausibility : Int) * 1024000) c.trim) = c.trim

theorem trimPlausible_imageSettings (img : List Byte) : TrimPlausible (imageSettings img) := by
  have limit : ((((servoParamsOf (servoArgOf (slice img 3049 32))).plausibility * Config.unitsPerPpm : Nat)) : Int) =
      ((imageSettings img).servo.plausibility : Int) * 1024000 := Int.natCast_mul _ _
  have trim : (imageSettings img).trim = clampInt (-((imageSettings img).servo.plausibility * 1024000))
      ((imageSettings img).servo.plausibility * 1024000) (intAt img 3114 4) := by
    rw [← limit]
    rfl
  rw [TrimPlausible, trim, clampInt]
  omega

theorem trimPlausible_default : TrimPlausible Settings.default := by
  unfold TrimPlausible
  decide

/-- The responses of the built-in defaults are within their maxima (R185). -/
theorem default_responses (k : FaultKind) : (Settings.default.responses[k.ix]).rank ≤ k.maxResponse.rank := by
  cases k <;> decide

/-! ### The engine enters RUNNING -/

/-- The state of a full load before its schedules start. -/
def loadBase (c : Settings) (bank : Vector MatchEntry 64) (source : LoadSource) (version : Nat) (s : State) : State :=
  { s with
    run := .running, cfg := c
    matchTab := { bank0 := bank, bank1 := bank, active := false, armed := false }
    agent := { s.agent with loadSource := source, imageVersion := version }
    servo := { s.servo with f := c.trim, r := c.trim }
    clock := { s.clock with inc := incrementOf c.trim }
    ports := s.ports.map (fun u => { u with seenUp := u.up }) }

theorem enterRunning_applyFull {c : Settings} (plausible : TrimPlausible c) (bank : Vector MatchEntry 64) (source : LoadSource)
    (version : Nat) (s : State) : enterRunning (applyFull c bank source version s) =
      startReports (startEcho .u1 (startEcho .u0 (loadBase c bank source version s))) := by
  have trim : loadTrim ((applyFull c bank source version s).setRun .running) =
      handRate c.trim (((applyFull c bank source version s).setRun .running).setServo { s.servo with f := c.trim }) := by
    have value : clampInt (-plausibleUnits ((applyFull c bank source version s).setRun .running))
        (plausibleUnits ((applyFull c bank source version s).setRun .running)) c.trim = c.trim := by
      rw [plausibleUnits_eq]
      exact plausible
    have cfg : ((applyFull c bank source version s).setRun .running).cfg = c := rfl
    simp only [loadTrim, cfg, value]
    rfl
  have base : (loadTrim ((applyFull c bank source version s).setRun .running)).setPorts
      ((loadTrim ((applyFull c bank source version s).setRun .running)).ports.map markSeen) =
      loadBase c bank source version s := by
    rw [trim]
    rfl
  rw [← base]
  rfl

/-- The echo schedule of an uplink started, where it starts, with an interval expiry at once (R22). -/
def askedAt (p : Port) (starts : Prop) [Decidable starts] (s : State) : State :=
  if starts then takeInterval p (s.setEcho p { s.echoOf p with sched := some s.clock.up }) else s

theorem startEcho_eq {p : Port} {s : State} {starts : Prop} [Decidable starts] (h : echoRuns s p = true ↔ starts) :
    startEcho p s = askedAt p starts s := if_congr h rfl rfl

/-- What a schedule that starts leaves of the rest of the engine. -/
structure Begins (s t : State) : Prop where
  anchor : t.anchor = s.anchor
  cfg : t.cfg = s.cfg
  matchTab : t.matchTab = s.matchTab
  agent : t.agent = s.agent
  servo : t.servo = s.servo
  clock : t.clock = s.clock
  sources : t.sources = s.sources
  reception : ∀ q, t.reception q = s.reception q

theorem Begins.trans {s t u : State} (h : Begins s t) (k : Begins t u) : Begins s u :=
  ⟨k.anchor.trans h.anchor, k.cfg.trans h.cfg, k.matchTab.trans h.matchTab, k.agent.trans h.agent, k.servo.trans h.servo,
    k.clock.trans h.clock, k.sources.trans h.sources, fun q => (k.reception q).trans (h.reception q)⟩

section
variable (p : Port) (starts : Prop) [Decidable starts] (s : State)

theorem begins_askedAt : Begins s (askedAt p starts s) := by
  unfold askedAt
  split
  · constructor <;> simp
  · exact ⟨rfl, rfl, rfl, rfl, rfl, rfl, rfl, fun _ => rfl⟩

theorem askedAt_eq {n : Nat} (now : s.clock.up = n) : askedAt p starts s =
    if starts then takeInterval p (s.setEcho p { s.echoOf p with sched := some n }) else s := by
  subst now
  rfl

theorem askedAt_requester_ne {q : Port} (h : p.lane ≠ q.lane) : (askedAt p starts s).requester q = s.requester q := by
  have begun : (s.setEcho p { s.echoOf p with sched := some s.clock.up }).requester q = s.requester q := by
    rw [State.requester, echoOf_setEcho, if_neg h, port_setEcho]
    rfl
  unfold askedAt
  split
  · rw [takeInterval_requester_ne _ _ _ h, begun]
  · rfl

variable {p starts s}

/-- A schedule that starts: measured from now, with an ask built where none is awaited (R22, R23). -/
theorem askedAt_started (h : starts) (up : (s.port p).up = true) :
    ((askedAt p starts s).requester p).sched = some s.clock.up ∧
    ((s.requester p).idle = true → ((askedAt p starts s).requester p).nextId = ((s.requester p).nextId + 1) % 65536 ∧
      ((s.requester p).held < 8 → ((askedAt p starts s).requester p).idle = false)) := by
  refine ⟨?_, fun idle => startedEcho_requester p s starts h (by simpa [State.requester, Echo.requester] using idle) up⟩
  rw [askedAt, if_pos h, (takeInterval_echo p _).2.2, echoOf_setEcho_same]

end

/-! ### Both schedules -/

theorem echoRuns_of {s t : State} {p : Port} (run : t.run = s.run) (agent : t.agent = s.agent) (cfg : t.cfg = s.cfg)
    (up : (t.port p).up = (s.port p).up) : echoRuns t p = echoRuns s p := by
  rw [echoRuns, echoRuns, State.portRec, State.portRec, run, agent, cfg, up]

section Both

variable (starts : Port → Prop) [DecidablePred starts] (s : State)

/-- The schedules of both uplinks started, where they start, U0 before U1 (log 20). -/
def bothAsked : State := askedAt .u1 (starts .u1) (askedAt .u0 (starts .u0) s)

theorem begins_bothAsked : Begins s (bothAsked starts s) := (begins_askedAt ..).trans (begins_askedAt ..)

theorem bothAsked_eq : bothAsked starts s =
    let asked := fun (p : Port) (x : State) =>
      if starts p then takeInterval p (x.setEcho p { x.echoOf p with sched := some s.clock.up }) else x
    asked .u1 (asked .u0 s) := by
  have now : (askedAt .u0 (starts .u0) s).clock.up = s.clock.up := congrArg Clock.up (begins_askedAt ..).clock
  rw [bothAsked, askedAt_eq _ _ _ now]
  rfl

variable {starts s}

theorem startEchos_eq (runs : ∀ p, p.isUplink = true → (echoRuns s p = true ↔ starts p)) :
    startEcho .u1 (startEcho .u0 s) = bothAsked starts s := by
  have begins := begins_askedAt .u0 (starts .u0) s
  rw [startEcho_eq (runs .u0 rfl)]
  refine startEcho_eq ?_
  rw [echoRuns_of (anchor_run begins.anchor) begins.agent begins.cfg (congrArg Reception.up (begins.reception .u1))]
  exact runs .u1 rfl

/-- Each uplink that starts has its expiry at once, neither touching the other's. -/
theorem bothAsked_started {p : Port} (uplink : p.isUplink = true) (start : starts p) (up : (s.port p).up = true) :
    ((bothAsked starts s).requester p).sched = some s.clock.up ∧
    ((s.requester p).idle = true →
      ((bothAsked starts s).requester p).nextId = ((s.requester p).nextId + 1) % 65536 ∧
      ((s.requester p).held < 8 → ((bothAsked starts s).requester p).idle = false)) := by
  cases p with
  | u0 =>
    rw [bothAsked, askedAt_requester_ne _ _ _ (by decide)]
    exact askedAt_started start up
  | u1 =>
    have begins := begins_askedAt .u0 (starts .u0) s
    have kept := askedAt_requester_ne .u0 (starts .u0) s (q := .u1) (by decide)
    have started := askedAt_started (p := .u1) (s := askedAt .u0 (starts .u0) s) start
      ((congrArg Reception.up (begins.reception .u1)).trans up)
    rw [kept, begins.clock] at started
    exact started
  | d0 => cases uplink
  | d1 => cases uplink

end Both

section Begun

variable (c : Settings) (bank : Vector MatchEntry 64) (source : LoadSource) (version : Nat) (s : State)

/-- The state of a full load with the schedules of its uplinks started, U0 before U1 (log 20). -/
def loadBegun : State :=
  bothAsked (fun p => s.agent.reload = false ∧ (s.port p).up = true ∧ (c.ports.get p).echoOn = true)
    (loadBase c bank source version s)

theorem loadBase_port (p : Port) : (loadBase c bank source version s).port p = { s.port p with seenUp := (s.port p).up } := by
  cases p <;> rfl

theorem loadBase_requester (p : Port) : (loadBase c bank source version s).requester p = s.requester p := by
  rw [State.requester, loadBase_port]
  rfl

theorem loadBase_runs (p : Port) (uplink : p.isUplink = true) : echoRuns (loadBase c bank source version s) p = true ↔
    s.agent.reload = false ∧ (s.port p).up = true ∧ (c.ports.get p).echoOn = true := by
  rw [echoRuns_iff, loadBase_port]
  exact ⟨fun h => h.2.2, fun h => ⟨uplink, rfl, h⟩⟩

theorem startEchos_loadBase : startEcho .u1 (startEcho .u0 (loadBase c bank source version s)) =
    loadBegun c bank source version s := startEchos_eq (loadBase_runs c bank source version s)

theorem begins_loadBegun : Begins (loadBase c bank source version s) (loadBegun c bank source version s) :=
  begins_bothAsked ..

theorem loadBegun_started {p : Port} (uplink : p.isUplink = true) (reload : s.agent.reload = false)
    (up : (s.port p).up = true) (on : (c.ports.get p).echoOn = true) :
    ((loadBegun c bank source version s).requester p).sched = some s.clock.up ∧
    ((s.requester p).idle = true →
      ((loadBegun c bank source version s).requester p).nextId = ((s.requester p).nextId + 1) % 65536 ∧
      ((s.requester p).held < 8 → ((loadBegun c bank source version s).requester p).idle = false)) := by
  have up' : ((loadBase c bank source version s).port p).up = true := by rw [loadBase_port]; exact up
  rw [← loadBase_requester c bank source version s p]
  exact bothAsked_started uplink ⟨reload, up, on⟩ up'

/-- The state of a full load with all its schedules started (R164). -/
def loadReady : State := startReports (loadBegun c bank source version s)

theorem begins_loadReady : Begins (loadBase c bank source version s) (loadReady c bank source version s) :=
  (begins_loadBegun ..).trans ⟨rfl, rfl, rfl, rfl, rfl, rfl, rfl, fun _ => rfl⟩

/-- The end of the load: SETTINGS_FAULT after the built-in defaults. -/
def loadDone : State :=
  if source = .defaults then raiseWithHold .settingsFault .self true .nothing (loadReady c bank source version s)
  else loadReady c bank source version s

/-- What a read attempt, or two that failed, give a load (R206). -/
def LoadGives (first second : List Byte) : Prop :=
  (∃ img, readAttempt first = some img ∧ c = imageSettings img ∧ bank = imageBank img ∧ source = .image ∧ version = 1) ∨
  (readAttempt first = none ∧
    ∃ img, readAttempt second = some img ∧ c = imageSettings img ∧ bank = imageBank img ∧ source = .retry ∧ version = 1) ∨
  (readAttempt first = none ∧ readAttempt second = none ∧ c = Settings.default ∧ bank = defaultBank ∧
    source = .defaults ∧ version = 0)

variable {c bank source version}

theorem LoadGives.default {first second : List Byte} (h : LoadGives c bank source version first second)
    (defaults : source = .defaults) : c = Settings.default := by
  rcases h with ⟨_, _, _, _, h, _⟩ | ⟨_, _, _, _, _, h, _⟩ | ⟨_, _, h, _⟩
  · cases h.symm.trans defaults
  · cases h.symm.trans defaults
  · exact h

theorem finishLoad_eq {first second : List Byte} (h : LoadGives c bank source version first second) :
    finishLoad first second s = loadDone c bank source version s := by
  rcases h with ⟨img, read, rfl, rfl, rfl, rfl⟩ | ⟨failed, img, read, rfl, rfl, rfl, rfl⟩ | ⟨failed, failed', rfl, rfl, rfl, rfl⟩
  · simp only [finishLoad, loadOutcome_first read, enterRunning_applyFull (trimPlausible_imageSettings img), startEchos_loadBase]
    rfl
  · simp only [finishLoad, loadOutcome_retry failed read, enterRunning_applyFull (trimPlausible_imageSettings img),
      startEchos_loadBase]
    rfl
  · simp only [finishLoad, loadOutcome_none failed failed', enterRunning_applyFull trimPlausible_default, startEchos_loadBase]
    rfl

/-- SETTINGS_FAULT raised under the built-in defaults is without a re-evaluation. -/
theorem loadDone_defaults (defaults : source = .defaults) (default : c = Settings.default) : loadDone c bank source version s =
    raiseFault .settingsFault .self true .nothing (loadReady c bank source version s) := by
  rw [loadDone, if_pos defaults]
  refine raiseWithHold_plain _ _ _ _ _ (fun k => ?_) (by simp) (by simp)
  rw [State.response, (begins_loadReady ..).cfg]
  exact default ▸ default_responses k

/-- What a raise of SETTINGS_FAULT leaves of a load. -/
theorem loadDone_leaves (default : source = .defaults → c = Settings.default) :
    let t := loadDone c bank source version s
    let ready := loadReady c bank source version s
    t.anchor = ready.anchor ∧ t.cfg = ready.cfg ∧ t.matchTab = ready.matchTab ∧ t.agent = ready.agent ∧
      t.servo = ready.servo ∧ t.steady = ready.steady ∧ t.sources = ready.sources ∧
      t.drift.sched = ready.drift.sched ∧ (∀ p, t.reception p = ready.reception p) ∧
      ∀ p, t.requester p = ready.requester p := by
  by_cases defaults : source = .defaults
  · rw [loadDone_defaults s defaults (default defaults)]
    simp [sched_of_aside (aside_raiseFault ..)]
  · rw [loadDone, if_neg defaults]
    simp

end Begun

/-- Settles O22: the defaults field by field, and the load by its attempts. -/
theorem theLoadOfAFullResetEnds : Obligations.TheLoadOfAFullResetEnds := by
  refine ⟨⟨rfl, by decide⟩, fun first second s => ⟨fun idle => ?_, fun loading c bank source version gives => ?_⟩⟩
  · simp only [exec, execSettingsLoadEnd, if_neg idle]
  · have gives : LoadGives c bank source version first second := gives
    have taken : exec (.settingsLoadEnd first second) s = .next (loadDone c bank source version s) := by
      simp only [exec, execSettingsLoadEnd, if_pos loading, finishLoad_eq s gives]
    obtain ⟨anchor, cfg, matchTab, agent, servo, steady, sources, sched, reception, requester⟩ :=
      loadDone_leaves (bank := bank) (version := version) s gives.default
    have begins := begins_loadReady c bank source version s
    have ports := fun p => (reception p).trans (begins.reception p)
    refine ⟨_, taken, (anchor_run anchor).trans (anchor_run begins.anchor), cfg.trans begins.cfg, matchTab.trans begins.matchTab,
      agent.trans begins.agent, servo.trans begins.servo, ?inc, (anchor_date anchor).trans ((congrArg Clock.date begins.clock).trans rfl),
      (anchor_up anchor).trans ((congrArg Clock.up begins.clock).trans rfl), sources.trans begins.sources, fun p => ?ports, ?sched,
      fun p uplink reload up on => ?asks, fun defaults => ?fault, ?whole⟩
    case inc => exact (inc_of_steady steady).trans (congrArg Clock.inc begins.clock)
    case ports =>
      have same := ports p
      rw [State.reception, State.reception, loadBase_port] at same
      exact ⟨congrArg Reception.up same, congrArg Reception.seenUp same⟩
    case sched =>
      have now : (loadBegun c bank source version s).clock.up = s.clock.up :=
        (congrArg Clock.up (begins_loadBegun c bank source version s).clock).trans rfl
      rw [sched, ← now]
      rfl
    case asks =>
      obtain ⟨sched, asked⟩ := loadBegun_started c bank source version s uplink reload up on
      have same : (loadDone c bank source version s).requester p = (loadBegun c bank source version s).requester p := requester p
      rw [← same] at sched asked
      refine ⟨sched, fun idle => ?_⟩
      obtain ⟨next, busy⟩ := asked (by simp [State.requester, Echo.requester, idle])
      exact ⟨next, fun room => State.not_idle (busy room)⟩
    case fault =>
      rw [loadDone_defaults s defaults (gives.default defaults)]
      exact active_raiseFault _ _ _ _ _ (by simp)
    case whole =>
      have now' : (loadBegun c bank source version s).clock.up = s.clock.up :=
        (congrArg Clock.up (begins_loadBegun c bank source version s).clock).trans rfl
      rw [loadDone, loadReady, startReports, now', loadBegun, bothAsked_eq]
      rfl

end Sys2Proof.Machine
end

section
/-! The end of the load of a SOFT_RELOAD (R211). -/

namespace Sys2Proof.Machine

theorem cfg_applyServo (p : ServoParams) (width limit : Nat) (s : State) :
    (applyServo p width limit s).cfg = { s.cfg with servo := p, secWidth := width, secLimit := limit } := by
  unfold applyServo
  dsimp only
  split <;> simp

section Reload

variable (c : Settings) (bank : Vector MatchEntry 64) (s : State)

/-- The settings of a reload with the configuration in force but for the Servo's part, which acts last. -/
theorem applyReload_leaves : (applyReload c bank s).cfg = { c with trim := s.cfg.trim } ∧
    (applyReload c bank s).agent = { s.agent with imageVersion := 1 } ∧
    (applyReload c bank s).matchTab = { s.matchTab with bank0 := bank, bank1 := bank } ∧
    (applyReload c bank s).anchor = s.anchor := by
  unfold applyReload
  dsimp only
  rw [cfg_judgePulse, cfg_applyServo, cfg_reevaluateOnHold]
  refine ⟨rfl, ?_, ?_, ?_⟩ <;> simp

theorem engineClass_setClock (k : Clock) : (s.setClock k).engineClass = s.engineClass := rfl

/-- A pulse judged by the class and the class limit in force (R13). -/
theorem secondEnd_judgePulse (pulse : Option Nat) : (judgePulse pulse s).clock.secondEnd =
    if s.cfg.secLimit < (judgePulse pulse s).engineClass then none else pulse := by
  have cls : (judgePulse pulse s).engineClass = s.engineClass := by
    unfold judgePulse watchSecond
    split <;> rfl
  rw [cls]
  unfold judgePulse watchSecond
  rw [engineClass_setClock, State.setClock_cfg]
  split <;> rfl

theorem secondEnd_applyReload : (applyReload c bank s).clock.secondEnd =
    if c.secLimit < (applyReload c bank s).engineClass then none else s.clock.secondEnd := by
  unfold applyReload
  dsimp only
  rw [secondEnd_judgePulse, cfg_applyServo]

theorem completeSoft_schedule (expired : Bool) : (completeSoft expired s).drift.sched = some ⟨s.clock.up, 0⟩ := by
  have now : (startEcho .u1 (startEcho .u0 s)).clock.up = s.clock.up := by simp
  rw [completeSoft, sched_of_aside (aside_raiseAgain ..), ← now]
  rfl

end Reload

/-- Settles O23: a passing attempt put in force, two failing ones told, and the soft reset completed after either. -/
theorem theReloadOfASoftResetEnds : Obligations.TheReloadOfASoftResetEnds := by
  refine ⟨fun first second s => ⟨fun none_ => ?_, fun reload => ⟨fun img read => ?_, fun failed failed' => ?_⟩⟩,
    fun c bank s => secondEnd_applyReload c bank s⟩
  · simp only [exec, execSoftReloadEnd, none_, Bool.false_eq_true, if_false]
  · have taken : exec (.softReloadEnd first second) s = .next (completeSoft s.servo.expired
        (applyReload (imageSettings img) (imageBank img) { s with agent := { s.agent with reload := false } })) := by
      rcases read with read | ⟨failed, read⟩
      · simp only [exec, execSoftReloadEnd, reload, if_true, finishReload, loadOutcome_first read]
        rfl
      · simp only [exec, execSoftReloadEnd, reload, if_true, finishReload, loadOutcome_retry failed read]
        rfl
    obtain ⟨cfg, agent, matchTab, anchor⟩ := applyReload_leaves (imageSettings img) (imageBank img)
      { s with agent := { s.agent with reload := false } }
    refine ⟨_, taken, ?_, ?_, ?_, ?_, ?_, ?_, rfl⟩
    · rw [agent_completeSoft, agent]
    · rw [cfg_completeSoft, cfg]
    · rw [matchTab_completeSoft, matchTab]
    · exact (anchor_run (anchor_completeSoft ..)).trans (anchor_run anchor)
    · exact (anchor_date (anchor_completeSoft ..)).trans (anchor_date anchor)
    · rw [completeSoft_schedule, anchor_up anchor]
  · have taken : exec (.softReloadEnd first second) s = .next (raiseWithHold .settingsFault .self true .nothing
        (completeSoft s.servo.expired { s with agent := { s.agent with reload := false } })) := by
      simp only [exec, execSoftReloadEnd, reload, if_true, finishReload, loadOutcome_none failed failed']
      rfl
    refine ⟨_, taken, ?_, ?_, ?_, ?_, ?_, ?_, active_raiseWithHold _ _ _ _ _ (by simp) (by simp) (by simp)⟩
    · rw [agent_raiseWithHold, agent_completeSoft]
    · rw [cfg_raiseWithHold, cfg_completeSoft]
    · rw [matchTab_raiseWithHold, matchTab_completeSoft]
    · exact (anchor_run (anchor_raiseWithHold ..)).trans (anchor_run (anchor_completeSoft ..))
    · exact (anchor_date (anchor_raiseWithHold ..)).trans (anchor_date (anchor_completeSoft ..))
    · rw [sched_of_aside (aside_raiseWithHold ..), completeSoft_schedule]

end Sys2Proof.Machine
end

section
/-! WRITE_SERVO, WRITE_DRIFT and WRITE_FAULT, and what follows at once (R13, R64, R76, R80, R181, R186). -/

namespace Sys2Proof.Machine

/-! ### The limits of the arguments -/

theorem servoLimited_iff (a : ServoArg) : servoLimited a = false ↔
    (servoParamsOf a).stepThreshold = a.stepThreshold.toNat ∧ (servoParamsOf a).lockWindow = a.lockWindow.toNat ∧
      (servoParamsOf a).lockCount = a.lockCount.toNat ∧ (servoParamsOf a).unlockCount = a.unlockCount.toNat ∧
      (servoParamsOf a).sp = a.sp.toNat ∧ (servoParamsOf a).si = a.si.toNat ∧
      (servoParamsOf a).catchRate = a.catchRate.toNat ∧ (servoParamsOf a).plausibility = a.plausibility.toNat ∧
      (servoParamsOf a).holdoverLimit = a.holdoverLimit.toNat ∧ secWidthOf a = a.secWidth.toNat ∧
      secLimitOf a = a.secLimit.toNat := by
  simp only [servoLimited, Bool.or_eq_false_iff, bne_eq_false_iff_eq, and_assoc]

theorem driftLimited_iff (a : DriftArg) : driftLimited a = false ↔
    (driftParamsOf a).barTime = a.barTime.toNat ∧ (driftParamsOf a).k = a.exponent.toInt ∧
      (driftParamsOf a).roundTrip = a.roundTrip.toNat ∧ (driftParamsOf a).offsetThreshold = a.offsetThreshold.toNat ∧
      (driftParamsOf a).driftThreshold = a.driftThreshold.toNat ∧ (driftParamsOf a).quorum = a.quorum.toNat ∧
      holdoffOf a = a.alertHoldoff.toNat ∧ thresholdOf a = a.logThreshold.toNat := by
  simp only [driftLimited, Bool.or_eq_false_iff, bne_eq_false_iff_eq, and_assoc]

theorem servoParamsOf_eq (a : ServoArg) : servoParamsOf a =
    { stepThreshold := max 1000 (min 999999999 a.stepThreshold.toNat)
      lockWindow := min (max 50 (min 100000 a.lockWindow.toNat)) (max 1000 (min 999999999 a.stepThreshold.toNat) - 1)
      lockCount := max 2 (min 32 a.lockCount.toNat), unlockCount := max 1 (min 16 a.unlockCount.toNat)
      sp := min 8 a.sp.toNat, si := min 12 a.si.toNat, catchRate := max 10 (min 500 a.catchRate.toNat)
      plausibility := max 10 (min 500 a.plausibility.toNat), holdoverLimit := max 10 (min 86400 a.holdoverLimit.toNat) } := by
  simp only [servoParamsOf, clampNat_zero, Nat.min_comm _ 8, Nat.min_comm _ 12]
  rfl

theorem secLimitOf_eq (a : ServoArg) : secLimitOf a = min 6 a.secLimit.toNat := (clampNat_zero ..).trans (Nat.min_comm ..)

theorem exec_writeServo {a : ServoArg} {s : State} (turn : hasTurn 14 (.writeServo a) s = true) :
    exec (.writeServo a) s = .next (deliver 14 ((writeServo a s).1, (writeServo a s).2, [])) :=
  congrArg Host.Outcome.next (runCommand_of_hasTurn turn _)

theorem exec_writeDrift {a : DriftArg} {s : State} (turn : hasTurn 15 (.writeDrift a) s = true) :
    exec (.writeDrift a) s = .next (deliver 15 ((writeDrift a s).1, (writeDrift a s).2, [])) :=
  congrArg Host.Outcome.next (runCommand_of_hasTurn turn _)

theorem exec_writeFault {kind response : Byte} {s : State} (turn : hasTurn 16 (.writeFault kind response) s = true) :
    exec (.writeFault kind response) s =
      .next (deliver 16 ((writeFault kind response s).1, (writeFault kind response s).2, [])) :=
  congrArg Host.Outcome.next (runCommand_of_hasTurn turn _)

/-! ### The rates under new parameters -/

section Rates

variable (p : ServoParams) (width limit : Nat) (s : State)

/-- F limited to the plausibility limit written (R80). -/
def writtenF : Int := max (-((p.plausibility : Int) * 1024000)) (min ((p.plausibility : Int) * 1024000) s.servo.f)

/-- The rate that a write sets, if it sets one: that of a catch-down whose rate changes (R64), or the limited F that r follows
(R80). -/
def writtenRate : Option Int :=
  if s.servo.catchDown = true ∧ p.catchRate ≠ s.cfg.servo.catchRate then some (-((p.catchRate : Int) * 1024000))
  else if writtenF p s ≠ s.servo.f ∧ (s.servo.st = .unset ∨ s.servo.st = .freerun ∨ s.servo.st = .holdover) then
    some (writtenF p s)
  else none

variable {s} in
/-- F limited to a value, r following it in the states in which it follows F (R80). -/
theorem clampF_eq {v : Int} (value : clampInt (-plausibleUnits s) (plausibleUnits s) s.servo.f = v) : clampF s =
    if v = s.servo.f then s
    else if s.servo.st = .unset ∨ s.servo.st = .freerun ∨ s.servo.st = .holdover then
      handRate v (s.setServo { s.servo with f := v })
    else s.setServo { s.servo with f := v } := by
  unfold clampF
  rw [value]
  dsimp only
  by_cases same : v = s.servo.f
  · rw [if_pos same, if_pos same]
  · rw [if_neg same, if_neg same]
    cases st : s.servo.st <;> simp

/-- The parameters in force, F limited, and the rate that is set, if one is, handed to the clock (R80, R68). -/
def servoRated (rate : Option Int) : State := { s with
  cfg := { s.cfg with servo := p, secWidth := width, secLimit := limit }
  servo := { s.servo with f := writtenF p s, r := rate.getD s.servo.r }
  clock := { s.clock with inc := (rate.map incrementOf).getD s.clock.inc } }

theorem clampInt_written : clampInt (-plausibleUnits (s.setCfg { s.cfg with servo := p, secWidth := width, secLimit := limit }))
    (plausibleUnits (s.setCfg { s.cfg with servo := p, secWidth := width, secLimit := limit })) s.servo.f = writtenF p s := by
  rw [plausibleUnits_eq]
  rfl

theorem clampF_written : clampF (s.setCfg { s.cfg with servo := p, secWidth := width, secLimit := limit }) =
    servoRated p width limit s
      (if writtenF p s ≠ s.servo.f ∧ (s.servo.st = .unset ∨ s.servo.st = .freerun ∨ s.servo.st = .holdover) then
        some (writtenF p s) else none) := by
  rw [clampF_eq (v := writtenF p s) (clampInt_written p width limit s), State.setCfg_servo]
  by_cases same : writtenF p s = s.servo.f
  · rw [if_pos same, if_neg (by simp [same]), servoRated, same]
    rfl
  · rw [if_neg same]
    by_cases follows : s.servo.st = .unset ∨ s.servo.st = .freerun ∨ s.servo.st = .holdover
    · rw [if_pos follows, if_pos ⟨same, follows⟩]
      rfl
    · rw [if_neg follows, if_neg fun h => follows h.2]
      rfl

/-- The state of a write before the holdover limit and the pulse are judged. -/
def servoWritten : State := servoRated p width limit s (writtenRate p s)

theorem handRate_servoRated (v : Int) (rate : Option Int) :
    handRate v (servoRated p width limit s rate) = servoRated p width limit s (some v) := rfl

theorem catchRate_servoRated (rate : Option Int) :
    catchRate (servoRated p width limit s rate) = -((p.catchRate : Int) * 1024000) :=
  congrArg Neg.neg (Int.natCast_mul _ _)

/-- A new catch-down rate, forced where catch-down runs (R64). -/
theorem forced_servoRated (rate : Option Int) :
    (if (servoRated p width limit s rate).servo.catchDown = true ∧ p.catchRate ≠ s.cfg.servo.catchRate then
      handRate (catchRate (servoRated p width limit s rate)) (servoRated p width limit s rate)
    else servoRated p width limit s rate) = servoRated p width limit s
      (if s.servo.catchDown = true ∧ p.catchRate ≠ s.cfg.servo.catchRate then some (-((p.catchRate : Int) * 1024000))
      else rate) := by
  rw [catchRate_servoRated, handRate_servoRated]
  by_cases catching : s.servo.catchDown = true ∧ p.catchRate ≠ s.cfg.servo.catchRate
  · rw [if_pos catching]
    exact if_pos catching
  · rw [if_neg catching]
    exact if_neg catching

theorem applyServo_eq : applyServo p width limit s =
    judgePulse s.clock.secondEnd (judgeHoldover (servoWritten p width limit s)) := by
  unfold applyServo
  dsimp only
  rw [clampF_written, forced_servoRated, servoWritten, writtenRate]

end Rates

/-! ### What judging a holdover leaves of the rates -/

/-- What judging a holdover keeps: F, r, the increment, and the fault of an implausible rate. -/
structure RatesKept (s t : State) : Prop where
  f : t.servo.f = s.servo.f
  r : t.servo.r = s.servo.r
  inc : t.clock.inc = s.clock.inc
  fault : t.fault .freqImplausible = s.fault .freqImplausible

/-- The rates kept, and that no holdover is expired. -/
structure CalmKept (s t : State) : Prop extends RatesKept s t where
  calm : s.servo.expired = false → t.servo.expired = false
  quiet : (s.fault .holdoverExpired).active = false → (t.fault .holdoverExpired).active = false

theorem quiet_select (old : Option (Nat × SourceEntry)) (new : Nat × SourceEntry) (reason : Reason) (sampled : Bool) {s : State}
    (h : (s.fault .holdoverExpired).active = false) :
    ((select old new reason sampled s).fault .holdoverExpired).active = false := by
  simp only [select]
  rw [fault_clearFault_ne _ _ _ _ _ _ (by decide) (by decide), fault_offerStateIfChanged _ _ _ (by decide)]
  split
  · rw [clearHoldoverExpired, fault_clearFault_self _ _ _ _ _ (by decide)]
  · rw [fault_offerRecord _ _ _ (by decide), ← h]
    (repeat' split) <;> simp [fault_servoSwitches, fault_servoFollows, fault_setSourceState, fault_unselect]

theorem calmKept_refl (s : State) : CalmKept s s := ⟨⟨rfl, rfl, rfl, rfl⟩, id, id⟩

theorem RatesKept.trans {s t u : State} (h : RatesKept s t) (k : RatesKept t u) : RatesKept s u :=
  ⟨k.f.trans h.f, k.r.trans h.r, k.inc.trans h.inc, k.fault.trans h.fault⟩

theorem CalmKept.trans {s t u : State} (h : CalmKept s t) (k : CalmKept t u) : CalmKept s u :=
  ⟨h.toRatesKept.trans k.toRatesKept, k.calm ∘ h.calm, k.quiet ∘ h.quiet⟩

theorem calmKept_select (old : Option (Nat × SourceEntry)) (new : Nat × SourceEntry) (reason : Reason) (sampled : Bool)
    (s : State) : CalmKept s (select old new reason sampled s) := by
  have servo := select_servo old new reason sampled s
  refine ⟨⟨?_, ?_, inc_of_steady (select_steady ..), fault_select _ _ _ _ _ _ (by decide) (by decide) (by decide)⟩, ?_,
    quiet_select _ _ _ _⟩
  all_goals
    rw [servo]
    (repeat' split) <;> simp [servoSwitches_servo, servoFollows_servo]

/-- A selection that ends in HOLDOVER moves nothing of the Servo (R75). -/
theorem calmKept_endSelection {s : State} (st : s.servo.st = .holdover) (old : Nat × SourceEntry) (reason : Reason) :
    CalmKept s (endSelection old reason s) := by
  have servo : (endSelection old reason s).servo = s.servo := by rw [endSelection_servo, if_neg (by simp [st])]
  have fault := fun k => fault_endSelection old reason s k
  refine ⟨⟨by rw [servo], by rw [servo], inc_of_steady ((endSelection_steady ..).trans (if_neg (by simp [st]))),
    fault _ (by decide) (by decide)⟩, fun calm => by rw [servo, calm], fun quiet => ?_⟩
  rw [fault _ (by decide) (by decide), quiet]

theorem calmKept_reevaluateOnHold {s : State} (st : s.servo.st = .holdover) (before : Bool) :
    CalmKept s (reevaluateOnHold before s) := by
  unfold reevaluateOnHold
  split
  · exact calmKept_refl s
  · rcases reevaluate_shape s.selectedPair .hold none s with same | ⟨j, b, why, -, same⟩ | ⟨x, same⟩ <;> rw [same]
    · exact calmKept_refl s
    · exact calmKept_select ..
    · exact calmKept_endSelection st _ _

theorem calmKept_offerRecord (o : Offer) (s : State) : CalmKept s (offerRecord o s) :=
  ⟨⟨by simp, by simp, inc_of_steady (steady_offerRecord ..), fault_offerRecord _ _ _ (by decide)⟩, fun h => by simpa using h,
    fun h => by rwa [fault_offerRecord _ _ _ (by decide)]⟩

/-- A holdover within its limit again: HOLDOVER_EXPIRED is clear, also where the end of a HOLD re-evaluates the sources. -/
theorem unexpireHoldover_calm {s : State} (st : s.servo.st = .holdover) :
    RatesKept s (unexpireHoldover s) ∧ (unexpireHoldover s).servo.expired = false ∧
      ((unexpireHoldover s).fault .holdoverExpired).active = false := by
  set y := s.setServo { s.servo with expired := false }
  set z := clearFault .holdoverExpired .self true .nothing y
  have quiet : (z.fault .holdoverExpired).active = false := by rw [fault_clearFault_self _ _ _ _ _ (by decide)]
  have cleared : CalmKept y z :=
    ⟨⟨by simp [z], by simp [z], inc_of_steady (steady_clearFault ..),
      fault_clearFault_ne _ _ _ _ _ _ (by decide) (by decide)⟩, fun h => by simpa [z] using h, fun _ => quiet⟩
  have after : CalmKept z (unexpireHoldover s) :=
    (calmKept_reevaluateOnHold (by simpa [z, y] using st) _).trans (calmKept_offerRecord _ _)
  have kept := cleared.trans after
  exact ⟨RatesKept.trans (t := y) ⟨rfl, rfl, rfl, rfl⟩ kept.toRatesKept, kept.calm rfl, after.quiet quiet⟩

theorem expireHoldover_rates {s : State} (st : s.servo.st = .holdover) : RatesKept s (expireHoldover s) := by
  have same : (expiring s).servo = { s.servo with expired := true } := servo_expiring s
  have raised : RatesKept s (raiseFault .holdoverExpired .self true .nothing (expiring s)) :=
    ⟨by simp, by simp, inc_of_steady ((steady_raiseFault ..).trans (steady_watchSecond _)),
      (fault_raiseFault_ne _ _ _ _ _ _ (by decide) (by decide)).trans (fault_watchSecond _ _)⟩
  exact (raised.trans (calmKept_reevaluateOnHold (by simpa using st) _).toRatesKept).trans
    (calmKept_offerRecord _ _).toRatesKept

/-! ### The holdover limit against the timer -/

theorem judgeHoldover_still {s : State}
    (h : s.servo.st ≠ .holdover ∨ (s.servo.expired = true ↔ s.cfg.servo.holdoverLimit ≤ s.servo.holdTimer)) :
    judgeHoldover s = s := by
  unfold judgeHoldover
  rcases h with st | same
  · rw [if_neg st]
  · cases expired : s.servo.expired
    · have within : ¬ s.cfg.servo.holdoverLimit ≤ s.servo.holdTimer := by simpa [expired] using same
      simp [within]
    · have beyond : ¬ s.servo.holdTimer < s.cfg.servo.holdoverLimit := by simpa [expired] using same
      simp [beyond]

theorem judgeHoldover_expires {s : State} (st : s.servo.st = .holdover) (calm : s.servo.expired = false)
    (beyond : s.cfg.servo.holdoverLimit ≤ s.servo.holdTimer) : judgeHoldover s = expireHoldover s := by
  simp [judgeHoldover, st, calm, beyond]

theorem judgeHoldover_ends {s : State} (st : s.servo.st = .holdover) (expired : s.servo.expired = true)
    (within : s.servo.holdTimer < s.cfg.servo.holdoverLimit) : judgeHoldover s = unexpireHoldover s := by
  simp [judgeHoldover, st, expired, within]

theorem judgeHoldover_rates (s : State) : RatesKept s (judgeHoldover s) := by
  by_cases st : s.servo.st = .holdover
  · by_cases same : s.servo.expired = true ↔ s.cfg.servo.holdoverLimit ≤ s.servo.holdTimer
    · rw [judgeHoldover_still (.inr same)]
      exact (calmKept_refl s).toRatesKept
    · cases expired : s.servo.expired
      · rw [judgeHoldover_expires st expired (by simpa [expired] using same)]
        exact expireHoldover_rates st
      · rw [judgeHoldover_ends st expired (by simpa [expired] using same)]
        exact (unexpireHoldover_calm st).1
  · rw [judgeHoldover_still (.inl st)]
    exact (calmKept_refl s).toRatesKept

/-- A holdover within its limit again, the responses within their maxima: the Servo but for the mark, and the two records. -/
theorem unexpireHoldover_does {s : State} (st : s.servo.st = .holdover)
    (maxima : ∀ k : FaultKind, (s.response k).rank ≤ k.maxResponse.rank) :
    let t := unexpireHoldover s
    t.servo = { s.servo with expired := false } ∧ t.sources = s.sources ∧
      ((s.fault .holdoverExpired).active = true → RoomFor 2 s →
        let cls := max 3 (s.setFault .holdoverExpired { s.fault .holdoverExpired with active := false }).floor
        t.engineClass = cls ∧ t.log.records = s.log.records ++
          [⟨s.log.nextSeq, none, 0, cls, s.clock.date.sn, .fault .holdoverExpired true (s.response .holdoverExpired)⟩,
           ⟨(s.log.nextSeq + 1) % 4294967296, none, 0, cls, s.clock.date.sn, .state .holdover .holdover cls⟩]) := by
  have eq : unexpireHoldover s = offerState .holdover
      (clearFault .holdoverExpired .self true .nothing (s.setServo { s.servo with expired := false })) :=
    congrArg (offerState .holdover) (clearWithHold_plain .holdoverExpired .self true .nothing
      (s.setServo { s.servo with expired := false }) maxima (by decide) (by decide))
  rw [eq]
  refine ⟨by simp, by simp, fun active room => ?_⟩
  set y := s.setServo { s.servo with expired := false } with hy
  have room' : RoomFor 2 y := room
  have active' : (y.fault .holdoverExpired).active = true := active
  have after := room_clearFault room' .self .nothing active'
  have holdover : (clearFault .holdoverExpired .self true .nothing y).servo.st = .holdover := by simpa [y] using st
  have cls : (clearFault .holdoverExpired .self true .nothing y).engineClass =
      max 3 (s.setFault .holdoverExpired { s.fault .holdoverExpired with active := false }).floor := by
    have floor : (clearFault .holdoverExpired .self true .nothing y).floor = (deactivate .holdoverExpired y).floor := by
      rw [clearFault_active active']
      refine floor_of ?_ (by simp)
      rw [recs_faultAlert, recs_offerRecord_room (room_deactivate room')]
    rw [State.engineClass, servoClass_holdover holdover, floor]
    congr 1
    simp [y]
  refine ⟨?_, ?_⟩
  · rw [offerState, engineClass_offerRecord_room after, cls]
  · rw [offerState, records_offerRecord after, records_clearFault room' _ _ active', nextSeq_clearFault room' _ _ active']
    simp only [Offer.plain, Offer.record, cls, holdover]
    rw [anchor_date (anchor_clearFault ..), List.append_assoc]
    rfl

section Applied

variable (p : ServoParams) (width limit : Nat) (s : State)

theorem servo_servoWritten : (servoWritten p width limit s).servo =
    { s.servo with f := writtenF p s, r := (writtenRate p s).getD s.servo.r } := rfl

theorem judgePulse_eq (pulse : Option Nat) (s : State) : judgePulse pulse s = { s with
    clock := { s.clock with secondEnd := if s.cfg.secLimit < s.engineClass then none else pulse } } := by
  unfold judgePulse watchSecond
  split <;> rename_i worse <;> rw [engineClass_setClock] at worse
  · rw [if_pos (by exact worse)]
    rfl
  · rw [if_neg (by exact worse)]
    rfl

theorem applyServo_rates : RatesKept (servoWritten p width limit s) (applyServo p width limit s) := by
  rw [applyServo_eq]
  exact (judgeHoldover_rates _).trans ⟨by simp, by simp, by rw [judgePulse_eq], by simp⟩

theorem fault_applyServo : (applyServo p width limit s).fault .freqImplausible = s.fault .freqImplausible :=
  (applyServo_rates p width limit s).fault.trans (fault_of rfl _)

theorem pulse_applyServo : (applyServo p width limit s).clock.secondEnd =
    if limit < (applyServo p width limit s).engineClass then none else s.clock.secondEnd := by
  have pulse := secondEnd_judgePulse (s := judgeHoldover (servoWritten p width limit s)) s.clock.secondEnd
  have cfg := cfg_judgePulse s.clock.secondEnd (judgeHoldover (servoWritten p width limit s))
  rw [← applyServo_eq] at pulse cfg
  rw [pulse, ← cfg, cfg_applyServo]

theorem f_applyServo : (applyServo p width limit s).servo.f = writtenF p s := (applyServo_rates p width limit s).f

theorem r_applyServo : (applyServo p width limit s).servo.r = (writtenRate p s).getD s.servo.r :=
  (applyServo_rates p width limit s).r

theorem inc_applyServo : (applyServo p width limit s).clock.inc = ((writtenRate p s).map incrementOf).getD s.clock.inc :=
  (applyServo_rates p width limit s).inc

theorem engineClass_judgePulse (pulse : Option Nat) (s : State) : (judgePulse pulse s).engineClass = s.engineClass :=
  engineClass_of (by simp) (by simp) (by simp) (by simp)

theorem engineClass_servoWritten : (servoWritten p width limit s).engineClass = s.engineClass := rfl

/-- Where the holdover is as the limit wants it, the write moves parameters, rates and pulse alone. -/
theorem applyServo_still
    (h : s.servo.st ≠ .holdover ∨ (s.servo.expired = true ↔ p.holdoverLimit ≤ s.servo.holdTimer)) :
    applyServo p width limit s = { s with
      cfg := { s.cfg with servo := p, secWidth := width, secLimit := limit }
      servo := { s.servo with f := writtenF p s, r := (writtenRate p s).getD s.servo.r }
      clock := { s.clock with
        inc := ((writtenRate p s).map incrementOf).getD s.clock.inc
        secondEnd := if limit < s.engineClass then none else s.clock.secondEnd } } := by
  rw [applyServo_eq, judgeHoldover_still h, judgePulse_eq, engineClass_servoWritten]
  rfl

theorem applyServo_steadily
    (h : s.servo.st ≠ .holdover ∨ (s.servo.expired = true ↔ p.holdoverLimit ≤ s.servo.holdTimer)) :
    let t := applyServo p width limit s
    t.servo.st = s.servo.st ∧ t.sources = s.sources ∧ t.log = s.log ∧ t.faults = s.faults ∧
      (t.clock.secondEnd = if limit < s.engineClass then none else s.clock.secondEnd) ∧
      t = { s with
        cfg := t.cfg
        servo := { s.servo with f := t.servo.f, r := t.servo.r }
        clock := { s.clock with inc := t.clock.inc, secondEnd := t.clock.secondEnd } } := by
  rw [applyServo_still p width limit s h]
  exact ⟨rfl, rfl, rfl, rfl, rfl, rfl⟩

/-- A holdover that the write lets expire, the responses within their maxima. -/
theorem applyServo_expires (st : s.servo.st = .holdover) (calm : s.servo.expired = false)
    (beyond : p.holdoverLimit ≤ s.servo.holdTimer)
    (maxima : ∀ k : FaultKind, (s.response k).rank ≤ k.maxResponse.rank) :
    let t := applyServo p width limit s
    t.servo = { s.servo with f := t.servo.f, r := t.servo.r, expired := true } ∧
      t.sources = s.sources ∧ (t.fault .holdoverExpired).active = true ∧ t.engineClass = 4 ∧
      ((s.fault .holdoverExpired).active = false → RoomFor 2 s → t.log.records = s.log.records ++
        [⟨s.log.nextSeq, none, 0, 4, s.clock.date.sn, .fault .holdoverExpired false (s.response .holdoverExpired)⟩,
         ⟨(s.log.nextSeq + 1) % 4294967296, none, 0, 4, s.clock.date.sn, .state .holdover .holdover 4⟩]) := by
  obtain ⟨servo, cls, sources, active, -, -, -, -, -, filed⟩ :=
    expireHoldover_does (s := servoWritten p width limit s) st maxima
  rw [applyServo_eq, judgeHoldover_expires (s := servoWritten p width limit s) st calm beyond]
  dsimp only at *
  generalize expireHoldover (servoWritten p width limit s) = t at *
  refine ⟨?_, ?_, ?_, (engineClass_judgePulse ..).trans cls, fun inactive room => ?_⟩
  · rw [servo_judgePulse, servo]
    rfl
  · rw [sources_judgePulse, sources]
    rfl
  · rw [fault_judgePulse, active]
  · rw [log_judgePulse, filed inactive room]
    rfl

/-- An expired holdover that the write puts within its limit again (R76). -/
theorem applyServo_ends (st : s.servo.st = .holdover) (expired : s.servo.expired = true)
    (within : s.servo.holdTimer < p.holdoverLimit) :
    let t := applyServo p width limit s
    t.servo.expired = false ∧ (t.fault .holdoverExpired).active = false ∧
      ((∀ k : FaultKind, (s.response k).rank ≤ k.maxResponse.rank) →
        t.servo = { s.servo with f := t.servo.f, r := t.servo.r, expired := false } ∧
        t.sources = s.sources) ∧
      ((∀ k : FaultKind, (s.response k).rank ≤ k.maxResponse.rank) → (s.fault .holdoverExpired).active = true →
        RoomFor 2 s →
        let cls := max 3 (s.setFault .holdoverExpired { s.fault .holdoverExpired with active := false }).floor
        t.engineClass = cls ∧ t.log.records = s.log.records ++
          [⟨s.log.nextSeq, none, 0, cls, s.clock.date.sn, .fault .holdoverExpired true (s.response .holdoverExpired)⟩,
           ⟨(s.log.nextSeq + 1) % 4294967296, none, 0, cls, s.clock.date.sn, .state .holdover .holdover cls⟩]) := by
  obtain ⟨-, calm, quiet⟩ := unexpireHoldover_calm (s := servoWritten p width limit s) st
  have does := unexpireHoldover_does (s := servoWritten p width limit s) st
  rw [applyServo_eq, judgeHoldover_ends (s := servoWritten p width limit s) st expired within]
  dsimp only at *
  generalize unexpireHoldover (servoWritten p width limit s) = t at *
  refine ⟨by rw [servo_judgePulse, calm], by rw [fault_judgePulse, quiet], fun maxima => ?_,
    fun maxima active room => ?_⟩
  · obtain ⟨servo, sources, -⟩ := does maxima
    rw [servo_judgePulse, sources_judgePulse, servo, sources]
    exact ⟨rfl, rfl⟩
  · obtain ⟨-, -, filed⟩ := does maxima
    obtain ⟨cls, records⟩ := filed active room
    exact ⟨(engineClass_judgePulse ..).trans cls, by rw [log_judgePulse]; exact records⟩

end Applied

/-! ### The responses -/

theorem limitResponse_eq (k : FaultKind) (r : Response) :
    k.limitResponse r = if r.rank ≤ k.maxResponse.rank then r else k.maxResponse := by
  cases k <;> cases r <;> rfl

theorem responseOf_eq (n : Nat) : responseOf n = [Response.note, .alert, .demote, .hold][n]? := by
  rcases n with _ | _ | _ | _ | n <;> rfl

theorem limitResponse_ne (k : FaultKind) (r : Response) : (k.limitResponse r != r) = false ↔ r.rank ≤ k.maxResponse.rank := by
  cases k <;> cases r <;> decide

theorem writeFault_named {kind response : Byte} {k : FaultKind} {r : Response} (named : FaultKind.ofIndex kind.toNat = some k)
    (level : [Response.note, .alert, .demote, .hold][response.toNat]? = some r) (s : State) :
    writeFault kind response s =
      (applyResponse k (k.limitResponse r) s, if r.rank ≤ k.maxResponse.rank then .done else .clamped) := by
  rw [writeFault, named, responseOf_eq, level, ← doneOr_iff (limitResponse_ne k r)]

theorem writeFault_range {kind response : Byte} (h : 8 < kind.toNat ∨ 3 < response.toNat) (s : State) :
    writeFault kind response s = (s, .range) := by
  rw [writeFault, responseOf_eq]
  rcases h with h | h
  · rw [FaultKind.ofIndex, List.getElem?_eq_none (l := faultKinds) (by simp [faultKinds]; omega)]
  · rw [List.getElem?_eq_none (l := [Response.note, .alert, .demote, .hold]) (by simp; omega)]
    cases FaultKind.ofIndex kind.toNat <;> rfl

theorem hold_watchSecond (s : State) : (watchSecond s).hold = s.hold := by
  unfold watchSecond
  split <;> rfl

theorem applyResponse_inactive {k : FaultKind} {s : State} (inactive : (s.fault k).active = false) (r : Response) :
    applyResponse k r s = s.setCfg { s.cfg with responses := s.cfg.responses.set k.ix r } := by
  simp [applyResponse, inactive]

theorem applyResponse_active {k : FaultKind} {s : State} (active : (s.fault k).active = true) (r : Response) :
    applyResponse k r s = reevaluateOnHold s.hold
      (watchSecond (s.setCfg { s.cfg with responses := s.cfg.responses.set k.ix r })) := by
  simp [applyResponse, active]


/-- Settles O52, by the blocks written, and of a WRITE_SERVO by the holdover limit against the timer. -/
theorem parametersAreWrittenAndActAtOnce : Obligations.ParametersAreWrittenAndActAtOnce := by
  refine ⟨fun a s turn => ?servo, fun a s turn => ?drift, fun kind response s turn => ⟨fun none => ?_, fun k r named level => ?fault⟩⟩
  case servo =>
    intro step p width limit bound roomy asGiven
    have status : doneOr (servoLimited a) = if asGiven then .done else .clamped := by
      rw [doneOr_iff (servoLimited_iff a), servoParamsOf_eq, secLimitOf_eq]
      rfl
    have params : servoParamsOf a = p := servoParamsOf_eq a
    have lim : secLimitOf a = limit := secLimitOf_eq a
    have wide : secWidthOf a = width := rfl
    have bounded : max (-bound) (min bound s.servo.f) = writtenF p s := rfl
    have run : exec (.writeServo a) s = .next (deliver 14 (applyServo p width limit s, if asGiven then .done else .clamped, [])) := by
      rw [exec_writeServo turn, writeServo, status, params, lim, wide]
    have catching : s.servo.catchDown = true → p.catchRate ≠ s.cfg.servo.catchRate →
        writtenRate p s = some (-(p.catchRate * 1024000 : Int)) := fun c n => if_pos ⟨c, n⟩
    have following (h : s.servo.catchDown = false ∨ p.catchRate = s.cfg.servo.catchRate) : writtenRate p s =
        if writtenF p s ≠ s.servo.f ∧ (s.servo.st = .unset ∨ s.servo.st = .freerun ∨ s.servo.st = .holdover) then
          some (writtenF p s) else none := if_neg fun both => by rcases h with c | n <;> simp_all
    have f := f_applyServo p width limit s
    have r := r_applyServo p width limit s
    have inc := inc_applyServo p width limit s
    have implausible := fault_applyServo p width limit s
    have pulse := pulse_applyServo p width limit s
    have cfg := cfg_applyServo p width limit s
    have date : (applyServo p width limit s).clock.date = s.clock.date := anchor_date (anchor_applyServo ..)
    have still := applyServo_steadily p width limit s
    have expires := applyServo_expires p width limit s
    have ends := applyServo_ends p width limit s
    generalize applyServo p width limit s = t at *
    generalize writtenRate p s = rate at *
    rw [← f] at following
    refine ⟨t, run, cfg, date, f.trans bounded.symm, fun c n => by rw [r, catching c n, Option.getD_some],
      fun h => by rw [r, following h]; split <;> rfl,
      fun c n => by rw [inc, r, catching c n, Option.map_some, Option.getD_some, Option.getD_some],
      fun h => by rw [inc, r, following h]; split <;> rfl, implausible, pulse, still, expires, ends⟩
  case drift =>
    intro p holdoff threshold asGiven
    have params : driftParamsOf a = p := by
      rw [driftParamsOf, isOn_eq]
      rfl
    have status : doneOr (driftLimited a) = if asGiven then .done else .clamped := by
      rw [doneOr_iff (driftLimited_iff a), params]
      rfl
    have held : holdoffOf a = holdoff := rfl
    have level : thresholdOf a = threshold := rfl
    rw [exec_writeDrift turn, writeDrift, status, params, held, level]
    clear status params held level
    generalize (if asGiven then Status.done else Status.clamped) = answer
    clear asGiven
    clear_value p holdoff threshold
    unfold applyDrift
    dsimp only
    by_cases same : p.k = s.cfg.drift.k
    · rw [if_neg (by simp [same]), if_pos same]
      rfl
    · rw [if_pos same, if_neg same]
      rfl
  case fault =>
    intro given st written
    have put : s.setCfg { s.cfg with responses := s.cfg.responses.set k.ix (k.limitResponse r) } = written := by
      rw [limitResponse_eq]
      rfl
    rw [exec_writeFault turn, writeFault_named named level]
    refine ⟨fun inactive => by rw [applyResponse_inactive inactive, put], fun active => ?_⟩
    intro seen
    have watched : watchSecond written = seen := rfl
    have hold : seen.hold = written.hold := by rw [← watched, hold_watchSecond]
    rw [applyResponse_active active, put, watched]
    exact ⟨fun same => by rw [reevaluateOnHold, hold, if_pos same], fun moved => by rw [reevaluateOnHold, hold, if_neg moved]⟩
  rw [exec_writeFault turn, writeFault_range none]

end Sys2Proof.Machine
end

section
/-! Floor, HOLD and class; a raise and a clear in their order; and CLEAR_FLAGS (R81, R187 to R190). -/

namespace Sys2Proof.Machine

/-! ### Floor, HOLD and class -/

theorem any_faultKinds (f : FaultKind → Bool) : faultKinds.any f = true ↔ ∃ k, f k = true := by
  rw [List.any_eq_true]
  exact ⟨fun ⟨k, _, h⟩ => ⟨k, h⟩, fun ⟨k, h⟩ => ⟨k, by cases k <;> simp [faultKinds], h⟩⟩

theorem activeAt_demote (s : State) (k : FaultKind) : s.activeAt .demote k = true ↔
    (s.fault k).active = true ∧ (s.response k = .demote ∨ s.response k = .hold) := by
  rw [State.activeAt, Bool.and_eq_true, decide_eq_true_eq]
  cases s.response k <;> simp [Response.rank]

theorem activeAt_hold (s : State) (k : FaultKind) : s.activeAt .hold k = true ↔
    (s.fault k).active = true ∧ s.response k = .hold := by
  rw [State.activeAt, Bool.and_eq_true, decide_eq_true_eq]
  cases s.response k <;> simp [Response.rank]

theorem floor_demoted {s : State} (h : ∃ k, (s.fault k).active = true ∧ (s.response k = .demote ∨ s.response k = .hold)) :
    s.floor = 4 :=
  if_pos ((any_faultKinds _).mpr (h.imp fun k => (activeAt_demote s k).mpr))

theorem floor_none {s : State} (h : ∀ k, (s.fault k).active = true → s.response k ≠ .demote ∧ s.response k ≠ .hold) :
    s.floor = 0 := by
  refine if_neg fun any => ?_
  obtain ⟨k, least⟩ := (any_faultKinds _).mp any
  obtain ⟨active, level⟩ := (activeAt_demote s k).mp least
  obtain ⟨notDemote, notHold⟩ := h k active
  exact level.elim notDemote notHold

theorem hold_iff_held (s : State) : s.hold = true ↔ ∃ k, (s.fault k).active = true ∧ s.response k = .hold :=
  (any_faultKinds _).trans (exists_congr (activeAt_hold s))

theorem isSelected_iff (s : State) (i : Nat) : s.isSelected i = true ↔ ∃ e, s.source i = some e ∧ e.st = .selected := by
  unfold State.isSelected
  cases s.source i <;> simp

theorem selected_first {s : State} {i : Nat} {e : SourceEntry} (there : s.source i = some e) (st : e.st = .selected)
    (first : ∀ j e', j < i → s.source j = some e' → e'.st ≠ .selected) : s.selected = some e := by
  have index : s.selectedIndex = some i := by
    rw [State.selectedIndex, sourceIndices_eq]
    refine find_range (source_lt there) ((isSelected_iff s i).mpr ⟨e, there, st⟩) fun j before => ?_
    rw [← Bool.not_eq_true, isSelected_iff]
    rintro ⟨e', there', st'⟩
    exact first j e' before there' st'
  rw [State.selected, index, Option.bind_some, there]

theorem lockedClass_eq (c : Nat) : lockedClass c = if c = 0 then 1 else if c = 1 then 2 else c := by
  rcases c with _ | _ | c <;> simp [lockedClass]

theorem servoClass_locked {s : State} {e : SourceEntry} (st : s.servo.st = .locked) (h : s.selected = some e) :
    s.servoClass = if e.cls = 0 then 1 else if e.cls = 1 then 2 else e.cls := by
  rw [State.servoClass, st, ← lockedClass_eq]
  dsimp only
  rw [h]

/-! ### A raise and a clear in their order -/

section Order

variable (k : FaultKind) (subject : Subject) (record : Bool) (d : AlertData) (s : State)

/-- What a raise or a clear tells: its FAULT record, and at ALERT and above an alert event (R187, R188, steps 3 and 4). -/
def faultTold (clear : Bool) (level : Response) (s : State) : State :=
  let t := if record then offerRecord (.plain subject.port? (.fault k clear level)) s else s
  if level = .note then t else alertEvent (.fault k) clear subject d t

theorem faultAlert_eq (clear : Bool) : faultAlert k clear subject d s =
    if s.response k = .note then s else alertEvent (.fault k) clear subject d s := by
  unfold faultAlert
  cases level : s.response k <;> simp [Response.rank]

theorem faultTold_eq (clear : Bool) : faultAlert k clear subject d
    (if record then offerRecord (faultOffer s k clear subject) s else s) =
      faultTold k subject record d clear (s.response k) s := by
  have response : (if record then offerRecord (faultOffer s k clear subject) s else s).response k = s.response k := by
    split <;> simp [State.response]
  rw [faultAlert_eq, response]
  rfl

theorem raiseFault_told (inactive : (s.fault k).active = false) : raiseFault k subject record d s =
    faultTold k subject record d false (s.response k) (watchSecond (activate k subject s)) := by
  have response : (watchSecond (activate k subject s)).response k = s.response k := by simp [State.response]
  rw [← response, ← faultTold_eq, raiseFault, if_neg (by simp [inactive])]

theorem clearFault_told (active : (s.fault k).active = true) : clearFault k subject record d s =
    faultTold k subject record d true (s.response k) (deactivate k s) := by
  have response : (deactivate k s).response k = s.response k := by simp [State.response]
  rw [← response, ← faultTold_eq, clearFault, if_pos active]

theorem raiseFault_counts (active : (s.fault k).active = true) :
    raiseFault k subject record d s = s.setFault k { s.fault k with count := min 255 ((s.fault k).count + 1) } := by
  rw [raiseFault, if_pos active]
  rfl

theorem clearFault_idle (inactive : (s.fault k).active = false) : clearFault k subject record d s = s :=
  if_neg (by simp [inactive])

end Order

/-- The clear of a fault whose response is not HOLD leaves the HOLD indication, and so the selection (R188). -/
theorem clearWithHold_unheld (k : FaultKind) (subject : Subject) (record : Bool) (d : AlertData) (s : State)
    (maxima : ∀ k : FaultKind, (s.response k).rank ≤ k.maxResponse.rank) (unheld : s.response k ≠ .hold) :
    clearWithHold k subject record d s = clearFault k subject record d s := by
  set t := clearFault k subject record d s with ht
  have response : ∀ j, t.response j = s.response j := fun j => by simp [t, State.response]
  have full : s.response .logFull ≠ .hold := fun held => by
    have := maxima .logFull
    rw [held] at this
    exact absurd this (by decide)
  have hold : t.hold = s.hold := by
    rw [Bool.eq_iff_iff, hold_iff_held, hold_iff_held]
    refine exists_congr fun j => ?_
    rw [response]
    by_cases own : j = k
    · subst own
      simp [unheld]
    · by_cases log : j = .logFull
      · subst log
        simp [full]
      · rw [ht, fault_clearFault_ne _ _ _ _ _ _ log own]
  exact if_pos hold

/-! ### One position of a CLEAR_FLAGS mask -/

section Position

variable (mask : BitVec 32) (s : State) (k : FaultKind)

theorem clearPosition_idle (h : k.isEdge = true → mask.getLsbD k.ix.val = true → (s.fault k).active = false) :
    clearPosition mask s k = s := by
  refine if_neg fun all => ?_
  simp only [Bool.and_eq_true] at all
  obtain ⟨⟨bit, edge⟩, active⟩ := all
  rw [h edge bit] at active
  exact Bool.false_ne_true active

theorem fault_clearWithHold_ne {j : FaultKind} (subject : Subject) (record : Bool) (d : AlertData) (other : k ≠ j)
    (full : k ≠ .logFull) (lost : k ≠ .sourceLost) (expired : k ≠ .holdoverExpired) :
    (clearWithHold j subject record d s).fault k = s.fault k :=
  (fault_reevaluateOnHold _ _ _ full lost expired).trans (fault_clearFault_ne _ _ _ _ _ _ full other)

theorem fault_clearWithHold_self (subject : Subject) (record : Bool) (d : AlertData)
    (full : k ≠ .logFull) (lost : k ≠ .sourceLost) (expired : k ≠ .holdoverExpired) :
    (clearWithHold k subject record d s).fault k = { s.fault k with active := false } :=
  (fault_reevaluateOnHold _ _ _ full lost expired).trans (fault_clearFault_self _ _ _ _ _ full)

/-- The kinds that no re-evaluation and no record moves. -/
def FaultKind.settled (k : FaultKind) : Prop := k ≠ .logFull ∧ k ≠ .sourceLost ∧ k ≠ .holdoverExpired

theorem settled_of_edge {k : FaultKind} (edge : k.isEdge = true) : k.settled := by
  refine ⟨?_, ?_, ?_⟩ <;> rintro rfl <;> simp [FaultKind.isEdge] at edge

variable {k}

theorem fault_clearPosition_ne {j : FaultKind} (other : k ≠ j) (still : k.settled) :
    (clearPosition mask s j).fault k = s.fault k := by
  obtain ⟨full, lost, expired⟩ := still
  unfold clearPosition
  split
  · exact fault_clearWithHold_ne _ _ _ _ _ other full lost expired
  · rfl

theorem fault_clearPosition_edge (edge : k.isEdge = true) : (clearPosition mask s k).fault k =
    if mask.getLsbD k.ix.val then { s.fault k with active := false } else s.fault k := by
  obtain ⟨full, lost, expired⟩ := settled_of_edge edge
  by_cases bit : mask.getLsbD k.ix.val = true
  · rw [if_pos bit]
    by_cases active : (s.fault k).active = true
    · rw [clearPosition, if_pos (by simp [bit, edge, active])]
      exact fault_clearWithHold_self _ _ _ _ _ full lost expired
    · have inactive : (s.fault k).active = false := by simpa using active
      rw [clearPosition_idle _ _ _ fun _ _ => inactive, ← inactive]
  · rw [clearPosition_idle _ _ _ fun _ on => absurd on bit, if_neg bit]

theorem fault_clearPosition_level (level : k.isEdge = false) (still : k.settled) (j : FaultKind) :
    (clearPosition mask s j).fault k = s.fault k := by
  by_cases other : k = j
  · subst other
    rw [clearPosition_idle _ _ _ fun edge => by simp [level] at edge]
  · exact fault_clearPosition_ne _ _ other still

/-- A clear moves no other fault where it ends no HOLD of FREQ_IMPLAUSIBLE, the responses within their maxima. -/
theorem fault_clearPosition_calm (maxima : ∀ k : FaultKind, (s.response k).rank ≤ k.maxResponse.rank)
    (calm : mask.getLsbD 2 = true → (s.fault .freqImplausible).active = true → s.response .freqImplausible ≠ .hold)
    (level : k.isEdge = false) (full : k ≠ .logFull) (j : FaultKind) : (clearPosition mask s j).fault k = s.fault k := by
  by_cases cleared : (mask.getLsbD j.ix.val && j.isEdge && (s.fault j).active) = true
  · have taken := cleared
    simp only [Bool.and_eq_true] at taken
    obtain ⟨⟨bit, edge⟩, active⟩ := taken
    have other : k ≠ j := by
      rintro rfl
      simp [level] at edge
    rw [clearPosition, if_pos cleared]
    have plain : clearWithHold j ((s.fault j).lastSubject.getD .self) true .nothing s =
        clearFault j ((s.fault j).lastSubject.getD .self) true .nothing s := by
      by_cases freq : j = .freqImplausible
      · subst freq
        exact clearWithHold_unheld _ _ _ _ _ maxima (calm bit active)
      · refine clearWithHold_plain _ _ _ _ _ maxima freq ?_
        rintro rfl
        simp [FaultKind.isEdge] at edge
    rw [plain, fault_clearFault_ne _ _ _ _ _ _ full other]
  · rw [clearPosition, if_neg cleared]

end Position

/-! ### The whole mask -/

section Mask

variable (mask : BitVec 32)

theorem fault_clears_ne {k : FaultKind} (still : k.settled) (l : List FaultKind) (absent : k ∉ l) (s : State) :
    (l.foldl (clearPosition mask) s).fault k = s.fault k := by
  induction l generalizing s with
  | nil => rfl
  | cons j l ih =>
    obtain ⟨other, absent⟩ := List.ne_and_not_mem_of_not_mem_cons absent
    exact (ih absent _).trans (fault_clearPosition_ne mask s other still)

theorem fault_clears_edge {k : FaultKind} (edge : k.isEdge = true) (l : List FaultKind) (once : l.Nodup) (present : k ∈ l)
    (s : State) : (l.foldl (clearPosition mask) s).fault k =
      if mask.getLsbD k.ix.val then { s.fault k with active := false } else s.fault k := by
  have still := settled_of_edge edge
  induction l generalizing s with
  | nil => exact absurd present List.not_mem_nil
  | cons j l ih =>
    obtain ⟨absent, once⟩ := List.nodup_cons.mp once
    rw [List.foldl_cons]
    by_cases own : k = j
    · subst own
      rw [fault_clears_ne mask still l absent, fault_clearPosition_edge mask s edge]
    · rw [ih once ((List.mem_cons.mp present).resolve_left own), fault_clearPosition_ne mask s own still]

theorem fault_clears_level {k : FaultKind} (level : k.isEdge = false) (still : k.settled) (l : List FaultKind) (s : State) :
    (l.foldl (clearPosition mask) s).fault k = s.fault k := by
  induction l generalizing s with
  | nil => rfl
  | cons j l ih => exact (ih _).trans (fault_clearPosition_level mask s level still j)

theorem clears_idle {s : State}
    (h : ∀ k : FaultKind, k.isEdge = true → mask.getLsbD k.ix.val = true → (s.fault k).active = false) (l : List FaultKind) :
    l.foldl (clearPosition mask) s = s := by
  induction l with
  | nil => rfl
  | cons j l ih => rw [List.foldl_cons, clearPosition_idle mask s j (h j), ih]

theorem fault_clears_calm {k : FaultKind} (level : k.isEdge = false) (full : k ≠ .logFull) (l : List FaultKind) (s : State)
    (maxima : ∀ k : FaultKind, (s.response k).rank ≤ k.maxResponse.rank)
    (calm : mask.getLsbD 2 = true → (s.fault .freqImplausible).active = true → s.response .freqImplausible ≠ .hold) :
    (l.foldl (clearPosition mask) s).fault k = s.fault k := by
  induction l generalizing s with
  | nil => rfl
  | cons j l ih =>
    have response : ∀ i, (clearPosition mask s j).response i = s.response i := fun i => by
      rw [State.response, cfg_clearPosition, State.response]
    have active : ((clearPosition mask s j).fault .freqImplausible).active = true →
        (s.fault .freqImplausible).active = true := by
      by_cases own : FaultKind.freqImplausible = j
      · subst own
        rw [fault_clearPosition_edge mask s rfl]
        split <;> simp
      · rw [fault_clearPosition_ne mask s own (settled_of_edge rfl)]
        exact id
    refine (ih _ (fun i => response i ▸ maxima i) fun bit on => ?_).trans
      (fault_clearPosition_calm mask s maxima calm level full j)
    rw [response]
    exact calm bit (active on)

/-- What every clear leaves: F, the SAT flag, and the requesters. -/
structure ClearKept (s t : State) : Prop where
  f : t.servo.f = s.servo.f
  sat : t.servo.sat = s.servo.sat
  requester : ∀ p, t.requester p = s.requester p

theorem clearKept_reevaluate (old : Option (Nat × SourceEntry)) (why : Reason) (own : Option Nat) (s : State) :
    ClearKept s (reevaluate old why own s) := by
  refine ⟨?_, ?_, requester_reevaluate _ _ _ _⟩
  all_goals
    rcases reevaluate_shape old why own s with same | ⟨j, b, why', -, same⟩ | ⟨x, same⟩ <;> rw [same]
    · rw [select_servo]
      (repeat' split) <;> simp [servoSwitches_servo, servoFollows_servo]
    · rw [endSelection_servo]
      split <;> simp [servoHolds_servo]

theorem clearKept_clearPosition (s : State) (j : FaultKind) : ClearKept s (clearPosition mask s j) := by
  unfold clearPosition clearWithHold reevaluateOnHold
  (repeat' split)
  · exact ⟨by simp, by simp, by simp⟩
  · obtain ⟨f, sat, requester⟩ := clearKept_reevaluate
      (clearFault j ((s.fault j).lastSubject.getD .self) true .nothing s).selectedPair .hold none
      (clearFault j ((s.fault j).lastSubject.getD .self) true .nothing s)
    exact ⟨f.trans (by simp), sat.trans (by simp), fun p => (requester p).trans (by simp)⟩
  · exact ⟨rfl, rfl, fun _ => rfl⟩

theorem clearKept_clears (l : List FaultKind) (s : State) : ClearKept s (l.foldl (clearPosition mask) s) := by
  induction l generalizing s with
  | nil => exact ⟨rfl, rfl, fun _ => rfl⟩
  | cons j l ih =>
    obtain ⟨f, sat, requester⟩ := clearKept_clearPosition mask s j
    obtain ⟨f', sat', requester'⟩ := ih (clearPosition mask s j)
    exact ⟨f'.trans f, sat'.trans sat, fun p => (requester' p).trans (requester p)⟩

/-- The flags of a mask cleared, behind its faults: SAT, and the path-stale flags of U0 and U1 (R29, R67). -/
def flagsCleared (s : State) : State :=
  let s := if mask.getLsbD 9 then s.setServo { s.servo with sat := false } else s
  let s := if mask.getLsbD 10 then clearStale .u0 s else s
  if mask.getLsbD 11 then clearStale .u1 s else s

theorem clearFlags_eq (s : State) : clearFlags mask s = (flagsCleared mask (faultKinds.foldl (clearPosition mask) s), .done) := rfl

theorem flagsCleared_leaves (s : State) : (flagsCleared mask s).log = s.log ∧ (flagsCleared mask s).faults = s.faults ∧
    (flagsCleared mask s).servo.f = s.servo.f ∧ (flagsCleared mask s).servo.sat = (s.servo.sat && !mask.getLsbD 9) := by
  unfold flagsCleared
  generalize mask.getLsbD 9 = sat
  generalize mask.getLsbD 10 = first
  generalize mask.getLsbD 11 = second
  cases sat <;> cases first <;> cases second <;> simp [clearStale]

theorem echoOf_flagsCleared (s : State) {p : Port} {bit : Bool}
    (h : (p = .u0 ∧ bit = mask.getLsbD 10) ∨ (p = .u1 ∧ bit = mask.getLsbD 11)) :
    (flagsCleared mask s).echoOf p = if bit then { s.echoOf p with stale := false, run := 0 } else s.echoOf p := by
  unfold flagsCleared
  generalize mask.getLsbD 9 = sat
  rcases h with ⟨rfl, rfl⟩ | ⟨rfl, rfl⟩
  all_goals
    generalize mask.getLsbD 10 = first
    generalize mask.getLsbD 11 = second
    cases sat <;> cases first <;> cases second <;> rfl

end Mask

theorem exec_clearFlags {mask : BitVec 32} {s : State} (turn : hasTurn 19 (.clearFlags mask) s = true) :
    exec (.clearFlags mask) s = .next (deliver 19 ((clearFlags mask s).1, .done, [])) :=
  congrArg Host.Outcome.next (runCommand_of_hasTurn turn _)

/-- Settles O56: class and faults by case, and CLEAR_FLAGS by the positions of its mask. -/
theorem faultsAreRaisedAndCleared : Obligations.FaultsAreRaisedAndCleared := by
  refine ⟨fun s => ?classes, fun k subject record d s => ?order, fun k subject record d s full => ?effect, fun mask s turn => ?flags⟩
  case classes =>
    exact ⟨floor_demoted, floor_none, hold_iff_held s, rfl, fun st => by rw [State.servoClass, st],
      fun st => by rw [State.servoClass, st], fun st => by rw [State.servoClass, st], servoClass_holdover,
      fun i e st there selected first => servoClass_locked st (selected_first there selected first)⟩
  case order =>
    intro port old seen told onHold
    exact ⟨raiseFault_told k subject record d s, clearFault_told k subject record d s, rfl, rfl⟩
  case effect =>
    intro old t c roomy port
    have room (h : roomy) : RoomFor 1 s := h
    refine ⟨raiseFault_counts k subject record d s, fun inactive => ⟨?_, fun k' other full' => ?_, by simp [t], by simp [t],
      by simp [t], fun rank => ?_, fun h on => ?_⟩, clearFault_idle k subject record d s, fun active => ⟨?_,
      fun k' other full' => ?_, by simp [c], by simp [c], by simp [c], fun h on => ?_⟩⟩
    · exact (fault_raiseFault_self k subject record d s full).trans (if_neg (by simp [show (s.fault k).active = false from inactive]))
    · exact fault_raiseFault_ne _ _ _ _ _ _ full' other
    · refine floor_demoted ⟨k, active_raiseFault k subject record d s full, ?_⟩
      have response : t.response k = s.response k := by simp [t, State.response]
      rw [response]
      cases level : s.response k <;> simp [level, Response.rank] at rank ⊢
    · subst on
      exact records_raiseFault (room h) subject d inactive
    · exact fault_clearFault_self k subject record d s full
    · exact fault_clearFault_ne _ _ _ _ _ _ full' other
    · subst on
      exact records_clearFault (room h) subject d active
  case flags =>
    have cfg := cfg_clearFlags mask s
    have date : (clearFlags mask s).1.clock.date = s.clock.date := anchor_date (anchor_clearFlags mask s)
    rw [clearFlags_eq] at cfg date
    refine ⟨_, exec_clearFlags turn, ?_⟩
    rw [clearFlags_eq]
    dsimp only at cfg date ⊢
    obtain ⟨f, sat, requester⟩ := clearKept_clears mask faultKinds s
    obtain ⟨log, faults, rate, flag⟩ := flagsCleared_leaves mask (faultKinds.foldl (clearPosition mask) s)
    have echo := fun {p bit} => echoOf_flagsCleared mask (faultKinds.foldl (clearPosition mask) s) (p := p) (bit := bit)
    have fault : ∀ k, (flagsCleared mask (faultKinds.foldl (clearPosition mask) s)).fault k =
        (faultKinds.foldl (clearPosition mask) s).fault k := fault_of (congrArg FaultUnit.recs faults)
    generalize flagsCleared mask (faultKinds.foldl (clearPosition mask) s) = t at *
    refine ⟨fun k edge => ?_, fun k both => ?_, fun none => ?_, fun maxima calm k level full => ?_, by rw [flag, sat],
      rate.trans f, cfg, date, fun p uplink => ?_⟩
    · rw [fault, fault_clears_edge mask edge faultKinds (by decide) (by cases k <;> simp [faultKinds])]
    · rw [fault]
      rcases both with rfl | rfl <;> exact fault_clears_level mask rfl (by simp [FaultKind.settled]) faultKinds s
    · have same := clears_idle mask none faultKinds
      exact ⟨by rw [log, same], fun k => by rw [fault, same]⟩
    · rw [fault, fault_clears_calm mask level full faultKinds s maxima calm]
    · generalize hb : (if p = .u0 then mask.getLsbD 10 else mask.getLsbD 11) = bit
      have cleared : t.echoOf p = if bit then { (faultKinds.foldl (clearPosition mask) s).echoOf p with stale := false, run := 0 }
          else (faultKinds.foldl (clearPosition mask) s).echoOf p :=
        echo (by rcases uplink with rfl | rfl <;> simp [← hb])
      have kept := requester p
      have stale : ((faultKinds.foldl (clearPosition mask) s).echoOf p).stale = (s.echoOf p).stale := congrArg Requester.stale kept
      have run : ((faultKinds.foldl (clearPosition mask) s).echoOf p).run = (s.echoOf p).run := congrArg Requester.run kept
      have window : ((faultKinds.foldl (clearPosition mask) s).echoOf p).window = (s.echoOf p).window :=
        congrArg Requester.window kept
      have delay : ((faultKinds.foldl (clearPosition mask) s).echoOf p).p = (s.echoOf p).p := congrArg Requester.p kept
      rw [cleared]
      cases bit <;> simp [stale, run, window, delay]

end Sys2Proof.Machine
end

section
/-! The rank of the sources and the best of them (R45, R46); what a re-evaluation selects, and what it does to the Source Table,
the Servo, the clock and the Event Log (R47, R49, R50, R71 to R75). -/

namespace Sys2Proof.Machine

/-! ### The rank -/

theorem ranksAbove_iff (x y : SourceEntry) : ranksAbove x y = true ↔
    x.cls < y.cls ∨ (x.cls = y.cls ∧ (x.hops < y.hops ∨ (x.hops = y.hops ∧
      (x.sender.toNat < y.sender.toNat ∨ (x.sender.toNat = y.sender.toNat ∧ portCode x.port < portCode y.port))))) := by
  simp only [ranksAbove, Bool.or_eq_true, Bool.and_eq_true, decide_eq_true_eq, beq_iff_eq, BitVec.toNat_inj]

theorem ranksAbove_trans {x y z : SourceEntry} (h : ranksAbove x y = true) (k : ranksAbove y z = true) :
    ranksAbove x z = true := by
  rw [ranksAbove_iff] at *
  omega

theorem ranksAbove_asymm {x y : SourceEntry} (h : ranksAbove x y = true) : ranksAbove y x ≠ true := by
  rw [ne_eq, ranksAbove_iff] at *
  omega

/-- Of two entries of different keys one ranks above the other. -/
theorem ranksAbove_total {x y : SourceEntry} (key : x.sender = y.sender → x.port ≠ y.port) (h : ranksAbove x y ≠ true) :
    ranksAbove y x = true := by
  have codes : x.sender.toNat = y.sender.toNat → portCode x.port ≠ portCode y.port := fun same => by
    have := key (BitVec.eq_of_toNat_eq same)
    revert this
    cases x.port <;> cases y.port <;> simp [portCode]
  rw [ne_eq, ranksAbove_iff] at h
  rw [ranksAbove_iff]
  omega

/-- Among uplinks, U0 ranks above U1. -/
theorem ranksAbove_uplinks {x y : SourceEntry} (hx : x.port.isUplink = true) (hy : y.port.isUplink = true) :
    ranksAbove x y = true ↔ x.cls < y.cls ∨ (x.cls = y.cls ∧ (x.hops < y.hops ∨ (x.hops = y.hops ∧
      (x.sender.toNat < y.sender.toNat ∨ (x.sender = y.sender ∧ x.port = .u0 ∧ y.port = .u1))))) := by
  have codes : portCode x.port < portCode y.port ↔ x.port = .u0 ∧ y.port = .u1 := by
    revert hx hy
    cases x.port <;> cases y.port <;> simp [portCode, Port.isUplink]
  rw [ranksAbove_iff, codes, BitVec.toNat_inj]

/-! ### The best entry -/

/-- What a search through some indices has found: nothing, or the entry that ranks above all others that may be followed. -/
def BestOf (s : State) (l : List Nat) : Option (Nat × SourceEntry) → Prop
  | none => ∀ i ∈ l, ∀ e, s.source i = some e → selectable s e ≠ true
  | some (i, b) => s.source i = some b ∧ selectable s b = true ∧
      ∀ j ∈ l, ∀ e, s.source j = some e → selectable s e = true → j ≠ i → ranksAbove b e = true

theorem bestOf_betterOf {s : State} (h : SourcesOk s) {l : List Nat} {best : Option (Nat × SourceEntry)}
    (known : BestOf s l best) (i : Nat) : BestOf s (l ++ [i]) (betterOf s best i) := by
  have split_last : ∀ {P : Nat → Prop}, (∀ j ∈ l, P j) → P i → ∀ j ∈ l ++ [i], P j := fun before last j member => by
    rcases List.mem_append.mp member with earlier | own
    · exact before j earlier
    · exact List.mem_singleton.mp own ▸ last
  have left : (∀ e, s.source i = some e → selectable s e ≠ true) → BestOf s (l ++ [i]) best := fun none => by
    rcases best with _ | ⟨j, b⟩
    · exact split_last known none
    · obtain ⟨there, can, top⟩ := known
      exact ⟨there, can, split_last top fun e own able => absurd able (none e own)⟩
  unfold betterOf
  cases own : s.source i with
  | none => exact left fun e there => by simp [own] at there
  | some e =>
    by_cases able : selectable s e = true
    · dsimp only
      rw [if_pos able]
      rcases best with _ | ⟨j, b⟩
      · exact ⟨own, able, split_last (fun k member e' there able' => absurd able' (known k member e' there))
          fun e' _ _ other => absurd rfl other⟩
      · obtain ⟨there, can, top⟩ := known
        dsimp only
        by_cases beats : ranksAbove e b = true
        · rw [if_pos beats]
          refine ⟨own, able, split_last (fun k member e' there' able' _ => ?_) fun e' _ _ other => absurd rfl other⟩
          by_cases same : k = j
          · subst same
            rw [there] at there'
            exact Option.some.inj there' ▸ beats
          · exact ranksAbove_trans beats (top k member e' there' able' same)
        · rw [if_neg beats]
          refine ⟨there, can, split_last top fun e' there' _ other => ?_⟩
          rw [own] at there'
          exact Option.some.inj there' ▸
            ranksAbove_total (fun sender port => other (h.key i j e b own there sender port)) beats
    · dsimp only
      rw [if_neg able]
      exact left fun e' there => by
        rw [own] at there
        exact Option.some.inj there ▸ able

theorem bestOf_foldl {s : State} (h : SourcesOk s) (l : List Nat) : BestOf s l (l.foldl (betterOf s) none) := by
  induction l using List.reverseRecOn with
  | nil => exact fun i member => absurd member List.not_mem_nil
  | append_singleton l i ih =>
    rw [List.foldl_append]
    exact bestOf_betterOf h ih i

theorem bestSource_best {s : State} (h : SourcesOk s) : BestOf s sourceIndices (bestSource s) := bestOf_foldl h _

theorem bestSource_none {s : State} (h : SourcesOk s) : bestSource s = none ↔
    ∀ i e, s.source i = some e → selectable s e ≠ true := by
  have best := bestSource_best h
  constructor
  · intro none i e there
    rw [none] at best
    exact best i ((mem_sourceIndices i).mpr (source_lt there)) e there
  · intro none
    cases found : bestSource s with
    | none => rfl
    | some b =>
      obtain ⟨there, able⟩ := bestSource_some (j := b.1) (b := b.2) found
      exact absurd able (none _ _ there)

theorem bestSource_iff {s : State} (h : SourcesOk s) (i : Nat) (e : SourceEntry) : bestSource s = some (i, e) ↔
    s.source i = some e ∧ selectable s e = true ∧
      ∀ j e', s.source j = some e' → selectable s e' = true → j ≠ i → ranksAbove e e' = true := by
  have best := bestSource_best h
  constructor
  · intro found
    rw [found] at best
    obtain ⟨there, able, top⟩ := best
    exact ⟨there, able, fun j e' there' => top j ((mem_sourceIndices j).mpr (source_lt there')) e' there'⟩
  · rintro ⟨there, able, top⟩
    cases found : bestSource s with
    | none => exact absurd able ((bestSource_none h).mp found i e there)
    | some b =>
      obtain ⟨j, b⟩ := b
      rw [found] at best
      obtain ⟨there', able', top'⟩ := best
      by_cases same : i = j
      · subst same
        rw [there] at there'
        rw [Option.some.inj there']
      · exact absurd (top j b there' able' (Ne.symm same))
          (ranksAbove_asymm (top' i ((mem_sourceIndices i).mpr (source_lt there)) e there able same))

theorem selectable_iff (s : State) (e : SourceEntry) : selectable s e = true ↔
    (e.st = .candidate ∨ e.st = .selected) ∧ e.cls ≤ 4 ∧ (s.port e.port).up = true ∧ s.hold = false := by
  simp [selectable, and_assoc]

/-! ### The state that the Servo has entered, before the records -/

/-- What the Source Table's and the Servo's own transitions leave: log, settings, faults and date. -/
structure Entered (s t : State) : Prop where
  log : t.log = s.log
  cfg : t.cfg = s.cfg
  recs : t.faults.recs = s.faults.recs
  date : t.clock.date = s.clock.date

theorem Entered.refl (s : State) : Entered s s := ⟨rfl, rfl, rfl, rfl⟩

theorem Entered.trans {s t u : State} (h : Entered s t) (k : Entered t u) : Entered s u :=
  ⟨k.log.trans h.log, k.cfg.trans h.cfg, k.recs.trans h.recs, k.date.trans h.date⟩

theorem entered_setSourceState (i : Nat) (st : SourceState) (s : State) : Entered s (setSourceState i st s) := by
  unfold setSourceState
  split <;> exact ⟨rfl, rfl, rfl, rfl⟩

theorem entered_unselect (i : Nat) (s : State) : Entered s (unselect i s) := by
  unfold unselect
  split
  · exact entered_setSourceState _ _ _
  · exact .refl s

theorem entered_setServoState (st : ServoState) (s : State) : Entered s (setServoState st s) := by
  unfold setServoState watchSecond
  split <;> exact ⟨rfl, rfl, rfl, rfl⟩

theorem entered_setServo (v : Servo) (s : State) : Entered s (s.setServo v) := ⟨rfl, rfl, rfl, rfl⟩

theorem entered_handRate (r : Int) (s : State) : Entered s (handRate r s) := ⟨rfl, rfl, rfl, rfl⟩

theorem entered_servoSwitches (s : State) : Entered s (servoSwitches s) := by
  unfold servoSwitches
  exact (entered_setServo _ s).trans (entered_setServoState _ _)

theorem entered_servoFollows (s : State) : Entered s (servoFollows s) := by
  unfold servoFollows
  exact (entered_setServo _ s).trans (entered_setServoState _ _)

theorem entered_servoHolds (s : State) : Entered s (servoHolds s) := by
  unfold servoHolds
  exact ((entered_setServo _ s).trans (entered_handRate _ _)).trans (entered_setServoState _ _)

section Stages

variable {s t : State} (h : Entered s t)
include h

theorem Entered.fault (k : FaultKind) : t.fault k = s.fault k := fault_of h.recs k

theorem Entered.response (k : FaultKind) : t.response k = s.response k := by rw [State.response, h.cfg, State.response]

theorem Entered.floor : t.floor = s.floor := floor_of h.recs h.cfg

/-- A record of a fault set alike in both. -/
theorem Entered.setFault (k : FaultKind) (r : FaultRec) : Entered (s.setFault k r) (t.setFault k r) := by
  obtain ⟨log, cfg, recs, date⟩ := h
  exact ⟨log, cfg, congrArg (fun v : Vector FaultRec 9 => v.set k.ix r) recs, date⟩

end Stages

/-- A running pulse as a class of 3 or the floor leaves it (R13). -/
theorem secondEnd_setServoState {st : ServoState} {s : State} (three : (s.setServo { s.servo with st := st }).servoClass = 3) :
    (setServoState st s).clock.secondEnd = if s.cfg.secLimit < max 3 s.floor then none else s.clock.secondEnd := by
  have cls : (s.setServo { s.servo with st := st }).engineClass = max 3 s.floor := by
    rw [State.engineClass, three]
    rfl
  unfold setServoState watchSecond
  rw [cls]
  split
  · rename_i worse
    rw [if_pos (by exact worse)]
    rfl
  · rename_i within
    rw [if_neg (by exact within)]
    rfl

/-! ### An entry selected, in stages -/

section Select

variable (old : Option (Nat × SourceEntry)) (j : Nat) (b : SourceEntry) (reason : Reason) (sampled : Bool) (s : State)

/-- The entry SELECTED and the Servo's transition made, before any record. -/
def selecting : State :=
  let t := setSourceState j .selected (oldGone old s)
  if old.isSome then servoSwitches t else if s.servo.st = .unset && sampled then t else servoFollows t

/-- What is recorded and cleared of a selection, behind the SOURCE record (R49, R50, R69, R72). -/
def selectionTold (before : ServoState) (t : State) : State :=
  clearFault .sourceLost (.port b.port) true .nothing
    (offerStateIfChanged before (if before = .holdover then clearHoldoverExpired t else t))

theorem select_eq : select old (j, b) reason sampled s = selectionTold b s.servo.st
    (offerRecord (sourceOffer (old.map (fun x => x.2)) (some b) reason) (selecting old j sampled s)) := by
  rcases old with _ | x <;> rfl

theorem entered_selecting : Entered s (selecting old j sampled s) := by
  have gone : Entered s (setSourceState j .selected (oldGone old s)) := by
    refine .trans ?_ (entered_setSourceState _ _ _)
    rcases old with _ | x
    · exact .refl s
    · exact entered_unselect _ _
  unfold selecting
  dsimp only
  split
  · exact gone.trans (entered_servoSwitches _)
  · split
    · exact gone
    · exact gone.trans (entered_servoFollows _)

theorem servo_selecting : (selecting old j sampled s).servo = (select old (j, b) reason sampled s).servo := by
  rw [select_eq]
  simp [selectionTold, clearHoldoverExpired]
  split <;> simp

/-- The Servo waits for the sample of a beacon under way (R71). -/
def Waits : Prop := old = none ∧ s.servo.st = .unset ∧ sampled = true

variable {old j sampled s}

theorem selecting_waits (waits : Waits old sampled s) : selecting old j sampled s = setSourceState j .selected s := by
  obtain ⟨rfl, st, rfl⟩ := waits
  simp [selecting, oldGone, st]

theorem st_selecting_waits (waits : Waits old sampled s) : (selecting old j sampled s).servo.st = .unset := by
  rw [selecting_waits waits, servo_setSourceState, waits.2.1]

/-- What the Servo enters where it does not wait: ACQUIRING, of class 3, a running pulse judged. -/
theorem selecting_moves (moves : ¬ Waits old sampled s) : ∃ t : State,
    selecting old j sampled s = setServoState .acquiring t ∧ Entered s t ∧ t.clock.secondEnd = s.clock.secondEnd := by
  have gone : Entered s (setSourceState j .selected (oldGone old s)) ∧
      (setSourceState j .selected (oldGone old s)).clock = s.clock := by
    rcases old with _ | x
    · exact ⟨entered_setSourceState _ _ _, by simp [oldGone]⟩
    · exact ⟨(entered_unselect _ _).trans (entered_setSourceState _ _ _), by simp [oldGone]⟩
  unfold selecting servoSwitches servoFollows
  dsimp only
  generalize setSourceState j .selected (oldGone old s) = u at gone
  split
  · exact ⟨_, rfl, gone.1.trans (entered_setServo _ u), congrArg Clock.secondEnd gone.2⟩
  · rename_i none
    split
    · rename_i unset
      simp only [Bool.and_eq_true, decide_eq_true_eq] at unset
      exact absurd ⟨by simpa using none, unset.1, unset.2⟩ moves
    · exact ⟨_, rfl, gone.1.trans (entered_setServo _ u), congrArg Clock.secondEnd gone.2⟩

theorem st_selecting (moves : ¬ Waits old sampled s) : (selecting old j sampled s).servo.st = .acquiring := by
  obtain ⟨t, same, -⟩ := selecting_moves (j := j) moves
  rw [same, setServoState, servo_watchSecond]
  rfl

theorem servoClass_selecting (moves : ¬ Waits old sampled s) : (selecting old j sampled s).servoClass = 3 := by
  rw [State.servoClass, st_selecting moves]

theorem servoClass_waits (waits : Waits old sampled s) : (selecting old j sampled s).servoClass = 6 := by
  rw [State.servoClass, st_selecting_waits waits]

theorem secondEnd_selecting (moves : ¬ Waits old sampled s) : (selecting old j sampled s).clock.secondEnd =
    if s.cfg.secLimit < max 3 s.floor then none else s.clock.secondEnd := by
  obtain ⟨t, same, entered, pulse⟩ := selecting_moves (j := j) moves
  rw [same, secondEnd_setServoState rfl, entered.cfg, entered.floor, pulse]

end Select

/-! ### The records of a change -/

/-- A record of the moment's date, beside its sequence: its port, class and body. -/
def recordOf (date : SN) (x : Option Port × Nat × RecBody) : LogRecord := ⟨0, x.1, 0, x.2.1, date, x.2.2⟩

/-- The FAULT record of a clear, of at least a class, where the fault was active (R188). -/
def clearedRecord (s : State) (k : FaultKind) (port : Option Port) (least : Nat) : List (Option Port × Nat × RecBody) :=
  if (s.fault k).active = true then
    [(port, max least (s.setFault k { s.fault k with active := false }).floor, .fault k true (s.response k))]
  else []

/-- HOLDOVER_EXPIRED cleared as the Servo leaves HOLDOVER (R72). -/
def leftHoldover (before : ServoState) (s : State) : State :=
  if before = .holdover then s.setFault .holdoverExpired { s.fault .holdoverExpired with active := false } else s

theorem Entered.leftHoldover {s t : State} (h : Entered s t) (before : ServoState) :
    Entered (leftHoldover before s) (leftHoldover before t) := by
  unfold Machine.leftHoldover
  split
  · rw [h.fault]
    exact h.setFault _ _
  · exact h

theorem Entered.clearedRecord {s t : State} (h : Entered s t) (k : FaultKind) (port : Option Port) (least : Nat) :
    clearedRecord t k port least = clearedRecord s k port least := by
  unfold Machine.clearedRecord
  rw [h.fault, h.response, (h.setFault k _).floor]

theorem told_selectionTold {s t : State} (h : Entered s t) (room : RoomFor 4 s) (b : SourceEntry) (before : ServoState)
    (old : Option (BitVec 64)) (reason : Reason) :
    (selectionTold b before (offerRecord (.plain (some b.port) (.source old (some b.sender) reason)) t)).told = s.told ++
      ([(some b.port, t.engineClass, RecBody.source old (some b.sender) reason)] ++
        (if before = ServoState.holdover then clearedRecord s .holdoverExpired none t.servoClass else []) ++
        (if t.servo.st = before then [] else
          [(none, max t.servoClass (leftHoldover before s).floor,
            RecBody.state before t.servo.st (max t.servoClass (leftHoldover before s).floor))]) ++
        clearedRecord (leftHoldover before s) .sourceLost (some b.port) t.servoClass).map (recordOf s.clock.date.sn) := by
  have lost : ∀ u : State, (leftHoldover before u).fault .sourceLost = u.fault .sourceLost := fun u => by
    unfold leftHoldover
    split
    · exact fault_setFault_ne _ _ _ _ (by decide)
    · rfl
  have response : ∀ u : State, (leftHoldover before u).response .sourceLost = u.response .sourceLost := fun u => by
    unfold leftHoldover
    split <;> rfl
  refine (told_selected b 0 (room.of h.log) before old reason).trans ?_
  rw [show t.told = s.told by rw [State.told, State.told, h.log], ← (h.leftHoldover before).clearedRecord,
    ← (h.leftHoldover before).floor, ← h.clearedRecord, ← h.date]
  rw [clearedRecord, clearedRecord, lost, response]
  simp only [List.map_append]
  congr 1
  congr 1
  · congr 1
    · congr 1
      by_cases leaves : before = .holdover
      · simp only [leaves, true_and, if_true]
        split <;> rfl
      · simp [leaves]
    · split <;> rfl
  · split <;> rfl

/-! ### The end of a selection, in stages -/

section Ending

variable (i : Nat) (e : SourceEntry) (reason : Reason) (s : State)

/-- The entry out of the selection and the Servo's transition made, before any record. -/
def ending : State :=
  if s.servo.st = .acquiring ∨ s.servo.st = .locked then servoHolds (unselect i s) else unselect i s

theorem endSelection_eq : endSelection (i, e) reason s = raiseFault .sourceLost (.port e.port) true .nothing
    (offerStateIfChanged s.servo.st
      (offerRecord (.plain (some e.port) (.source (some e.sender) none reason)) (ending i s))) := rfl

theorem entered_ending : Entered s (ending i s) := by
  unfold ending
  split
  · exact (entered_unselect _ _).trans (entered_servoHolds _)
  · exact entered_unselect _ _

variable {s}

theorem ending_follows (following : Follows s) : ending i s = servoHolds (unselect i s) := if_pos following

theorem servo_ending (following : Follows s) : (ending i s).servo = { s.servo with
    st := .holdover, r := s.servo.f, excSign := .none, excCount := 0, lockCtr := 0, unlockCtr := 0, catchDown := false
    holdTimer := 0, expired := false } := by
  rw [ending_follows i following, servoHolds_servo, servo_unselect]

theorem ending_rests (rests : ¬ Follows s) : ending i s = unselect i s := if_neg rests

theorem servoClass_ending (following : Follows s) : (ending i s).servoClass = 3 := by
  rw [State.servoClass, servo_ending i following]
  rfl

/-- Where the Servo follows nothing its class has nothing of the Source Table (R81). -/
theorem servoClass_rests (rests : ¬ Follows s) : (ending i s).servoClass = s.servoClass := by
  have servo : (ending i s).servo = s.servo := by rw [ending_rests i rests, servo_unselect]
  rw [State.servoClass, State.servoClass, servo]
  cases st : s.servo.st with
  | unset | freerun | holdover => rfl
  | acquiring => exact absurd (.inl st) rests
  | locked => exact absurd (.inr st) rests

theorem secondEnd_ending (following : Follows s) : (ending i s).clock.secondEnd =
    if s.cfg.secLimit < max 3 s.floor then none else s.clock.secondEnd := by
  have entered : Entered s (handRate (unselect i s).servo.f ((unselect i s).setServo
      { (unselect i s).servo.clearCounts with catchDown := false, holdTimer := 0, expired := false })) :=
    ((entered_unselect i s).trans (entered_setServo _ _)).trans (entered_handRate _ _)
  rw [ending_follows i following, servoHolds, secondEnd_setServoState rfl, entered.cfg, entered.floor]
  simp [handRate]

/-- The raise of SOURCE_LOST as the selection ends: its record, unless the fault was active (R50, R187). -/
def lostRecord (least : Nat) (s : State) : List (Option Port × Nat × RecBody) :=
  if (s.fault .sourceLost).active = true then [] else
    [(some e.port, max least (s.setFault .sourceLost { s.fault .sourceLost with active := true }).floor,
      .fault .sourceLost false (s.response .sourceLost))]

theorem Entered.lostRecord {s t : State} (h : Entered s t) (least : Nat) : lostRecord e least t = lostRecord e least s := by
  unfold Machine.lostRecord
  rw [h.fault, h.response, (h.setFault .sourceLost _).floor]

theorem told_endSelection (room : RoomFor 4 s) :
    (endSelection (i, e) reason s).told = s.told ++
      ([(some e.port, (ending i s).engineClass, RecBody.source (some e.sender) none reason)] ++
        (if (ending i s).servo.st = s.servo.st then [] else
          [(none, (ending i s).engineClass, RecBody.state s.servo.st (ending i s).servo.st (ending i s).engineClass)]) ++
        lostRecord e (ending i s).servoClass s).map (recordOf s.clock.date.sn) := by
  have h := entered_ending i s
  rw [endSelection_eq, ← h.lostRecord e, ← h.date, show s.told = (ending i s).told by rw [State.told, State.told, h.log]]
  have room := room.of h.log
  generalize ending i s = t at *
  obtain ⟨source, recs⟩ := told_offerRecord room (some e.port) (.source (some e.sender) none reason)
  generalize offerRecord (.plain (some e.port) (.source (some e.sender) none reason)) t = u at *
  have cls : u.engineClass = t.engineClass := engineClass_of source.servo source.sources recs source.cfg
  have changed : Told 2 u (offerStateIfChanged s.servo.st u)
      (if t.servo.st = s.servo.st then [] else
        [⟨0, none, 0, t.engineClass, t.clock.date.sn, .state s.servo.st t.servo.st t.engineClass⟩]) ∧
      (offerStateIfChanged s.servo.st u).faults.recs = u.faults.recs := by
    unfold offerStateIfChanged
    rw [source.servo]
    split
    · exact ⟨⟨by simp, source.room.less (by omega), rfl, rfl, rfl, rfl⟩, rfl⟩
    · rw [← cls, ← source.servo, ← source.date]
      exact told_offerRecord source.room none _
  generalize offerStateIfChanged s.servo.st u = v at *
  have raised := told_raiseFault (n := 1) changed.1.room .sourceLost (.port e.port) .nothing
  have whole := ((source.trans changed.1).trans raised).told
  have entered : v.faults.recs = t.faults.recs ∧ v.cfg = t.cfg :=
    ⟨changed.2.trans recs, changed.1.cfg.trans source.cfg⟩
  have fault : v.fault .sourceLost = t.fault .sourceLost := fault_of entered.1 _
  have vcls : v.servoClass = t.servoClass :=
    servoClass_of (changed.1.servo.trans source.servo) (changed.1.sources.trans source.sources)
  have floor : ∀ r, (v.setFault .sourceLost r).floor = (t.setFault .sourceLost r).floor := fun r =>
    floor_of (congrArg (fun w : Vector FaultRec 9 => w.set FaultKind.sourceLost.ix r) entered.1) entered.2
  have response : v.response .sourceLost = t.response .sourceLost := by rw [State.response, entered.2, State.response]
  rw [whole, fault, vcls, floor, response, changed.1.date, source.date, lostRecord]
  simp only [List.map_append]
  congr 1
  congr 1
  · congr 1
    split <;> rfl
  · split <;> rfl

end Ending

/-! ### The pulse -/

/-- A pulse that a class of 3 or more has judged, with nothing of the change beyond class 4 (R13). -/
def JudgedPulse (s t : State) : Prop :=
  (s.cfg.secLimit < max 3 s.floor → t.clock.secondEnd = none) ∧ (4 ≤ s.cfg.secLimit → t.clock.secondEnd = s.clock.secondEnd)

theorem judgedPulse_of {s u t : State} (entered : Entered s u) (cls : u.servoClass = 3)
    (judged : u.clock.secondEnd = if s.cfg.secLimit < max 3 s.floor then none else s.clock.secondEnd) (kept : PulseKept u t) :
    JudgedPulse s t := by
  have after := kept.pulse
  rw [judged, entered.cfg, cls] at after
  have floor := floor_le s
  refine ⟨fun worse => ?_, fun wide => ?_⟩
  · rw [if_pos worse] at after
    exact after.elim id fun h => h.1
  · rw [if_neg (by omega)] at after
    exact after.elim id fun h => absurd h.2 (by omega)

theorem pulse_selectionTold (b : SourceEntry) (before : ServoState) (t : State) : PulseKept t (selectionTold b before t) := by
  unfold selectionTold
  refine .trans (.trans ?_ (pulse_offerStateIfChanged _ _)) (pulse_clearFault _ _ _ _ _)
  split
  · exact pulse_clearFault _ _ _ _ _
  · exact .of rfl rfl rfl rfl

theorem judgedPulse_select {old : Option (Nat × SourceEntry)} {sampled : Bool} {s : State} (moves : ¬ Waits old sampled s)
    (j : Nat) (b : SourceEntry) (reason : Reason) : JudgedPulse s (select old (j, b) reason sampled s) := by
  refine judgedPulse_of (entered_selecting old j sampled s) (servoClass_selecting moves) (secondEnd_selecting moves) ?_
  rw [select_eq]
  exact (pulse_offerRecord _ _).trans (pulse_selectionTold _ _ _)

theorem judgedPulse_endSelection {s : State} (following : Follows s) (i : Nat) (e : SourceEntry) (reason : Reason) :
    JudgedPulse s (endSelection (i, e) reason s) := by
  refine judgedPulse_of (entered_ending i s) (servoClass_ending i following) (secondEnd_ending i following) ?_
  rw [endSelection_eq]
  exact ((pulse_offerRecord _ _).trans (pulse_offerStateIfChanged _ _)).trans (pulse_raiseFault _ _ _ _ _)

/-! ### The first record -/

/-- A record comes first of those that an event writes. -/
def Starts (s t : State) (record : LogRecord) : Prop := ∃ later, t.log.records = s.log.records ++ record :: later

/-- No offer takes a record out of the log. -/
theorem prefix_offerBare (base : List LogRecord) (o : Offer) (s : State) (h : base <+: s.log.records) :
    base <+: (offerBare o s).1.log.records := by
  unfold offerBare
  split
  · split
    · rw [log_levelNotice, State.setLog_log, EventLog.put_eq]
      exact (h.trans (List.prefix_append _ _)).trans (List.prefix_append _ _)
    · rw [log_levelNotice, State.setLog_log, EventLog.put_eq]
      exact h.trans (List.prefix_append _ _)
  · exact h

theorem starts_of_prefix {s t : State} {record : LogRecord} (h : s.log.records ++ [record] <+: t.log.records) :
    Starts s t record := by
  obtain ⟨later, same⟩ := h
  exact ⟨later, by rw [← same, List.append_assoc]; rfl⟩

theorem prefix_selectionTold {base : List LogRecord} {u : State} (start : base <+: u.log.records) (b : SourceEntry)
    (before : ServoState) : base <+: (selectionTold b before u).log.records := by
  have kept := prefix_offerBare base
  unfold selectionTold
  refine logKept_clearFault (P := fun l => base <+: l.records) kept _ _ _ _
    (logKept_offerStateIfChanged (P := fun l => base <+: l.records) kept _ ?_)
  split
  · exact logKept_clearFault (P := fun l => base <+: l.records) kept _ _ _ _ start
  · exact start

theorem starts_select {s : State} (room : RoomFor 1 s) (old : Option (Nat × SourceEntry)) (j : Nat) (b : SourceEntry)
    (reason : Reason) (sampled : Bool) : Starts s (select old (j, b) reason sampled s)
      ⟨s.log.nextSeq, some b.port, 0, (selecting old j sampled s).engineClass, s.clock.date.sn,
        .source (old.map (fun x => x.2.sender)) (some b.sender) reason⟩ := by
  have h := entered_selecting old j sampled s
  have first := records_offerRecord (room.of h.log) (sourceOffer (old.map (fun x => x.2)) (some b) reason)
  apply starts_of_prefix
  rw [select_eq, ← h.log, ← h.date]
  refine prefix_selectionTold ?_ b s.servo.st
  rw [first]
  cases old <;> exact List.prefix_refl _

theorem starts_endSelection {s : State} (room : RoomFor 1 s) (i : Nat) (e : SourceEntry) (reason : Reason) :
    Starts s (endSelection (i, e) reason s)
      ⟨s.log.nextSeq, some e.port, 0, (ending i s).engineClass, s.clock.date.sn, .source (some e.sender) none reason⟩ := by
  have h := entered_ending i s
  have first := records_offerRecord (room.of h.log) (.plain (some e.port) (.source (some e.sender) none reason))
  apply starts_of_prefix
  rw [endSelection_eq, ← h.log, ← h.date]
  have start : (ending i s).log.records ++ [⟨(ending i s).log.nextSeq, some e.port, 0, (ending i s).engineClass,
      (ending i s).clock.date.sn, .source (some e.sender) none reason⟩] <+:
      (offerRecord (.plain (some e.port) (.source (some e.sender) none reason)) (ending i s)).log.records := by
    rw [first]
    exact List.prefix_refl _
  exact logKept_raiseFault (P := fun l => _ <+: l.records) (prefix_offerBare _) _ _ _ _
    (logKept_offerStateIfChanged (P := fun l => _ <+: l.records) (prefix_offerBare _) _ start)

/-! ### The branches of a re-evaluation -/

section Branches

variable {s : State} {i : Nat} {e : SourceEntry} (why : Reason) (own : Option Nat)

/-- The entry of the present selection may still be followed (R47). -/
def Stays (s : State) (i : Nat) : Prop := ∃ now, s.source i = some now ∧ now.st = .selected ∧ selectable s now = true

theorem reevaluate_stays {now : SourceEntry} (there : s.source i = some now) (st : now.st = .selected)
    (able : selectable s now = true) : reevaluate (some (i, e)) why own s =
      match bestSource s with
      | some (j, b) => if b.cls < now.cls then select (some (i, e)) (j, b) .better (own = some j) s else s
      | none => s := by
  simp only [reevaluate, there]
  exact if_pos ⟨st, able⟩

theorem reevaluate_gone (gone : ¬ Stays s i) : reevaluate (some (i, e)) why own s =
    match bestSource s with
    | some (j, b) => select (some (i, e)) (j, b) why (own = some j) s
    | none => endSelection (i, e) why s := by
  cases there : s.source i with
  | none => simp only [reevaluate, there] <;> rfl
  | some now =>
    simp only [reevaluate, there]
    exact if_neg fun both => gone ⟨now, there, both.1, both.2⟩

theorem reevaluate_kept {now : SourceEntry} (there : s.source i = some now) (st : now.st = .selected)
    (able : selectable s now = true) (top : ∀ j b, bestSource s = some (j, b) → now.cls ≤ b.cls) :
    reevaluate (some (i, e)) why own s = s := by
  rw [reevaluate_stays why own there st able]
  cases best : bestSource s with
  | none => rfl
  | some b => exact if_neg (Nat.not_lt.mpr (top b.1 b.2 best))

theorem reevaluate_beaten {now : SourceEntry} {j : Nat} {b : SourceEntry} (there : s.source i = some now)
    (st : now.st = .selected) (able : selectable s now = true) (best : bestSource s = some (j, b)) (beats : b.cls < now.cls) :
    reevaluate (some (i, e)) why own s = select (some (i, e)) (j, b) .better (own = some j) s := by
  rw [reevaluate_stays why own there st able, best]
  exact if_pos beats

theorem reevaluate_replaced {j : Nat} {b : SourceEntry} (gone : ¬ Stays s i) (best : bestSource s = some (j, b)) :
    reevaluate (some (i, e)) why own s = select (some (i, e)) (j, b) why (own = some j) s := by
  rw [reevaluate_gone why own gone, best]

theorem reevaluate_ended (gone : ¬ Stays s i) (best : bestSource s = none) :
    reevaluate (some (i, e)) why own s = endSelection (i, e) why s := by
  rw [reevaluate_gone why own gone, best]

theorem reevaluate_idle (best : bestSource s = none) : reevaluate none why own s = s := by
  simp only [reevaluate, best]

theorem reevaluate_first {j : Nat} {b : SourceEntry} (best : bestSource s = some (j, b)) :
    reevaluate none why own s = select none (j, b) .better (own = some j) s := by
  simp only [reevaluate, best]

end Branches

/-! ### The Source Table after a change -/

section Table

variable {s : State} {i j : Nat} {e b : SourceEntry}

theorem source_unselect (m : Nat) : (unselect i s).source m =
    if i = m ∧ s.isSelected i = true then (s.source m).map (fun e => { e with st := .candidate }) else s.source m := by
  unfold unselect
  by_cases selected : s.isSelected i = true
  · rw [if_pos selected, source_setSourceState]
    simp [selected]
  · rw [if_neg selected, if_neg fun h => selected h.2]

/-- The entry that leaves the selection becomes CANDIDATE where it is SELECTED, and else stays as it is (R47). -/
def Left (s t : State) (i : Nat) : Prop :=
  (∀ now, s.source i = some now → now.st = .selected → t.source i = some { now with st := .candidate }) ∧
  (∀ now, s.source i = some now → now.st = .stale ∨ now.st = .barred → t.source i = some now)

theorem left_unselect (s : State) (i : Nat) : Left s (unselect i s) i := by
  refine ⟨fun now there st => ?_, fun now there st => ?_⟩
  · rw [source_unselect, if_pos ⟨rfl, (isSelected_iff s i).mpr ⟨now, there, st⟩⟩, there, Option.map_some]
  · rw [source_unselect, if_neg, there]
    rintro ⟨-, selected⟩
    obtain ⟨e', there', st'⟩ := (isSelected_iff s i).mp selected
    rw [there] at there'
    rw [Option.some.inj there', st'] at st
    simp at st

theorem source_selected (best : s.source j = some b) (old : Option (Nat × SourceEntry)) (reason : Reason) (sampled : Bool) :
    (select old (j, b) reason sampled s).source j = some { b with st := .selected } := by
  rw [source_of (select_sources ..), source_setSourceState, if_pos rfl]
  rcases old with _ | ⟨k, x⟩
  · rw [oldGone, best, Option.map_some]
  · rw [oldGone, source_unselect, best]
    split <;> rfl

theorem source_unchanged {m : Nat} (h : m ≠ j) (k : m ≠ i) (reason : Reason) (sampled : Bool) :
    (select (some (i, e)) (j, b) reason sampled s).source m = s.source m := by
  rw [source_of (select_sources ..), source_setSourceState, if_neg h.symm, oldGone, source_unselect, if_neg fun x => k x.1.symm]

theorem source_unchanged_first {m : Nat} (h : m ≠ j) (reason : Reason) (sampled : Bool) :
    (select none (j, b) reason sampled s).source m = s.source m := by
  rw [source_of (select_sources ..), source_setSourceState, if_neg h.symm, oldGone]

/-- The entry at an index is in none of the states of one that leaves the selection, or the index is another. -/
def Apart (s : State) (i j : Nat) : Prop :=
  ∀ now, s.source i = some now → now.st = .selected ∨ now.st = .stale ∨ now.st = .barred → i ≠ j

theorem left_select (apart : Apart s i j) (reason : Reason) (sampled : Bool) :
    Left s (select (some (i, e)) (j, b) reason sampled s) i := by
  have same : i ≠ j → (select (some (i, e)) (j, b) reason sampled s).source i = (unselect i s).source i := fun other => by
    rw [source_of (select_sources ..), source_setSourceState, if_neg (Ne.symm other), oldGone]
  obtain ⟨selected, silent⟩ := left_unselect s i
  exact ⟨fun now there st => (same (apart now there (.inl st))).trans (selected now there st),
    fun now there st => (same (apart now there (.inr st))).trans (silent now there st)⟩

theorem source_endSelection (reason : Reason) (m : Nat) :
    (endSelection (i, e) reason s).source m = (unselect i s).source m := source_of (endSelection_sources ..) m

end Table

/-! ### A change as a whole -/

section Whole

variable {s : State} {i j : Nat} {e b : SourceEntry} (reason : Reason) (sampled : Bool)

theorem engineClass_selecting {old : Option (Nat × SourceEntry)} (moves : ¬ Waits old sampled s) :
    (selecting old j sampled s).engineClass = max 3 s.floor := by
  rw [State.engineClass, servoClass_selecting moves, (entered_selecting old j sampled s).floor]

theorem not_waits_some (x : Nat × SourceEntry) : ¬ Waits (some x) sampled s := fun h => nomatch h.1

theorem servo_select_some : (select (some (i, e)) (j, b) reason sampled s).servo =
    { s.servo with st := .acquiring, excSign := .none, excCount := 0, lockCtr := 0, unlockCtr := 0 } := by
  rw [select_servo, if_pos Option.isSome_some, servoSwitches_servo]

theorem servo_select_none (moves : ¬ Waits none sampled s) : (select none (j, b) reason sampled s).servo = { s.servo with
    st := .acquiring, excSign := .none, excCount := 0, lockCtr := 0, unlockCtr := 0, catchDown := false, expired := false } := by
  rw [select_servo, if_neg (by simp), if_neg fun h => moves ⟨rfl, h⟩, servoFollows_servo]

theorem servo_select_waits (waits : Waits none sampled s) : (select none (j, b) reason sampled s).servo = s.servo := by
  rw [select_servo, if_neg (by simp), if_pos waits.2]

theorem clock_select (old : Option (Nat × SourceEntry)) : (select old (j, b) reason sampled s).clock =
    { s.clock with inc := s.clock.inc, secondEnd := (select old (j, b) reason sampled s).clock.secondEnd } :=
  clock_of_steady (select_steady ..)

/-- An entry put in the place of another: the table, the state entered, and the first record (R47, R49, R50, R73). -/
theorem replaced (there : s.source j = some b) (apart : Apart s i j) :
    let t := select (some (i, e)) (j, b) reason sampled s
    t.source j = some { b with st := .selected } ∧ Left s t i ∧ (∀ m, m ≠ i → m ≠ j → t.source m = s.source m) ∧
      t.servo.st = .acquiring ∧ (t.fault .sourceLost).active = false ∧
      (RoomFor 1 s → Starts s t ⟨s.log.nextSeq, some b.port, 0, max 3 s.floor, s.clock.date.sn,
        .source (some e.sender) (some b.sender) reason⟩) := by
  intro t
  refine ⟨source_selected there _ _ _, left_select apart _ _, fun m hi hj => source_unchanged hj hi _ _,
    by rw [servo_select_some], by rw [fault_select_lost], fun room => ?_⟩
  rw [← engineClass_selecting (j := j) sampled (not_waits_some sampled (i, e))]
  exact starts_select room (some (i, e)) j b reason sampled

/-- The records of an entry put in the place of another, the Servo following (R49, R50, R73). -/
theorem told_replaced (following : Follows s) (room : RoomFor 4 s) :
    (select (some (i, e)) (j, b) reason sampled s).told = s.told ++
      ([(some b.port, max 3 s.floor, RecBody.source (some e.sender) (some b.sender) reason)] ++
        (if s.servo.st = ServoState.locked then [(none, max 3 s.floor, RecBody.state .locked .acquiring (max 3 s.floor))] else []) ++
        clearedRecord s .sourceLost (some b.port) 3).map (recordOf s.clock.date.sn) := by
  have moves := not_waits_some (s := s) sampled (i, e)
  have told := told_selectionTold (entered_selecting (some (i, e)) j sampled s) room b s.servo.st (some e.sender) reason
  have stays : s.servo.st ≠ .holdover := by rcases following with st | st <;> simp [st]
  rw [select_eq]
  refine told.trans ?_
  rw [servoClass_selecting moves, engineClass_selecting sampled moves, st_selecting moves, leftHoldover, if_neg stays,
    if_neg stays, List.append_nil]
  rcases following with st | st <;> simp [st]

/-- A first entry selected, the Servo not waiting: HOLDOVER_EXPIRED is cleared as the Servo leaves HOLDOVER (R72). -/
theorem fault_select_first : (select none (j, b) reason sampled s).fault .holdoverExpired =
    (leftHoldover s.servo.st s).fault .holdoverExpired := by
  have h := (entered_selecting none j sampled s).fault .holdoverExpired
  have offered := fault_offerRecord (sourceOffer (none.map (fun x : Nat × SourceEntry => x.2)) (some b) reason)
    (selecting none j sampled s) .holdoverExpired (by decide)
  rw [h] at offered
  rw [select_eq, selectionTold, fault_clearFault_ne _ _ _ _ _ _ (by decide) (by decide), fault_offerStateIfChanged _ _ _ (by decide)]
  unfold leftHoldover
  split
  · rw [clearHoldoverExpired, fault_clearFault_self _ _ _ _ _ (by decide), offered, fault_setFault]
  · exact offered

/-- The records of a first entry, the Servo not waiting (R49, R50, R69, R72). -/
theorem told_first (moves : ¬ Waits none sampled s) (idle : ¬ Follows s) (room : RoomFor 4 s) :
    (select none (j, b) reason sampled s).told = s.told ++
      ([(some b.port, max 3 s.floor, RecBody.source none (some b.sender) reason)] ++
        (if s.servo.st = ServoState.holdover then clearedRecord s .holdoverExpired none 3 else []) ++
        [(none, max 3 (leftHoldover s.servo.st s).floor,
          RecBody.state s.servo.st .acquiring (max 3 (leftHoldover s.servo.st s).floor))] ++
        clearedRecord (leftHoldover s.servo.st s) .sourceLost (some b.port) 3).map (recordOf s.clock.date.sn) := by
  have told := told_selectionTold (entered_selecting none j sampled s) room b s.servo.st none reason
  have changes : ¬ ServoState.acquiring = s.servo.st := fun same => idle (.inl same.symm)
  rw [select_eq]
  refine told.trans ?_
  rw [servoClass_selecting moves, engineClass_selecting sampled moves, st_selecting moves, if_neg changes]

/-- The records of an entry selected in UNSET, the Servo waiting for its sample (R71). -/
theorem told_waits (waits : Waits none sampled s) (room : RoomFor 4 s) :
    (select none (j, b) reason sampled s).told = s.told ++
      ([(some b.port, 6, RecBody.source none (some b.sender) reason)] ++
        clearedRecord s .sourceLost (some b.port) 6).map (recordOf s.clock.date.sn) := by
  have told := told_selectionTold (entered_selecting none j sampled s) room b s.servo.st none reason
  have cls : (selecting none j sampled s).engineClass = 6 := by
    have := floor_le (selecting none j sampled s)
    rw [State.engineClass, servoClass_waits waits]
    omega
  have unset : s.servo.st = .unset := waits.2.1
  rw [select_eq]
  refine told.trans ?_
  rw [servoClass_waits waits, cls, st_selecting_waits waits, leftHoldover, unset]
  simp

theorem engineClass_ending_follows (following : Follows s) : (ending i s).engineClass = max 3 s.floor := by
  rw [State.engineClass, servoClass_ending i following, (entered_ending i s).floor]

theorem engineClass_ending_rests (rests : ¬ Follows s) : (ending i s).engineClass = s.engineClass := by
  rw [State.engineClass, servoClass_rests i rests, (entered_ending i s).floor, State.engineClass]

/-- The selection ended: the table, and SOURCE_LOST raised (R47, R50). -/
theorem ended_table : Left s (endSelection (i, e) reason s) i ∧
    (∀ m, m ≠ i → (endSelection (i, e) reason s).source m = s.source m) ∧
    ((∀ j, j ≠ i → s.isSelected j = false) → ∀ j, (endSelection (i, e) reason s).isSelected j = false) ∧
    ((endSelection (i, e) reason s).fault .sourceLost).active = true := by
  have source := fun m => source_endSelection (s := s) (i := i) (e := e) reason m
  have others : ∀ m, m ≠ i → (endSelection (i, e) reason s).source m = s.source m := fun m other => by
    rw [source, source_unselect, if_neg fun h => other h.1.symm]
  obtain ⟨selected, silent⟩ := left_unselect s i
  refine ⟨⟨fun now there st => (source i).trans (selected now there st), fun now there st => (source i).trans (silent now there st)⟩,
    others, fun alone j => ?_, ?_⟩
  · by_cases own : j = i
    · subst own
      rw [State.isSelected, source, source_unselect]
      cases was : s.isSelected j with
      | true =>
        rw [if_pos ⟨rfl, rfl⟩]
        cases s.source j <;> rfl
      | false =>
        rw [if_neg (by simp)]
        exact was
    · rw [State.isSelected, others j own]
      exact alone j own
  · rw [fault_endSelection_lost]
    split
    · assumption
    · rfl

theorem servo_ended (following : Follows s) : (endSelection (i, e) reason s).servo = { s.servo with
    st := .holdover, r := s.servo.f, excSign := .none, excCount := 0, lockCtr := 0, unlockCtr := 0, catchDown := false
    holdTimer := 0, expired := false } := by
  rw [endSelection_servo, if_pos (by exact following), servoHolds_servo]

theorem servo_ended_rests (rests : ¬ Follows s) : (endSelection (i, e) reason s).servo = s.servo := by
  rw [endSelection_servo, if_neg (by exact rests)]

theorem clock_ended (following : Follows s) : (endSelection (i, e) reason s).clock = { s.clock with
    inc := incrementOf s.servo.f, secondEnd := (endSelection (i, e) reason s).clock.secondEnd } :=
  clock_of_steady ((endSelection_steady ..).trans (if_pos following))

theorem clock_ended_rests (rests : ¬ Follows s) : (endSelection (i, e) reason s).clock = { s.clock with
    inc := s.clock.inc, secondEnd := (endSelection (i, e) reason s).clock.secondEnd } :=
  clock_of_steady ((endSelection_steady ..).trans (if_neg rests))

theorem told_ended (following : Follows s) (room : RoomFor 4 s) : (endSelection (i, e) reason s).told = s.told ++
    ([(some e.port, max 3 s.floor, RecBody.source (some e.sender) none reason),
      (none, max 3 s.floor, RecBody.state s.servo.st .holdover (max 3 s.floor))] ++
      lostRecord e 3 s).map (recordOf s.clock.date.sn) := by
  have changes : ¬ ServoState.holdover = s.servo.st := by rcases following with st | st <;> simp [st]
  rw [told_endSelection i e reason room, engineClass_ending_follows following, servoClass_ending i following,
    servo_ending i following, if_neg changes]
  rfl

theorem told_ended_rests (rests : ¬ Follows s) (room : RoomFor 4 s) : (endSelection (i, e) reason s).told = s.told ++
    ([(some e.port, s.engineClass, RecBody.source (some e.sender) none reason)] ++
      lostRecord e s.servoClass s).map (recordOf s.clock.date.sn) := by
  rw [told_endSelection i e reason room, engineClass_ending_rests rests, servoClass_rests i rests, ending_rests i rests,
    servo_unselect, if_pos rfl, List.append_nil]

end Whole

theorem apart_of_gone {s : State} {i j : Nat} {b : SourceEntry} (best : bestSource s = some (j, b)) (gone : ¬ Stays s i) :
    Apart s i j := by
  obtain ⟨there, able⟩ := bestSource_some best
  rintro now there' st rfl
  rw [there] at there'
  obtain rfl := Option.some.inj there'
  obtain ⟨state, -⟩ := (selectable_iff s b).mp able
  rcases st with selected | is | is
  · exact gone ⟨b, there, selected, able⟩
  · simp [is] at state
  · simp [is] at state

theorem apart_of_beaten {s : State} {i j : Nat} {b now : SourceEntry} (best : bestSource s = some (j, b))
    (there : s.source i = some now) (beats : b.cls < now.cls) : Apart s i j := by
  rintro - - - rfl
  rw [(bestSource_some best).1] at there
  exact absurd beats (Option.some.inj there ▸ lt_irrefl _)

/-- Settles O57: the rank by the fold that finds the best entry, and a re-evaluation by its branches. -/
theorem theSelectionFollowsTheRank : Obligations.TheSelectionFollowsTheRank := by
  unfold Obligations.TheSelectionFollowsTheRank
  intro able told
  have able_iff : ∀ s e, selectable s e = true ↔ able s e := selectable_iff
  have starts {s t : State} {port cls old new why} (h : RoomFor 1 s → Starts s t
      ⟨s.log.nextSeq, some port, 0, cls, s.clock.date.sn, .source old new why⟩) : told s t port cls old new why :=
    fun mem gap len => h ⟨mem, gap, len⟩
  refine ⟨fun s => ?rank, able_iff, fun s i e why own => ?chosen, fun s why own => ?first, ?servo⟩
  case rank =>
    intro above ok
    refine ⟨?_, fun i e => ?_⟩
    · rw [bestSource_none ok]
      exact forall_congr' fun i => forall_congr' fun e => imp_congr Iff.rfl (not_congr (able_iff s e))
    · rw [bestSource_iff ok]
      refine and_congr_right fun there => and_congr (able_iff s e) (forall_congr' fun j => forall_congr' fun e' =>
        forall_congr' fun there' => imp_congr (able_iff s e') (imp_congr Iff.rfl ?_))
      exact ranksAbove_uplinks (ok.port i e there) (ok.port j e' there')
  case chosen =>
    intro t stays left
    refine ⟨fun now there st can top => reevaluate_kept why own there st can top, fun now j b there st can best beats => ?_,
      fun j b gone best => ?_, fun gone best => ?_⟩
    · obtain ⟨put, out, same, state, lost, record⟩ := replaced (e := e) .better (own = some j) (bestSource_some best).1
        (apart_of_beaten best there beats)
      rw [← reevaluate_beaten why own there st can best beats] at put out same state lost record
      exact ⟨put, out, same, state, lost, starts record⟩
    · obtain ⟨put, out, same, state, lost, record⟩ := replaced (e := e) why (own = some j) (bestSource_some best).1
        (apart_of_gone best gone)
      rw [← reevaluate_replaced why own gone best] at put out same state lost record
      exact ⟨put, out, same, state, lost, starts record⟩
    · intro following
      have ended : t = endSelection (i, e) why s := reevaluate_ended why own gone best
      obtain ⟨out, same, none, lost⟩ := ended_table (s := s) (i := i) (e := e) why
      have first := fun room => starts_endSelection (s := s) room i e why
      rw [← ended] at out same none lost first
      refine ⟨out, same, none, lost, ?_, starts fun room => ?_⟩
      · by_cases follows : following
        · rw [if_pos follows, ended, servo_ended why follows]
        · rw [if_neg follows, ended, servo_ended_rests why follows]
      · have record := first room
        by_cases follows : following
        · rw [if_pos follows, ← engineClass_ending_follows (i := i) follows]
          exact record
        · rw [if_neg follows, ← engineClass_ending_rests (i := i) follows]
          exact record
  case first =>
    intro t
    refine ⟨fun none => reevaluate_idle why own none, fun j b best => ?_⟩
    intro waits
    have same : t = select none (j, b) .better (own = some j) s := reevaluate_first why own best
    have waits_iff : waits ↔ Waits none (decide (own = some j)) s := by
      unfold Waits
      simp [waits]
    have first := fun room => starts_select (s := s) room none j b .better (own = some j)
    rw [same]
    refine ⟨source_selected (bestSource_some best).1 _ _ _, fun m other => source_unchanged_first other _ _, ?_,
      by rw [fault_select_lost], starts fun room => ?_⟩
    · by_cases wait : waits
      · rw [if_pos wait, servo_select_waits _ _ (waits_iff.mp wait)]
        exact wait.1
      · rw [if_neg wait, servo_select_none _ _ (mt waits_iff.mpr wait)]
    · have record := first room
      by_cases wait : waits
      · have cls : (selecting none j (decide (own = some j)) s).engineClass = 6 := by
          have := floor_le (selecting none j (decide (own = some j)) s)
          rw [State.engineClass, servoClass_waits (waits_iff.mp wait)]
          omega
        rw [if_pos wait, ← cls]
        exact record
      · rw [if_neg wait, ← engineClass_selecting (j := j) _ (mt waits_iff.mpr wait)]
        exact record
  case servo =>
    intro afresh keeps pulse calm state cleared filed
    have files {s t : State} {more} (h : RoomFor 4 s → t.told = s.told ++ more.map (recordOf s.clock.date.sn)) :
        filed s t more := fun mem gap len => (h ⟨mem, gap, len⟩).trans rfl
    refine ⟨fun s i e why own => ?again, fun s why own j b best => ?anew⟩
    case again =>
      intro t stays beaten following cls
      refine ⟨fun j b best either => ?_, fun gone best => ?_⟩
      · have changed : ∃ reason, t = select (some (i, e)) (j, b) reason (own = some j) s ∧
            ∀ r, (beaten b → r = .better) → (¬ stays → r = why) → r = reason := by
          rcases either with gone | beats
          · exact ⟨why, reevaluate_replaced why own gone best, fun r _ h => h gone⟩
          · obtain ⟨now, there, st, can, beats'⟩ := beats
            exact ⟨.better, reevaluate_beaten why own there st can best beats', fun r h _ => h ⟨now, there, st, can, beats'⟩⟩
        obtain ⟨reason, same, unique⟩ := changed
        rw [same]
        refine ⟨servo_select_some .., clock_select .., judgedPulse_select (not_waits_some _ _) j b reason,
          fun follows r h k => ?_⟩
        rw [unique r h k]
        exact files fun room => told_replaced _ _ follows room
      · intro lost raised
        have same : t = endSelection (i, e) why s := reevaluate_ended why own gone best
        rw [same]
        refine ⟨fun follows => ⟨servo_ended why follows, clock_ended why follows, judgedPulse_endSelection follows i e why,
          files fun room => ?_⟩, fun rests => ⟨servo_ended_rests why rests, clock_ended_rests why rests,
          files fun room => ?_⟩⟩
        · have last : raised = lostRecord e 3 s := by
            unfold lostRecord
            simp only [raised, if_pos follows]
            rfl
          rw [last]
          exact told_ended why follows room
        · have last : raised = lostRecord e s.servoClass s := by
            unfold lostRecord
            simp only [raised, if_neg rests]
            rfl
          rw [last]
          exact told_ended_rests why rests room
    case anew =>
      intro t waits source
      have same : t = select none (j, b) .better (own = some j) s := reevaluate_first why own best
      have waits_iff : waits ↔ Waits none (decide (own = some j)) s := by
        unfold Waits
        simp [waits]
      rw [same]
      refine ⟨fun wait => ⟨servo_select_waits _ _ (waits_iff.mp wait), clock_select .., files fun room => ?_⟩,
        fun moves => ?_⟩
      · simp only [source, if_pos wait]
        exact told_waits _ _ (waits_iff.mp wait) room
      · intro held left cls
        have moves' := mt waits_iff.mpr moves
        refine ⟨servo_select_none _ _ moves', clock_select .., judgedPulse_select moves' j b .better,
          fault_select_first .., fun idle => files fun room => ?_⟩
        simp only [source, if_neg moves]
        refine told_first _ _ moves' ?_ room
        have rests : s.servo.st = .unset ∨ s.servo.st = .freerun ∨ s.servo.st = .holdover := idle
        rintro (st | st) <;> simp [st] at rests

end Sys2Proof.Machine
end

section
/-! The verdict (R173 to R179): the lower median and the votes, stage 1 with SELF_DRIFT, and stage 2 peer by peer. -/

namespace Sys2Proof.Machine

/-! ### The lower median -/

theorem insertAsc_eq (x : Int) (l : List Int) : insertAsc x l = l.orderedInsert (· ≤ ·) x := by
  induction l with
  | nil => rfl
  | cons y rest ih => rw [insertAsc, List.orderedInsert, ih]

theorem sortAsc_eq (l : List Int) : sortAsc l = l.insertionSort (· ≤ ·) := by
  induction l with
  | nil => rfl
  | cons x rest ih => rw [sortAsc, insertAsc_eq, ih, List.insertionSort_cons]

theorem perm_sortAsc (l : List Int) : (sortAsc l).Perm l := sortAsc_eq l ▸ List.perm_insertionSort _ l

theorem pairwise_sortAsc (l : List Int) : (sortAsc l).Pairwise (· ≤ ·) := sortAsc_eq l ▸ List.pairwise_insertionSort _ l

/-- Of an ascending list the values below one stand before it. -/
theorem countP_below {l : List Int} (sorted : l.Pairwise (· ≤ ·)) {k : Nat} (h : k < l.length) :
    l.countP (fun x => decide (x < l[k])) ≤ k := by
  have after : (l.drop k).countP (fun x => decide (x < l[k])) = 0 := by
    rw [List.countP_eq_zero]
    intro x member
    obtain ⟨j, within, rfl⟩ := List.mem_iff_getElem.mp member
    simp only [List.getElem_drop, decide_eq_true_eq, not_lt]
    by_cases same : j = 0
    · subst same
      exact le_refl _
    · exact List.pairwise_iff_getElem.mp sorted k (k + j) h (by simp at within; omega) (by omega)
  calc l.countP (fun x => decide (x < l[k]))
      = (l.take k ++ l.drop k).countP (fun x => decide (x < l[k])) := by rw [List.take_append_drop]
    _ = (l.take k).countP (fun x => decide (x < l[k])) := by rw [List.countP_append, after, Nat.add_zero]
    _ ≤ k := List.countP_le_length.trans (by simp)

/-- And those up to it stand up to it. -/
theorem countP_upTo {l : List Int} (sorted : l.Pairwise (· ≤ ·)) {k : Nat} (h : k < l.length) :
    k + 1 ≤ l.countP (fun x => decide (x ≤ l[k])) := by
  have all : (l.take (k + 1)).countP (fun x => decide (x ≤ l[k])) = k + 1 := by
    rw [List.countP_eq_length.mpr, List.length_take, Nat.min_eq_left h]
    intro x member
    obtain ⟨j, within, rfl⟩ := List.mem_iff_getElem.mp member
    simp only [List.getElem_take, decide_eq_true_eq]
    simp at within
    by_cases same : j = k
    · subst same
      exact le_refl _
    · exact List.pairwise_iff_getElem.mp sorted j k (by omega) h (by omega)
  calc k + 1 = (l.take (k + 1)).countP (fun x => decide (x ≤ l[k])) := all.symm
    _ ≤ l.countP (fun x => decide (x ≤ l[k])) := (List.take_sublist _ _).countP_le

theorem lowerMedian_spec (xs : List Int) (some_ : xs ≠ []) : ∃ v, lowerMedian xs = some v ∧ v ∈ xs ∧
    2 * (xs.filter (fun x => decide (x < v))).length < xs.length ∧
    xs.length ≤ 2 * (xs.filter (fun x => decide (x ≤ v))).length := by
  have perm := perm_sortAsc xs
  have length := perm.length_eq
  have here : 0 < xs.length := List.length_pos_iff.mpr some_
  have within : (xs.length - 1) / 2 < (sortAsc xs).length := by omega
  refine ⟨(sortAsc xs)[(xs.length - 1) / 2], List.getElem?_eq_getElem within, perm.mem_iff.mp (List.getElem_mem within), ?_, ?_⟩
  · have below := countP_below (pairwise_sortAsc xs) within
    rw [perm.countP_eq, List.countP_eq_length_filter] at below
    omega
  · have upTo := countP_upTo (pairwise_sortAsc xs) within
    rw [perm.countP_eq, List.countP_eq_length_filter] at upTo
    omega

/-! ### The votes -/

theorem length_filter_filterMap {α : Type} (l : List α) (value : α → Option Int) (beyond : Int → Bool) :
    ((l.filterMap value).filter beyond).length = (l.filter (fun i => (value i).any beyond)).length := by
  induction l with
  | nil => rfl
  | cons i rest ih =>
    rw [List.filterMap_cons, List.filter_cons]
    cases own : value i with
    | none => simpa [own] using ih
    | some x =>
      rw [List.filter_cons, Option.any_some]
      split <;> simp [ih]

theorem length_filterMap_all {α : Type} (l : List α) (value : α → Option Int) (all : ∀ i ∈ l, value i ≠ none) :
    (l.filterMap value).length = l.length := by
  rw [List.length_filterMap_eq_countP, List.countP_eq_length]
  intro i member
  exact Option.isSome_iff_ne_none.mpr (all i member)

/-- Two ways of a value that exclude each other are counted side by side. -/
theorem length_filter_add_le {l : List Int} {f g : Int → Bool} (apart : ∀ x, f x = true → g x = false) :
    (l.filter f).length + (l.filter g).length ≤ l.length := by
  induction l with
  | nil => rfl
  | cons x rest ih =>
    rw [List.filter_cons, List.filter_cons]
    cases own : f x with
    | true =>
      rw [apart x own]
      simp
      omega
    | false =>
      cases other : g x <;> simp <;> omega

theorem length_filter_mono {l : List Int} {f g : Int → Bool} (wider : ∀ x, f x = true → g x = true) :
    (l.filter f).length ≤ (l.filter g).length := by
  rw [← List.countP_eq_length_filter, ← List.countP_eq_length_filter]
  exact List.countP_mono_left fun x _ => wider x

/-- A majority beyond a limit takes the lower median with it (R174). -/
theorem median_behind {xs : List Int} {t : Int} (majority : xs.length < 2 * (xs.filter (fun x => decide (t < x))).length) :
    ∃ v, lowerMedian xs = some v ∧ t < v := by
  have some_ : xs ≠ [] := by
    rintro rfl
    simp at majority
  obtain ⟨v, median, -, -, upTo⟩ := lowerMedian_spec xs some_
  refine ⟨v, median, ?_⟩
  by_contra within
  have apart := length_filter_add_le (l := xs) (f := fun x => decide (t < x)) (g := fun x => decide (x ≤ v)) fun x beyond => by
    simp only [decide_eq_true_eq, decide_eq_false_iff_not] at beyond ⊢
    omega
  omega

theorem median_ahead {xs : List Int} {t : Int} (majority : xs.length < 2 * (xs.filter (fun x => decide (x < t))).length) :
    ∃ v, lowerMedian xs = some v ∧ v < t := by
  have some_ : xs ≠ [] := by
    rintro rfl
    simp at majority
  obtain ⟨v, median, -, below, -⟩ := lowerMedian_spec xs some_
  refine ⟨v, median, ?_⟩
  by_contra within
  have wider := length_filter_mono (l := xs) (f := fun x => decide (x < t)) (g := fun x => decide (x < v)) fun x beyond => by
    simp only [decide_eq_true_eq] at beyond ⊢
    omega
  omega

theorem countingPeers_eq (s : State) : countingPeers s =
    (List.range 32).filter (fun i => (s.peerCfg i).enabled && decide ((s.peer i).st = .active)) := rfl

theorem votes_eq (s : State) (t d : Nat) :
    let counting := countingPeers s
    let best := fun (i : Nat) => (s.peer i).best
    let drift := fun (i : Nat) => (s.peer i).drift
    let count := fun (value : Nat → Option Int) (beyond : Int → Bool) =>
      (counting.filter (fun i => (value i).any beyond)).length
    votes s t d =
      { n := counting.length
        behindOffset := count best (fun x => decide ((t : Int) < x))
        aheadOffset := count best (fun x => decide (x < -(t : Int)))
        behindDrift := count drift (fun x => decide ((d : Int) < x))
        aheadDrift := count drift (fun x => decide (x < -(d : Int)))
        offsetLimit := t, driftLimit := d
        offsetFigure := lowerMedian (counting.filterMap best), driftFigure := lowerMedian (counting.filterMap drift) } := by
  simp only [votes, length_filter_filterMap]

/-- Where every counting peer has a best offset, a majority shows in the rack figure. -/
theorem figure_of_majority {s : State} (t d : Nat)
    (known : ∀ i, (s.peerCfg i).enabled = true → (s.peer i).st = .active → (s.peer i).best ≠ none) :
    ((votes s t d).n < 2 * (votes s t d).behindOffset →
      ∃ figure, (votes s t d).offsetFigure = some figure ∧ (t : Int) < figure) ∧
    ((votes s t d).n < 2 * (votes s t d).aheadOffset →
      ∃ figure, (votes s t d).offsetFigure = some figure ∧ figure < -(t : Int)) := by
  have all : ((countingPeers s).filterMap (fun i => (s.peer i).best)).length = (countingPeers s).length :=
    length_filterMap_all _ _ fun i member => by
      rw [countingPeers_eq, List.mem_filter, Bool.and_eq_true, decide_eq_true_eq] at member
      exact known i member.2.1 member.2.2
  exact ⟨fun majority => median_behind (all ▸ majority), fun majority => median_ahead (all ▸ majority)⟩

/-! ### Stage 1 -/

/-- A majority of either vote in either sign (R174). -/
def Majority (v : Verdict) : Prop :=
  v.n < 2 * v.behindOffset ∨ v.n < 2 * v.aheadOffset ∨ v.n < 2 * v.behindDrift ∨ v.n < 2 * v.aheadDrift

theorem majority_iff (v : Verdict) : (v.offsetMajority || v.driftMajority) = true ↔ Majority v := by
  simp [Verdict.offsetMajority, Verdict.driftMajority, Majority, or_assoc]

theorem no_majority_iff (v : Verdict) : (v.offsetMajority || v.driftMajority) = false ↔ ¬ Majority v := by
  rw [← majority_iff, Bool.not_eq_true]

theorem offsetMajority_iff (v : Verdict) : v.offsetMajority = true ↔ v.n < 2 * v.behindOffset ∨ v.n < 2 * v.aheadOffset := by
  simp [Verdict.offsetMajority]

section Self

variable {s : State}

/-- The votes at the full thresholds, and at half of them (R175, R176). -/
def fullVotes (s : State) : Verdict := votes s s.cfg.drift.offsetThreshold s.cfg.drift.driftThreshold

def halfVotes (s : State) : Verdict := votes s (s.cfg.drift.offsetThreshold / 2) (s.cfg.drift.driftThreshold / 2)

/-- A verdict kept as the latest (R182). -/
def judged (v : Verdict) (s : State) : State := s.setDrift { s.drift with verdict := v }

theorem judgeSelf_quiet (quiet : s.drift.episode = none)
    (h : ¬ (s.cfg.drift.quorum ≤ (fullVotes s).n ∧ Majority (fullVotes s))) : judgeSelf s = judged (fullVotes s) s := by
  rw [← majority_iff] at h
  unfold judgeSelf
  rw [quiet]
  exact if_neg h

theorem judgeSelf_sets (quiet : s.drift.episode = none) (quorum : s.cfg.drift.quorum ≤ (fullVotes s).n)
    (majority : Majority (fullVotes s)) : judgeSelf s = setSelfDrift (fullVotes s) (judged (fullVotes s) s) := by
  rw [← majority_iff] at majority
  unfold judgeSelf
  rw [quiet]
  exact if_pos ⟨quorum, majority⟩

theorem judgeSelf_keeps {e : Episode} (set_ : s.drift.episode = some e)
    (h : ¬ (s.cfg.drift.quorum ≤ (halfVotes s).n ∧ ¬ Majority (halfVotes s))) : judgeSelf s = judged (halfVotes s) s := by
  rw [← no_majority_iff] at h
  unfold judgeSelf
  rw [set_]
  exact if_neg h

theorem judgeSelf_clears {e : Episode} (set_ : s.drift.episode = some e) (quorum : s.cfg.drift.quorum ≤ (halfVotes s).n)
    (none : ¬ Majority (halfVotes s)) : judgeSelf s = clearSelfDrift (halfVotes s) e (judged (halfVotes s) s) := by
  rw [← no_majority_iff] at none
  unfold judgeSelf
  rw [set_]
  exact if_pos ⟨quorum, none⟩

theorem aside_endBar (i : Nat) (e : SourceEntry) (s : State) : (endBar i e s).drift.aside = s.drift.aside := by
  rw [endBar_eq]
  simp

theorem aside_barSelected (seconds : Nat) (s : State) : (barSelected seconds s).drift.aside = s.drift.aside := by
  unfold barSelected barEntry setBar afterBar
  (repeat' split) <;> simp [aside_endBar]

variable (v : Verdict)

/-- The vote that names an episode (R175). -/
def voteOf (v : Verdict) : Vote := if v.offsetMajority then .offset else .drift

theorem voteOf_offset : voteOf v = .offset ↔ v.offsetMajority = true := by
  unfold voteOf
  split <;> simp_all

theorem voteOf_eq : voteOf v = if v.n < 2 * v.behindOffset ∨ v.n < 2 * v.aheadOffset then .offset else .drift := by
  unfold voteOf
  exact if_congr (offsetMajority_iff v) rfl rfl

/-- The episode begun behind its record (R175). -/
def episodeBegun (vote : Vote) (called : Bool) (s : State) : State :=
  let told := offerRecord (.plain none (.drift none false vote (v.offsetFigure.getD 0) v.driftFigure)) s
  told.setDrift { told.drift with episode := some ⟨vote, called⟩ }

theorem setSelfDrift_eq : setSelfDrift v s =
    let called := decide (s.servo.st = .locked) && s.cfg.drift.barOn
    let begun := episodeBegun v (voteOf v) called s
    raiseWithHold .selfDrift .self false ⟨some (v.offsetFigure.getD 0), some v.driftFigure⟩
      (if called then barSelected begun.cfg.drift.barTime begun else begun) := rfl

theorem episode_setSelfDrift : (setSelfDrift v s).drift.episode =
    some ⟨voteOf v, decide (s.servo.st = .locked) && s.cfg.drift.barOn⟩ := by
  rw [setSelfDrift_eq]
  dsimp only
  rw [episode_of_aside (aside_raiseWithHold ..)]
  split
  · rw [episode_of_aside (aside_barSelected ..)]
    rfl
  · rfl

theorem selectedPair_selected {s : State} {i : Nat} {e : SourceEntry} (h : s.selectedPair = some (i, e)) :
    e.st = .selected := by
  unfold State.selectedPair at h
  cases index : s.selectedIndex with
  | none => simp [index] at h
  | some j =>
    obtain ⟨e', there, st⟩ := selectedIndex_some index
    simp [index, there] at h
    exact h.2 ▸ st

/-- A bar called for is set on the SELECTED entry, which leaves the selection (R52). -/
theorem barSelected_eq {seconds : Nat} (some_ : 0 < seconds) (s : State) : barSelected seconds s =
    match s.selectedPair with
    | some (i, e) => reevaluate (some (i, e)) .barred none (s.setSource i (some { e with st := .barred, bar := seconds }))
    | none => s := by
  unfold barSelected
  cases pair : s.selectedPair with
  | none => rfl
  | some p =>
    have st := selectedPair_selected (i := p.1) (e := p.2) pair
    dsimp only
    rw [barEntry, if_neg (by omega), setBar, if_neg (by simp [st]), pair]
    rfl

theorem cfg_episodeBegun (vote : Vote) (called : Bool) (s : State) : (episodeBegun v vote called s).cfg = s.cfg := by
  simp [episodeBegun]

theorem clearSelfDrift_eq (e : Episode) : clearSelfDrift v e s =
    let told := offerRecord (.plain none (.drift none true e.vote (v.offsetFigure.getD 0) v.driftFigure)) s
    clearWithHold .selfDrift .self false ⟨some (v.offsetFigure.getD 0), some v.driftFigure⟩
      (told.setDrift { told.drift with episode := none }) := rfl

end Self

/-! ### Stage 2 -/

section Peer

variable {s : State} {i : Nat}

/-- The drift of an entry is known and lies beyond a limit (R178). -/
def DriftBeyond (d : PeerDyn) (limit : Nat) : Prop := ∃ x, d.drift = some x ∧ limit < x.natAbs

theorem drift_all_iff (d : PeerDyn) (limit : Nat) :
    (d.drift.map (fun x => x.natAbs)).all (fun x => decide (x ≤ limit)) = true ↔ ¬ DriftBeyond d limit := by
  unfold DriftBeyond
  cases d.drift <;> simp

theorem drift_any_iff (d : PeerDyn) (limit : Nat) :
    (d.drift.map (fun x => x.natAbs)).any (fun x => decide (limit < x)) = true ↔ DriftBeyond d limit := by
  unfold DriftBeyond
  cases d.drift <;> simp

/-- An entry written back with another warning has what it had beside. -/
theorem peer_setWarned (s : State) (i : Nat) (w : Option Vote) :
    ((s.setPeer i { s.peer i with warned := w }).peer i).lastPort = (s.peer i).lastPort ∧
    ((s.setPeer i { s.peer i with warned := w }).peer i).best = (s.peer i).best ∧
    ((s.setPeer i { s.peer i with warned := w }).peer i).drift = (s.peer i).drift := by
  by_cases within : i < 32
  · have same : (s.setPeer i { s.peer i with warned := w }).peer i = { s.peer i with warned := w } := by
      simp [State.peer, State.setPeer, Vector.getD, within]
    rw [same]
    exact ⟨rfl, rfl, rfl⟩
  · have same : (s.setPeer i { s.peer i with warned := w }).peer i = s.peer i := by
      simp [State.peer, State.setPeer, Vector.getD, within]
    rw [same]
    exact ⟨rfl, rfl, rfl⟩

theorem peerRecord_setWarned (s : State) (i : Nat) (w : Option Vote) (clear : Bool) (vote : Vote) :
    peerRecord (s.setPeer i { s.peer i with warned := w }) i clear vote = .plain (s.peer i).lastPort
      (.drift (some (s.peerCfg i).rack) clear vote ((s.peer i).best.getD 0) (s.peer i).drift) := by
  obtain ⟨port, best, drift⟩ := peer_setWarned s i w
  rw [peerRecord, port, best, drift]
  rfl

theorem warnPeer_eq (vote : Vote) (s : State) : warnPeer i vote s =
    raiseWithHold .peerDrift (.peer (s.peerCfg i).rack) false ⟨some ((s.peer i).best.getD 0), some (s.peer i).drift⟩
      (offerRecord (.plain (s.peer i).lastPort
        (.drift (some (s.peerCfg i).rack) false vote ((s.peer i).best.getD 0) (s.peer i).drift))
        (s.setPeer i { s.peer i with warned := some vote })) := by
  obtain ⟨-, best, drift⟩ := peer_setWarned s i (some vote)
  have record := peerRecord_setWarned s i (some vote) false vote
  unfold warnPeer
  dsimp only
  rw [record]
  generalize hy : s.setPeer i { s.peer i with warned := some vote } = y at *
  have rack : y.peerCfg = s.peerCfg := by rw [← hy]; rfl
  have kept := peer_of_aside (aside_offerRecord (.plain (s.peer i).lastPort
    (.drift (some (s.peerCfg i).rack) false vote ((s.peer i).best.getD 0) (s.peer i).drift)) y) i
  have cfg := cfg_offerRecord (.plain (s.peer i).lastPort
    (.drift (some (s.peerCfg i).rack) false vote ((s.peer i).best.getD 0) (s.peer i).drift)) y
  generalize offerRecord _ y = z at *
  have best' : (z.peer i).best = (y.peer i).best := (congrArg PeerDyn.best kept).trans rfl
  have drift' : (z.peer i).drift = (y.peer i).drift := (congrArg PeerDyn.drift kept).trans rfl
  have rack' : z.peerCfg i = s.peerCfg i := by rw [← rack, State.peerCfg, cfg, State.peerCfg]
  rw [best', drift', best, drift, rack']

theorem unwarnPeer_eq (vote : Vote) (s : State) : unwarnPeer i vote s =
    offerRecord (.plain (s.peer i).lastPort
      (.drift (some (s.peerCfg i).rack) true vote ((s.peer i).best.getD 0) (s.peer i).drift))
      (s.setPeer i { s.peer i with warned := none }) := by
  unfold unwarnPeer
  dsimp only
  rw [peerRecord_setWarned]

theorem judgePeer_unwarns {vote : Vote} (warned : (s.peer i).warned = some vote)
    (near : ((s.peer i).best.getD 0).natAbs ≤ s.cfg.drift.offsetThreshold / 2)
    (steady : ¬ DriftBeyond (s.peer i) (s.cfg.drift.driftThreshold / 2)) : judgePeer s i = unwarnPeer i vote s := by
  unfold judgePeer
  dsimp only
  rw [warned]
  exact if_pos ⟨near, (drift_all_iff _ _).mpr steady⟩

theorem judgePeer_stays_warned {vote : Vote} (warned : (s.peer i).warned = some vote)
    (beyond : s.cfg.drift.offsetThreshold / 2 < ((s.peer i).best.getD 0).natAbs ∨
      DriftBeyond (s.peer i) (s.cfg.drift.driftThreshold / 2)) : judgePeer s i = s := by
  unfold judgePeer
  dsimp only
  rw [warned]
  refine if_neg fun both => ?_
  rcases beyond with far | drifts
  · exact absurd both.1 (by omega)
  · exact (drift_all_iff _ _).mp both.2 drifts

theorem judgePeer_in_episode (free : (s.peer i).warned = none) (set_ : s.drift.episode ≠ none) : judgePeer s i = s := by
  unfold judgePeer
  dsimp only
  rw [free]
  exact if_pos (Option.isSome_iff_ne_none.mpr set_)

theorem judgePeer_free (free : (s.peer i).warned = none) (quiet : s.drift.episode = none) : judgePeer s i =
    if s.cfg.drift.offsetThreshold < ((s.peer i).best.getD 0).natAbs then warnPeer i .offset s
    else if ((s.peer i).drift.map (fun x => x.natAbs)).any (fun x => decide (s.cfg.drift.driftThreshold < x)) then
      warnPeer i .drift s
    else s := by
  unfold judgePeer
  dsimp only
  rw [free]
  exact if_neg (by simp [quiet])

end Peer

/-- Settles O60: the median by its place in the sorted list, and the verdict by its stages. -/
theorem theVerdictIsThatOfTheMajority : Obligations.TheVerdictIsThatOfTheMajority := by
  refine ⟨lowerMedian_spec, rfl, fun s t d => ⟨rfl, votes_eq s t d, figure_of_majority t d⟩, fun s => ?self, fun s i => ?peer,
    fun s => rfl⟩
  case self =>
    refine ⟨judgeSelf_quiet, fun quiet quorum majority => ?_, fun quiet quorum majority bar => ?_, fun set_ h => ?_,
      fun set_ quorum none => ?_, fun e set_ quorum none => ?_⟩
    · rw [judgeSelf_sets quiet quorum majority]
      refine ⟨?_, _, episode_setSelfDrift .., rfl, ?_⟩
      · rw [setSelfDrift_eq]
        exact active_raiseWithHold _ _ _ _ _ (by decide) (by decide) (by decide)
      · rw [← offsetMajority_iff]
        exact voteOf_offset _
    · rw [judgeSelf_sets quiet quorum majority, setSelfDrift_eq]
      dsimp only
      rw [cfg_episodeBegun, barSelected_eq (by exact bar), voteOf_eq]
      rfl
    · obtain ⟨e, episode⟩ := Option.ne_none_iff_exists'.mp set_
      exact judgeSelf_keeps episode h
    · obtain ⟨e, episode⟩ := Option.ne_none_iff_exists'.mp set_
      rw [judgeSelf_clears episode quorum none, clearSelfDrift_eq]
      dsimp only
      refine ⟨episode_of_aside (aside_reevaluateOnHold .. |>.trans (aside_clearFault ..)), ?_⟩
      rw [fault_clearWithHold_self _ _ _ _ _ (by decide) (by decide) (by decide)]
    · rw [judgeSelf_clears set_ quorum none, clearSelfDrift_eq]
      rfl
  case peer =>
    refine ⟨fun vote warned => ⟨fun near steady => ?_, judgePeer_stays_warned warned⟩, fun free =>
      ⟨judgePeer_in_episode free, fun quiet far => ?_, fun quiet near drifts => ?_, fun quiet near steady => ?_⟩⟩
    · rw [judgePeer_unwarns warned near steady, unwarnPeer_eq]
    · rw [judgePeer_free free quiet, if_pos far, warnPeer_eq]
    · rw [judgePeer_free free quiet, if_neg (by omega), if_pos ((drift_any_iff _ _).mpr drifts), warnPeer_eq]
    · rw [judgePeer_free free quiet, if_neg (by omega), if_neg (mt (drift_any_iff _ _).mp steady)]

end Sys2Proof.Machine
end

section
/-! The resets: a schedule that starts as a soft reset completes may put a waiting report on the wire (R166, R211). -/

namespace Sys2Proof.Machine

/-- A running engine with a report to peer 0 still waiting in U0's timing queue, and echo on at U0. -/
def waitingReport : State :=
  let r := State.reset
  { r with
    run := .running
    cfg := { r.cfg with
      ports := r.cfg.ports.set .u0 { r.cfg.ports.get .u0 with echoOn := true }
      peers := r.cfg.peers.set 0 ⟨true, 0, 0, .u0⟩ }
    ports := r.ports.set .u0 { r.ports.get .u0 with up := true, timing := [⟨.report 0 0 0, 0, [], 0⟩] } }

theorem waitingReport_unsent : (waitingReport.peer 0).newer = none := by decide

/-- The first ask of the schedule brings U0's arbiter to a decision, and the report ahead of it leaves. -/
theorem waitingReport_sent : ((completeSoft false waitingReport).peer 0).newer = some ⟨0, 0⟩ := by decide

theorem waitingReport_inactive (k : FaultKind) : (waitingReport.fault k).active = false := by cases k <;> decide

theorem waitingReport_maxima (k : FaultKind) : (waitingReport.response k).rank ≤ k.maxResponse.rank := by
  cases k <;> decide

/-- Refutes O17: a soft reset that completes does not leave every peer as it was, for the first ask of an echo schedule lets a
report that waits before it pass egress, which records its send date. -/
theorem not_resetsAreTaken : ¬ Obligations.ResetsAreTaken := by
  unfold Obligations.ResetsAreTaken
  rintro ⟨-, -, -, -, completes⟩
  obtain ⟨-, -, -, -, -, -, -, peers, -⟩ := completes false waitingReport
    (fun k active => by simp [waitingReport_inactive] at active) waitingReport_maxima
  have same : (completeSoft false waitingReport).peer 0 = waitingReport.peer 0 := by rw [State.peer, peers, State.peer]
  have sent := waitingReport_sent
  rw [same, waitingReport_unsent] at sent
  cases sent

end Sys2Proof.Machine
end

section
/-! The settings image: its fields in their order, its CRC, and the way back (sections 11.3 and 12.5, R183, R206, R207). -/

namespace Sys2Proof.Machine

/-! ### A byte of a row -/

theorem getD_append_right {x : List Byte} {k : Nat} (h : x.length ≤ k) (rest : List Byte) :
    (x ++ rest).getD k 0 = rest.getD (k - x.length) 0 := by
  rw [List.getD_eq_getElem?_getD, List.getD_eq_getElem?_getD, List.getElem?_append_right h]

theorem flag_eq (b : Bool) : flag b = be 1 b.toNat := by cases b <;> rfl

theorem isOn_flag (b : Bool) : isOn (BitVec.ofNat 8 b.toNat) = b := by cases b <;> rfl

theorem getD_be_one (v : Nat) (rest : List Byte) : (be 1 v ++ rest).getD 0 0 = BitVec.ofNat 8 v := rfl

/-- A value that its byte holds. -/
theorem toNat_beSat_one {v : Nat} (h : v ≤ 255) (rest : List Byte) : ((beSat 1 v ++ rest).getD 0 0).toNat = v := by
  rw [beSat, getD_be_one, BitVec.toNat_ofNat]
  omega

theorem toNat_bitsAt_beSat {w v : Nat} (h : v ≤ 256 ^ w - 1) (rest : List Byte) :
    (bitsAt w (beSat w v ++ rest) 0).toNat = v := by
  have := Nat.one_le_pow w 256 (by decide)
  rw [toNat_bitsAt, beSat, natAt_be_append, Nat.mod_eq_of_lt] <;> omega

theorem bitsAt_beBits {w : Nat} (x : BitVec (8 * w)) (rest : List Byte) : bitsAt w (beBits w x ++ rest) 0 = x :=
  bitsAt_be_append x rest

theorem toInt_bitsAt_beInt {w : Nat} (pos : 0 < w) {v : Int} (low : -(2 ^ (8 * w - 1) : Nat) ≤ v)
    (high : v < (2 ^ (8 * w - 1) : Nat)) (rest : List Byte) : (bitsAt w (beInt w v ++ rest) 0).toInt = v :=
  intAt_beInt_append pos low high rest

theorem toInt_beInt_one {v : Int} (low : -128 ≤ v) (high : v ≤ 127) (rest : List Byte) :
    ((beInt 1 v ++ rest).getD 0 0).toInt = v := by
  have whole := intAt_beInt_append (w := 1) (by decide) (v := v) low (by simp; omega) rest
  rw [intAt] at whole
  have same : (beInt 1 v ++ rest).getD 0 0 = bitsAt 1 (beInt 1 v ++ rest) 0 := by
    apply BitVec.eq_of_toNat_eq
    rw [toNat_bitsAt, ← byteAt_eq_natAt]
    rfl
  rw [same, whole]

/-! ### The records -/

theorem portSetOf_code (q : Quad Bool) : portSetOf (BitVec.ofNat 8 (portSetCode q)) = q := by
  obtain ⟨a, b, c, d⟩ := q
  cases a <;> cases b <;> cases c <;> cases d <;> rfl

theorem actionOf_code (a : Action) : actionOf (BitVec.ofNat 8 (actionCode a)).toNat = some a := by cases a <;> rfl

theorem vlanKindOf_code (v : VlanKind) : vlanKindOf (BitVec.ofNat 8 (vlanCode v)).toNat = some v := by cases v <;> rfl

theorem logModeOf_code (m : LogMode) : logModeOf (BitVec.ofNat 8 (logModeCode m)).toNat = some m := by cases m <;> rfl

theorem privilegeOf_code (p : Privilege) : privilegeOf (BitVec.ofNat 8 (privilegeCode p)).toNat = some p := by cases p <;> rfl

theorem modeOf_code (m : Mode) : modeOf (BitVec.ofNat 8 (modeCode m)).toNat = some m := by cases m <;> rfl

theorem portOf_code (p : Port) : portOf (BitVec.ofNat 8 (portCode p)).toNat = some p := by cases p <;> rfl

theorem uplinkOf_code {p : Port} (h : p.isUplink = true) : uplinkOf (BitVec.ofNat 8 (portCode p)).toNat = some p := by
  rw [uplinkOf, portOf_code, Option.filter_some, if_pos h]

theorem clampNat_within {lo hi v : Nat} (low : lo ≤ v) (high : v ≤ hi) : clampNat lo hi v = v := by
  simp only [clampNat]
  omega

theorem clampInt_within {lo hi v : Int} (low : lo ≤ v) (high : v ≤ hi) : clampInt lo hi v = v := by
  simp only [clampInt]
  omega

theorem clampNat_byte {lo hi v : Nat} (low : lo ≤ v) (high : v ≤ hi) (fits : hi ≤ 255) (rest : List Byte) :
    clampNat lo hi ((beSat 1 v ++ rest).getD 0 0).toNat = v := by
  rw [toNat_beSat_one (high.trans fits), clampNat_within low high]

theorem clampNat_bits {w lo hi v : Nat} (low : lo ≤ v) (high : v ≤ hi) (fits : hi ≤ 256 ^ w - 1) (rest : List Byte) :
    clampNat lo hi (bitsAt w (beSat w v ++ rest) 0).toNat = v := by
  rw [toNat_bitsAt_beSat (high.trans fits), clampNat_within low high]

theorem clampInt_byte {lo hi v : Int} (low : lo ≤ v) (high : v ≤ hi) (least : -128 ≤ lo) (most : hi ≤ 127)
    (rest : List Byte) : clampInt lo hi ((beInt 1 v ++ rest).getD 0 0).toInt = v := by
  rw [toInt_beInt_one (least.trans low) (high.trans most), clampInt_within low high]

theorem clampInt_word {lo hi v : Int} (low : lo ≤ v) (high : v ≤ hi) (least : -2147483648 ≤ lo) (most : hi ≤ 2147483647)
    (rest : List Byte) : clampInt lo hi (bitsAt 4 (beInt 4 v ++ rest) 0).toInt = v := by
  have fits := toInt_bitsAt_beInt (w := 4) (by decide) (v := v) (by simp; omega) (by simp; omega) rest
  rw [fits, clampInt_within low high]

/-- A match entry within its ranges comes back from its 32 bytes (section 12.3). -/
theorem matchEntry_matchBytes {e : MatchEntry} (ok : MatchOk e) (d : MatchEntry) :
    let a := matchArgOf (matchBytes e)
    matchEntryOf a ((actionOf a.action.toNat).getD d.action) ((vlanKindOf a.vlanKind.toNat).getD d.vlanKind)
      ((logModeOf a.logMode.toNat).getD d.logMode) = e := by
  obtain ⟨vlan, pattern, stamp, key, domain⟩ := ok
  unfold matchArgOf matchBytes matchEntryOf
  simp only [List.append_assoc, flag_eq, getD_append_right, bitsAt_append_right, length_be, length_beBits, length_beSat,
    Nat.reduceLeDiff, Nat.reduceSub, Nat.reducePow, Nat.sub_self, Nat.zero_le, getD_be_one, bitsAt_beBits, isOn_flag,
    portSetOf_code, actionOf_code, vlanKindOf_code, logModeOf_code, Option.getD_some, clampNat_byte, clampNat_bits, vlan,
    pattern, stamp, key, domain]

theorem zero_cons (x : List Byte) : (0 : Byte) :: x = be 1 0 ++ x := rfl

/-- A port record within its ranges comes back from its 24 bytes (R206). -/
theorem portRec_portRecBytes {r : PortRec} (k : -4 ≤ r.k ∧ r.k ≤ 3) (timeout : 1 ≤ r.timeoutMs ∧ r.timeoutMs ≤ 100)
    (asym : -1000000 ≤ r.asym ∧ r.asym ≤ 1000000) (d : Privilege) :
    let a := portArgOf (0 :: portRecBytes (be 1 0) r)
    portRecOf a ((privilegeOf a.privilege.toNat).getD d) = r := by
  unfold portArgOf portRecBytes portRecOf
  simp only [zero_cons, List.append_assoc, flag_eq, getD_append_right, bitsAt_append_right, length_be,
    length_beSat, length_beInt, Nat.reduceLeDiff, Nat.reduceSub, Nat.reducePow, Int.reduceNeg, Int.reduceLE, Nat.sub_self,
    getD_be_one, bitsAt_beBits, isOn_flag, privilegeOf_code, Option.getD_some, clampNat_bits, clampInt_byte, clampInt_word,
    k, timeout, asym]

/-- A lane record within its ranges comes back from its 8 bytes. -/
theorem laneRec_laneRecBytes {r : LaneRec} (k : -4 ≤ r.k ∧ r.k ≤ 1) (m : r.m ≤ 3) (d : Mode) :
    let a := laneArgOf (0 :: laneRecBytes r)
    laneRecOf a ((modeOf a.mode.toNat).getD d) = r := by
  unfold laneArgOf laneRecBytes laneRecOf
  simp only [zero_cons, List.append_assoc, getD_append_right, length_be, length_beInt, Nat.reduceLeDiff,
    Nat.reduceSub, Int.reduceNeg, Int.reduceLE, Nat.sub_self, Nat.zero_le, getD_be_one, modeOf_code, Option.getD_some,
    clampNat_byte, clampInt_byte, k, m]

/-- An override entry within its range comes back from its 16 bytes. -/
theorem override_overrideBytes {o : Override} (asym : -1000000 ≤ o.asym ∧ o.asym ≤ 1000000) (d : Port) :
    let a := overrideArgOf (0 :: overrideBytes o)
    overrideOf a ((portOf a.port.toNat).getD d) = o := by
  unfold overrideArgOf overrideBytes overrideOf
  simp only [zero_cons, List.append_assoc, flag_eq, getD_append_right, bitsAt_append_right, length_be, length_beBits,
    length_beInt, Nat.reduceLeDiff, Nat.reduceSub, Nat.sub_self, getD_be_one, Int.reduceNeg, Int.reduceLE, bitsAt_beBits,
    isOn_flag, portOf_code, Option.getD_some, clampInt_word, asym]

/-- A peer's configuration with an uplink comes back from its 24 bytes. -/
theorem peerCfg_peerCfgBytes {c : PeerCfg} (uplink : c.preferred.isUplink = true) (d : Port) :
    let a := peerArgOf (0 :: peerCfgBytes c)
    peerCfgOf a ((uplinkOf a.preferred.toNat).getD d) = c := by
  unfold peerArgOf peerCfgBytes peerCfgOf
  simp only [zero_cons, List.append_assoc, flag_eq, getD_append_right, bitsAt_append_right, length_be, length_beBits,
    Nat.reduceLeDiff, Nat.reduceSub, Nat.sub_self, getD_be_one, bitsAt_beBits, isOn_flag, uplinkOf_code uplink,
    Option.getD_some]

/-- The servo block within its ranges comes back from its 32 bytes, with the SECOND width and class limit. -/
theorem servo_servoBytes {p : ServoParams} {width limit : Nat}
    (step : 1000 ≤ p.stepThreshold ∧ p.stepThreshold ≤ 999999999)
    (window : 50 ≤ p.lockWindow ∧ p.lockWindow ≤ 100000 ∧ p.lockWindow < p.stepThreshold)
    (locks : 2 ≤ p.lockCount ∧ p.lockCount ≤ 32 ∧ 1 ≤ p.unlockCount ∧ p.unlockCount ≤ 16)
    (shifts : p.sp ≤ 8 ∧ p.si ≤ 12)
    (rates : 10 ≤ p.catchRate ∧ p.catchRate ≤ 500 ∧ 10 ≤ p.plausibility ∧ p.plausibility ≤ 500)
    (holdover : 10 ≤ p.holdoverLimit ∧ p.holdoverLimit ≤ 86400) (second : 1 ≤ width ∧ width ≤ 999 ∧ limit ≤ 6) :
    servoParamsOf (servoArgOf (servoBytes p width limit)) = p ∧
      secWidthOf (servoArgOf (servoBytes p width limit)) = width ∧
      secLimitOf (servoArgOf (servoBytes p width limit)) = limit := by
  have below : min p.lockWindow (p.stepThreshold - 1) = p.lockWindow := by omega
  unfold servoArgOf servoBytes servoParamsOf secWidthOf secLimitOf
  simp only [List.append_assoc, getD_append_right, bitsAt_append_right, length_beSat, Nat.reduceLeDiff, Nat.reduceSub,
    Nat.reducePow, Nat.sub_self, Nat.zero_le, clampNat_byte, clampNat_bits, step, window, locks, shifts, rates, holdover,
    second, below, and_self]

/-- The drift block within its ranges comes back from its 24 bytes, with the alert holdoff and the level threshold. -/
theorem drift_driftBytes {p : DriftParams} {holdoff threshold : Nat} (barTime : 10 ≤ p.barTime ∧ p.barTime ≤ 86400)
    (report : -2 ≤ p.k ∧ p.k ≤ 3) (roundTrip : 1000 ≤ p.roundTrip ∧ p.roundTrip ≤ 10000000)
    (thresholds : 100 ≤ p.offsetThreshold ∧ p.offsetThreshold ≤ 100000000 ∧ 10 ≤ p.driftThreshold ∧ p.driftThreshold ≤ 100000)
    (quorum : 3 ≤ p.quorum ∧ p.quorum ≤ 32)
    (notices : 1 ≤ holdoff ∧ holdoff ≤ 3600 ∧ 1 ≤ threshold ∧ threshold ≤ 4095) :
    driftParamsOf (driftArgOf (driftBytes p holdoff threshold)) = p ∧
      holdoffOf (driftArgOf (driftBytes p holdoff threshold)) = holdoff ∧
      thresholdOf (driftArgOf (driftBytes p holdoff threshold)) = threshold := by
  unfold driftArgOf driftBytes driftParamsOf holdoffOf thresholdOf
  simp only [List.append_assoc, flag_eq, getD_append_right, bitsAt_append_right, length_be, length_beSat, length_beInt,
    Nat.reduceLeDiff, Nat.reduceSub, Nat.reducePow, Nat.sub_self, getD_be_one, Int.reduceNeg, Int.reduceLE, isOn_flag,
    clampNat_byte, clampNat_bits, clampInt_byte, barTime, report, roundTrip, thresholds, quorum, notices, and_self]

/-! ### The image in its parts -/

/-- The image before its match entries: the head, the port records and the lane records. -/
def imageStart (c : Settings) : List Byte :=
  be 4 0x52544531 ++ (be 2 1 ++ (be 2 0 ++ (be 4 Config.imageLen ++ (beBits 8 c.engineId ++ (beBits 4 c.rackId ++
  (beBits 6 c.mac ++ (beBits 4 c.ip ++ (beBits 4 c.mgrAddr ++ (beSat 1 c.mgrLen ++ (beBits 2 c.utxEther ++
  (beBits 2 c.utxPort ++ (beBits 2 c.mgmtPort ++ (beBits 4 c.collIp ++ (beBits 2 c.collPort ++ (beBits 6 c.group ++
  (portRecBytes (be 1 0) c.ports.u0 ++ (portRecBytes (be 1 0) c.ports.u1 ++ (portRecBytes (be 1 0) c.ports.d0 ++
  (portRecBytes (be 1 0) c.ports.d1 ++ (laneRecBytes c.lanes.a ++ laneRecBytes c.lanes.b))))))))))))))))))))

theorem length_portRec (r : PortRec) : (portRecBytes (be 1 0) r).length = 24 := length_portRecBytes 0 r

theorem length_imageStart (c : Settings) : (imageStart c).length = 169 := by
  unfold imageStart
  simp only [List.length_append, length_be, length_beBits, length_beSat, length_portRec, length_laneRecBytes]

/-- The image behind its match entries, overrides and peers, its CRC last. -/
def imageEnd (c : Settings) (bank : Vector MatchEntry 64) : List Byte :=
  servoBytes c.servo c.secWidth c.secLimit ++ (driftBytes c.drift c.alertHoldoff c.logThreshold ++
  (c.responses.toList.flatMap (fun r => be 1 r.rank) ++ (beInt 4 c.trim ++ le4 (crc32 (imageBody c bank)))))

theorem imageOf_eq (c : Settings) (bank : Vector MatchEntry 64) : imageOf c bank = imageStart c ++
    (bank.toList.flatMap matchBytes ++ (c.overrides.toList.flatMap overrideBytes ++
      (c.peers.toList.flatMap peerCfgBytes ++ imageEnd c bank))) := by
  change imageBody c bank ++ le4 (crc32 (imageBody c bank)) = _
  unfold imageEnd
  generalize crc32 (imageBody c bank) = crc
  unfold imageBody imageStart
  simp only [List.flatMap_cons, List.flatMap_nil, List.append_assoc, List.append_nil, Quad.get]

theorem slice_past {x : List Byte} {k : Nat} (h : x.length = k) (rest : List Byte) (off w : Nat) :
    slice (x ++ rest) (k + off) w = slice rest off w := by
  rw [slice_append_right (by omega), h, Nat.add_sub_cancel_left]

/-- The record of an index, in a row of records of one length. -/
theorem slice_flatMap {α : Type} {f : α → List Byte} {n : Nat} (h : ∀ x, (f x).length = n) (l : List α) (i : Nat)
    (inside : i < l.length) (rest : List Byte) : slice (l.flatMap f ++ rest) (n * i) n = f l[i] := by
  induction l generalizing i with
  | nil => exact absurd inside (Nat.not_lt_zero i)
  | cons x l ih =>
    rw [List.flatMap_cons, List.append_assoc]
    cases i with
    | zero => exact slice_append_left (h x) _
    | succ i =>
      rw [Nat.mul_succ, Nat.add_comm, slice_past (h x), ih i (Nat.lt_of_succ_lt_succ inside), List.getElem_cons_succ]

theorem length_entries (bank : Vector MatchEntry 64) : (bank.toList.flatMap matchBytes).length = 2048 := by
  rw [length_flatMap_of _ length_matchBytes, Vector.length_toList]

theorem length_overrides (o : Vector Override 4) : (o.toList.flatMap overrideBytes).length = 64 := by
  rw [length_flatMap_of _ length_overrideBytes, Vector.length_toList]

theorem length_peers (p : Vector PeerCfg 32) : (p.toList.flatMap peerCfgBytes).length = 768 := by
  rw [length_flatMap_of _ length_peerCfgBytes, Vector.length_toList]

theorem length_responses (r : Vector Response 9) : (r.toList.flatMap (fun r => be 1 r.rank)).length = 9 := by
  rw [length_flatMap_of _ (fun r => length_be 1 (Response.rank r)), Vector.length_toList]

theorem slice_imageOf_bank (c : Settings) (bank : Vector MatchEntry 64) (i : Fin 64) :
    slice (imageOf c bank) (169 + 32 * i) 32 = matchBytes bank[i] := by
  rw [imageOf_eq, slice_past (length_imageStart c), slice_flatMap length_matchBytes _ _ (by simp)]
  rfl

theorem slice_imageOf_override (c : Settings) (bank : Vector MatchEntry 64) (i : Fin 4) :
    slice (imageOf c bank) (2217 + 16 * i) 16 = overrideBytes c.overrides[i] := by
  have pre : (imageStart c ++ bank.toList.flatMap matchBytes).length = 2217 := by
    rw [List.length_append, length_imageStart, length_entries]
  rw [imageOf_eq, ← List.append_assoc, slice_past pre, slice_flatMap length_overrideBytes _ _ (by simp)]
  rfl

theorem slice_imageOf_peer (c : Settings) (bank : Vector MatchEntry 64) {i : Nat} (h : i < 32) :
    slice (imageOf c bank) (2281 + 24 * i) 24 = peerCfgBytes c.peers[i] := by
  have pre : (imageStart c ++ bank.toList.flatMap matchBytes ++ c.overrides.toList.flatMap overrideBytes).length = 2281 := by
    rw [List.length_append, List.length_append, length_imageStart, length_entries, length_overrides]
  rw [imageOf_eq, ← List.append_assoc, ← List.append_assoc, slice_past pre,
    slice_flatMap length_peerCfgBytes _ _ (by simpa using h)]
  rfl

/-- What stands behind the peers stands at 3,049 bytes. -/
theorem slice_imageOf_end (c : Settings) (bank : Vector MatchEntry 64) (off w : Nat) :
    slice (imageOf c bank) (3049 + off) w = slice (imageEnd c bank) off w := by
  have pre : (imageStart c ++ bank.toList.flatMap matchBytes ++ c.overrides.toList.flatMap overrideBytes ++
      c.peers.toList.flatMap peerCfgBytes).length = 3049 := by
    rw [List.length_append, List.length_append, List.length_append, length_imageStart, length_entries, length_overrides,
      length_peers]
  rw [imageOf_eq, ← List.append_assoc, ← List.append_assoc, ← List.append_assoc, slice_past pre]

theorem slice_imageOf_servo (c : Settings) (bank : Vector MatchEntry 64) :
    slice (imageOf c bank) 3049 32 = servoBytes c.servo c.secWidth c.secLimit := by
  rw [slice_imageOf_end c bank 0, imageEnd, slice_append_left (length_servoBytes ..)]

theorem slice_imageOf_drift (c : Settings) (bank : Vector MatchEntry 64) :
    slice (imageOf c bank) 3081 24 = driftBytes c.drift c.alertHoldoff c.logThreshold := by
  rw [slice_imageOf_end c bank 32, imageEnd, slice_past (off := 0) (length_servoBytes ..),
    slice_append_left (length_driftBytes ..)]

theorem slice_imageOf_response (c : Settings) (bank : Vector MatchEntry 64) (i : Fin 9) :
    slice (imageOf c bank) (3105 + i) 1 = be 1 c.responses[i].rank := by
  have pre : (servoBytes c.servo c.secWidth c.secLimit ++ driftBytes c.drift c.alertHoldoff c.logThreshold).length = 56 := by
    rw [List.length_append, length_servoBytes, length_driftBytes]
  have row := slice_flatMap (fun r => length_be 1 (Response.rank r)) c.responses.toList i (by simp)
    (beInt 4 c.trim ++ le4 (crc32 (imageBody c bank)))
  rw [Nat.one_mul] at row
  rw [show 3105 + (i : Nat) = 3049 + (56 + i) by omega, slice_imageOf_end, imageEnd, ← List.append_assoc, slice_past pre, row]
  rfl

theorem intAt_imageOf_trim (c : Settings) (bank : Vector MatchEntry 64) (low : -512000000 ≤ c.trim)
    (high : c.trim ≤ 512000000) : intAt (imageOf c bank) 3114 4 = c.trim := by
  have pre : (servoBytes c.servo c.secWidth c.secLimit ++ driftBytes c.drift c.alertHoldoff c.logThreshold ++
      c.responses.toList.flatMap (fun r => be 1 r.rank)).length = 65 := by
    rw [List.length_append, List.length_append, length_servoBytes, length_driftBytes, length_responses]
  have there : slice (imageOf c bank) 3114 4 = slice (beInt 4 c.trim ++ le4 (crc32 (imageBody c bank))) 0 4 := by
    rw [slice_imageOf_end c bank 65, imageEnd, ← List.append_assoc, ← List.append_assoc, slice_past (off := 0) pre]
  have whole := intAt_beInt_append (w := 4) (by decide) (v := c.trim) (by simp; omega) (by simp; omega)
    (le4 (crc32 (imageBody c bank)))
  rw [← whole, intAt, intAt, bitsAt, bitsAt, natAt, natAt, there]

/-! ### The way back -/

/-- The ports and lanes of an image within their ranges. -/
theorem imagePorts_imageOf {c : Settings} (ok : SettingsOk c) (bank : Vector MatchEntry 64) :
    imagePort (imageOf c bank) 57 = c.ports.u0 ∧ imagePort (imageOf c bank) 81 = c.ports.u1 ∧
      imagePort (imageOf c bank) 105 = c.ports.d0 ∧ imagePort (imageOf c bank) 129 = c.ports.d1 ∧
      imageLane (imageOf c bank) 153 = c.lanes.a ∧ imageLane (imageOf c bank) 161 = c.lanes.b := by
  have port (p : Port) {off : Nat} (h : slice (imageOf c bank) off 24 = portRecBytes (be 1 0) (c.ports.get p)) :
      imagePort (imageOf c bank) off = c.ports.get p := by
    have ⟨least, most, short, long⟩ := ok.echo p
    rw [imagePort, h]
    exact portRec_portRecBytes ⟨least, most⟩ ⟨short, long⟩ (ok.asym p) _
  have lane (l : Lane) {off : Nat} (h : slice (imageOf c bank) off 8 = laneRecBytes (c.lanes.get l)) :
      imageLane (imageOf c bank) off = c.lanes.get l := by
    have ⟨least, most, thin⟩ := ok.lane l
    rw [imageLane, h]
    exact laneRec_laneRecBytes ⟨least, most⟩ thin _
  refine ⟨port .u0 ?_, port .u1 ?_, port .d0 ?_, port .d1 ?_, lane .a ?_, lane .b ?_⟩ <;>
  · rw [imageOf_eq, imageStart]
    simp only [List.append_assoc, slice_append_right, slice_append_left, length_be, length_beBits, length_beSat,
      length_portRec, length_laneRecBytes, Nat.reduceLeDiff, Nat.reduceSub, Nat.sub_self, Quad.get, Pair.get]

/-- The bank of an image within its ranges. -/
theorem imageBank_imageOf (c : Settings) {bank : Vector MatchEntry 64} (ok : BankOk bank) :
    imageBank (imageOf c bank) = bank := by
  ext i h
  have there := slice_imageOf_bank c bank ⟨i, h⟩
  rw [imageBank, Vector.getElem_ofFn, imageMatch, there]
  exact matchEntry_matchBytes (ok ⟨i, h⟩) _

theorem imageOverrides_imageOf {c : Settings} (ok : SettingsOk c) (bank : Vector MatchEntry 64) :
    Vector.ofFn (fun i : Fin 4 => imageOverride (imageOf c bank) (2217 + 16 * i)) = c.overrides := by
  ext i h
  have there := slice_imageOf_override c bank ⟨i, h⟩
  rw [Vector.getElem_ofFn, imageOverride, there]
  exact override_overrideBytes (ok.override ⟨i, h⟩) _

/-- Entries of distinct rack ids stay enabled (R183). -/
theorem disableRepeats_of_distinct (seen : List (BitVec 32)) (l : List PeerCfg)
    (fresh : ∀ c ∈ l, c.enabled = true → c.rack ∉ seen)
    (apart : l.Pairwise (fun a b => a.enabled = true → b.enabled = true → a.rack ≠ b.rack)) : disableRepeats seen l = l := by
  induction l generalizing seen with
  | nil => rfl
  | cons c rest ih =>
    obtain ⟨others, apart⟩ := List.pairwise_cons.mp apart
    rw [disableRepeats]
    split
    case isTrue enabled =>
      have new : seen.contains c.rack = false := by simpa using fresh c (List.mem_cons_self ..) enabled
      rw [new, if_neg Bool.false_ne_true, ih _ (fun x mem on => ?_) apart]
      rw [List.mem_cons, not_or]
      exact ⟨fun same => others x mem enabled on same.symm, fresh x (List.mem_cons_of_mem _ mem) on⟩
    case isFalse => rw [ih _ (fun x mem => fresh x (List.mem_cons_of_mem _ mem)) apart]

theorem imagePeers_imageOf {c : Settings} (ok : SettingsOk c) (bank : Vector MatchEntry 64)
    (distinct : ∀ i j : Fin 32, c.peers[i].enabled = true → c.peers[j].enabled = true →
      c.peers[i].rack = c.peers[j].rack → i = j) : imagePeers (imageOf c bank) = c.peers := by
  have row : (List.range 32).map (fun i => imagePeer (imageOf c bank) (2281 + 24 * i)) = c.peers.toList := by
    apply List.ext_getElem (by simp)
    intro i h _
    have inside : i < 32 := by simpa using h
    have there := slice_imageOf_peer c bank inside
    rw [List.getElem_map, List.getElem_range, imagePeer, there]
    exact peerCfg_peerCfgBytes (ok.uplink ⟨i, inside⟩) _
  have apart : c.peers.toList.Pairwise (fun a b => a.enabled = true → b.enabled = true → a.rack ≠ b.rack) := by
    rw [List.pairwise_iff_getElem]
    intro i j hi hj before on on' same
    have := distinct ⟨i, by simpa using hi⟩ ⟨j, by simpa using hj⟩ on on' same
    rw [Fin.mk.injEq] at this
    omega
  rw [imagePeers, row, disableRepeats_of_distinct [] _ (fun _ _ _ => List.not_mem_nil) apart]
  ext i h
  rw [Vector.getElem_ofFn, List.getD_eq_getElem?_getD, List.getElem?_eq_getElem (by simpa using h)]
  rfl

theorem ix_kindAt (i : Fin 9) : (kindAt i).ix = i := by revert i; decide

theorem responseOf_rank (r : Response) : responseOf (r.rank % 256 ^ 1) = some r := by cases r <;> rfl

theorem limitResponse_within {k : FaultKind} {r : Response} (h : k.maxResponse.within r = true) : k.limitResponse r = r := by
  revert h
  cases k <;> cases r <;> decide

theorem imageResponses_imageOf {c : Settings} (ok : SettingsOk c) (bank : Vector MatchEntry 64) :
    Vector.ofFn (fun i : Fin 9 => imageResponse (imageOf c bank) (kindAt i) (3105 + i)) = c.responses := by
  ext i h
  have there := slice_imageOf_response c bank ⟨i, h⟩
  have within := ok.response (kindAt ⟨i, h⟩)
  simp only [ix_kindAt] at within
  rw [Vector.getElem_ofFn, imageResponse, byteAt_eq_natAt, natAt, there, ofBe_be, responseOf_rank, Option.getD_some]
  exact limitResponse_within within

/-- The first fields of an image. -/
theorem imageStart_imageOf {c : Settings} (manager : c.mgrLen ≤ 32) (bank : Vector MatchEntry 64) :
    let img := imageOf c bank
    bitsAt 8 img 12 = c.engineId ∧ bitsAt 4 img 20 = c.rackId ∧ bitsAt 6 img 24 = c.mac ∧ bitsAt 4 img 30 = c.ip ∧
      bitsAt 4 img 34 = c.mgrAddr ∧ clampNat 0 32 (byteAt img 38) = c.mgrLen ∧ bitsAt 2 img 39 = c.utxEther ∧
      bitsAt 2 img 41 = c.utxPort ∧ bitsAt 2 img 43 = c.mgmtPort ∧ bitsAt 4 img 45 = c.collIp ∧
      bitsAt 2 img 49 = c.collPort ∧ bitsAt 6 img 51 = c.group := by
  simp only [imageOf_eq, imageStart, byteAt, List.append_assoc, getD_append_right, bitsAt_append_right, length_be,
    length_beBits, length_beSat, Nat.reduceLeDiff, Nat.reduceSub, Nat.sub_self, Nat.zero_le, bitsAt_beBits, clampNat_byte,
    manager, and_self]

/-- The settings of an image of settings within their ranges. -/
theorem imageSettings_imageOf {c : Settings} (ok : SettingsOk c) (bank : Vector MatchEntry 64)
    (distinct : ∀ i j : Fin 32, c.peers[i].enabled = true → c.peers[j].enabled = true →
      c.peers[i].rack = c.peers[j].rack → i = j)
    (plausible : c.trim.natAbs ≤ c.servo.plausibility * 1024000) : imageSettings (imageOf c bank) = c := by
  obtain ⟨servo, width, limit⟩ := servo_servoBytes ok.step ok.window ok.locks ok.shifts ok.rates ok.holdover ok.second
  obtain ⟨drift, holdoff, threshold⟩ :=
    drift_driftBytes ok.barTime ok.report ok.roundTrip ok.thresholds ok.quorum ok.notices
  obtain ⟨u0, u1, d0, d1, a, b⟩ := imagePorts_imageOf ok bank
  obtain ⟨engine, rack, mac, ip, mgr, len, ether, utx, mgmt, coll, collPort, group⟩ := imageStart_imageOf ok.manager bank
  have trim : clampInt (-((c.servo.plausibility * Config.unitsPerPpm : Nat) : Int))
      ((c.servo.plausibility * Config.unitsPerPpm : Nat) : Int) c.trim = c.trim := by
    rw [Config.unitsPerPpm]
    exact clampInt_within (by omega) (by omega)
  unfold imageSettings
  simp only [slice_imageOf_servo, slice_imageOf_drift, servo, width, limit, drift, holdoff, threshold, u0, u1, d0, d1, a, b,
    imageOverrides_imageOf ok, imagePeers_imageOf ok bank distinct, imageResponses_imageOf ok,
    intAt_imageOf_trim c bank ok.trim.1 ok.trim.2, trim, engine, rack, mac, ip, mgr, len, ether, utx,
    mgmt, coll, collPort, group]

/-! ### The bytes of an image, and its CRC -/

theorem flatten_map {α : Type} {f g : α → List Byte} (h : ∀ x, f x = g x) (l : List α) : (l.map f).flatten = l.flatMap g := by
  rw [List.flatMap_def, List.map_congr_left (fun x _ => h x)]

/-- Eight shifts of the register take one byte in. -/
theorem crc32_eq (bs : List Byte) : crc32 bs = bs.foldl (fun r b => (List.range 8).foldl (fun r _ => crcBit r) (r ^^^ b.toNat))
    0xFFFFFFFF ^^^ 0xFFFFFFFF := by
  have byte : crcByte = fun r b => (List.range 8).foldl (fun r _ => crcBit r) (r ^^^ b.toNat) := by
    funext r b
    simp only [List.range, List.range.loop, List.foldl_cons, List.foldl_nil, crcByte]
  rw [crc32, byte]

/-- Settles O21, part by part: the bytes written are those of the records, the CRC is that of the shifted register, and what
was written within its ranges is read back. -/
theorem aSavedImageLoadsBack : Obligations.ASavedImageLoadsBack := by
  refine ⟨fun c bank => ?_, crc32_eq, fun c bank ok entries distinct plausible =>
    ⟨imageOf c bank, readAttempt_imageOf c bank, imageSettings_imageOf ok bank distinct plausible,
      imageBank_imageOf c entries⟩⟩
  intro num bit port ports lanes entries overrides peers servo drift responses head body
  have bits (b : Bool) : flag b = bit b := by cases b <;> rfl
  have codes (p : Port) : portCode p = port p := by cases p <;> rfl
  have flat_ports : ports.flatten =
      [Port.u0, .u1, .d0, .d1].flatMap (fun p => portRecBytes (be 1 0) (c.ports.get p)) := by
    rw [flatten_map (g := portRecBytes (be 1 0)) fun r => ?_]
    · rfl
    · simp only [portRecBytes, bits, List.flatten_cons, List.flatten_nil, List.append_nil, List.append_assoc]
      cases r.privilege <;> rfl
  have flat_lanes : lanes.flatten = laneRecBytes c.lanes.a ++ laneRecBytes c.lanes.b := by
    rw [flatten_map (g := laneRecBytes) fun r => ?_]
    · simp only [List.flatMap_cons, List.flatMap_nil, List.append_nil]
    · simp only [laneRecBytes, List.flatten_cons, List.flatten_nil, List.append_nil, List.append_assoc]
      cases r.mode <;> rfl
  have sets (q : Quad Bool) : portSetCode q = num q.u0 + 2 * num q.u1 + 4 * num q.d0 + 8 * num q.d1 := by
    obtain ⟨a, b, c, d⟩ := q
    cases a <;> cases b <;> cases c <;> cases d <;> rfl
  have flat_entries : entries.flatten = bank.toList.flatMap matchBytes := flatten_map (fun e => by
    simp only [matchBytes, bits, sets, beBits, List.flatten_cons, List.flatten_nil, List.append_nil, List.append_assoc]
    cases e.action <;> cases e.vlanKind <;> cases e.logMode <;> rfl) _
  have flat_overrides : overrides.flatten = c.overrides.toList.flatMap overrideBytes := flatten_map (fun o => by
    simp only [overrideBytes, bits, codes, beBits, List.flatten_cons, List.flatten_nil, List.append_nil, List.append_assoc]) _
  have flat_peers : peers.flatten = c.peers.toList.flatMap peerCfgBytes := flatten_map (fun x => by
    simp only [peerCfgBytes, bits, codes, beBits, List.flatten_cons, List.flatten_nil, List.append_nil, List.append_assoc]) _
  have flat_servo : servo.flatten = servoBytes c.servo c.secWidth c.secLimit := by
    simp only [servo, servoBytes, List.flatten_cons, List.flatten_nil, List.append_nil, List.append_assoc]
  have flat_drift : drift.flatten = driftBytes c.drift c.alertHoldoff c.logThreshold := by
    simp only [drift, driftBytes, bits, List.flatten_cons, List.flatten_nil, List.append_nil, List.append_assoc]
    rfl
  have flat_responses : responses.flatten = c.responses.toList.flatMap (fun r => be 1 r.rank) := flatten_map (fun r => by
    cases r <;> rfl) _
  have same : imageBody c bank = body := by
    unfold imageBody
    simp only [body, List.flatten_append, flat_ports, flat_lanes, flat_entries, flat_overrides, flat_peers, flat_servo,
      flat_drift, flat_responses]
    simp only [head, beBits, Config.imageLen, List.flatten_cons, List.flatten_nil, List.append_nil, List.append_assoc]
  clear_value body
  subst same
  exact ⟨length_imageBody c bank, rfl⟩

end Sys2Proof.Machine
end

section
/-! Whole frames by their form, kind, carriage, destination and lane mode (sections 2.5, 5.2 to 5.5, 6.3, 11.1). -/

namespace Sys2Proof.Machine

/-! ### The form of a UTX frame (R213) -/

theorem bodyFits_iff (kind body : Nat) (utx : List Byte) : bodyFits kind body utx = true ↔
    (kind = 1 ∧ body = 32) ∨ (kind = 2 ∧ body = 20) ∨ (kind = 3 ∧ body = 40) ∨
      (kind = 4 ∧ body = 26 ∧ byteAt utx 36 = 0) ∨ (kind = 4 ∧ body = 46 ∧ byteAt utx 36 = 1) ∨
      (kind = 5 ∧ 5 ≤ body ∧ 12 + body ≤ 1472) := by
  unfold bodyFits
  split <;> simp_all

theorem utxFits_iff (utx : List Byte) (available : Nat) : utxFits utx available = true ↔
    12 ≤ available ∧ byteAt utx 0 = 1 ∧ 12 + natAt utx 2 2 ≤ available ∧
      ((byteAt utx 1 = 1 ∧ natAt utx 2 2 = 32) ∨ (byteAt utx 1 = 2 ∧ natAt utx 2 2 = 20) ∨
       (byteAt utx 1 = 3 ∧ natAt utx 2 2 = 40) ∨ (byteAt utx 1 = 4 ∧ natAt utx 2 2 = 26 ∧ byteAt utx 36 = 0) ∨
       (byteAt utx 1 = 4 ∧ natAt utx 2 2 = 46 ∧ byteAt utx 36 = 1) ∨
       (byteAt utx 1 = 5 ∧ 5 ≤ natAt utx 2 2 ∧ 12 + natAt utx 2 2 ≤ 1472)) := by
  rw [utxFits, Bool.and_eq_true, Bool.and_eq_true, Bool.and_eq_true, decide_eq_true_eq, decide_eq_true_eq, beq_iff_eq,
    bodyFits_iff, and_assoc, and_assoc]
  exact and_congr_right fun _ => and_congr_right fun _ => And.comm

theorem availableUdp_eq (bytes : List Byte) :
    let ip := frameHeader bytes
    let udp := natAt bytes (ip + 24) 2
    let total := natAt bytes (ip + 2) 2
    availableUdp bytes = if 8 ≤ udp ∧ 20 + udp ≤ total then udp - 8 else 0 := by
  simp only [availableUdp]
  split <;> split <;> omega

/-! ### A frame handed on whole (R116) -/

theorem forwardWhole_admitted {w : Whole} {s : State} (edit : Edit) (up : (s.port w.port.partner).up = true)
    (room : w.bytes.length + bufferOccupancy (s.port w.port.partner) ≤ 32768) :
    forwardWhole w edit s = arbitrate w.port.partner (s.setPort w.port.partner { s.port w.port.partner with
      buffer := (s.port w.port.partner).buffer ++
        [{ bytes := w.bytes, sinceHalf := 0, ingress := w.ingress, complete := true, ready := true, cut := false,
           edit := edit }] }) := by
  simp only [forwardWhole, admitFrame, up, Config.bufferBytes, room, decide_true, Bool.and_self, if_true]

theorem forwardWhole_refused {w : Whole} {s : State} (edit : Edit) (full : ¬ ((s.port w.port.partner).up = true ∧
    w.bytes.length + bufferOccupancy (s.port w.port.partner) ≤ 32768)) :
    forwardWhole w edit s = s.count w.port.partner (Stats.addTransitDrops 1) := by
  have closed : ((s.port w.port.partner).up &&
      decide (w.bytes.length + bufferOccupancy (s.port w.port.partner) ≤ Config.bufferBytes)) = false := by
    rw [Bool.eq_false_iff, ne_eq, Bool.and_eq_true, decide_eq_true_eq]
    exact full
  simp only [forwardWhole, admitFrame, closed, Bool.false_eq_true, if_false]

/-! ### The Ethernet carriage -/

theorem dispatchL2_malformed {w : Whole} (bad : ¬ utxFits w.utx (availableL2 w.bytes) = true ∨ byteAt w.utx 1 = 4 ∨
    byteAt w.utx 1 = 5) (s : State) : dispatchL2 w s = malformedFrame w s := by
  unfold dispatchL2
  split
  case isTrue fits =>
    rcases bad with unfit | kind | kind
    · exact absurd fits unfit
    · rw [kind]
      rfl
    · rw [kind]
      rfl
  case isFalse => rfl

section
variable {w : Whole} {s : State}

theorem dispatchL2_beacon (fits : utxFits w.utx (availableL2 w.bytes) = true) (kind : byteAt w.utx 1 = 1) :
    dispatchL2 w s = handleBeacon w s := by
  rw [dispatchL2, if_pos fits, kind]
  rfl

theorem dispatchL2_ask (fits : utxFits w.utx (availableL2 w.bytes) = true) (kind : byteAt w.utx 1 = 2) :
    dispatchL2 w s = handleAsk w s := by
  rw [dispatchL2, if_pos fits, kind]
  rfl

theorem dispatchL2_answer (fits : utxFits w.utx (availableL2 w.bytes) = true) (kind : byteAt w.utx 1 = 3) :
    dispatchL2 w s = handleAnswer w s := by
  rw [dispatchL2, if_pos fits, kind]
  rfl

theorem beaconUnit_boundary (p : Nat) (mode : (s.laneRec w.port.lane).mode = .boundary) : beaconUnit w p s = s := by
  rw [beaconUnit, mode]

theorem beaconUnit_transit (p : Nat) (mode : (s.laneRec w.port.lane).mode = .transit) :
    beaconUnit w p s = if w.port.isUplink then transitBeacon w p s else forwardWhole w .none s := by
  rw [beaconUnit, mode]

theorem handleBeacon_downlink (down : ¬ w.port.isUplink = true) :
    handleBeacon w s = beaconUnit w (s.echoOf w.port).p s := by
  rw [handleBeacon, if_neg down]

theorem handleBeacon_uplink (up : w.port.isUplink = true) :
    handleBeacon w s = beaconUnit w (s.echoOf w.port).p (beaconIntoTable w s) := by
  rw [handleBeacon, if_pos up]

theorem laneRec_beaconIntoTable (l : Lane) : (beaconIntoTable w s).laneRec l = s.laneRec l := by
  rw [State.laneRec, cfg_beaconIntoTable, State.laneRec]

theorem lane_beaconIntoTable (l : Lane) : (beaconIntoTable w s).lane l = s.lane l := by
  rw [State.lane, lanes_beaconIntoTable, State.lane]

/-- An ask to the engine is answered on an uplink or a BOUNDARY lane (R33). -/
theorem handleAsk_answered (here : w.dst = s.cfg.mac ∨ w.dst = s.cfg.group)
    (answers : w.port.isUplink = true ∨ (s.cfg.lanes.get w.port.lane).mode = .boundary) : handleAsk w s = answerAsk w s := by
  have opened : (w.port.isUplink || !((s.laneRec w.port.lane).mode == .transit)) = true := by
    rcases answers with up | mode
    · rw [up, Bool.true_or]
    · rw [State.laneRec, mode]
      exact Bool.or_true _
  unfold handleAsk
  simp only [opened, if_true]
  split
  case isTrue => rfl
  case isFalse other => rw [if_pos (here.resolve_right other)]

theorem handleAsk_transit (down : ¬ w.port.isUplink = true) (mode : (s.cfg.lanes.get w.port.lane).mode = .transit) :
    handleAsk w s = if w.dst = s.cfg.group then forwardWhole w (.transit (w.header + 24) 0) s
      else if w.dst = s.cfg.mac then s else forwardWhole w (.transit (w.header + 24) 0) s := by
  have transit : ((s.laneRec w.port.lane).mode == Mode.transit) = true := by rw [State.laneRec, mode]; rfl
  unfold handleAsk
  simp only [transit, down, Bool.not_true, Bool.or_false, Bool.false_eq_true, if_false, if_true]

/-- An ask to another goes on, with its residence on a TRANSIT lane (R33). -/
theorem handleAsk_other (own : ¬ w.dst = s.cfg.mac) (group : ¬ w.dst = s.cfg.group) :
    handleAsk w s = forwardWhole w
      (if (s.cfg.lanes.get w.port.lane).mode = .transit then .transit (w.header + 24) 0 else .none) s := by
  unfold handleAsk
  simp only [own, group, if_false, State.laneRec, beq_iff_eq]
  split <;> rfl

end

/-! ### Control frames -/

/-- Numbers of 32 bits agree above a place exactly where their bits from there on agree. -/
theorem div_eq_iff_getLsbD (a b : BitVec 32) (n : Nat) :
    a.toNat / 2 ^ (32 - n) = b.toNat / 2 ^ (32 - n) ↔ ∀ i, i < n → a.getLsbD (31 - i) = b.getLsbD (31 - i) := by
  rw [← Nat.shiftRight_eq_div_pow, ← Nat.shiftRight_eq_div_pow]
  constructor
  · intro same i inside
    have bit := congrArg (fun x => Nat.testBit x (31 - i - (32 - n))) same
    simp only [Nat.testBit_shiftRight] at bit
    rwa [show 32 - n + (31 - i - (32 - n)) = 31 - i by omega] at bit
  · intro same
    apply Nat.eq_of_testBit_eq
    intro j
    simp only [Nat.testBit_shiftRight]
    by_cases inside : 32 - n + j < 32
    · have bit := same (31 - (32 - n + j)) (by omega)
      rwa [show 31 - (31 - (32 - n + j)) = 32 - n + j by omega] at bit
    · have beyond (x : BitVec 32) : x.toNat.testBit (32 - n + j) = false := BitVec.getLsbD_of_ge x _ (by omega)
      rw [beyond, beyond]

theorem withinPrefix_iff (s : State) (ip : BitVec 32) : withinPrefix s ip = true ↔
    ∀ i, i < s.cfg.mgrLen → ip.getLsbD (31 - i) = s.cfg.mgrAddr.getLsbD (31 - i) := by
  rw [withinPrefix, beq_iff_eq]
  exact div_eq_iff_getLsbD ip s.cfg.mgrAddr s.cfg.mgrLen

/-- The fields of a held control frame that its UTX bytes spell, where the frame holds them whole (section 12.1). -/
theorem controlOf_body (w : Whole) (privilege : Privilege) :
    let c := controlOf w privilege
    let utx := (w.bytes.take (w.bytes.length - 4)).drop w.header
    17 ≤ utx.length → 12 + natAt utx 2 2 ≤ utx.length →
      c.request.toNat = natAt utx 12 4 ∧ c.count = byteAt utx 16 ∧ c.body = (utx.drop 17).take (natAt utx 2 2 - 5) := by
  intro c utx long fits
  have held : w.utx = utx ++ (List.range (Config.answerRoom - utx.length)).map (Config.beyondPayload w.bytes w.up) := rfl
  have inside {off n : Nat} (h : off + n ≤ utx.length) : slice w.utx off n = slice utx off n := by
    rw [held, slice, slice, List.drop_append_of_le_length (by omega), List.take_append_of_le_length (by simp; omega)]
  have body : natAt w.utx 2 2 = natAt utx 2 2 := by rw [natAt, inside (by omega), natAt]
  refine ⟨?_, ?_, ?_⟩
  · change (bitsAt 4 w.utx 12).toNat = _
    rw [toNat_bitsAt, natAt, inside (by omega), natAt]
  · change byteAt w.utx 16 = _
    rw [byteAt_eq_natAt, natAt, inside (by omega), byteAt_eq_natAt, natAt]
  · change slice w.utx 17 (natAt w.utx 2 2 - 5) = _
    rw [body, inside (by omega), slice, List.length_take, List.length_drop]
    have full : natAt utx 2 2 - 5 - min (natAt utx 2 2 - 5) (utx.length - 17) = 0 := by omega
    rw [full, List.replicate_zero, List.append_nil]

section
variable {w : Whole} {mgmt utx : Bool} {privilege : Privilege} {s : State}

theorem dispatchUdp_malformed (bad : ¬ utxFits w.utx (availableUdp w.bytes) = true ∨
    (byteAt w.utx 1 ≠ 4 ∧ byteAt w.utx 1 ≠ 5) ∨ (byteAt w.utx 1 = 4 ∧ utx = false) ∨ (byteAt w.utx 1 = 5 ∧ mgmt = false)) :
    dispatchUdp w mgmt utx privilege s = malformedFrame w s := by
  unfold dispatchUdp
  split
  case isTrue fits =>
    rcases bad with unfit | ⟨no4, no5⟩ | ⟨kind, closed⟩ | ⟨kind, closed⟩
    · exact absurd fits unfit
    · split
      · contradiction
      · contradiction
      · rfl
    · rw [kind, closed]
      rfl
    · rw [kind, closed]
      rfl
  case isFalse => rfl

theorem dispatchUdp_report (fits : utxFits w.utx (availableUdp w.bytes) = true) (kind : byteAt w.utx 1 = 4)
    (opened : utx = true) : dispatchUdp w mgmt utx privilege s = reportReceived w s := by
  rw [dispatchUdp, if_pos fits, kind, opened]
  rfl

theorem dispatchUdp_control (fits : utxFits w.utx (availableUdp w.bytes) = true) (kind : byteAt w.utx 1 = 5)
    (opened : mgmt = true) : dispatchUdp w mgmt utx privilege s = acceptControl w privilege s := by
  rw [dispatchUdp, if_pos fits, kind, opened]
  rfl

end

/-- What a port may hand to the agent: its privilege, the address, the run state and an empty place (R197,
R198). -/
theorem acceptControl_eq (w : Whole) (privilege : Privilege) (s : State) :
    acceptControl w privilege s = if privilege ≠ .none ∧ withinPrefix s (bitsAt 4 w.bytes (w.header - 16)) = true ∧
        s.run = .running ∧ s.agent.reload = false ∧ (s.port w.port).held = none then
      s.setPort w.port { s.port w.port with held := some (controlOf w privilege) } else s := by
  unfold acceptControl
  cases held : (s.port w.port).held <;> simp

/-- Settles O33, carriage by carriage and kind by kind. -/
theorem wholeFramesGoByTheirKind : Obligations.WholeFramesGoByTheirKind := by
  refine ⟨utxFits_iff, fun bytes => ⟨rfl, availableUdp_eq bytes⟩,
    fun w edit s => ⟨fun ⟨up, room⟩ => forwardWhole_admitted edit up room, fun full => forwardWhole_refused edit full⟩,
    fun w s => ⟨fun bad => dispatchL2_malformed bad s, fun fits kind => ?_, fun fits kind => ?_, fun fits kind => ?_⟩,
    withinPrefix_iff, fun w privilege => ?_, fun w mgmt utx privilege s =>
      ⟨dispatchUdp_malformed, dispatchUdp_report, fun fits kind opened accepted => ?_, fun fits kind opened refused => ?_⟩⟩
  · rw [dispatchL2_beacon fits kind]
    refine ⟨fun down mode => ?_, fun down mode => ?_, fun up mode => ?_, fun up mode => ?_⟩
    · rw [handleBeacon_downlink down, beaconUnit_boundary _ mode]
    · rw [handleBeacon_downlink down, beaconUnit_transit _ mode, if_neg down]
    · rw [handleBeacon_uplink up, beaconUnit_boundary _ ((congrArg LaneRec.mode (laneRec_beaconIntoTable _)).trans mode)]
    · rw [handleBeacon_uplink up, beaconUnit_transit _ ((congrArg LaneRec.mode (laneRec_beaconIntoTable _)).trans mode),
        if_pos up]
      simp only [transitBeacon, lane_beaconIntoTable, laneRec_beaconIntoTable]
      rfl
  · rw [dispatchL2_ask fits kind]
    refine ⟨fun here answers => handleAsk_answered here answers, fun group own down mode => ?_,
      fun own group down mode => ?_, fun own group mode => ?_, fun own group mode => ?_⟩
    · rw [handleAsk_transit down mode, if_pos group]
    · rw [handleAsk_transit down mode, if_neg group, if_pos own]
    · rw [handleAsk_other own group, if_pos mode]
    · rw [handleAsk_other own group, if_neg (by rw [mode]; decide)]
  · rw [dispatchL2_answer fits kind, handleAnswer]
    refine ⟨fun here => if_pos here.symm, fun own group mode => ?_, fun own group mode => ?_⟩
    · rw [if_neg (by tauto), State.laneRec, if_pos mode]
    · rw [if_neg (by tauto), if_neg (by rw [State.laneRec, mode]; decide)]
  · refine ⟨rfl, rfl, toNat_bitsAt .., rfl, toNat_bitsAt .., toNat_bitsAt .., length_slice .., ?_⟩
    exact controlOf_body w privilege
  · rw [dispatchUdp_control fits kind opened, acceptControl_eq, if_pos accepted]
  · rw [dispatchUdp_control fits kind opened, acceptControl_eq, if_neg refused]

end Sys2Proof.Machine
end

section
/-! The end of a transmission, and the bytes of a forwarded frame (sections 2.5, 5.4, 6.5, 6.7, 7.4, 11.5). -/

namespace Sys2Proof.Machine

/-! ### FRAME_SENT -/

/-- What a port is when its leaving frame has gone (R123). -/
theorem finishTx_eq (p : Port) (x : Tx) (s : State) : finishTx p x s = s.setPort p { s.port p with
    tx := none
    lastSent := some (txBytes x)
    stats := { (s.port p).stats with
      passed := if txPasses x then min 4294967295 ((s.port p).stats.passed + 1) else (s.port p).stats.passed } } := by
  unfold finishTx
  cases txPasses x <;> rfl

section
variable {p : Port} {s : State} {x : Tx}

theorem exec_frameSent (run : s.run ≠ .held) (up : (s.port p).up = true) (tx : (s.port p).tx = some x) :
    exec (.frameSent p) s = .next (if txComplete x then
      (if carriesReset x then takePendingReset (finishTx p x s) else arbitrate p (finishTx p x s)) else s) := by
  simp only [exec, execFrameSent, tx, portLive_of run up, Bool.true_and]

theorem takePendingReset_of {k : ResetKind} (waits : s.agent.resetPending = some k) : takePendingReset s = takeReset k s := by
  rw [takePendingReset, waits]

end

/-! ### Bytes put in place -/

theorem length_patch {bs new : List Byte} {off : Nat} (h : off + new.length ≤ bs.length) :
    (patch bs off new).length = bs.length := by
  simp only [patch, List.length_append, List.length_take, List.length_drop]
  omega

theorem slice_patch {bs new : List Byte} {off w : Nat} (h : off + new.length ≤ bs.length) (len : new.length = w) :
    slice (patch bs off new) off w = new := by
  have before : (bs.take off).length = off := by rw [List.length_take]; omega
  rw [patch, List.append_assoc, slice_append_right before.le, before, Nat.sub_self, slice_append_left len]

/-! ### What a byte counts in a UDP checksum (R119) -/

theorem positionedSum_eq (weight : Nat → Nat) (off : Nat) (bs : List Byte) : positionedSum weight off bs =
    ((List.range bs.length).map (fun j => byteAt bs j * weight (off + j))).sum := by
  induction bs generalizing off with
  | nil => rfl
  | cons b rest ih =>
    rw [positionedSum, ih, List.length_cons, List.range_succ_eq_map, List.map_cons, List.sum_cons, List.map_map]
    simp only [byteAt, List.getD_cons_zero, Nat.add_zero, Function.comp_def, Nat.succ_eq_add_one, List.getD_cons_succ,
      Nat.add_assoc, Nat.add_comm 1]

theorem positionedSum_slice (weight : Nat → Nat) (off w : Nat) (bs : List Byte) : positionedSum weight off (slice bs off w) =
    ((List.range w).map (fun j => byteAt bs (off + j) * weight (off + j))).sum := by
  rw [positionedSum_eq, length_slice]
  congr 1
  apply List.map_congr_left
  intro j inside
  rw [byteAt, getD_slice (List.mem_range.mp inside), byteAt]

/-- A compensated checksum gains the sum of the bytes replaced and loses that of the bytes put in their place (R119). -/
theorem compensate_spec {checksum : Nat} (h : checksum ≤ 65535) (old new : Nat) :
    1 ≤ compensate checksum old new ∧ compensate checksum old new ≤ 65535 ∧
      (compensate checksum old new + new) % 65535 = (checksum + old) % 65535 := by
  simp only [compensate]
  generalize total : 0xFFFF - checksum + new + (0xFFFF - old % 0xFFFF) = x
  have some_ : x ≠ 0 := by omega
  obtain ⟨low, whole⟩ := fold16_complement some_
  split <;> omega

/-! ### The datagram of a frame (R119) -/

theorem udpSpan_iff (bs : List Byte) (start stop : Nat) (v4 : Bool) :
    let ip := if natAt bs 12 2 = 0x8100 then 18 else 14
    let ethertype := natAt bs (ip - 2) 2
    udpSpan bs = some (start, stop, v4) ↔
      (v4 = true ∧ ethertype = 0x0800 ∧ byteAt bs ip / 16 = 4 ∧ natAt bs (ip + 6) 2 % 8192 = 0 ∧ byteAt bs (ip + 9) = 17 ∧
        start = ip + 4 * (byteAt bs ip % 16) ∧ stop = min (start + natAt bs (start + 4) 2) (ip + natAt bs (ip + 2) 2)) ∨
      (v4 = false ∧ ethertype = 0x86DD ∧ byteAt bs (ip + 6) = 17 ∧ start = ip + 40 ∧
        stop = start + natAt bs (start + 4) 2) := by
  intro ip ethertype
  have shape : udpSpan bs =
      if ethertype = 0x0800 then
        if byteAt bs ip / 16 = 4 && natAt bs (ip + 6) 2 % 8192 = 0 && byteAt bs (ip + 9) = 17 then
          some (ip + 4 * (byteAt bs ip % 16),
            min (ip + 4 * (byteAt bs ip % 16) + natAt bs (ip + 4 * (byteAt bs ip % 16) + 4) 2) (ip + natAt bs (ip + 2) 2), true)
        else none
      else if ethertype = 0x86DD then
        if byteAt bs (ip + 6) = 17 then some (ip + 40, ip + 40 + natAt bs (ip + 44) 2, false) else none
      else none := rfl
  rw [shape]
  clear_value ip ethertype
  by_cases four : ethertype = 0x0800
  · have not_six : ethertype ≠ 0x86DD := by rw [four]; decide
    rw [if_pos four]
    split
    case isTrue checks =>
      simp only [Bool.and_eq_true, decide_eq_true_eq] at checks
      obtain ⟨⟨version, whole⟩, udp⟩ := checks
      simp only [Option.some.injEq, Prod.mk.injEq, four, version, whole, udp, true_and]
      constructor
      · rintro ⟨rfl, rfl, rfl⟩
        exact .inl ⟨rfl, rfl, rfl⟩
      · rintro (⟨rfl, rfl, rfl⟩ | ⟨-, six, -⟩)
        · exact ⟨rfl, rfl, rfl⟩
        · exact absurd six (by decide)
    case isFalse fails =>
      simp only [Bool.and_eq_true, decide_eq_true_eq, not_and] at fails
      refine iff_of_false (by simp) ?_
      rintro (⟨-, -, version, whole, udp, -⟩ | ⟨-, six, -⟩)
      · exact fails ⟨version, whole⟩ udp
      · exact not_six six
  · rw [if_neg four]
    by_cases six : ethertype = 0x86DD ∧ byteAt bs (ip + 6) = 17
    · obtain ⟨six, udp⟩ := six
      simp only [six, udp, if_true, Option.some.injEq, Prod.mk.injEq, true_and]
      constructor
      · rintro ⟨rfl, rfl, rfl⟩
        exact .inr ⟨rfl, rfl, rfl⟩
      · rintro (⟨-, wrong, -⟩ | ⟨rfl, rfl, rfl⟩)
        · exact absurd wrong (by decide)
        · exact ⟨rfl, rfl, rfl⟩
    · refine iff_of_false (fun found => ?_) ?_
      · split at found
        case isTrue ethertype => rw [if_neg (fun udp => six ⟨ethertype, udp⟩)] at found; cases found
        case isFalse => cases found
      · rintro (⟨-, wrong, -⟩ | ⟨-, type, udp, -⟩)
        · exact four wrong
        · exact six ⟨type, udp⟩

/-! ### A stamp put in place -/

section
variable {bs stamp : List Byte} {off start stop : Nat} {v4 : Bool}

theorem writeStamp_plain (span : udpSpan bs = none) : writeStamp bs off stamp = patch bs off stamp := by
  rw [writeStamp, span]

/-- The cases of R119 in which the checksum stands. -/
theorem writeStamp_stands (span : udpSpan bs = some (start, stop, v4))
    (stands : bs.length < start + 8 ∨ (off < start + 6 + 2 ∧ start + 6 < off + stamp.length) ∨
      (v4 = true ∧ natAt bs (start + 6) 2 = 0)) : writeStamp bs off stamp = patch bs off stamp := by
  have closed : (bs.length < start + 8 || (off < start + 6 + 2 && start + 6 < off + stamp.length) ||
      (v4 && natAt bs (start + 6) 2 = 0)) = true := by
    simp only [Bool.or_eq_true, Bool.and_eq_true, decide_eq_true_eq]
    tauto
  simp only [writeStamp, span]
  rw [if_pos closed]

/-- What the replaced bytes count in the checksum of a datagram. -/
def stampWeight (bs : List Byte) (start stop : Nat) (v4 : Bool) : Nat → Nat :=
  checksumWeight (if natAt bs 12 2 = 0x8100 then 18 else 14) start stop v4

/-- The checksum compensated (R119). -/
theorem writeStamp_compensated (span : udpSpan bs = some (start, stop, v4)) (inside : start + 8 ≤ bs.length)
    (apart : start + 6 + 2 ≤ off ∨ off + stamp.length ≤ start + 6) (has : v4 = false ∨ natAt bs (start + 6) 2 ≠ 0) :
    writeStamp bs off stamp = patch (patch bs off stamp) (start + 6) (be 2 (compensate (natAt bs (start + 6) 2)
      (positionedSum (stampWeight bs start stop v4) off (slice bs off stamp.length))
      (positionedSum (stampWeight bs start stop v4) off stamp))) := by
  have opened : (bs.length < start + 8 || (off < start + 6 + 2 && start + 6 < off + stamp.length) ||
      (v4 && natAt bs (start + 6) 2 = 0)) ≠ true := by
    simp only [ne_eq, Bool.or_eq_true, Bool.and_eq_true, decide_eq_true_eq, not_or, not_and]
    refine ⟨⟨by omega, by omega⟩, fun four => has.resolve_left (by rw [four]; decide)⟩
  simp only [writeStamp, span]
  rw [if_neg opened, stampWeight]

end

theorem invert_eq (bs : List Byte) : invert bs = bs.map (fun b => ~~~ b) := rfl

theorem residence_eq (ingress egress : Date) :
    residence ingress egress = ⌊(((egress.units : Int) - ingress.units : Int) : Rat) / 65536⌋ :=
  shifted_eq_floor ((egress.units : Int) - ingress.units) 16 |>.trans (by norm_num)

theorem satSum_eq (x : Int) : satSum x = max (-(2 ^ 63)) (min (2 ^ 63 - 1) x) := rfl

/-- A transit sum put in place is read as it was written (R34, R93). -/
theorem intAt_transitSum (x : Int) : intAt (beInt 8 (satSum x)) 0 8 = satSum x := by
  have whole := intAt_beInt_append (w := 8) (by decide) (v := satSum x) (by rw [satSum_eq]; simp)
    (by rw [satSum_eq]; simp) []
  rwa [List.append_nil] at whole

/-- A stamp that leaves the checksum right: what it counts before and after (R119). -/
theorem writeStamp_spec {bs stamp : List Byte} {off start stop : Nat} {v4 : Bool} (len : stamp.length = 12)
    (fits : off + 12 ≤ bs.length) (span : udpSpan bs = some (start, stop, v4)) (inside : start + 8 ≤ bs.length)
    (apart : start + 6 + 2 ≤ off ∨ off + 12 ≤ start + 6) (has : v4 = false ∨ natAt bs (start + 6) 2 ≠ 0) :
    let new := natAt (writeStamp bs off stamp) (start + 6) 2
    let sum := fun (x : List Byte) =>
      ((List.range 12).map (fun j => byteAt x (off + j) * stampWeight bs start stop v4 (off + j))).sum
    writeStamp bs off stamp = patch (patch bs off stamp) (start + 6) (be 2 new) ∧ 1 ≤ new ∧
      (new + sum (patch bs off stamp)) % 65535 = (natAt bs (start + 6) 2 + sum bs) % 65535 := by
  intro new sum
  have bounded : natAt bs (start + 6) 2 ≤ 65535 := Nat.le_of_lt_succ (natAt_lt bs (start + 6) 2)
  obtain ⟨low, high, balance⟩ := compensate_spec bounded (sum bs) (sum (patch bs off stamp))
  have put : slice (patch bs off stamp) off 12 = stamp := slice_patch (by omega) len
  have was : positionedSum (stampWeight bs start stop v4) off (slice bs off 12) = sum bs := positionedSum_slice ..
  have is_ : positionedSum (stampWeight bs start stop v4) off stamp = sum (patch bs off stamp) := by
    rw [← put, positionedSum_slice, put]
  have sent := writeStamp_compensated (stamp := stamp) span inside (by rwa [len]) has
  rw [len, was, is_] at sent
  have read : new = compensate (natAt bs (start + 6) 2) (sum bs) (sum (patch bs off stamp)) := by
    have length : (patch bs off stamp).length = bs.length := length_patch (by omega)
    change natAt (writeStamp bs off stamp) _ _ = _
    rw [sent, natAt, slice_patch (by rw [length_be, length]; omega) (length_be ..), ofBe_be]
    omega
  rw [read]
  exact ⟨sent, low, balance⟩

/-- Settles O35: the end of a transmission by what the frame carried, then the bytes of a forwarded frame by its edit. -/
theorem frameSentFreesThePort : Obligations.FrameSentFreesThePort := by
  refine ⟨fun p s x run up tx => ?_, fun f egress => ⟨fun whole edit => ?_, fun cut edit => ?_, fun off stamp edit =>
    ⟨fun whole => ?_, fun cut => ?_⟩, fun off add edit whole fits => ?_⟩, udpSpan_iff, fun bs stamp off len fits =>
    ⟨fun span => ?_, fun start stop v4 span => ⟨fun stands => ?_, fun inside apart has => ?_⟩⟩⟩
  · rw [exec_frameSent run up tx]
    intro cut bytes sent
    have done : finishTx p x s = sent := by
      rw [finishTx_eq]
      obtain ⟨store, body, date, half⟩ := x
      cases body with
      | forwarded f =>
        obtain ⟨_, _, _, _, _, short, _⟩ := f
        cases short <;> rfl
      | originated => rfl
    have waits : sent.agent = s.agent := agent_setPort ..
    have queue : sent.pending = s.pending := rfl
    rw [done]
    clear_value sent
    refine ⟨fun f body part => ?_, fun f body whole => ?_, fun tag bs body other => ?_, fun bs body none => ?_,
      fun bs body full => ?_, fun bs body reload => ?_, fun bs body soft => ?_⟩
    · simp only [txComplete, body, part, Bool.false_eq_true, if_false]
    · simp only [txComplete, carriesReset, body, whole, Bool.false_eq_true, if_true, if_false]
    · simp only [txComplete, carriesReset, body, beq_iff_eq, other, if_true, if_false]
    · simp only [txComplete, carriesReset, body, beq_self_eq_true, if_true, takePendingReset, waits, none]
    · simp only [txComplete, carriesReset, body, beq_self_eq_true, if_true, takePendingReset, waits, full, takeReset, fullReset,
        queue]
    · simp only [txComplete, carriesReset, body, beq_self_eq_true, if_true, takePendingReset, waits, reload]
      rfl
    · simp only [txComplete, carriesReset, body, beq_self_eq_true, if_true, takePendingReset, waits, soft]
      rfl
  · rw [forwardedBytes, whole, edit]; rfl
  · rw [forwardedBytes, cut, editedBytes, edit]; rfl
  · simp only [forwardedBytes, whole, edit, editedBytes, regenerateFcs, invert_eq, Bool.false_eq_true, if_false, reduceCtorEq]
  · rw [forwardedBytes, cut, editedBytes, edit]; rfl
  · intro sum
    refine ⟨beInt 8 sum, length_beInt .., intAt_transitSum _, ?_⟩
    simp only [forwardedBytes, whole, edit, editedBytes, regenerateFcs, invert_eq, Bool.false_eq_true, if_false,
      reduceCtorEq, residence_eq, patch, length_beInt]
    rfl
  · rw [writeStamp_plain span, patch, len]
  · rw [writeStamp_stands span (by rwa [len]), patch, len]
  · have plain : patch bs off stamp = bs.take off ++ stamp ++ bs.drop (off + 12) := by rw [patch, len]
    have spec := writeStamp_spec len fits span inside apart has
    dsimp only at spec
    rw [plain] at spec
    simp only [patch, length_be] at spec
    exact spec

end Sys2Proof.Machine
end

section
/-! The commands of a control frame: their arguments, their turn, their one result, and the answer (sections 11.1, 11.2, 12.1). -/

namespace Sys2Proof.Machine

/-! ### The arguments of a command (R203, R204) -/

section
variable (fill : List Byte)

theorem matchArgOf_bytes (a : MatchArg) :
    matchArgOf [[a.valid, a.action], be 2 a.ethertype.toNat, [a.vlanKind], be 2 a.vlanId.toNat,
      [a.ports, a.patPresent, a.patOffset], be 4 a.patValue.toNat, be 4 a.patMask.toNat, be 2 a.stampOffset.toNat,
      be 2 a.keyOffset.toNat, [a.domain, a.logMode, a.freeze], fill].flatten = a := by
  simp only [matchArgOf, List.flatten_cons, List.flatten_nil, List.append_nil, List.cons_append, List.nil_append,
    List.getD_cons_zero, List.getD_cons_succ, bitsAt_cons, getD_append_right, bitsAt_append_right, length_be,
    Nat.ofNat_pos, Nat.one_pos, Nat.reduceLeDiff, Nat.reduceSub, Nat.sub_self, bitsAt_be_append]

theorem portArgOf_bytes (a : PortArg) :
    portArgOf [[a.port, a.privilege, a.link, a.echoEnable, a.exponent], be 2 a.timeout.toNat, be 4 a.asym.toNat,
      be 6 a.gateway.toNat, fill].flatten = a := by
  simp only [portArgOf, List.flatten_cons, List.flatten_nil, List.append_nil, List.cons_append, List.nil_append,
    List.getD_cons_zero, List.getD_cons_succ, bitsAt_cons, bitsAt_append_right, length_be,
    Nat.ofNat_pos, Nat.one_pos, Nat.reduceLeDiff, Nat.reduceSub, Nat.sub_self, bitsAt_be_append]

theorem overrideArgOf_bytes (a : OverrideArg) :
    overrideArgOf [[a.index, a.port], be 8 a.sender.toNat, be 4 a.asym.toNat, [a.valid], fill].flatten = a := by
  simp only [overrideArgOf, List.flatten_cons, List.flatten_nil, List.append_nil, List.cons_append, List.nil_append,
    List.getD_cons_zero, List.getD_cons_succ, bitsAt_cons, getD_append_right, bitsAt_append_right, length_be,
    Nat.ofNat_pos, Nat.one_pos, Nat.reduceLeDiff, Nat.reduceSub, Nat.sub_self, bitsAt_be_append]

theorem peerArgOf_bytes (a : PeerArg) :
    peerArgOf [[a.index, a.enabled], be 4 a.rack.toNat, be 4 a.ip.toNat, [a.preferred], fill].flatten = a := by
  simp only [peerArgOf, List.flatten_cons, List.flatten_nil, List.append_nil, List.cons_append, List.nil_append,
    List.getD_cons_zero, List.getD_cons_succ, bitsAt_cons, getD_append_right, bitsAt_append_right, length_be,
    Nat.ofNat_pos, Nat.one_pos, Nat.reduceLeDiff, Nat.reduceSub, Nat.sub_self, bitsAt_be_append]

theorem servoArgOf_bytes (a : ServoArg) :
    servoArgOf [be 4 a.stepThreshold.toNat, be 4 a.lockWindow.toNat, [a.lockCount, a.unlockCount, a.sp, a.si],
      be 2 a.catchRate.toNat, be 2 a.plausibility.toNat, be 4 a.holdoverLimit.toNat, be 2 a.secWidth.toNat, [a.secLimit],
      fill].flatten = a := by
  simp only [servoArgOf, List.flatten_cons, List.flatten_nil, List.append_nil, List.cons_append, List.nil_append,
    List.getD_cons_zero, List.getD_cons_succ, bitsAt_cons, getD_append_right, bitsAt_append_right, length_be,
    Nat.ofNat_pos, Nat.one_pos, Nat.reduceLeDiff, Nat.reduceSub, Nat.sub_self, bitsAt_be_append]

theorem driftArgOf_bytes (a : DriftArg) :
    driftArgOf [be 4 a.barTime.toNat, [a.exponent], be 4 a.roundTrip.toNat, be 4 a.offsetThreshold.toNat,
      be 4 a.driftThreshold.toNat, [a.quorum, a.barOn], be 2 a.alertHoldoff.toNat, be 2 a.logThreshold.toNat,
      fill].flatten = a := by
  simp only [driftArgOf, List.flatten_cons, List.flatten_nil, List.append_nil, List.cons_append, List.nil_append,
    List.getD_cons_zero, List.getD_cons_succ, bitsAt_cons, getD_append_right, bitsAt_append_right, length_be,
    Nat.ofNat_pos, Nat.one_pos, Nat.reduceLeDiff, Nat.reduceSub, Nat.sub_self, bitsAt_be_append]

end

theorem commandOf_readTable (table : Byte) (first count : BitVec 16) :
    commandOf 3 ([table] ++ be 2 first.toNat ++ be 2 count.toNat) = some (.readTable table first count) := by
  simp only [commandOf, List.cons_append, List.nil_append, List.getD_cons_zero, bitsAt_cons, bitsAt_append_right, length_be,
    Nat.ofNat_pos, Nat.one_pos, Nat.reduceLeDiff, Nat.reduceSub, Nat.sub_self, bitsAt_be_append, bitsAt_be]

theorem commandOf_setDate (sec : BitVec 48) (nano : BitVec 32) :
    commandOf 17 (be 6 sec.toNat ++ be 4 nano.toNat) = some (.setDate sec nano) := by
  simp only [commandOf, bitsAt_append_right, length_be, Nat.sub_self, bitsAt_be_append, bitsAt_be, le_refl]

theorem commandOf_word (w : BitVec 32) :
    commandOf 18 (be 4 w.toNat) = some (.setTrim w) ∧ commandOf 19 (be 4 w.toNat) = some (.clearFlags w) := by
  simp only [commandOf, bitsAt_be, and_self]

theorem commandOf_barSource (index : Byte) (seconds : BitVec 16) :
    commandOf 20 ([index] ++ be 2 seconds.toNat) = some (.barSource index seconds) := by
  simp only [commandOf, List.cons_append, List.nil_append, List.getD_cons_zero, bitsAt_cons, Nat.one_pos, Nat.sub_self,
    bitsAt_be]

/-! ### The answer and the turn -/

theorem resultBytes_eq (r : Result) : resultBytes r = [r.code] ++ be 1 (match r.status with
    | .done => 0 | .clamped => 1 | .truncated => 2 | .unknown => 3 | .length => 4 | .denied => 5 | .range => 6
    | .state => 7 | .backward => 8 | .busy => 9 | .notEmpty => 10 | .skipped => 11) ++ be 2 r.data.length ++ r.data := by
  rw [resultBytes]
  cases r.status <;> rfl

theorem answerFrame_eq (s : State) (c : CtlFrame) (results : List Result) :
    let body := be 4 c.request.toNat ++ be 1 results.length ++ results.flatMap (fun r =>
      [r.code] ++ be 1 (match r.status with
        | .done => 0 | .clamped => 1 | .truncated => 2 | .unknown => 3 | .length => 4 | .denied => 5 | .range => 6
        | .state => 7 | .backward => 8 | .busy => 9 | .notEmpty => 10 | .skipped => 11) ++ be 2 r.data.length ++ r.data)
    answerFrame s c results = udpFrame s c.srcMac c.tag c.srcIp s.cfg.mgmtPort c.srcPort
      ([1, 6] ++ be 2 body.length ++ be 8 s.cfg.engineId.toNat ++ body) := by
  have rows : results.flatMap resultBytes = results.flatMap _ := List.flatMap_congr fun r _ => resultBytes_eq r
  rw [answerFrame, rows]
  rfl

theorem hasTurn_iff (code : Nat) (c : Instr) (s : State) : hasTurn code c s = true ↔
    s.run = .running ∧ s.agent.reload = false ∧ s.agent.resetPending = none ∧
    ∀ e, s.agent.exec = some e → nextCommand e = some (code, c) := by
  rw [hasTurn, commandsTaken, Bool.and_eq_true, Bool.and_eq_true, Bool.and_eq_true, beq_iff_eq, Bool.not_eq_true',
    Option.isNone_iff_eq_none, and_assoc, and_assoc]
  cases s.agent.exec <;> simp

/-- A command out of its turn changes nothing (log 12). -/
theorem runCommand_of_not_turn {code : Nat} {c : Instr} {s : State} (turn : hasTurn code c s = false) (m : Meaning) :
    runCommand code c m s = s := by
  rw [runCommand, turn, if_neg Bool.false_ne_true]

theorem exec_of_not_turn {code : Nat} {args : List Byte} {c : Instr} {s : State} (spelt : commandOf code args = some c)
    (turn : hasTurn code c s = false) : exec c s = .next s := by
  unfold commandOf at spelt
  split at spelt <;> cases spelt <;> exact congrArg _ (runCommand_of_not_turn turn _)

/-- A result as it is remembered. -/
def State.withResult (r : Result) (t : State) : State := { t with agent := { t.agent with lastResult := some r } }

/-- The result of a command given alone (log 11). -/
theorem deliver_alone {code : Nat} {t : State} {st : Status} {data : List Byte} (alone : t.agent.exec = none)
    (stays : t.agent.resetPending = none) :
    deliver code (t, st, data) = t.withResult ⟨BitVec.ofNat 8 code, st, data⟩ := by
  change (match t.agent.exec with | some e => answerInFrame e _ _ | none => takePendingReset (t.withResult _)) = _
  rw [alone]
  change (match t.agent.resetPending with | some k => takeReset k _ | none => _) = _
  rw [stays]

/-- The result of a command of a frame goes into the frame's answer. -/
theorem deliver_in_frame {code : Nat} {t : State} {st : Status} {data : List Byte} {e : Exec} {c : Parsed}
    (frame : t.agent.exec = some e) (parsed : parseNext e.rest = some c) :
    deliver code (t, st, data) = advanceFrame (e.push ⟨BitVec.ofNat 8 code, st, data⟩ c.rest t.agent.resetPending.isSome)
      (t.withResult ⟨BitVec.ofNat 8 code, st, data⟩) := by
  change (match t.agent.exec with | some e => answerInFrame e _ (t.withResult _) | none => takePendingReset _) = _
  rw [frame]
  change advanceFrame (e.push _ (((parseNext e.rest).map (fun c => c.rest)).getD []) _) _ = _
  rw [parsed]
  rfl

/-! ### The commands answered without execution (R199) -/

theorem commandLength_eq (code : Nat) : commandLength code =
    [none, some 0, some 0, some 5, some 0, some 1, some 33, some 0, some 1, some 25, some 9, some 17, some 25, some 1,
      some 32, some 24, some 2, some 10, some 4, some 4, some 3, some 0, some 0, some 0, some 0, some 1].getD code none := by
  rcases Nat.lt_or_ge code 26 with low | high
  · interval_cases code <;> rfl
  · obtain ⟨more, rfl⟩ := Nat.exists_eq_add_of_le' high
    rfl

/-- Every code that has a length names a command. -/
theorem commandOf_of_length {code n : Nat} (known : commandLength code = some n) (a : List Byte) :
    ∃ i, commandOf code a = some i := by
  unfold commandLength at known
  split at known
  case h_26 => cases known
  all_goals exact ⟨_, rfl⟩

section
variable {privilege : Privilege} {c : Parsed} {n : Nat}

theorem judgeParsed_unknown (unknown : commandLength c.code.toNat = none) :
    judgeParsed privilege c = .answered .unknown true := by
  rw [judgeParsed, unknown]

theorem judgeParsed_length (known : commandLength c.code.toNat = some n) (wrong : ∀ a, c.args = some a → a.length ≠ n) :
    judgeParsed privilege c = .answered .length true := by
  simp only [judgeParsed, known]
  split
  case h_1 => rfl
  case h_2 a args => rw [if_pos (wrong a args)]

theorem judgeParsed_denied {a : List Byte} (known : commandLength c.code.toNat = some n) (args : c.args = some a)
    (right : a.length = n) (denied : privilege = .read ∧ 5 ≤ c.code.toNat) :
    judgeParsed privilege c = .answered .denied false := by
  simp only [judgeParsed, known, args, right, ne_eq, not_true_eq_false, if_false, isWriteClass, decide_eq_true_eq]
  rw [if_pos denied]

theorem judgeParsed_executed {a : List Byte} (known : commandLength c.code.toNat = some n) (args : c.args = some a)
    (right : a.length = n) (allowed : ¬ (privilege = .read ∧ 5 ≤ c.code.toNat)) :
    ∃ i, commandOf c.code.toNat a = some i ∧ judgeParsed privilege c = .execute c.code.toNat i := by
  obtain ⟨i, spelt⟩ := commandOf_of_length known a
  refine ⟨i, spelt, ?_⟩
  simp only [judgeParsed, known, args, right, ne_eq, not_true_eq_false, if_false, isWriteClass, decide_eq_true_eq]
  rw [if_neg allowed, spelt]

end

/-! ### A frame settles (R199) -/

section
variable {e : Exec} {n : Nat}

theorem settleExec_past (left : e.left ≠ 0) (parsed : parseNext e.rest = none) :
    settleExec (n + 1) e = settleExec n (e.push ⟨0, if e.ended then .skipped else .length, []⟩ [] true) := by
  rw [settleExec, if_neg left, parsed]

theorem settleExec_skipped {c : Parsed} (left : e.left ≠ 0) (parsed : parseNext e.rest = some c) (ended : e.ended = true) :
    settleExec (n + 1) e = settleExec n (e.push ⟨c.code, .skipped, []⟩ c.rest true) := by
  rw [settleExec, if_neg left, parsed]
  exact if_pos ended

theorem settleExec_answered {c : Parsed} {st : Status} {ends : Bool} (left : e.left ≠ 0) (parsed : parseNext e.rest = some c)
    (goes : e.ended = false) (judged : judgeParsed e.frame.privilege c = .answered st ends) :
    settleExec (n + 1) e = settleExec n (e.push ⟨c.code, st, []⟩ c.rest ends) := by
  simp only [settleExec, left, parsed, goes, judged, if_false, Bool.false_eq_true]

theorem settleExec_executed {c : Parsed} {code : Nat} {i : Instr} (left : e.left ≠ 0) (parsed : parseNext e.rest = some c)
    (goes : e.ended = false) (judged : judgeParsed e.frame.privilege c = .execute code i) :
    settleExec (n + 1) e = e := by
  simp only [settleExec, left, parsed, goes, judged, if_false, Bool.false_eq_true]

/-- Every way a frame with a command left can go on: one more result, or the command that is to be executed. -/
theorem settleExec_succ (left : e.left ≠ 0) (n : Nat) :
    (∃ code i, nextCommand e = some (code, i) ∧ settleExec (n + 1) e = e) ∨
    ∃ r rest ended, settleExec (n + 1) e = settleExec n (e.push r rest ended) ∧
      (e.ended = true → ended = true ∧ r.status = .skipped ∧ r.data = []) := by
  cases parsed : parseNext e.rest with
  | none => exact .inr ⟨_, _, _, settleExec_past left parsed, fun ended => ⟨rfl, by rw [ended]; rfl, rfl⟩⟩
  | some c =>
    cases ended : e.ended with
    | true => exact .inr ⟨_, _, _, settleExec_skipped left parsed ended, fun _ => ⟨rfl, rfl, rfl⟩⟩
    | false =>
      cases judged : judgeParsed e.frame.privilege c with
      | answered st ends => exact .inr ⟨_, _, _, settleExec_answered left parsed ended judged, fun h => nomatch h⟩
      | execute code i =>
        refine .inl ⟨code, i, ?_, settleExec_executed left parsed ended judged⟩
        rw [nextCommand, if_neg (by rw [ended]; tauto), parsed]
        simp only [judged]

/-- One result a command, in order; what is left stands before a command to be executed. -/
theorem settleExec_spec (n : Nat) (e : Exec) (bound : e.left = n) :
    let d := settleExec n e
    d.results.length + d.left = e.results.length + e.left ∧ d.frame = e.frame ∧
      (d.left ≠ 0 → ∃ code c, nextCommand d = some (code, c)) ∧
      ∃ more, d.results = e.results ++ more ∧ (e.ended = true → d.left = 0 ∧ ∀ r ∈ more, r.status = .skipped ∧ r.data = []) := by
  induction n generalizing e with
  | zero => exact ⟨rfl, rfl, fun h => absurd bound h, [], (List.append_nil _).symm, fun _ => ⟨bound, by simp⟩⟩
  | succ n ih =>
    have left : e.left ≠ 0 := by omega
    rcases settleExec_succ left n with ⟨code, i, next, stays⟩ | ⟨r, rest, ended, goes, skipped⟩
    · rw [stays]
      refine ⟨rfl, rfl, fun _ => ⟨code, i, next⟩, [], (List.append_nil _).symm, fun ended => ?_⟩
      rw [nextCommand, if_pos (.inr ended)] at next
      cases next
    · obtain ⟨count, frame, next, more, results, rest_⟩ := ih (e.push r rest ended) (by simp only [Exec.push]; omega)
      rw [goes]
      have pushed : (e.push r rest ended).results = e.results ++ [r] := rfl
      have fewer : (e.push r rest ended).left = e.left - 1 := rfl
      rw [pushed, fewer, List.length_append, List.length_singleton] at count
      refine ⟨by omega, frame, next, r :: more, ?_, fun was => ?_⟩
      · rw [results, pushed, List.append_assoc, List.singleton_append]
      · obtain ⟨now, status, data⟩ := skipped was
        obtain ⟨none, all⟩ := rest_ now
        refine ⟨none, fun x mem => ?_⟩
        rcases List.mem_cons.mp mem with rfl | mem
        · exact ⟨status, data⟩
        · exact all x mem

end

/-! ### The answer is offered (R198, R200, R209) -/

section
variable {e : Exec} {s : State}

theorem push_left {n : Nat} (left : e.left = n + 1) (r : Result) (rest : List Byte) (ended : Bool) :
    e.push r rest ended = { e with rest := rest, left := n, results := e.results ++ [r], ended := ended } := by
  rw [Exec.push, left, Nat.add_sub_cancel]

/-- The agent free of its frame. -/
def State.answered (s : State) : State := { s with agent := { s.agent with exec := none } }

theorem resetPending_answered (p : Port) (u : PortUnit) :
    (s.answered.setPort p u).agent.resetPending = s.agent.resetPending := by
  rw [agent_setPort]
  rfl

theorem takePendingReset_none (stays : s.agent.resetPending = none) : takePendingReset s = s := by
  rw [takePendingReset, stays]

theorem finishFrame_eq : finishFrame e s =
    if (offerGeneral e.frame.port (.answer s.agent.resetPending.isSome) (udpUtxOffset e.frame.tag)
      (answerFrame s e.frame e.results) s.answered).2 then
      arbitrate e.frame.port (offerGeneral e.frame.port (.answer s.agent.resetPending.isSome) (udpUtxOffset e.frame.tag)
        (answerFrame s e.frame e.results) s.answered).1
    else takePendingReset (offerGeneral e.frame.port (.answer s.agent.resetPending.isSome) (udpUtxOffset e.frame.tag)
      (answerFrame s e.frame e.results) s.answered).1 := rfl

theorem finishFrame_taken (up : (s.port e.frame.port).up = true) (room : generalHeld (s.port e.frame.port) < 16) :
    finishFrame e s = arbitrate e.frame.port (s.answered.setPort e.frame.port { s.port e.frame.port with
      general := (s.port e.frame.port).general ++
        [{ tag := .answer s.agent.resetPending.isSome, header := udpUtxOffset e.frame.tag
           bytes := answerFrame s e.frame e.results, joined := s.clock.up }] }) := by
  have taken := offerGeneral_taken (s := s.answered) (tag := .answer s.agent.resetPending.isSome)
    (header := udpUtxOffset e.frame.tag) (bytes := answerFrame s e.frame e.results) up room
  rw [finishFrame_eq, taken]
  rfl

theorem finishFrame_dropped (full : (s.port e.frame.port).up = false ∨ 16 ≤ generalHeld (s.port e.frame.port)) :
    finishFrame e s = takePendingReset (s.answered.setPort e.frame.port { s.port e.frame.port with
      stats := { (s.port e.frame.port).stats with
        generalDrops := min 4294967295 ((s.port e.frame.port).stats.generalDrops + 1) } }) := by
  have refused := offerGeneral_refused (s := s.answered) (tag := .answer s.agent.resetPending.isSome)
    (header := udpUtxOffset e.frame.tag) (bytes := answerFrame s e.frame e.results) full
  rw [finishFrame_eq, refused]
  rfl

end

/-- Settles O47, sentence by sentence: arguments, answer, turn, result, and the frame as it settles. -/
theorem aCommandIsTakenInItsTurnAndGetsOneResult : Obligations.ACommandIsTakenInItsTurnAndGetsOneResult := by
  refine ⟨⟨rfl, rfl, rfl, rfl, rfl, rfl, rfl, rfl, fun n => ⟨rfl, rfl, rfl, rfl⟩, commandOf_readTable, fun _ _ => rfl,
      commandOf_setDate, commandOf_word, commandOf_barSource, fun index a fill => ?_, fun a fill => ?_, fun a fill => rfl,
      fun a fill => ?_, fun a fill => ?_, fun a fill => ?_, fun a fill => ?_⟩,
    answerFrame_eq, hasTurn_iff, fun code args c s => exec_of_not_turn,
    fun code t st data => ⟨deliver_alone, fun e c => deliver_in_frame⟩, fun e s => ?_, commandLength_eq,
    fun privilege c => ⟨judgeParsed_unknown, fun n known => ⟨judgeParsed_length known, fun a args right =>
      ⟨judgeParsed_denied known args right, judgeParsed_executed known args right⟩⟩⟩,
    fun rest => ⟨?_, ?_, ?_⟩, fun e n left => ⟨fun past => ?_, fun c parsed => ⟨fun ended => ?_, fun st ends goes judged => ?_,
      fun code i goes judged => ?_⟩⟩, fun e s => ⟨fun up room => ?_, fun full => ⟨?_, ?_, ?_, ?_⟩⟩⟩
  · exact congrArg (fun a => some (Instr.writeMatch index a)) (matchArgOf_bytes fill a)
  · exact congrArg (fun a => some (Instr.writePort a)) (portArgOf_bytes fill a)
  · exact congrArg (fun a => some (Instr.writeOverride a)) (overrideArgOf_bytes fill a)
  · exact congrArg (fun a => some (Instr.writePeer a)) (peerArgOf_bytes fill a)
  · exact congrArg (fun a => some (Instr.writeServo a)) (servoArgOf_bytes fill a)
  · exact congrArg (fun a => some (Instr.writeDrift a)) (driftArgOf_bytes fill a)
  · obtain ⟨count, frame, next, more, results, ended⟩ := settleExec_spec e.left e rfl
    exact ⟨rfl, count, ⟨more, results⟩, frame, next, fun was => ⟨(ended was).1, more, results, (ended was).2⟩⟩
  · rintro rfl; rfl
  · rintro code rfl; rfl
  · rintro code n more rfl; rfl
  · rw [settleExec_past (by omega) past, push_left left]
  · rw [settleExec_skipped (by omega) parsed ended, push_left left]
  · rw [settleExec_answered (by omega) parsed goes judged, push_left left]
  · exact settleExec_executed (by omega) parsed goes judged
  · rw [finishFrame_taken up room]
    cases e.frame.tag <;> rfl
  · intro stays
    rw [finishFrame_dropped full, takePendingReset_none ((resetPending_answered ..).trans stays)]
    rfl
  · intro reset
    rw [finishFrame_dropped full, takePendingReset_of ((resetPending_answered ..).trans reset)]
    rfl
  · intro reset
    rw [finishFrame_dropped full, takePendingReset_of ((resetPending_answered ..).trans reset)]
    rfl
  · intro reset
    rw [finishFrame_dropped full, takePendingReset_of ((resetPending_answered ..).trans reset)]
    rfl

end Sys2Proof.Machine
end

section
/-! The read commands and LOG_TAKE: what they return, byte by byte, and what a take removes (sections 8.3, 8.4, 11.2, 12.1 to
12.4). -/

namespace Sys2Proof.Machine

/-! ### Room and blocks (R200) -/

theorem dataRoom_frame {s : State} {e : Exec} (frame : s.agent.exec = some e) :
    dataRoom s = 1472 - (12 + 5 + 4 * e.frame.count + (e.results.map (fun x => x.data.length)).sum) := by
  rw [dataRoom, frame]
  exact Nat.sub_sub ..

theorem dataRoom_alone {s : State} (alone : s.agent.exec = none) : dataRoom s = 1472 - (12 + 5 + 4) := by
  rw [dataRoom, alone]
  rfl

theorem block_whole {data : State → List Byte} {room : Nat} {s : State} (fits : (data s).length ≤ room) :
    Meaning.block data room s = (s, .done, data s) := if_pos fits

theorem block_truncated {data : State → List Byte} {room : Nat} {s : State} (long : room < (data s).length) :
    Meaning.block data room s = (s, .truncated, []) := if_neg (Nat.not_le_of_lt long)

/-! ### READ_TABLE (R203) -/

/-- The entries that fit are the longest row of leading ones that does. -/
theorem fitting_spec (room : Nat) (l : List (List Byte)) : ∃ n, n ≤ l.length ∧ fitting room l = l.take n ∧
    (l.take n).flatten.length ≤ room ∧ (n < l.length → room < (l.take (n + 1)).flatten.length) := by
  induction l generalizing room with
  | nil => exact ⟨0, le_rfl, rfl, Nat.zero_le _, fun h => absurd h (Nat.not_lt_zero 0)⟩
  | cons e rest ih =>
    by_cases fits : e.length ≤ room
    · obtain ⟨n, within, row, held, full⟩ := ih (room - e.length)
      refine ⟨n + 1, Nat.succ_le_succ within, ?_, ?_, fun more => ?_⟩
      · rw [fitting, if_pos fits, row, List.take_succ_cons]
      · rw [List.take_succ_cons, List.flatten_cons, List.length_append]
        omega
      · have := full (Nat.lt_of_succ_lt_succ more)
        rw [List.take_succ_cons, List.flatten_cons, List.length_append]
        omega
    · refine ⟨0, Nat.zero_le _, by rw [fitting, if_neg fits, List.take_zero], Nat.zero_le _, fun _ => ?_⟩
      simpa using fits

theorem tableData_held {s : State} {code first room : Nat} {out : List (List Byte)} (held : 8 ≤ room) :
    tableData s code first room out = tableHeader s code first out.length ++ out.flatten := if_neg (Nat.not_lt.mpr held)

theorem tableData_none {s : State} {code first room : Nat} {out : List (List Byte)} (short : room < 8) :
    tableData s code first room out = [] := if_pos short

theorem tableData_empty (s : State) (code first room : Nat) :
    tableData s code first room [] =
      if 8 ≤ room then tableHeader s code first 0 ++ ([] : List (List Byte)).flatten else [] := by
  split
  case isTrue held => exact tableData_held held
  case isFalse short => exact tableData_none (Nat.lt_of_not_le short)

theorem tableOf_live {s : State} {code : Nat} (low : code < 16) : tableOf s code = liveTable s code := by
  have live : isFrozenCode code = false := by
    rw [isFrozenCode, decide_eq_false (by omega), Bool.false_and]
  rw [tableOf, live, if_neg Bool.false_ne_true]

theorem tableOf_frozen {s : State} {code : Nat} (low : 16 ≤ code) (high : code ≤ 20) :
    tableOf s code = s.frozen.bind (fun v => frozenTable v code) := by
  have frozen : isFrozenCode code = true := by
    rw [isFrozenCode, decide_eq_true low, decide_eq_true high, Bool.and_self]
  rw [tableOf, frozen, if_pos rfl]

/-- A code with a number of entries is that of a live or of a frozen table. -/
theorem code_of_tableSize {code size : Nat} (known : tableSize code = some size) : code ≤ 20 := by
  unfold tableSize at known
  split at known
  case h_18 => cases known
  all_goals decide

theorem length_liveTable (s : State) {code size : Nat} (known : tableSize code = some size) (low : code < 16) :
    ∃ entries, liveTable s code = some entries ∧ entries.length = size := by
  unfold tableSize at known
  split at known
  all_goals cases known
  case h_13 | h_14 | h_15 | h_16 | h_17 => exact absurd low (by decide)
  all_goals exact ⟨_, rfl, by simp [allPorts]⟩

theorem length_frozenTable (v : Frozen) {code size : Nat} (known : tableSize code = some size) (high : 16 ≤ code) :
    ∃ entries, frozenTable v code = some entries ∧ entries.length = size := by
  unfold tableSize at known
  split at known
  all_goals cases known
  case h_13 | h_14 | h_15 | h_16 | h_17 => exact ⟨_, rfl, by simp [allPorts]⟩
  all_goals exact absurd high (by decide)

/-- A table that has its entries: a live one, or a frozen one while FROZEN. -/
theorem length_tableOf {s : State} {code size : Nat} (known : tableSize code = some size)
    (there : code < 16 ∨ s.frozen ≠ none) : ∃ entries, tableOf s code = some entries ∧ entries.length = size := by
  rcases Nat.lt_or_ge code 16 with low | high
  · rw [tableOf_live low]
    exact length_liveTable s known low
  · obtain ⟨v, frozen⟩ := Option.ne_none_iff_exists'.mp (there.resolve_left (Nat.not_lt.mpr high))
    rw [tableOf_frozen high (code_of_tableSize known), frozen]
    exact length_frozenTable v known high

section
variable {table : Byte} {first count : BitVec 16} {s : State}

theorem exec_readTable (turn : hasTurn 3 (.readTable table first count) s = true) :
    exec (.readTable table first count) s = .next (deliver 3
      (s, readTableData table.toNat first.toNat count.toNat (dataRoom s) s)) :=
  congrArg _ (runCommand_of_hasTurn turn _)

theorem readTableData_unknown {code f n room : Nat} (unknown : tableSize code = none) :
    readTableData code f n room s = (.range, tableData s code f room []) := by
  rw [readTableData, unknown]

theorem readTableData_beyond {code f n room size : Nat} (known : tableSize code = some size) (beyond : size ≤ f) :
    readTableData code f n room s = (.range, tableData s code f room []) := by
  simp only [readTableData, known, if_pos beyond]

theorem readTableData_live {code f n room size : Nat} (known : tableSize code = some size) (inside : f < size)
    (high : 16 ≤ code) (live : s.frozen = none) : readTableData code f n room s = (.state, []) := by
  have none : tableOf s code = Option.none := by rw [tableOf_frozen high (code_of_tableSize known), live]; rfl
  simp only [readTableData, known, if_neg (Nat.not_le_of_lt inside), none]

theorem readTableData_entries {code f n room size : Nat} {entries : List (List Byte)} (known : tableSize code = some size)
    (inside : f < size) (there : tableOf s code = some entries) : readTableData code f n room s =
      (let out := if room < 8 then [] else fitting (room - 8) ((entries.drop f).take n)
       (if out.length < n then .truncated else .done, tableData s code f room out)) := by
  simp only [readTableData, known, if_neg (Nat.not_le_of_lt inside), there]

end

/-- The header of a table's answer (section 12.1, R214). -/
theorem tableHeader_eq (s : State) (code first n : Nat) :
    let frozen := 16 ≤ code ∧ code ≤ 20 ∧ s.frozen ≠ none
    let banks := code = 3 ∨ code = 4
    ∃ mark bank swap : Byte, tableHeader s code first n = be 1 code ++ beSat 2 first ++ beSat 2 n ++ [mark, bank, swap] ∧
      mark = (if frozen then 1 else 0) ∧ bank = (if banks ∧ s.matchTab.active = true then 1 else 0) ∧
      (¬ (banks ∧ s.matchTab.armed = true) → swap = 0) := by
  intro frozen banks
  have is_frozen : (isFrozenCode code && s.frozen.isSome) = decide frozen := by
    rw [Bool.eq_iff_iff, isFrozenCode, Bool.and_eq_true, Bool.and_eq_true, decide_eq_true_eq, decide_eq_true_eq,
      decide_eq_true_eq, and_assoc, Option.isSome_iff_ne_none]
  have is_bank : (code == 3 || code == 4) = decide banks := by
    rw [Bool.eq_iff_iff, Bool.or_eq_true, beq_iff_eq, beq_iff_eq, decide_eq_true_eq]
  have header : tableHeader s code first n = be 1 code ++ beSat 2 first ++ beSat 2 n ++ flag (decide frozen) ++
      (if decide banks = true then flag s.matchTab.active else be 1 0) ++
      (if decide banks = true then swapByte s.matchTab.armed else be 1 0) := by
    rw [← is_frozen, ← is_bank]
    rfl
  refine ⟨if frozen then 1 else 0, if banks ∧ s.matchTab.active = true then 1 else 0,
    if banks ∧ s.matchTab.armed = true then Config.openCode .swapArmed else 0, ?_, rfl, rfl, fun h => if_neg h⟩
  have mark : flag (decide frozen) = [if frozen then 1 else 0] := by
    by_cases is : frozen <;> simp only [is, flag, decide_true, decide_false, Bool.false_eq_true, if_true, if_false]
  have bank : (if decide banks = true then flag s.matchTab.active else be 1 0) =
      [if banks ∧ s.matchTab.active = true then 1 else 0] := by
    by_cases is : banks <;> simp [is, flag]
  have swap : (if decide banks = true then swapByte s.matchTab.armed else be 1 0) =
      [if banks ∧ s.matchTab.armed = true then Config.openCode .swapArmed else 0] := by
    by_cases is : banks <;> cases s.matchTab.armed <;> simp [is, swapByte, openByte]
  rw [header, mark, bank, swap, List.append_assoc, List.append_assoc]
  rfl

/-! ### LOG_TAKE (R149) -/

section
variable {n : Byte} {s : State} {room : Nat}

theorem exec_logTake (turn : hasTurn 5 (.logTake n) s = true) :
    exec (.logTake n) s = .next (deliver 5 (logTakeMeaning n (dataRoom s) s)) :=
  congrArg _ (runCommand_of_hasTurn turn _)

theorem toNat_ne_zero {b : Byte} (h : b ≠ 0) : b.toNat ≠ 0 := fun zero => h (BitVec.eq_of_toNat_eq zero)

theorem logTake_zero (zero : n = 0) : logTakeMeaning n room s = (s, .range, []) := by
  simp only [logTakeMeaning, zero]
  rfl

theorem logTake_testing (some_ : n ≠ 0) {start : Nat} (mem : s.log.mem = .testing start) :
    logTakeMeaning n room s = (s, .busy, []) := by
  simp only [logTakeMeaning, toNat_ne_zero some_, mem, if_false]

theorem logTake_failed (some_ : n ≠ 0) (mem : s.log.mem = .failed) :
    logTakeMeaning n room s = (s, doneOr (decide (40 < n.toNat)), takenData room []) := by
  simp only [logTakeMeaning, toNat_ne_zero some_, mem, if_false]

theorem logTake_inService (some_ : n ≠ 0) (mem : s.log.mem = .inService) : logTakeMeaning n room s =
    (let out := s.log.records.take (min (min n.toNat 40) ((room - 1) / 32))
     (removeRecords out.length s,
       if out.length < min n.toNat 40 then .truncated else doneOr (decide (40 < n.toNat)), takenData room out)) := by
  simp only [logTakeMeaning, toNat_ne_zero some_, mem, if_false]

theorem doneOr_decide (p : Prop) [Decidable p] : doneOr (decide p) = if p then .clamped else .done := by
  by_cases is : p <;> simp only [is, doneOr, decide_true, decide_false, Bool.false_eq_true, if_true, if_false]

/-- Exactly the records returned are removed, and the notice is re-armed below half the threshold. -/
theorem removeRecords_length (out : List LogRecord) (s : State) : removeRecords out.length s =
    if out = [] then s else { s with log := { s.log with
      records := s.log.records.drop out.length
      noticeSent := s.log.noticeSent && !decide (2 * (s.log.records.drop out.length).length < s.cfg.logThreshold) } } := by
  simp only [removeRecords, List.length_eq_zero_iff]
  rfl

theorem takenData_held {out : List LogRecord} (held : 0 < room) (few : out.length ≤ 40) :
    takenData room out = BitVec.ofNat 8 out.length :: out.flatMap recordBytes := by
  rw [takenData, if_neg held.ne', beSat, min_eq_left (by omega)]
  rfl

end

/-! ### Fields of the layouts (sections 12.3 and 12.4) -/

theorem beInt_eq (n : Nat) (v : Int) :
    beInt n v = be n (max (-(2 ^ (8 * n - 1))) (min (2 ^ (8 * n - 1) - 1) v) % 256 ^ n).toNat := by
  rw [beInt, clampInt]
  push_cast
  rfl

/-- The commands that return a fixed block. -/
theorem exec_block {code : Nat} {c : Instr} {block : State → List Byte} {s : State}
    (command : (code, c, block) ∈
      [(1, Instr.identify, identifyBlock), (2, .readClock, clockStatus), (4, .logStatus, logStatusBlock)])
    (turn : hasTurn code c s = true) : exec c s = .next (deliver code (Meaning.block block (dataRoom s) s)) := by
  rw [List.mem_cons, List.mem_cons, List.mem_singleton, Prod.mk.injEq, Prod.mk.injEq, Prod.mk.injEq, Prod.mk.injEq,
    Prod.mk.injEq, Prod.mk.injEq] at command
  have of_row (row : exec c s = .next (runCommand code c (Meaning.block block) s)) :
      exec c s = .next (deliver code (Meaning.block block (dataRoom s) s)) :=
    row.trans (congrArg Host.Outcome.next (runCommand_of_hasTurn turn (Meaning.block block)))
  apply of_row
  rcases command with ⟨number, instr, bytes⟩ | ⟨number, instr, bytes⟩ | ⟨number, instr, bytes⟩
  all_goals
    subst number instr bytes
    rfl

/-- READ_TABLE in its turn: the statuses and the data (R203, R157). -/
theorem readTable_does (table : Byte) (first count : BitVec 16) (s : State)
    (turn : hasTurn 3 (.readTable table first count) s = true) :
    let c : Instr := .readTable table first count
    let data := fun (entries : List (List Byte)) =>
      if 8 ≤ dataRoom s then tableHeader s table.toNat first.toNat entries.length ++ entries.flatten else []
    (tableSize table.toNat = none → exec c s = .next (deliver 3 (s, .range, data []))) ∧
    (∀ size, tableSize table.toNat = some size →
      (size ≤ first.toNat → exec c s = .next (deliver 3 (s, .range, data []))) ∧
      (first.toNat < size → 16 ≤ table.toNat → s.frozen = none → exec c s = .next (deliver 3 (s, .state, []))) ∧
      (first.toNat < size → table.toNat < 16 ∨ s.frozen ≠ none →
        ∃ entries, tableOf s table.toNat = some entries ∧ entries.length = size ∧
          (8 ≤ dataRoom s →
            let asked := (entries.drop first.toNat).take count.toNat
            ∃ n, n ≤ asked.length ∧ 8 + (asked.take n).flatten.length ≤ dataRoom s ∧
              (n < asked.length → dataRoom s < 8 + (asked.take (n + 1)).flatten.length) ∧
              exec c s = .next (deliver 3 (s, if n < count.toNat then .truncated else .done, data (asked.take n)))) ∧
          (dataRoom s < 8 → exec c s = .next (deliver 3 (s, if count = 0 then .done else .truncated, []))))) := by
  intro c data
  have does : exec c s = .next (deliver 3 (s, readTableData table.toNat first.toNat count.toNat (dataRoom s) s)) :=
    exec_readTable turn
  rw [does]
  refine ⟨fun unknown => ?_, fun size known => ⟨fun beyond => ?_, fun inside high live => ?_, fun inside there => ?_⟩⟩
  · rw [readTableData_unknown unknown, tableData_empty]; rfl
  · rw [readTableData_beyond known beyond, tableData_empty]; rfl
  · rw [readTableData_live known inside high live]
  · obtain ⟨entries, table_, length⟩ := length_tableOf known there
    refine ⟨entries, table_, length, fun held => ?_, fun short => ?_⟩
    · intro asked
      obtain ⟨n, within, row, fits, full⟩ := fitting_spec (dataRoom s - 8) asked
      refine ⟨n, within, by omega, fun more => by have := full more; omega, ?_⟩
      have len : (asked.take n).length = n := by rw [List.length_take]; omega
      have out : readTableData table.toNat first.toNat count.toNat (dataRoom s) s =
          (if n < count.toNat then .truncated else .done, data (asked.take n)) := by
        rw [readTableData_entries known inside table_]
        simp only [if_neg (Nat.not_lt.mpr held), asked] at row ⊢
        rw [row, len, tableData_held held]
        exact congrArg _ (if_pos held).symm
      rw [out]
    · have none : (0 < count.toNat) = ¬ count = 0 := by
        rw [← BitVec.toNat_inj, Nat.pos_iff_ne_zero]
        rfl
      rw [readTableData_entries known inside table_]
      simp only [if_pos short, tableData_none short, List.length_nil, none, ite_not]

/-- LOG_TAKE in its turn (R149). -/
theorem logTake_does (n : Byte) (s : State) (turn : hasTurn 5 (.logTake n) s = true) :
    let want := min n.toNat 40
    let done_ : Status := if 40 < n.toNat then .clamped else .done
    let out := s.log.records.take (min want ((dataRoom s - 1) / 32))
    let left := s.log.records.drop out.length
    (n = 0 → exec (.logTake n) s = .next (deliver 5 (s, .range, []))) ∧
    (n ≠ 0 → (∃ start, s.log.mem = .testing start) → exec (.logTake n) s = .next (deliver 5 (s, .busy, []))) ∧
    (n ≠ 0 → s.log.mem = .failed → dataRoom s = 0 → exec (.logTake n) s = .next (deliver 5 (s, done_, []))) ∧
    (n ≠ 0 → s.log.mem = .inService → dataRoom s = 0 → exec (.logTake n) s = .next (deliver 5 (s, .truncated, []))) ∧
    (n ≠ 0 → s.log.mem = .failed → 0 < dataRoom s → exec (.logTake n) s = .next (deliver 5 (s, done_, [0]))) ∧
    (n ≠ 0 → s.log.mem = .inService → 0 < dataRoom s → exec (.logTake n) s = .next (deliver 5
      (if out = [] then s else { s with log := { s.log with
          records := left
          noticeSent := s.log.noticeSent && !decide (2 * left.length < s.cfg.logThreshold) } },
        if out.length < want then .truncated else done_,
        BitVec.ofNat 8 out.length :: out.flatMap recordBytes))) := by
  intro want done_ out left
  rw [exec_logTake turn]
  refine ⟨fun zero => ?_, fun some_ ⟨start, mem⟩ => ?_, fun some_ mem none => ?_, fun some_ mem none => ?_,
    fun some_ mem held => ?_, fun some_ mem held => ?_⟩
  · rw [logTake_zero zero]
  · rw [logTake_testing some_ mem]
  · rw [logTake_failed some_ mem, none, doneOr_decide]; rfl
  · have asked : 0 < min n.toNat 40 := by have := toNat_ne_zero some_; omega
    rw [logTake_inService some_ mem, none]
    simp only [Nat.zero_sub, Nat.zero_div, Nat.min_zero, List.take_zero, List.length_nil, if_pos asked]
    rfl
  · rw [logTake_failed some_ mem, takenData_held held (Nat.zero_le _), doneOr_decide]; rfl
  · rw [logTake_inService some_ mem, doneOr_decide]
    dsimp only
    rw [removeRecords_length, takenData_held held (by rw [List.length_take]; omega)]

theorem length_snBytes? (d : Option SN) : (snBytes? d).length = 10 := length_snBytes _

theorem length_identifyBlock (s : State) : (identifyBlock s).length = 35 := by
  simp only [identifyBlock, List.length_append, length_be, length_beBits, length_beSat, length_flag, List.length_singleton]

theorem length_clockStatus (s : State) : (clockStatus s).length = 72 := by
  simp only [clockStatus, clockPart, servoPart, List.length_append, length_be, length_beInt, length_beSat, length_flag,
    length_snBytes?]

theorem length_triggerBytes (t : Trigger) : (triggerBytes t).length = 2 := by cases t <;> rfl

theorem length_logStatusBlock (s : State) : (logStatusBlock s).length = 24 := by
  simp only [logStatusBlock, List.length_append, length_be, length_beSat, length_flag]
  cases s.frozen <;> simp only [List.length_append, length_triggerBytes, length_beSat, length_be]

theorem length_recBodyBytes (b : RecBody) : (recBodyBytes b).length = 16 := by
  cases b <;> simp only [recBodyBytes, offsetBytes, List.length_append, length_be, length_beInt, length_beBits, length_beSat,
    length_flag, length_slice, length_triggerBytes]

theorem length_recordBytes (r : LogRecord) : (recordBytes r).length = 32 := by
  simp only [recordBytes, List.length_append, length_be, length_beSat, length_recBodyBytes]

theorem recordBytes_eq (r : LogRecord) : recordBytes r = be 1 (recKindCode r.body * 32 + recFlags r.body) ++
    be 1 (r.cls * 32 + (if r.port.isNone then 16 else 0) + r.domain) ++ be 4 r.seq ++ beSat 6 r.date.s ++
    be 4 ((r.port.map portCode).getD 0 * 1073741824 + r.date.n) ++ recBodyBytes r.body := by
  rw [recordBytes]
  cases r.port <;> rfl

/-- An offset that does not fit is saturated to ±2,147,483,647. -/
theorem offsetBytes_eq (offset : Int) :
    offsetBytes offset = beInt 4 (if offset < -2147483648 then -2147483647 else offset) := by
  rw [offsetBytes]
  split
  case isTrue fits => rw [if_neg (by omega)]
  case isFalse far =>
    split
    case isTrue low =>
      have least : clampInt (-2147483647) 2147483647 offset = -2147483647 := by rw [clampInt]; omega
      rw [least]
    case isFalse high =>
      have most : clampInt (-2147483647) 2147483647 offset = 2147483647 := by rw [clampInt]; omega
      have alike : clampInt (-(2 ^ (8 * 4 - 1) : Nat)) ((2 ^ (8 * 4 - 1) : Nat) - 1) 2147483647 =
          clampInt (-(2 ^ (8 * 4 - 1) : Nat)) ((2 ^ (8 * 4 - 1) : Nat) - 1) offset := by
        simp only [clampInt]
        omega
      rw [most, beInt, beInt, alike]

/-- The rows of a fault table are those of the kinds in the order of their indices. -/
theorem map_faultEntryAt (up : Nat) (u : FaultUnit) (responses : Vector Response 9) :
    (List.range 9).map (faultEntryAt up u responses) =
      faultKinds.map (fun k => faultEntry up u.recs[k.ix] responses[k.ix] u.forms[k.ix.castSucc]) := rfl

theorem flatten_flatMap {α : Type} (f : α → List (List Byte)) (l : List α) :
    (l.flatMap f).flatten = l.flatMap (fun x => (f x).flatten) := by
  induction l with
  | nil => rfl
  | cons x l ih => rw [List.flatMap_cons, List.flatten_append, ih, List.flatMap_cons]

theorem getD_inside {α : Type} {n i : Nat} (inside : i < n) (v : Vector α n) (d : α) : v.getD i d = v[i] := by
  simp [Vector.getD, inside]

/-- Settles O48: the reads and the take by the lemmas above; of the layouts, each field as the model writes it, then blocks,
records and tables row by row. -/
theorem readsChangeNothingAndATakeRemovesWhatItReturns : Obligations.ReadsChangeNothingAndATakeRemovesWhatItReturns := by
  refine ⟨fun code c block command s turn => ?_, fun s => ⟨fun e => dataRoom_frame, dataRoom_alone⟩, readTable_does,
    tableHeader_eq, fun n v => ⟨length_be .., natAt_be .., rfl⟩, fun n v _ => beInt_eq n v, ?_, logTake_does⟩
  · exact ⟨fun fits => by rw [exec_block command turn, block_whole fits],
      fun long => by rw [exec_block command turn, block_truncated long]⟩
  · intro laid num bit code date seconds ms port servo trigger subject stats entry source peer fault
    have bits (b : Bool) : flag b = bit b := by cases b <;> rfl
    have weigh (b : Bool) (k : Nat) : (if b = true then k else 0) = k * num b := by cases b <;> simp [num]
    have ports (p : Port) : portCode p = port p := by cases p <;> rfl
    have servos (st : ServoState) : servoCode st = servo st := by cases st <;> rfl
    have dates (t : Option SN) : snBytes? t = (date t).flatten := by cases t <;> rfl
    have triggers (t : Trigger) : triggerBytes t = (trigger t).flatten := by cases t <;> rfl
    have subjects (x : Option Subject) : subjectBytes (x.getD .self) = (subject x).flatten := by
      rcases x with _ | (_ | p | rack) <;> rfl
    have uptimes (s : State) : beSat 4 s.upSeconds = seconds s.clock.up := by
      simp only [State.upSeconds, secondsOf, beSat, seconds, Config.max32, Config.periodsPerSec]
      rw [min_assoc]
      rfl
    refine ⟨fun s => ⟨length_identifyBlock s, length_clockStatus s, length_logStatusBlock s, ?_, ?_, ?_⟩, fun r => ?_,
      fun s => ?_⟩
    · simp only [identifyBlock, laid, bits, beBits, uptimes, List.flatten_cons, List.flatten_nil, List.append_assoc,
        List.append_nil]
      rfl
    · simp only [clockStatus, clockPart, servoPart, laid, bits, dates, servos, uptimes, List.flatten_append,
        List.flatten_cons, List.flatten_nil, List.append_assoc, List.append_nil]
      rfl
    · have oldest : s.log.oldestSeq = (s.log.records.head?.map (fun r => r.seq)).getD s.log.nextSeq := by
        rw [EventLog.oldestSeq]
        cases s.log.records <;> rfl
      simp only [logStatusBlock, laid, bits, oldest, triggers, List.flatten_append, List.flatten_cons, List.flatten_nil,
        List.append_assoc, List.append_nil]
      cases s.frozen <;>
        simp only [List.flatten_append, List.flatten_cons, List.flatten_nil, List.append_assoc, List.append_nil] <;> rfl
    · intro form
      refine ⟨length_recordBytes r, ?_⟩
      have head : recKindCode r.body * 32 + recFlags r.body = 32 * form.1 + form.2.1 := by
        obtain ⟨seq, p, domain, cls, when_, body⟩ := r
        cases body with
        | stamp => simp only [form, recKindCode, recFlags, weigh, Nat.zero_mul, Nat.mul_zero, Nat.one_mul]
        | source old new reason =>
          simp only [form, recKindCode, recFlags, weigh, Nat.reduceMul]
          cases reason <;> rfl
        | _ => simp only [form, recKindCode, recFlags, Nat.reduceMul]
      have tail : recBodyBytes r.body = form.2.2 := by
        obtain ⟨seq, p, domain, cls, when_, body⟩ := r
        cases body with
        | stamp key len lane up =>
          simp only [form, recBodyBytes, laid, slice_eq_map, weigh, Nat.one_mul, Nat.zero_add, List.flatten_cons,
            List.flatten_nil, List.append_assoc, List.append_nil]
        | drift peer clear vote offset drift =>
          simp only [form, recBodyBytes, laid, bits, offsetBytes_eq, beBits, List.flatten_cons, List.flatten_nil,
            List.append_assoc, List.append_nil]
          cases vote <;> rfl
        | freeze released t =>
          simp only [form, recBodyBytes, laid, bits, triggers, List.flatten_append, List.flatten_cons, List.flatten_nil,
            List.append_assoc, List.append_nil]
        | _ =>
          simp only [form, recBodyBytes, laid, bits, servos, beBits, List.flatten_cons, List.flatten_nil, List.append_assoc,
            List.append_nil]
      clear_value form
      rw [recordBytes_eq, head, tail, weigh, Nat.mul_comm r.cls, funext ports]
      simp only [laid, List.flatten_cons, List.flatten_nil, List.append_assoc, List.append_nil]
    · intro all
      have counts (t : Stats) : statsBytes t = stats t := by
        simp only [statsBytes, stats, laid, List.flatten_cons, List.flatten_nil, List.append_assoc, List.append_nil]
      have entries (e : MatchEntry) : matchBytes e = entry e := by
        have sets : portSetCode e.ports = num e.ports.u0 + 2 * num e.ports.u1 + 4 * num e.ports.d0 + 8 * num e.ports.d1 := by
          simp only [portSetCode, weigh, Nat.one_mul]
        simp only [matchBytes, entry, laid, bits, sets, beBits, List.flatten_cons, List.flatten_nil, List.append_assoc,
          List.append_nil]
        cases e.action <;> cases e.vlanKind <;> cases e.logMode <;> rfl
      have sources (up : Nat) (x : Option SourceEntry) : sourceEntryBytes up x = source up x := by
        cases x with
        | none => rfl
        | some e =>
          simp only [sourceEntryBytes, source, laid, bits, ports, beBits, List.flatten_cons, List.flatten_nil,
            List.append_assoc, List.append_nil]
          cases e.st <;> rfl
      have peers (up : Nat) (c : PeerCfg) (d : PeerDyn) : peerEntry up c d = peer up c d := by
        have samples : d.window.flatMap sampleBytes =
            (d.window.flatMap (fun x => date (some x.t4) ++ [beInt 4 x.phi, beInt 8 x.delta])).flatten := by
          rw [flatten_flatMap]
          rfl
        simp only [peerEntry, peerExchange, peerFigures, peer, laid, bits, dates, samples, beBits,
          funext ports, List.flatten_append, List.flatten_cons, List.flatten_nil, List.append_assoc, List.append_nil]
        cases d.st <;> cases d.reported <;> rfl
      have faults (up : Nat) (r : FaultRec) (response : Response) (f : FormState) :
          faultEntry up r response f = fault up r response f := by
        simp only [faultEntry, fault, laid, bits, subjects, holdoffBytes, List.flatten_append, List.flatten_cons,
          List.flatten_nil, List.append_assoc, List.append_nil]
        rfl
      refine ⟨?_, ?_, ?_, ?_, ?_, ?_, ?_, ?_, ?_, ?_, ?_, ?_, fun v frozen => ⟨?_, ?_, ?_, ?_, ?_⟩⟩
      · rw [tableOf_live (by decide)]
        refine congrArg some (List.map_congr_left fun p _ => ?_)
        simp only [portEntry, laid, bits, beBits, occupancyBytes, bufferOccupancy, bufferHeld, timingHeld, generalHeld,
          leavingBytes, leavingFrom, List.flatten_append, List.flatten_cons, List.flatten_nil, List.append_assoc,
          List.append_nil]
        rcases (s.port p).tx with _ | ⟨origin, body, egress, half⟩
        · rfl
        · cases origin <;> rfl
      · rw [tableOf_live (by decide)]
        exact congrArg some (List.map_congr_left fun p _ => counts _)
      · rw [tableOf_live (by decide)]
        exact congrArg some (List.map_congr_left fun e _ => entries e)
      · rw [tableOf_live (by decide)]
        exact congrArg some (List.map_congr_left fun e _ => entries e)
      · rw [tableOf_live (by decide)]
        refine congrArg some (List.map_congr_left (l := [Lane.a, .b]) (f := laneEntry s) fun l _ => ?_)
        simp only [laneEntry, laid, dates, List.flatten_append, List.flatten_cons, List.flatten_nil, List.append_assoc,
          List.append_nil]
        rcases (s.lane l).outcome with _ | _ | _ | _ | _ <;> rfl
      · rw [tableOf_live (by decide)]
        refine congrArg some (List.map_congr_left (l := [Lane.a, .b]) (f := fun l => echoEntry (s.echo.get l)) fun l _ => ?_)
        simp only [echoEntry, laid, bits, dates, List.flatten_append, List.flatten_cons, List.flatten_nil,
          List.append_assoc, List.append_nil]
        rfl
      · rw [tableOf_live (by decide)]
        refine congrArg some (List.map_congr_left fun o _ => ?_)
        simp only [overrideEntry, laid, bits, ports, beBits, List.flatten_cons, List.flatten_nil, List.append_assoc,
          List.append_nil]
      · rw [tableOf_live (by decide)]
        exact congrArg some (List.map_congr_left fun x _ => sources _ x)
      · rw [tableOf_live (by decide)]
        exact congrArg some (List.map_congr_left fun i _ => peers _ _ _)
      · rw [tableOf_live (by decide)]
        refine congrArg (fun row => some [row]) ?_
        simp only [verdictEntry, laid, bits, List.flatten_cons, List.flatten_nil, List.append_assoc, List.append_nil]
        rfl
      · rw [tableOf_live (by decide)]
        exact congrArg some ((map_faultEntryAt ..).trans (List.map_congr_left fun k _ => faults _ _ _ _))
      · rw [tableOf_live (by decide)]
        refine congrArg (fun row => some [row]) ?_
        simp only [alertEntry, laid, bits, beBits, List.flatten_cons, List.flatten_nil, List.append_assoc, List.append_nil]
        rfl
      all_goals rw [tableOf_frozen (by decide) (by decide), frozen]
      · rfl
      · exact congrArg some (List.map_congr_left fun x _ => sources _ x)
      · refine congrArg some (List.ext_getElem (by simp) fun i h _ => ?_)
        have inside : i < 32 := by simpa using h
        rw [List.getElem_map, List.getElem_map, List.getElem_range, List.getElem_finRange, peers, getD_inside inside,
          getD_inside inside]
        rfl
      · exact congrArg some (List.map_congr_left fun p _ => counts _)
      · exact congrArg some ((map_faultEntryAt ..).trans (List.map_congr_left fun k _ => faults _ _ _ _))

end Sys2Proof.Machine
end
